-- ==== Sys2Proof/Word.lean ====
section
/-! DEFINITION. The word types of the model: bytes, 32-bit register words, and the sparse maps in which memories and
register files are held. -/

namespace Sys2Proof

/-- One byte of memory. -/
abbrev Byte := BitVec 8
/-- One 32-bit register, FP32 value or token. -/
abbrev Word := BitVec 32
/-- Sparse data by key: the entries that differ from the default, keys strictly rising. -/
abbrev SMap (α : Type) := List (Nat × α)
/-- A memory: bytes by address. -/
abbrev Mem := SMap Byte

end Sys2Proof
end

