-- ==== Sys2Proof/Syntax.lean ====
section
/-! DEFINITION. The commands of the block: one constructor per row of the spec's table of operations and events, with
the operands that come from outside the package or that the event itself determines (95_what_each_step_holds.md). -/

namespace Sys2Proof

/-- Who writes or reads BAR0 (R15, R454): the root of trust, the management core, the host, or a master that is never
privileged (a tile controller, a dispatcher core). -/
inductive Master where
  | rot | mgmt | host | other
  deriving DecidableEq, Repr

/-- A counter block: the hub's or a tile's (R465). -/
inductive PmcBlock where
  | hub
  | tile (n : Fin 32)
  deriving DecidableEq, Repr

/-- A Stitch unit: STC0 to STC3 of the hub, or a tile's (R471). -/
inductive StcUnit where
  | hub (u : Fin 4)
  | tile (n : Fin 32)
  deriving DecidableEq, Repr

/-- The serving-block sets of R451 whose boundary falls 1 ms after the earliest pending write. -/
inductive SrvSet where
  | group (g : Fin 4)
  | ctrl
  deriving DecidableEq, Repr

/-- The fatal causes that the package detects by itself and that no other row of the table names (R483): an uncorrectable error in hub
memory, a crossbar protocol error, an internal fault of the root of trust. -/
inductive FatalCause where
  | hubUe | xbar | rot
  deriving DecidableEq, Repr

/-- Where and when an instruction of a stream issues: its tile, its index within the half of the instruction store, and
its pass cycle (R111, R127, R156). -/
structure Issue where
  tile : Fin 32
  idx : Nat
  cyc : Nat
  deriving DecidableEq, Repr

/-- A source or destination of a Delud message: package, tile, and HUB (R366). -/
structure Node where
  pkg : Nat
  tile : Nat
  hub : Bool
  deriving DecidableEq, Repr

/-- A Delud message: the header of R366 and its data. -/
structure Dmsg where
  op : Nat
  flags : Nat
  key : Nat
  addr : Nat
  src : Node
  dst : Node
  stamp : Nat
  txn : Nat
  aop : Nat
  err : Nat
  rlen : Nat
  data : List Byte
  deriving DecidableEq, Repr

/-- The virtual channels of R346, in the order of the frame header's VC code (R329). -/
inductive Vc where
  | req | resp | bulk | mgmt
  deriving DecidableEq, Repr

/-- A frame of the link layer (R329): header fields, its LEN meaningful payload bytes, and the CRC it carries. -/
structure Frame where
  seq : Nat
  vc : Vc
  idle : Bool
  ctrl : Bool
  ack : Nat
  nak : Bool
  credVc : Vc
  credit : Nat
  payload : List Byte
  crc : Word
  deriving DecidableEq, Repr

/-- A route entry: of a member number of this stage, or of a stage (R341). -/
inductive RouteEnt where
  | loc (m : Fin 64)
  | rem (st : Fin 2048)
  deriving DecidableEq, Repr

/-- An endpoint of the seams: a tile, the hub, an optical engine (R27, R29). -/
inductive EndPt where
  | tile (n : Fin 32)
  | hub
  | oe (k : Fin 8)
  deriving DecidableEq, Repr

/-- What the DRAM die and the bond report with a line (R161, R162): words corrected on the die and on the bond, and
whether either code found the line uncorrectable. -/
structure EccRep where
  dieCe : Nat
  bondCe : Nat
  dieUe : Bool
  linkUe : Bool
  deriving DecidableEq, Repr
/-- A step-order entry (R312). -/
structure OrderEnt where
  seq : Nat
  kind : Nat
  flags : Nat
  basket : Nat
  seat : Nat
  sampleK : Nat
  first : Nat
  rows : Nat
  pos : Nat
  input : Nat
  temp : Nat
  seed : Nat
  deriving DecidableEq, Repr

/-- A step order (R312): header fields, the overflow values D by dispatch, entries, and the prompt tokens. -/
structure StepOrder where
  step : Nat
  epoch : Nat
  group : Nat
  flags : Nat
  time : Nat
  dvals : List Nat
  entries : List OrderEnt
  prompt : List Nat
  deriving DecidableEq, Repr

/-- A step report (R313): its package, the combined overflow values d of R284 by dispatch, and its records KIND, SEQ, TOKEN. -/
structure StepRep where
  pkg : Nat
  dvals : List (Nat × Nat)
  recs : List (Nat × Nat × Nat)
  deriving DecidableEq, Repr

/-- A vote record, package vote or decision record (R77, R78): the flags, the tensors in trouble in ascending order, and the AMAX of
each touched tensor. -/
structure Vote where
  pkg : Nat
  trouble : Bool
  nan : Bool
  tsBad : Bool
  replayOff : Bool
  map : List Nat
  amax : List (Nat × Nat)
  deriving DecidableEq, Repr

/-- A bin that tile firmware opens for the coming step (R237, R243): the tile, the bin, the table index and request ID of its
sequence, its stream and page, the tensor IDs of its keys and values, and the page number of its reserved slot. -/
structure BinOpen where
  tile : Fin 32
  bin : Nat
  seq : Nat
  req : Nat
  stream : Nat
  page : Nat
  ktid : Nat
  vtid : Nat
  slot : Nat
  deriving DecidableEq, Repr

/-- A write of tile firmware to tile store at an address that the step program alone decides. -/
structure FwWrite where
  tile : Fin 32
  addr : Nat
  data : List Byte
  deriving DecidableEq, Repr


/-- What a tier transfer moves (R183): a page of a page table, to the place that a word 0 of R243 names; or a 2 MiB region, from one
global address to another. -/
inductive TierObj where
  | page (seq stream page dest : Nat)
  | region (src dst : Nat)
  deriving DecidableEq, Repr


/-- The commands: one constructor per row of spec/opcode_table.json, in its order. Each docstring is the row's rule. -/
inductive Instr where
  /-- REGISTER_WRITE, R12. -/
  | registerWrite (m : Master) (off : Nat) (v : Word) (now : Nat)
  /-- BAR0_BAD_ACCESS, R8. -/
  | bar0BadAccess (off len : Nat) (isWrite : Bool)
  /-- REG_PAIR_LOW_READ, R9. -/
  | regPairLowRead (m : Master) (off : Nat)
  /-- UNMAPPED_WRITE, R11. -/
  | unmappedWrite (off : Nat) (now : Nat)
  /-- EVENT_SEQ_WRITEBACK, R456. -/
  | eventSeqWriteback (m : Master) (off : Nat) (w : BitVec 16)
  /-- RWB_TIMER_BOUNDARY, R451. -/
  | rwbTimerBoundary (set : SrvSet) (now : Nat)
  /-- SEAM_TRANSFER, R29. -/
  | seamTransfer (idx : Nat) (retry : Bool)
  /-- SEAM_DOWN, R31. -/
  | seamDown (seam : Fin 72) (lost : List Nat) (now : Nat)
  /-- SEAM_UP, R32. -/
  | seamUp (seam : Fin 72) (now : Nat)
  /-- ROUTE_CLASS_UPDATE, R30. -/
  | routeClassUpdate (now : Nat)
  /-- OE_SEAM_LINKS_DOWN, R32. -/
  | oeSeamLinksDown (k : Fin 8) (now : Nat)
  /-- TILE_EXIT, R43. -/
  | tileExit (n : Fin 32) (cause : Fin 3) (seamOk : Bool) (now : Nat)
  /-- TIME_MESSAGE, R40. -/
  | timeMessage (now : Nat)
  /-- CROSSING_TRANSFER, R38. -/
  | crossingTransfer (idx : Nat) (full : Bool)
  /-- TILE_RETIRE_WRITE, R44. -/
  | tileRetireWrite (m : Master) (mask : Word) (progA progB : Nat)
  /-- NOP, R114. -/
  | nop (p : Issue) (st : Fin 5)
  /-- WAIT, R142. -/
  | wait (p : Issue) (tok : BitVec 12) (bound : BitVec 32)
  /-- WAIT_RELEASE, R142. -/
  | waitRelease (n : Fin 32) (cyc : Nat)
  /-- WAIT_EXPIRY, R143. -/
  | waitExpiry (n : Fin 32) (lost : Bool)
  /-- SIGNAL, R140. -/
  | signal (p : Issue) (st : Fin 5) (tok : BitVec 12) (pkg : BitVec 17) (tile : Fin 32) (loc : Bool)
  /-- SIGNAL_TOKEN_SEND, R140. -/
  | signalTokenSend (n : Fin 32)
  /-- TOKEN_MESSAGE, R141. -/
  | tokenMessage (n : Fin 32) (tok : BitVec 12) (seq epoch : BitVec 16) (err : Bool) (cyc : Nat)
  /-- LOOP, R147. -/
  | loop (p : Issue) (group : Fin 16) (slot : Fin 64) (maxtrip : BitVec 16)
  /-- LEND, R147. -/
  | lend (p : Issue) (group : Fin 16)
  /-- END, R123. -/
  | endStream (p : Issue) (st : Fin 5)
  /-- MARK, R468. -/
  | mark (p : Issue) (st : Fin 5) (marker : BitVec 16) (now : Nat)
  /-- MMA, R94. -/
  | mma (p : Issue) (half : Fin 2) (msel : BitVec 2) (sw clr ft : Bool) (afmt : BitVec 2) (atid : BitVec 12) (rows acc : Fin 256) (aaddr : BitVec 20) (astride : BitVec 16) (saddr : BitVec 26)
  /-- DRAIN, R101. -/
  | drain (p : Issue) (half : Fin 2) (odd : Bool) (dkind : BitVec 2) (scl zero : Bool) (atid : BitVec 12) (acc rows : Fin 256) (vd : Fin 64) (daddr : BitVec 20) (dstride : BitVec 16)
  /-- VFMA, R104. -/
  | vfma (p : Issue) (vd va vb vc : Fin 64) (k : Fin 8) (bimm : Bool) (imm : Word)
  /-- VADD, R104. -/
  | vadd (p : Issue) (vd va vb : Fin 64) (k : Fin 8) (bimm : Bool) (imm : Word)
  /-- VSUB, R104. -/
  | vsub (p : Issue) (vd va vb : Fin 64) (k : Fin 8) (bimm : Bool) (imm : Word)
  /-- VMUL, R104. -/
  | vmul (p : Issue) (vd va vb : Fin 64) (k : Fin 8) (bimm : Bool) (imm : Word)
  /-- VMAX, R104. -/
  | vmax (p : Issue) (vd va vb : Fin 64) (k : Fin 8) (bimm : Bool) (imm : Word)
  /-- VMIN, R104. -/
  | vmin (p : Issue) (vd va vb : Fin 64) (k : Fin 8) (bimm : Bool) (imm : Word)
  /-- VCMP, R104. -/
  | vcmp (p : Issue) (md : Fin 8) (va vb : Fin 64) (k : Fin 8) (fn : Fin 16) (bimm : Bool) (imm : Word)
  /-- VSEL, R103. -/
  | vsel (p : Issue) (vd va vb : Fin 64) (k : Fin 8) (bimm : Bool) (imm : Word)
  /-- VIMM, R114. -/
  | vimm (p : Issue) (vd : Fin 64) (k : Fin 8) (imm : Word)
  /-- VRED, R106. -/
  | vred (p : Issue) (vd va : Fin 64) (k : Fin 8) (fn grp : Fin 16)
  /-- VBCAST, R106. -/
  | vbcast (p : Issue) (vd va : Fin 64) (k : Fin 8) (grp : Fin 16)
  /-- VEXP2, R105. -/
  | vexp2 (p : Issue) (vd va : Fin 64) (k : Fin 8)
  /-- VEXP, R105. -/
  | vexp (p : Issue) (vd va : Fin 64) (k : Fin 8)
  /-- VRCP, R105. -/
  | vrcp (p : Issue) (vd va : Fin 64) (k : Fin 8)
  /-- VRSQRT, R105. -/
  | vrsqrt (p : Issue) (vd va : Fin 64) (k : Fin 8)
  /-- VLOG2, R105. -/
  | vlog2 (p : Issue) (vd va : Fin 64) (k : Fin 8)
  /-- VLD, R107. -/
  | vld (p : Issue) (vd : Fin 64) (fmt : Fin 16) (addr : BitVec 26) (stride : BitVec 16) (saddr : BitVec 26)
  /-- VST, R107. -/
  | vst (p : Issue) (v : Fin 64) (fmt : Fin 16) (addr : BitVec 26) (stride : BitVec 16)
  /-- VQST, R108. -/
  | vqst (p : Issue) (v : Fin 64) (fmt : Fin 16) (ft : Bool) (tid : BitVec 12) (addr : BitVec 26) (stride : BitVec 16) (saddr : BitVec 26)
  /-- MCOPY, R132. -/
  | mcopy (p : Issue) (sk dk : BitVec 3) (len : BitVec 16) (saddr daddr : BitVec 29) (pkg : BitVec 17) (tile : Fin 32) (bulk : Bool) (reps : List (Nat × EccRep)) (wues : List Nat)
  /-- MATOM, R121. -/
  | matom (p : Issue) (aop : BitVec 4) (sz : Bool) (gaddr : BitVec 57) (opaddr : BitVec 23)
  /-- HAPPEND, R238. -/
  | happend (p : Issue) (arg0 arg1 arg2 : BitVec 26) (count : BitVec 16) (param : BitVec 10)
  /-- HFLUSH, R242. -/
  | hflush (p : Issue) (arg0 arg1 arg2 : BitVec 26) (count : BitVec 16) (param : BitVec 10)
  /-- XTOPK, R265. -/
  | xtopk (p : Issue) (arg0 arg1 arg2 : BitVec 26) (count : BitVec 16) (param : BitVec 10)
  /-- XDISPATCH_FORWARD_EAGER, R272. -/
  | xdispatchForwardEager (p : Issue) (arg0 arg1 arg2 : BitVec 26) (count : BitVec 16) (param : BitVec 8)
  /-- XDISPATCH_FORWARD_COALESCED, R272. -/
  | xdispatchForwardCoalesced (p : Issue) (arg0 arg1 arg2 : BitVec 26) (count : BitVec 16) (param : BitVec 8)
  /-- XDISPATCH_RETURN, R283. -/
  | xdispatchReturn (p : Issue) (arg0 arg1 arg2 : BitVec 26) (count : BitVec 16) (param : BitVec 8)
  /-- XCOMBINE, R288. -/
  | xcombine (p : Issue) (arg0 arg1 arg2 : BitVec 26) (count : BitVec 16) (param : BitVec 10)
  /-- WCONVERT, R218. -/
  | wconvert (p : Issue) (arg0 arg1 arg2 : BitVec 26) (count : BitVec 16) (param : BitVec 10)
  /-- WPACK, R193. -/
  | wpack (p : Issue) (arg0 arg1 arg2 : BitVec 26) (count : BitVec 16) (param : BitVec 10)
  /-- WUNPACK, R193. -/
  | wunpack (p : Issue) (arg0 arg1 arg2 : BitVec 26) (count : BitVec 16) (param : BitVec 10)
  /-- PASS_START, R127. -/
  | passStart (n : Fin 32)
  /-- PASS_OVERRUN, R152. -/
  | passOverrun (n : Fin 32)
  /-- SCHEDULE_FAULT, R154. -/
  | scheduleFault (n : Fin 32) (cause : Fin 18) (stream : Fin 8) (idx cyc arg : Nat)
  /-- SFAULT_REPORT, R154. -/
  | sfaultReport (g : Fin 4) (tile : Option (Fin 32)) (pkg : BitVec 17) (now : Nat)
  /-- ABORT_ORDER, R154. -/
  | abortOrder (g : Fin 4) (now : Nat)
  /-- ABORT_READY, R154. -/
  | abortReady (g : Fin 4) (tile : Option (Fin 32)) (pkg : BitVec 17) (now : Nat)
  /-- RERUN_READY_TIMEOUT, R154. -/
  | rerunReadyTimeout (g : Fin 4) (now : Nat)
  /-- RERUN_RELEASE, R154. -/
  | rerunRelease (g : Fin 4) (fw : List FwWrite)
  /-- ELASTIC_ACCESS, R134. -/
  | elasticAccess (n : Fin 32) (bank : Fin 32)
  /-- VOTE_RECORD_WRITE, R77. -/
  | voteRecordWrite (n : Fin 32)
  /-- VOTE_RECORD_SEND, R77. -/
  | voteRecordSend (n : Fin 32)
  /-- PACKAGE_VOTE, R78. -/
  | packageVote (g : Fin 4) (now : Nat)
  /-- VOTE_DECISION, R73. -/
  | voteDecision (g : Fin 4) (votes : List Vote) (now : Nat)
  /-- VOTE_TIMEOUT, R79. -/
  | voteTimeout (g : Fin 4) (missing : List Nat) (now : Nat)
  /-- DECISION_RECORD, R78. -/
  | decisionRecord (g : Fin 4) (decision : Fin 3) (vote : Vote) (now : Nat)
  /-- PASS_PREPARE, R70. -/
  | passPrepare (g : Fin 4) (fw : List FwWrite)
  /-- REFRESH, R171. -/
  | refresh (n : Fin 32) (k : Fin 32)
  /-- SCRUB_READ, R166. -/
  | scrubRead (n : Fin 32) (reps : List (Nat × EccRep))
  /-- DARNER_WRITEBACK, R167. -/
  | darnerWriteback (n : Fin 32) (ch : Fin 48) (linkUe : Bool)
  /-- TELEMETRY_READ, R172. -/
  | telemetryRead (n : Fin 32) (temps : List (BitVec 16))
  /-- CALIBRATION_STEP, R173. -/
  | calibrationStep (n : Fin 32) (warn fail : Bool)
  /-- ROTA_BOUNDARY, R137. -/
  | rotaBoundary (n : Fin 32)
  /-- HOME_QUEUE_ISSUE, R175. -/
  | homeQueueIssue (n : Fin 32) (ch : Fin 48) (rep : EccRep) (now : Nat)
  /-- UE_REPORT, R165. -/
  | ueReport (n : Fin 32) (line : BitVec 29) (source : Fin 5) (buffer : Bool) (progA progB : Nat) (now : Nat)
  /-- LEND_START, R187. -/
  | lendStart (m : Master) (n : Fin 32)
  /-- LEND_RECLAIM, R189. -/
  | lendReclaim (m : Master) (n : Fin 32) (now : Nat)
  /-- RUN_REQUEST, R188. -/
  | runRequest (n : Fin 32) (pkg : BitVec 17) (tile : Fin 32) (page : Nat) (len : Fin 9) (first : Option Nat) (now : Nat)
  /-- RUN_RENEWAL, R188. -/
  | runRenewal (n : Fin 32) (pkg : BitVec 17) (first : Nat) (now : Nat)
  /-- RUN_RELEASE, R191. -/
  | runRelease (n : Fin 32) (pkg : BitVec 17) (first : Nat)
  /-- EVICTION_NOTICE, R189. -/
  | evictionNotice (n : Fin 32) (now : Nat)
  /-- EVICTION_GRACE_EXPIRY, R189. -/
  | evictionGraceExpiry (n : Fin 32) (first : Nat) (now : Nat)
  /-- TIER_TRANSFER, R191. -/
  | tierTransfer (n : Fin 32) (obj : TierObj)
  /-- TIER_TRANSFER_DONE, R191. -/
  | tierTransferDone (n : Fin 32) (id : Nat)
  /-- TIER_FETCH, R194. -/
  | tierFetch (n : Fin 32) (tok : BitVec 12) (seq stream page slots hdr : Nat)
  /-- TIER_FETCH_DONE, R194. -/
  | tierFetchDone (n : Fin 32) (id : Nat) (cyc : Nat)
  /-- DRIVE_LINK_DOWN, R199. -/
  | driveLinkDown (drive : Fin 2) (now : Nat)
  /-- DRIVE_LINK_UP, R199. -/
  | driveLinkUp (drive : Fin 2) (speed : BitVec 4) (width : BitVec 4)
  /-- DRIVE_READY, R199. -/
  | driveReady (drive : Fin 2) (maxRead : BitVec 16)
  /-- DRIVE_READ_COMPLETE, R200. -/
  | driveReadComplete (drive : Fin 2) (chunk : Nat) (ok : Bool) (data : List Byte) (now : Nat)
  /-- DRIVE_CMD_TIMEOUT, R200. -/
  | driveCmdTimeout (drive : Fin 2) (chunk : Nat) (now : Nat)
  /-- CHUNK_FORWARD, R211. -/
  | chunkForward (chunk : Nat)
  /-- CHUNK_WRING, R213. -/
  | chunkWring (n : Fin 32) (now : Nat)
  /-- REGION_VERIFY, R225. -/
  | regionVerify (region : Nat) (reps : List (Nat × EccRep)) (now : Nat)
  /-- LOAD_COMMIT, R225. -/
  | loadCommit (now : Nat)
  /-- LOAD_REPORT, R230. -/
  | loadReport (dmaOk : Bool)
  /-- SLOT_REVERIFY, R227. -/
  | slotReverify (slot : Fin 16) (reps : List (Fin 32 × Nat × EccRep)) (now : Nat)
  /-- MODEL_LOAD, R225. -/
  | modelLoad (now : Nat) (man : Option (List Byte)) (retried : Bool)
  /-- MODEL_EVICT, R229. -/
  | modelEvict (now : Nat)
  /-- REGION_REWRITE, R228. -/
  | regionRewrite (now : Nat) (man : Option (List Byte)) (retried : Bool)
  /-- DRIVE_IMAGE, R229. -/
  | driveImage (now : Nat) (data : Option (List Byte)) (ok : Bool) (abortAfter : Option Nat)
  /-- PEG_PUSH, R246. -/
  | pegPush (n : Fin 32) (q : Fin 2) (peg : BitVec 128)
  /-- FORWARD_ARRIVAL, R277. -/
  | forwardArrival (n : Fin 32) (m : Dmsg)
  /-- COALESCED_ARRIVAL, R274. -/
  | coalescedArrival (n : Fin 32) (m : Dmsg)
  /-- RETURN_ARRIVAL, R283. -/
  | returnArrival (n : Fin 32) (m : Dmsg)
  /-- FORWARD_DONE, R279. -/
  | forwardDone (n : Fin 32) (disp : BitVec 8)
  /-- RETURN_DONE, R279. -/
  | returnDone (n : Fin 32) (disp : BitVec 8)
  /-- BARRIER_END, R280. -/
  | barrierEnd (g : Fin 4) (ret : Bool) (disp : BitVec 8) (tok : BitVec 12) (epoch seq : BitVec 16) (pkg : BitVec 17) (cyc : Nat)
  /-- INTAKE_CLOSE, R280. -/
  | intakeClose (n : Fin 32) (disp : BitVec 8) (cyc : Nat)
  /-- GROUP_START, R298. -/
  | groupStart (now : Nat) (desc : Option (List Byte)) (image : Option (List Byte))
  /-- JOIN, R298. -/
  | join (g : Fin 4) (pkg : BitVec 17) (epoch : BitVec 16) (now : Nat)
  /-- JOIN_TIMEOUT, R298. -/
  | joinTimeout (g : Fin 4) (now : Nat)
  /-- GROUP_STOP, R299. -/
  | groupStop (now : Nat)
  /-- GROUP_STOP_FORCE, R299. -/
  | groupStopForce (now : Nat)
  /-- BAR2_WRITE, R300. -/
  | bar2Write (off : BitVec 25) (data : List Byte) (now : Nat)
  /-- SQ_TAIL_DOORBELL, R300. -/
  | sqTailDoorbell (q : Fin 64) (v : Word)
  /-- CQ_HEAD_DOORBELL, R303. -/
  | cqHeadDoorbell (q : Fin 64) (v : Word) (now : Nat)
  /-- SUBMIT, R304. -/
  | submit (q : Fin 64) (now : Nat)
  /-- CANCEL, R318. -/
  | cancel (q : Fin 64) (now : Nat)
  /-- BAD_SUBMISSION_OPCODE, R304. -/
  | badSubmissionOpcode (q : Fin 64) (now : Nat)
  /-- SQ_CFG_WRITE, R324. -/
  | sqCfgWrite (q : Fin 64) (v : Word)
  /-- CQ_CFG_WRITE, R324. -/
  | cqCfgWrite (q : Fin 64) (v : Word) (now : Nat)
  /-- CQ_STALL, R303. -/
  | cqStall (seq : Nat) (now : Nat)
  /-- STEP_REPORT, R313. -/
  | stepReport (g : Fin 4) (recs : List (Nat × Nat × Nat)) (now : Nat)
  /-- STEP_BOUNDARY, R314. -/
  | stepBoundary (g : Fin 4) (reps : List StepRep) (exit : Bool) (noRoom notReady prompt : List Nat) (now : Nat)
  /-- STEP_ORDER_SEND, R314. -/
  | stepOrderSend (g : Fin 4) (now : Nat)
  /-- STEP_ORDER, R314. -/
  | stepOrder (order : StepOrder) (ledger : List (Fin 32 × Nat × Nat)) (opens : List BinOpen) (fw : List FwWrite) (now : Nat)
  /-- BOUNDARY_RETRY, R315. -/
  | boundaryRetry (g : Fin 4) (exit : Bool) (noRoom notReady prompt : List Nat) (now : Nat)
  /-- STOP_ORDER, R320. -/
  | stopOrder (g : Fin 4) (halt : Bool) (now : Nat)
  /-- LEAD_TIMEOUT, R320. -/
  | leadTimeout (g : Fin 4) (now : Nat)
  /-- PAUSE_ORDER, R512. -/
  | pauseOrder (order : StepOrder) (now : Nat)
  /-- DAMAGE_CLEARED_REPORT, R512. -/
  | damageClearedReport (g : Fin 4) (pkg : BitVec 17) (noRoom notReady prompt : List Nat) (now : Nat)
  /-- LINK_SIGNAL_DETECT, R334. -/
  | linkSignalDetect (j : Fin 64)
  /-- IDENTITY, R332. -/
  | identity (j : Fin 64) (id : Word) (idx : Nat) (slice : BitVec 16)
  /-- QUALIFY_END, R334. -/
  | qualifyEnd (j : Fin 64) (errs : List Nat) (bits : Nat)
  /-- QUAL_RESULT, R334. -/
  | qualResult (j : Fin 64) (pass : Bool)
  /-- QUAL_RETRY_TIMER, R334. -/
  | qualRetryTimer (j : Fin 64)
  /-- LINK_JOIN, R335. -/
  | linkJoin (j : Fin 64) (now : Nat)
  /-- LINK_DOWN, R350. -/
  | linkDown (j : Fin 64) (cause : Fin 10) (now : Nat)
  /-- FENCE_END, R344. -/
  | fenceEnd (src : Node) (dst : Nat) (now : Nat)
  /-- LINK_LOS, R349. -/
  | linkLos (j : Fin 64) (signal : BitVec 8) (now : Nat)
  /-- LINK_SILENT_TIMEOUT, R349. -/
  | linkSilentTimeout (j : Fin 64) (now : Nat)
  /-- FEC_FAILURE, R349. -/
  | fecFailure (j : Fin 64) (corr uncorr : Nat) (now : Nat)
  /-- LASER_LOSS, R328. -/
  | laserLoss (k : Fin 8) (fibre : Fin 2) (now : Nat)
  /-- LASER_RESTORE, R328. -/
  | laserRestore (k : Fin 8) (fibre : Fin 2)
  /-- FRAME_RECEIVE, R330. -/
  | frameReceive (j : Fin 64) (f : Frame) (now : Nat)
  /-- NAK_RECEIVE, R330. -/
  | nakReceive (j : Fin 64) (ack : Nat) (now : Nat)
  /-- REPLAY_TIMEOUT, R330. -/
  | replayTimeout (j : Fin 64) (now : Nat)
  /-- FRAME_TRANSMIT, R347. -/
  | frameTransmit (j : Fin 64) (now : Nat)
  /-- REACHABILITY_NOTICE, R343. -/
  | reachabilityNotice (port : Fin 16) (unreach stage : Bool) (target : Nat) (now : Nat)
  /-- DESTINATION_LOST, R351. -/
  | destinationLost (e : RouteEnt) (now : Nat)
  /-- ROUTE_ENTRY_WRITE, R341. -/
  | routeEntryWrite (m : Master) (e : RouteEnt) (v : Word) (now : Nat)
  /-- PORT_ENABLE, R338. -/
  | portEnable (m : Master) (port : Fin 16) (now : Nat)
  /-- PORT_DISABLE, R338. -/
  | portDisable (m : Master) (port : Fin 16) (now : Nat)
  /-- PORT_DRAIN_DONE, R338. -/
  | portDrainDone (port : Fin 16) (now : Nat)
  /-- PORT_LINKS_WRITE, R337. -/
  | portLinksWrite (m : Master) (port : Fin 16) (hi : Bool) (v : Word)
  /-- LINK_DISABLE, R333. -/
  | linkDisable (m : Master) (j : Fin 64) (now : Nat)
  /-- LINK_ENABLE, R333. -/
  | linkEnable (m : Master) (j : Fin 64)
  /-- LINK_BERT, R354. -/
  | linkBert (now : Nat)
  /-- TEST_REQ, R353. -/
  | testReq (j : Fin 64) (ms : Nat) (pattern : Bool) (now : Nat)
  /-- TEST_ACK, R353. -/
  | testAck (j : Fin 64) (accepted : Bool)
  /-- TEST_ACK_TIMEOUT, R353. -/
  | testAckTimeout (j : Fin 64)
  /-- TEST_END, R353. -/
  | testEnd (j : Fin 64) (errs : List Nat) (bits : Nat)
  /-- PERIODIC_TEST_START, R355. -/
  | periodicTestStart (k : Fin 8) (now : Nat)
  /-- PERIODIC_TEST_YIELD, R356. -/
  | periodicTestYield (k : Fin 8)
  /-- LOAD_REQ, R371. -/
  | loadReq (n : Fin 32) (m : Dmsg) (bulk : Bool)
  /-- STORE, R371. -/
  | store (n : Fin 32) (m : Dmsg)
  /-- BULK_STORE, R371. -/
  | bulkStore (n : Fin 32) (m : Dmsg)
  /-- ATOMIC, R371. -/
  | atomic (n : Fin 32) (m : Dmsg)
  /-- MGMT, R348. -/
  | mgmt (m : Dmsg)
  /-- LOAD_DATA, R367. -/
  | loadData (h : Option (Fin 32)) (m : Dmsg)
  /-- ACK, R372. -/
  | ack (h : Option (Fin 32)) (m : Dmsg)
  /-- ATOMIC_RESULT, R372. -/
  | atomicResult (h : Option (Fin 32)) (m : Dmsg)
  /-- ERROR, R382. -/
  | error (h : Option (Fin 32)) (m : Dmsg)
  /-- GATEWAY, R384. -/
  | gateway (m : Dmsg)
  /-- GATEWAY_EGRESS, R384. -/
  | gatewayEgress (id : Nat)
  /-- GATEWAY_SLOT_ASK, R385. -/
  | gatewaySlotAsk (pkg slots : Nat)
  /-- UNKNOWN_DELUD_OP, R367. -/
  | unknownDeludOp (m : Dmsg)
  /-- HOME_LINE_ACCESS, R378. -/
  | homeLineAccess (n : Fin 32)
  /-- HOME_LINE_WRITEBACK, R379. -/
  | homeLineWriteback (n : Fin 32) (line : Nat)
  /-- HOME_LINE_IDLE_RELEASE, R379. -/
  | homeLineIdleRelease (n : Fin 32) (line : Nat)
  /-- TXN_TIMEOUT, R369. -/
  | txnTimeout (h : Option (Fin 32)) (num : Nat) (now : Nat)
  /-- KEY_INSTALL, R376. -/
  | keyInstall (m : Master) (tile : Fin 32) (unit : BitVec 14)
  /-- KEY_TABLE_REVOKE, R376. -/
  | keyTableRevoke (m : Master) (tile : Fin 32) (unit : BitVec 14)
  /-- KEY_READ, R376. -/
  | keyRead (m : Master) (tile : Fin 32) (unit : BitVec 14)
  /-- GRANT_READ, R375. -/
  | grantRead (m : Master) (tile : Fin 32) (idx : Fin 64)
  /-- GRANT_WRITE, R375. -/
  | grantWrite (m : Master) (tile : Fin 32) (idx : Fin 64)
  /-- TIME_BEACON, R387. -/
  | timeBeacon (port : Fin 16) (time delay : Nat) (now : Nat)
  /-- INPUT_RISE, R393. -/
  | inputRise (now : Nat) (sbAddr : BitVec 3)
  /-- MAIN_STAGES_ON, R393. -/
  | mainStagesOn (now : Nat) (epoN flow : Bool)
  /-- BUS_IN_REGULATION, R393. -/
  | busInRegulation (sysclk flashOk pufOk : Bool)
  /-- SIGNED_PART_VERIFY, R430. -/
  | signedPartVerify (now : Nat)
  /-- TILE_BRINGUP, R431. -/
  | tileBringup (now : Nat) (trainFail selfFail : BitVec 32) (seams : BitVec 72)
  /-- BOOT_DONE, R431. -/
  | bootDone (now : Nat)
  /-- CONFIG_REQUEST, R431. -/
  | configRequest (msixWrite : Option (Bool × Bool))
  /-- POWER_CONTROL_TICK, R396. -/
  | powerControlTick (now : Nat) (temps : List (BitVec 16)) (vcore : List (BitVec 16))
  /-- CONVERTER_REPORT, R391. -/
  | converterReport (v0 v1 v2 v3 : BitVec 16) (i0 i1 i2 i3 : BitVec 16)
  /-- STEP_PUBLISH, R394. -/
  | stepPublish (now : Nat)
  /-- DROOP_START, R398. -/
  | droopStart (n : Fin 32)
  /-- DROOP_END, R398. -/
  | droopEnd (n : Fin 32) (cycles : Nat)
  /-- THERMAL_TRIP, R400. -/
  | thermalTrip (now : Nat)
  /-- KZ_LEASE, R402. -/
  | kzLease (now : Nat) (pec : Bool) (budget duration seq : BitVec 16)
  /-- LEASE_PENDING_TIMEOUT, R402. -/
  | leasePendingTimeout (now : Nat)
  /-- LEASE_EXPIRY, R404. -/
  | leaseExpiry (now : Nat)
  /-- UV_WARNING, R411. -/
  | uvWarning (now : Nat) (mv : Nat)
  /-- UV_WARNING_CLEAR, R408. -/
  | uvWarningClear (now : Nat)
  /-- UV_STOP, R407. -/
  | uvStop (now : Nat)
  /-- INPUT_OVERVOLTAGE, R409. -/
  | inputOvervoltage
  /-- STANDBY_OFF, R407. -/
  | standbyOff
  /-- FLOW_STOP, R412. -/
  | flowStop (now : Nat)
  /-- FLOW_CUT_TIMER, R412. -/
  | flowCutTimer
  /-- EPO, R413. -/
  | epo
  /-- EPO_RELEASE, R413. -/
  | epoRelease (now : Nat) (sbAddr : BitVec 3)
  /-- CONVERTER_FAULT, R414. -/
  | converterFault (now : Nat)
  /-- STOP, R415. -/
  | stop (now : Nat)
  /-- OPERATION_ON, R414. -/
  | operationOn (now : Nat) (pec flow cool : Bool)
  /-- OPERATION_SOFT_OFF, R406. -/
  | operationSoftOff (now : Nat) (pec : Bool)
  /-- OPERATION_IMMEDIATE_OFF, R406. -/
  | operationImmediateOff (now : Nat) (pec : Bool)
  /-- OPERATION_READ, R406. -/
  | operationRead
  /-- STATUS_WORD, R406. -/
  | statusWord
  /-- STATUS_INPUT, R406. -/
  | statusInput
  /-- STATUS_TEMPERATURE, R406. -/
  | statusTemperature
  /-- READ_VIN, R406. -/
  | readVin
  /-- READ_IIN, R406. -/
  | readIin
  /-- READ_PIN, R406. -/
  | readPin
  /-- READ_TEMPERATURE_1, R406. -/
  | readTemperature1
  /-- READ_TEMPERATURE_2, R406. -/
  | readTemperature2
  /-- KZ_LEASE_STATUS, R406. -/
  | kzLeaseStatus (now : Nat)
  /-- CLEAR_FAULTS, R445. -/
  | clearFaults
  /-- ALERT_RESPONSE, R445. -/
  | alertResponse
  /-- PMBUS_REVISION, R445. -/
  | pmbusRevision
  /-- MFR_ID, R445. -/
  | mfrId
  /-- MFR_MODEL, R445. -/
  | mfrModel
  /-- MFR_REVISION, R445. -/
  | mfrRevision
  /-- MFR_SERIAL, R445. -/
  | mfrSerial
  /-- KZ_PANEL, R445. -/
  | kzPanel
  /-- KZ_LOCATE, R445. -/
  | kzLocate (bits : BitVec 8)
  /-- KZ_LOCATE_READ, R445. -/
  | kzLocateRead
  /-- KZ_IDENT, R445. -/
  | kzIdent
  /-- KZ_BOOT, R445. -/
  | kzBoot
  /-- SIDEBAND_UNSUPPORTED, R406. -/
  | sidebandUnsupported (code : BitVec 8)
  /-- PERST_ASSERT, R477. -/
  | perstAssert (now : Nat)
  /-- PERST_RELEASE, R477. -/
  | perstRelease (now : Nat) (flashOk pufOk : Bool)
  /-- HOT_RESET, R421. -/
  | hotReset (now : Nat)
  /-- FUNCTION_LEVEL_RESET, R421. -/
  | functionLevelReset (now : Nat)
  /-- ENDPOINT_LINK_DOWN, R421. -/
  | endpointLinkDown (now : Nat)
  /-- BAR4_READ, R420. -/
  | bar4Read (off : BitVec 32) (len : Nat) (reps : List (Nat × EccRep)) (now : Nat)
  /-- BAR4_WRITE, R420. -/
  | bar4Write (off : BitVec 32) (data : List Byte) (reps : List (Nat × EccRep)) (now : Nat)
  /-- DOE_DISCOVERY, R437. -/
  | doeDiscovery
  /-- GET_VERSION, R437. -/
  | getVersion
  /-- GET_CAPABILITIES, R437. -/
  | getCapabilities
  /-- NEGOTIATE_ALGORITHMS, R437. -/
  | negotiateAlgorithms
  /-- GET_DIGESTS, R437. -/
  | getDigests
  /-- GET_CERTIFICATE, R436. -/
  | getCertificate (slot : Nat) (off len : Nat)
  /-- CHALLENGE, R436. -/
  | challenge (slot : Nat) (nonce : List Byte)
  /-- GET_MEASUREMENTS, R438. -/
  | getMeasurements (index : Nat) (nonce : List Byte)
  /-- KEY_EXCHANGE, R439. -/
  | keyExchange (now : Nat) (mutAuth : Bool) (reqKey : List Byte)
  /-- FINISH, R439. -/
  | finish (now : Nat) (sid : Nat) (ok : Bool)
  /-- HEARTBEAT, R437. -/
  | heartbeat (now : Nat) (sid : Nat)
  /-- HEARTBEAT_EXPIRY, R439. -/
  | heartbeatExpiry (now : Nat) (sid : Nat)
  /-- KEY_UPDATE, R437. -/
  | keyUpdate (now : Nat) (sid : Nat)
  /-- END_SESSION, R439. -/
  | endSession (sid : Nat)
  /-- CHUNK_SEND, R437. -/
  | chunkSend (data : List Byte) (last : Bool)
  /-- CHUNK_GET, R437. -/
  | chunkGet (len : Nat)
  /-- GRANT_RELEASE, R439. -/
  | grantRelease (m : Master)
  /-- UNKNOWN_COMMAND, R441. -/
  | unknownCommand (code : BitVec 16)
  /-- MAILBOX_ABORT, R442. -/
  | mailboxAbort
  /-- MAILBOX_CONSUME, R441. -/
  | mailboxConsume
  /-- MBX_STATUS_READ, R441. -/
  | mbxStatusRead
  /-- PAGE_RETIRE, R443. -/
  | pageRetire (now : Nat) (progA progB : Nat)
  /-- IMAGE_WRITE, R443. -/
  | imageWrite (now : Nat)
  /-- IMAGE_VERIFY, R443. -/
  | imageVerify (now : Nat) (readOk : Bool)
  /-- FLOOR_RAISE, R443. -/
  | floorRaise (now : Nat)
  /-- KEY_REVOKE, R443. -/
  | keyRevoke (now : Nat)
  /-- FLASH_OPERATION_DONE, R427. -/
  | flashOperationDone (now : Nat) (ok : Bool) (data : Option (List Byte))
  /-- SVC_BUTTON_RELEASE, R447. -/
  | svcButtonRelease (now : Nat)
  /-- LONG_PRESS, R447. -/
  | longPress (now : Nat)
  /-- LATCH_OPENED, R447. -/
  | latchOpened (now : Nat)
  /-- LATCH_CLOSED, R447. -/
  | latchClosed (now : Nat)
  /-- DRAIN_DONE, R448. -/
  | drainDone (now : Nat)
  /-- DRAIN_TIMEOUT, R448. -/
  | drainTimeout (now : Nat)
  /-- DRAIN_CANCEL, R448. -/
  | drainCancel (now : Nat)
  /-- SVC_ACK, R447. -/
  | svcAck
  /-- MSIX_MESSAGE, R460. -/
  | msixMessage (vec : Fin 2048) (early : Bool)
  /-- INT_FORCE, R459. -/
  | intForce (src : Nat)
  /-- INT_PEND_CLR, R459. -/
  | intPendClr (src : Nat)
  /-- INT_REGISTER_READ, R462. -/
  | intRegisterRead (m : Master) (off : Nat)
  /-- COUNTER_WRAP, R465. -/
  | counterWrap (b : PmcBlock) (c : Nat) (add : Nat)
  /-- PMC_SNAPSHOT, R468. -/
  | pmcSnapshot (b : PmcBlock) (now : Nat)
  /-- STITCH_GO, R473. -/
  | stitchGo (u : StcUnit) (kind : BitVec 2) (own : Bool)
  /-- STITCH_JOB_DONE, R473. -/
  | stitchJobDone (u : StcUnit) (data : Option (List Byte)) (reps : List (Nat × EccRep)) (now : Nat)
  /-- HUB_RESET_WARM, R488. -/
  | hubResetWarm (m : Master) (now : Nat)
  /-- HUB_RESET_DUMP, R488. -/
  | hubResetDump (m : Master) (now : Nat)
  /-- WARM_RESET_END, R477. -/
  | warmResetEnd (now : Nat) (flashOk pufOk : Bool)
  /-- MGMT_WATCHDOG_EXPIRY, R483. -/
  | mgmtWatchdogExpiry (now : Nat)
  /-- DISP_WATCHDOG_EXPIRY, R483. -/
  | dispWatchdogExpiry (core : Fin 8) (now : Nat)
  /-- FATAL_ERROR, R484. -/
  | fatalError (cause : FatalCause) (arg : BitVec 24) (now : Nat)
  /-- DUMP_COMPLETE, R484. -/
  | dumpComplete (sram : List (List Byte)) (fw : List Byte) (unread : List (Nat × Nat)) (now : Nat)
  /-- DUMP_TIMEOUT, R484. -/
  | dumpTimeout (part : List Byte) (now : Nat)
  /-- DUMP_DISCARD, R488. -/
  | dumpDiscard (m : Master) (mask : BitVec 8)
  /-- JTAG_BYPASS, R510. -/
  | jtagBypass (tdi : List Bool)
  /-- JTAG_IDCODE, R510. -/
  | jtagIdcode
  /-- JTAG_SAMPLE_PRELOAD, R510. -/
  | jtagSamplePreload (pins load : List Bool)
  /-- JTAG_EXTEST, R510. -/
  | jtagExtest (load : List Bool) (bscan : Bool)
  /-- BEACON_TIMEOUT, R387. -/
  | beaconTimeout (now : Nat)
  /-- SVC_BUTTON_PRESS, R446. -/
  | svcButtonPress (now : Nat)
  /-- TXN_QUARANTINE_END, R369. -/
  | txnQuarantineEnd (h : Option (Fin 32)) (num : Nat) (now : Nat)
  deriving DecidableEq, Repr

end Sys2Proof
end

