-- ==== Sys2Proof/Decode.lean ====
section
/-! DEFINITION. Decoding a table word. The spec's table gives its rows no bits (they are steps of the package, not
encoded words), so no word spells a command. -/

namespace Sys2Proof

/-- The command that a word spells by the table's bits: none, since no row of the table gives any. -/
def decodeTableWord (_nbits _w : Nat) : Option Instr := none

end Sys2Proof
end

