-- ==== Sys2Proof/Config.lean ====
section
/-! DEFINITION. What the spec leaves to a standard, to the silicon or to nobody: opaque constants without a body, so that
no proof can lean on a value of them. -/

namespace Sys2Proof.Config

/-- SHA-512 (R424); the algorithm is FIPS 180's and is not in the spec (notes/assumptions/5.md). -/
opaque sha512 : List Byte → List Byte
/-- ECDSA verification on P-521 over SHA-512: public key, message, signature (R424; FIPS 186-5). -/
opaque ecdsaVerify : List Byte → List Byte → List Byte → Bool
/-- The public key of the identity key that the PUF secret yields with helper data (R435). -/
opaque identityPub : List Byte → List Byte
/-- A signature of the alias or identity key over a transcript (R436). -/
opaque deviceSign : List Byte → List Byte
/-- The alias certificate for a booted signed part (R436). -/
opaque aliasCert : List Byte → List Byte
/-- The firmware key hashes of the root-of-trust ROM, slot 0 to 3 (R429). -/
opaque romFirmwareHash : Nat → List Byte
/-- Verification of a factory signature against factory key slot 0 to 3: message, signature (R429, R431). -/
opaque factoryVerify : Nat → List Byte → List Byte → Bool
/-- The root-of-trust ROM digest of measurement block 1 (R438). -/
opaque romDigest : List Byte
/-- The Kyozen root and factory-intermediate certificates that the root-of-trust runtime carries (R425, R436). -/
opaque kyozenCerts : List Byte
/-- The event-log code of an append that the other slot's record area could not take: R427 asks for an entry and R490
names no code for it. -/
opaque otherAreaCode : Nat
/-- Kyozen's JEDEC manufacturer code, 11 bits (R510); the spec gives no number. -/
opaque jedecCode : BitVec 11

/-- The bits of a NaN that a Mangle forms from an accumulator value and a contribution: R95 says NaN and names no bits
(notes/assumptions/21.md). -/
opaque mangleNan : Word → Word → Word
/-- Free: what an MMA writes at a row and column while its Mangle has no active panel, by the count of free values drawn: no rule
states it (notes/assumptions/22.md). -/
opaque noPanel : Nat → Nat → Nat → Word

/-- Free: the stored elements (bytes 0 to 15) and mask (bytes 32 to 35) of a block that WCONVERT finds with more than N present
positions, by the count of free values drawn, the block and the byte (notes/assumptions/40.md). -/
opaque wringerSparse : Nat → Nat → Nat → Byte
/-- Free: the ERR code with which a router acknowledges a message that names no intake (R278); R381 names none for it
(notes/assumptions/41.md). -/
opaque noIntakeErr : Nat
/-- Free: the ERR code of a seam island's answer to a transfer lost on a seam (R31); R381 names none for it
(notes/assumptions/42.md). -/
opaque seamLostErr : Nat
/-- Free: KV streams that the step program places on a tile (R233), from the tile's section of the image; R296 lays out no item that
states it (notes/assumptions/43.md). -/
opaque kvStreams : List Byte → Nat

end Sys2Proof.Config
end

