-- ==== Sys2Proof/Machine/Crc.lean ====
section
/-! DEFINITION. The Stitch procedure of R471 and the CRC-32C of R192 as one setting of it. -/

namespace Sys2Proof.Machine

/-- The parameters of a Stitch computation (R471). -/
structure CrcParams where
  width : Nat
  poly : Nat
  init : Nat
  refin : Bool
  refout : Bool
  xorout : Nat
  deriving DecidableEq, Repr

/-- Reflect the low `w` bits of `x`: bit i becomes bit w - 1 - i. -/
def reflect (w x : Nat) : Nat :=
  (List.range w).foldl (fun a i => if x.testBit i then a + 2 ^ (w - 1 - i) else a) 0

/-- One bit step of R471. -/
def crcBit (p : CrcParams) (crc : Nat) : Nat :=
  if crc.testBit (p.width - 1) then ((crc * 2) ^^^ p.poly) % 2 ^ p.width else (crc * 2) % 2 ^ p.width

/-- Fold one byte into the register (R471). -/
def crcByte (p : CrcParams) (crc : Nat) (b : Byte) : Nat :=
  let x := if p.refin then reflect 8 b.toNat else b.toNat
  let c0 := crc ^^^ (x * 2 ^ (p.width - 8))
  crcBit p (crcBit p (crcBit p (crcBit p (crcBit p (crcBit p (crcBit p (crcBit p c0)))))))

/-- The result over a list of bytes, the fold prefix included by the caller (R471). -/
def crcRun (p : CrcParams) (bytes : List Byte) : Nat :=
  let crc := bytes.foldl (crcByte p) (p.init % 2 ^ p.width)
  let crc := if p.refout then reflect p.width crc else crc
  (crc ^^^ p.xorout) % 2 ^ p.width

/-- CRC-32C, RFC 3720 (R192, R471). -/
def crc32cParams : CrcParams := ⟨32, 0x1EDC6F41, 0xFFFFFFFF, true, true, 0xFFFFFFFF⟩
def crc32c (bytes : List Byte) : Nat := crcRun crc32cParams bytes

end Sys2Proof.Machine
end

