-- ==== Sys2Proof/Machine/Sparse.lean ====
section
/-! DEFINITION. The operations on sparse maps: reading one key and writing one key, in the one canonical form (keys
strictly rising, no entry equal to what an unlisted key reads as), and little-endian byte access over them (R19). -/

namespace Sys2Proof.Machine

/-- The value at key `k`; an unlisted key reads as the default `d k`. -/
def smGet {α : Type} (d : Nat → α) : SMap α → Nat → α
  | [], k => d k
  | (k', v) :: t, k => if k' = k then v else smGet d t k

/-- Insert `(k, v)` before the first larger key. -/
def smIns {α : Type} (k : Nat) (v : α) : SMap α → SMap α
  | [] => [(k, v)]
  | (k', v') :: t => if k < k' then (k, v) :: (k', v') :: t else (k', v') :: smIns k v t

/-- Remove key `k`. -/
def smDel {α : Type} (k : Nat) : SMap α → SMap α
  | [] => []
  | (k', v') :: t => if k' = k then smDel k t else (k', v') :: smDel k t

/-- Write key `k`; writing what an unlisted key reads as removes the entry. -/
def smPut {α : Type} [DecidableEq α] (d : Nat → α) (m : SMap α) (k : Nat) (v : α) : SMap α :=
  if v = d k then smDel k m else smIns k v (smDel k m)

/-- Every key of `m` is above `k`. -/
def smAbove {α : Type} (k : Nat) (m : SMap α) : Bool := m.all fun e => decide (k < e.1)

/-- The canonical form: keys strictly rising and no entry equal to its default. -/
def smWf {α : Type} [DecidableEq α] (d : Nat → α) : SMap α → Bool
  | [] => true
  | (k, v) :: t => decide (v ≠ d k) && smAbove k t && smWf d t

/-- Memory reads: an unlisted byte reads 0 (DESIGN CHOICE, notes/assumptions/3.md). -/
def memDefault (_ : Nat) : Byte := 0

def memGet (m : Mem) (a : Nat) : Byte := smGet memDefault m a
def memPut (m : Mem) (a : Nat) (v : Byte) : Mem := smPut memDefault m a v

/-- The canonical form of a memory. -/
def Memory.wf (m : Mem) : Bool := smWf memDefault m

/-- `n` bytes from address `a`. -/
def memBytes (m : Mem) (a n : Nat) : List Byte := (List.range n).map fun i => memGet m (a + i)

/-- Write a list of bytes from address `a`. -/
def memPutBytes (m : Mem) (a : Nat) : List Byte → Mem
  | [] => m
  | b :: t => memPutBytes (memPut m a b) (a + 1) t

/-- Little-endian value of a list of bytes (R19). -/
def leVal : List Byte → Nat
  | [] => 0
  | b :: t => b.toNat + 256 * leVal t

/-- The `n` little-endian bytes of a value (R19). -/
def leBytes : Nat → Nat → List Byte
  | 0, _ => []
  | n + 1, v => BitVec.ofNat 8 v :: leBytes n (v / 256)

/-- Little-endian read and write of `n` bytes. -/
def memLe (m : Mem) (a n : Nat) : Nat := leVal (memBytes m a n)
def memPutLe (m : Mem) (a n v : Nat) : Mem := memPutBytes m a (leBytes n v)

end Sys2Proof.Machine
end

