-- ==== Sys2Proof/Machine/RegNames.lean ====
section
/-! DEFINITION. The BAR0 register map: the offset of every register and the bits of every field, from the
register-map tables of the spec (R44, R45, R82, R83, R124, R125, R156, R157, R196, R231, R232, R259, R294, R324,
R359, R360, R388, R416, R417, R421, R433, R439, R440, R444, R449, R453, R455, R464, R470, R475, R488, R491). -/

namespace Sys2Proof.Machine.Reg

/-- A field of a register: the register's BAR0 offset and the field's bits `[hi:lo]`. -/
structure Fld where
  off : Nat
  hi : Nat
  lo : Nat
  deriving DecidableEq, Repr

/-- BAR0 base of tile `n` (00_scope.md, Register conventions). -/
abbrev tileBase (n : Nat) : Nat := 0x1000000 + n * 0x100000
/-- BAR0 base of optical engine `k` (00_scope.md, Register conventions). -/
abbrev oeBase (k : Nat) : Nat := 0x3000000 + k * 0x100000
/-- Counter block of the hub, and of tile `n` (R470). -/
abbrev hubPmc : Nat := 0x800000
abbrev tilePmc (n : Nat) : Nat := tileBase n + 0x90000
/-- Stitch unit `u` of the hub, and the unit of tile `n` (R475). -/
abbrev hubStc (u : Nat) : Nat := 0x900000 + 0x100 * u
abbrev tileStc (n : Nat) : Nat := tileBase n + 0xA0000

/-! The Delud block, R388. -/
abbrev DLD_CTRL : Nat := 0x600000
abbrev DLD_CTRL_GW_EN : Fld := ⟨DLD_CTRL, 31, 31⟩
abbrev DLD_CTRL_BEACON_EN : Fld := ⟨DLD_CTRL, 30, 30⟩
abbrev DLD_CTRL_TXN_TIMEOUT : Fld := ⟨DLD_CTRL, 15, 0⟩
abbrev DLD_EVENT : Nat := 0x600004
abbrev DLD_EVENT_BEACON_STEP : Fld := ⟨DLD_EVENT, 3, 3⟩
abbrev DLD_EVENT_ERR_RESP : Fld := ⟨DLD_EVENT, 2, 2⟩
abbrev DLD_EVENT_KEY_REFUSED : Fld := ⟨DLD_EVENT, 1, 1⟩
abbrev DLD_EVENT_NO_GRANT : Fld := ⟨DLD_EVENT, 0, 0⟩
abbrev DLD_EVENT_SEQ : Nat := 0x600008
abbrev DLD_EVENT_SEQ_SEQ : Fld := ⟨DLD_EVENT_SEQ, 15, 0⟩
abbrev DLD_KEY_CMD : Nat := 0x60000c
abbrev DLD_KEY_CMD_GO : Fld := ⟨DLD_KEY_CMD, 31, 31⟩
abbrev DLD_KEY_CMD_OP : Fld := ⟨DLD_KEY_CMD, 30, 29⟩
abbrev DLD_KEY_CMD_TILE : Fld := ⟨DLD_KEY_CMD, 20, 16⟩
abbrev DLD_KEY_CMD_UNIT : Fld := ⟨DLD_KEY_CMD, 13, 0⟩
abbrev DLD_KEY_DATA : Nat := 0x600010
abbrev DLD_KEY_PERM : Nat := 0x600014
abbrev DLD_KEY_PERM_VALID : Fld := ⟨DLD_KEY_PERM, 3, 3⟩
abbrev DLD_KEY_PERM_AT : Fld := ⟨DLD_KEY_PERM, 2, 2⟩
abbrev DLD_KEY_PERM_WR : Fld := ⟨DLD_KEY_PERM, 1, 1⟩
abbrev DLD_KEY_PERM_RD : Fld := ⟨DLD_KEY_PERM, 0, 0⟩
abbrev DLD_GRANT_CMD : Nat := 0x600018
abbrev DLD_GRANT_CMD_GO : Fld := ⟨DLD_GRANT_CMD, 31, 31⟩
abbrev DLD_GRANT_CMD_OP : Fld := ⟨DLD_GRANT_CMD, 30, 30⟩
abbrev DLD_GRANT_CMD_TILE : Fld := ⟨DLD_GRANT_CMD, 20, 16⟩
abbrev DLD_GRANT_CMD_INDEX : Fld := ⟨DLD_GRANT_CMD, 5, 0⟩
abbrev DLD_GRANT_BASE_LO : Nat := 0x60001c
abbrev DLD_GRANT_BASE_HI : Nat := 0x600020
abbrev DLD_GRANT_BASE_SNAP : Nat := 0x600024
abbrev DLD_GRANT_UNITS : Nat := 0x600028
abbrev DLD_GRANT_UNITS_VALID : Fld := ⟨DLD_GRANT_UNITS, 31, 31⟩
abbrev DLD_GRANT_UNITS_UNITS : Fld := ⟨DLD_GRANT_UNITS, 16, 0⟩
abbrev DLD_GRANT_KEY : Nat := 0x60002c
abbrev DLD_POOL_KEY : Nat := 0x600030
abbrev DLD_KEY_FAULT_COUNT : Nat := 0x600040
abbrev DLD_ERR_RESP_COUNT : Nat := 0x600044
abbrev DLD_LATE_RESP_COUNT : Nat := 0x600048
abbrev DLD_GW_OUT_COUNT : Nat := 0x60004c
abbrev DLD_GW_IN_COUNT : Nat := 0x600050
abbrev DLD_GW_REFUSE_COUNT : Nat := 0x600054
abbrev DLD_TIME_OFFSET : Nat := 0x600060
abbrev DLD_BEACON_PORT : Nat := 0x600064
abbrev DLD_BEACON_PORT_VALID : Fld := ⟨DLD_BEACON_PORT, 31, 31⟩
abbrev DLD_BEACON_PORT_PORT : Fld := ⟨DLD_BEACON_PORT, 3, 0⟩

/-! The fabric block, R359. -/
abbrev FAB_CTRL : Nat := 0x500000
abbrev FAB_CTRL_LIFETIME : Fld := ⟨FAB_CTRL, 31, 24⟩
abbrev FAB_CTRL_PBERT_EN : Fld := ⟨FAB_CTRL, 19, 19⟩
abbrev FAB_CTRL_AUTO_JOIN : Fld := ⟨FAB_CTRL, 18, 18⟩
abbrev FAB_CTRL_QPAT : Fld := ⟨FAB_CTRL, 17, 16⟩
abbrev FAB_CTRL_SLICE : Fld := ⟨FAB_CTRL, 15, 0⟩
abbrev FAB_SELF : Nat := 0x500004
abbrev FAB_SELF_PACKAGE : Fld := ⟨FAB_SELF, 16, 0⟩
abbrev FAB_TIMING : Nat := 0x500008
abbrev FAB_TIMING_LOST_HOLD : Fld := ⟨FAB_TIMING, 31, 16⟩
abbrev FAB_TIMING_QUAL_MS : Fld := ⟨FAB_TIMING, 15, 0⟩
abbrev FAB_PBERT : Nat := 0x50000c
abbrev FAB_PBERT_INTERVAL : Fld := ⟨FAB_PBERT, 31, 16⟩
abbrev FAB_PBERT_STARVE : Fld := ⟨FAB_PBERT, 15, 8⟩
abbrev FAB_PBERT_MS : Fld := ⟨FAB_PBERT, 7, 0⟩
abbrev FAB_EVENT : Nat := 0x500010
abbrev FAB_EVENT_SLICE_DROP : Fld := ⟨FAB_EVENT, 5, 5⟩
abbrev FAB_EVENT_EXPIRED : Fld := ⟨FAB_EVENT, 4, 4⟩
abbrev FAB_EVENT_PEER_LOST : Fld := ⟨FAB_EVENT, 3, 3⟩
abbrev FAB_EVENT_PORT_DOWN : Fld := ⟨FAB_EVENT, 2, 2⟩
abbrev FAB_EVENT_LINK_DOWN : Fld := ⟨FAB_EVENT, 1, 1⟩
abbrev FAB_EVENT_SEQ : Nat := 0x500014
abbrev FAB_EVENT_SEQ_SEQ : Fld := ⟨FAB_EVENT_SEQ, 15, 0⟩
abbrev FAB_LINK_ACTIVE_LO : Nat := 0x500018
abbrev FAB_LINK_ACTIVE_HI : Nat := 0x50001c
abbrev FAB_LINK_ACTIVE_SNAP : Nat := 0x500020
abbrev FAB_PORT_ACTIVE : Nat := 0x500024
abbrev FAB_PORT_ACTIVE_ACTIVE : Fld := ⟨FAB_PORT_ACTIVE, 15, 0⟩
abbrev FAB_SLICE_DROP_COUNT : Nat := 0x500028
abbrev FAB_EXPIRED_COUNT : Nat := 0x50002c
abbrev FAB_UNREACH_COUNT : Nat := 0x500030
abbrev FAB_FENCE_COUNT : Nat := 0x500034
abbrev FAB_LAST_LOST : Nat := 0x500038
abbrev FAB_LAST_LOST_STAGE : Fld := ⟨FAB_LAST_LOST, 31, 31⟩
abbrev FAB_LAST_LOST_TARGET : Fld := ⟨FAB_LAST_LOST, 16, 0⟩
abbrev FAB_PORT_CFG (p : Nat) : Nat := 0x500100 + 32 * p
abbrev FAB_PORT_CFG_EN (p : Nat) : Fld := ⟨FAB_PORT_CFG p, 31, 31⟩
abbrev FAB_PORT_CFG_KIND (p : Nat) : Fld := ⟨FAB_PORT_CFG p, 30, 30⟩
abbrev FAB_PORT_CFG_MIN_LINKS (p : Nat) : Fld := ⟨FAB_PORT_CFG p, 29, 24⟩
abbrev FAB_PORT_CFG_PEER (p : Nat) : Fld := ⟨FAB_PORT_CFG p, 16, 0⟩
abbrev FAB_PORT_LINKS_LO (p : Nat) : Nat := 0x500104 + 32 * p
abbrev FAB_PORT_LINKS_HI (p : Nat) : Nat := 0x500108 + 32 * p
abbrev FAB_PORT_LINKS_SNAP (p : Nat) : Nat := 0x50010c + 32 * p
abbrev FAB_PORT_STATUS (p : Nat) : Nat := 0x500110 + 32 * p
abbrev FAB_PORT_STATUS_STATE (p : Nat) : Fld := ⟨FAB_PORT_STATUS p, 31, 30⟩
abbrev FAB_PORT_STATUS_LINKS (p : Nat) : Fld := ⟨FAB_PORT_STATUS p, 6, 0⟩
abbrev FAB_PORT_NEIGHBOUR (p : Nat) : Nat := 0x500114 + 32 * p
abbrev FAB_LROUTE0 (m : Nat) : Nat := 0x501000 + 8 * m
abbrev FAB_LROUTE0_VALID (m : Nat) : Fld := ⟨FAB_LROUTE0 m, 31, 31⟩
abbrev FAB_LROUTE0_PORTS (m : Nat) : Fld := ⟨FAB_LROUTE0 m, 15, 0⟩
abbrev FAB_LROUTE1 (m : Nat) : Nat := 0x501004 + 8 * m
abbrev FAB_LROUTE1_LOST (m : Nat) : Fld := ⟨FAB_LROUTE1 m, 31, 31⟩
abbrev FAB_LROUTE1_UNREACH (m : Nat) : Fld := ⟨FAB_LROUTE1 m, 15, 0⟩
abbrev FAB_RROUTE0 (m : Nat) : Nat := 0x502000 + 8 * m
abbrev FAB_RROUTE0_VALID (m : Nat) : Fld := ⟨FAB_RROUTE0 m, 31, 31⟩
abbrev FAB_RROUTE0_PORTS (m : Nat) : Fld := ⟨FAB_RROUTE0 m, 15, 0⟩
abbrev FAB_RROUTE1 (m : Nat) : Nat := 0x502004 + 8 * m
abbrev FAB_RROUTE1_LOST (m : Nat) : Fld := ⟨FAB_RROUTE1 m, 31, 31⟩
abbrev FAB_RROUTE1_UNREACH (m : Nat) : Fld := ⟨FAB_RROUTE1 m, 15, 0⟩

/-! The Hamper block, R259. -/
abbrev HMP_CTRL (n : Nat) : Nat := tileBase n + 0x60000
abbrev HMP_CTRL_KHEAD (n : Nat) : Fld := ⟨HMP_CTRL n, 15, 12⟩
abbrev HMP_CTRL_VHEAD (n : Nat) : Fld := ⟨HMP_CTRL n, 11, 8⟩
abbrev HMP_CTRL_GEOM (n : Nat) : Fld := ⟨HMP_CTRL n, 0, 0⟩
abbrev HMP_AREA (n : Nat) : Nat := tileBase n + 0x60000 + 0x4
abbrev HMP_AREA_BASE (n : Nat) : Fld := ⟨HMP_AREA n, 25, 15⟩
abbrev HMP_AREA_BINS (n : Nat) : Fld := ⟨HMP_AREA n, 10, 0⟩
abbrev HMP_STATUS (n : Nat) : Nat := tileBase n + 0x60000 + 0x8
abbrev HMP_STATUS_BINS_OPEN (n : Nat) : Fld := ⟨HMP_STATUS n, 26, 16⟩
abbrev HMP_STATUS_BINS_RESERVED (n : Nat) : Fld := ⟨HMP_STATUS n, 10, 0⟩
abbrev HMP_PEGQ (n : Nat) : Nat := tileBase n + 0x60000 + 0xc
abbrev HMP_PEGQ_PQ1_DEPTH (n : Nat) : Fld := ⟨HMP_PEGQ n, 26, 16⟩
abbrev HMP_PEGQ_PQ0_DEPTH (n : Nat) : Fld := ⟨HMP_PEGQ n, 10, 0⟩
abbrev HMP_EVENT (n : Nat) : Nat := tileBase n + 0x60000 + 0x10
abbrev HMP_EVENT_MAP_ERR (n : Nat) : Fld := ⟨HMP_EVENT n, 4, 4⟩
abbrev HMP_EVENT_FLUSH_PARTIAL (n : Nat) : Fld := ⟨HMP_EVENT n, 3, 3⟩
abbrev HMP_EVENT_PEG_INVALID (n : Nat) : Fld := ⟨HMP_EVENT n, 2, 2⟩
abbrev HMP_EVENT_PEG_UNDERRUN (n : Nat) : Fld := ⟨HMP_EVENT n, 1, 1⟩
abbrev HMP_EVENT_SAT (n : Nat) : Fld := ⟨HMP_EVENT n, 0, 0⟩
abbrev HMP_EVENT_SEQ (n : Nat) : Nat := tileBase n + 0x60000 + 0x14
abbrev HMP_EVENT_SEQ_SEQ (n : Nat) : Fld := ⟨HMP_EVENT_SEQ n, 15, 0⟩
abbrev HMP_SAT_COUNT (n : Nat) : Nat := tileBase n + 0x60000 + 0x18
abbrev HMP_ZERO_COUNT (n : Nat) : Nat := tileBase n + 0x60000 + 0x1c
abbrev HMP_FLUSH_COUNT (n : Nat) : Nat := tileBase n + 0x60000 + 0x20
abbrev HMP_NULL_COUNT (n : Nat) : Nat := tileBase n + 0x60000 + 0x24
abbrev HMP_PEG_LO (n : Nat) : Nat := tileBase n + 0x60000 + 0x28
abbrev HMP_PEG_HI (n : Nat) : Nat := tileBase n + 0x60000 + 0x2c
abbrev HMP_PEG_SNAP (n : Nat) : Nat := tileBase n + 0x60000 + 0x30

/-! The hub global block. -/
abbrev HUB_ID : Nat := 0x0
abbrev HUB_ID_DEVICE : Fld := ⟨HUB_ID, 31, 16⟩
abbrev HUB_ID_REVISION : Fld := ⟨HUB_ID, 7, 0⟩
abbrev HUB_UID_LO : Nat := 0x4
abbrev HUB_UID_HI : Nat := 0x8
abbrev HUB_UID_SNAP : Nat := 0xc
abbrev HUB_FW_VER_LO : Nat := 0x10
abbrev HUB_FW_VER_HI : Nat := 0x14
abbrev HUB_FW_VER_SNAP : Nat := 0x18
abbrev HUB_BOOT_STATUS : Nat := 0x100
abbrev HUB_BOOT_STATUS_STAGE : Fld := ⟨HUB_BOOT_STATUS, 31, 28⟩
abbrev HUB_BOOT_STATUS_SLOT : Fld := ⟨HUB_BOOT_STATUS, 27, 27⟩
abbrev HUB_BOOT_STATUS_FALLBACK : Fld := ⟨HUB_BOOT_STATUS, 26, 26⟩
abbrev HUB_BOOT_STATUS_SITE_BAD : Fld := ⟨HUB_BOOT_STATUS, 25, 25⟩
abbrev HUB_BOOT_STATUS_ERROR : Fld := ⟨HUB_BOOT_STATUS, 23, 16⟩
abbrev HUB_BOOT_STATUS_SVN : Fld := ⟨HUB_BOOT_STATUS, 12, 0⟩
abbrev HUB_BOOT_MS : Nat := 0x104
abbrev HUB_MBX_CMD : Nat := 0x200
abbrev HUB_MBX_CMD_GO : Fld := ⟨HUB_MBX_CMD, 31, 31⟩
abbrev HUB_MBX_CMD_CODE : Fld := ⟨HUB_MBX_CMD, 15, 0⟩
abbrev HUB_MBX_P (i : Nat) : Nat := 0x204 + 4 * i
abbrev HUB_MBX_STATUS : Nat := 0x224
abbrev HUB_MBX_STATUS_STATUS : Fld := ⟨HUB_MBX_STATUS, 31, 28⟩
abbrev HUB_MBX_STATUS_ABORT_RESULT : Fld := ⟨HUB_MBX_STATUS, 27, 26⟩
abbrev HUB_MBX_STATUS_DETAIL : Fld := ⟨HUB_MBX_STATUS, 23, 16⟩
abbrev HUB_MBX_STATUS_CODE : Fld := ⟨HUB_MBX_STATUS, 15, 0⟩
abbrev HUB_MBX_ABORT : Nat := 0x228
abbrev HUB_MBX_ABORT_GO : Fld := ⟨HUB_MBX_ABORT, 0, 0⟩
abbrev HUB_MBX_CONSUME : Nat := 0x22c
abbrev HUB_MBX_CONSUME_GO : Fld := ⟨HUB_MBX_CONSUME, 0, 0⟩
abbrev HUB_BAR4_SEL : Nat := 0x300
abbrev HUB_BAR4_SEL_TILE : Fld := ⟨HUB_BAR4_SEL, 12, 8⟩
abbrev HUB_BAR4_SEL_WINDOW : Fld := ⟨HUB_BAR4_SEL, 2, 0⟩
abbrev HUB_TILE_INSERVICE : Nat := 0x400
abbrev HUB_TILE_RETIRE : Nat := 0x404
abbrev HUB_TILE_EXIT : Nat := 0x408
abbrev HUB_TILE_EXIT_SEQ : Nat := 0x40c
abbrev HUB_TILE_EXIT_SEQ_SEQ : Fld := ⟨HUB_TILE_EXIT_SEQ, 15, 0⟩
abbrev HUB_SEAM_UP0 : Nat := 0x410
abbrev HUB_SEAM_UP1 : Nat := 0x414
abbrev HUB_SEAM_UP2 : Nat := 0x418
abbrev HUB_SEAM_UP2_SEAM_UP : Fld := ⟨HUB_SEAM_UP2, 7, 0⟩
abbrev HUB_VOTE_CTRL : Nat := 0x480
abbrev HUB_VOTE_CTRL_TIMEOUT : Fld := ⟨HUB_VOTE_CTRL, 15, 0⟩
abbrev HUB_VOTE_STAT : Nat := 0x484
abbrev HUB_VOTE_STAT_ACCEPTED_PASS : Fld := ⟨HUB_VOTE_STAT, 1, 0⟩
abbrev HUB_REPLAY1_COUNT : Nat := 0x488
abbrev HUB_REPLAY2_COUNT : Nat := 0x48c
abbrev HUB_SFAULT_COUNT : Nat := 0x490
abbrev HUB_SHALT_COUNT : Nat := 0x494
abbrev HUB_PANEL_CTRL : Nat := 0x500
abbrev HUB_PANEL_CTRL_DRAIN_MS : Fld := ⟨HUB_PANEL_CTRL, 31, 16⟩
abbrev HUB_PANEL_CTRL_DRAIN_CANCEL : Fld := ⟨HUB_PANEL_CTRL, 2, 2⟩
abbrev HUB_PANEL_CTRL_SVC_ACK : Fld := ⟨HUB_PANEL_CTRL, 1, 1⟩
abbrev HUB_PANEL_CTRL_LOCATE : Fld := ⟨HUB_PANEL_CTRL, 0, 0⟩
abbrev HUB_PANEL_STATUS : Nat := 0x504
abbrev HUB_PANEL_STATUS_LATCH_OPEN : Fld := ⟨HUB_PANEL_STATUS, 31, 31⟩
abbrev HUB_PANEL_STATUS_BUTTON : Fld := ⟨HUB_PANEL_STATUS, 30, 30⟩
abbrev HUB_PANEL_STATUS_DRAIN : Fld := ⟨HUB_PANEL_STATUS, 29, 29⟩
abbrev HUB_PANEL_STATUS_DRAIN_DONE : Fld := ⟨HUB_PANEL_STATUS, 28, 28⟩
abbrev HUB_PANEL_STATUS_SVC_REQ : Fld := ⟨HUB_PANEL_STATUS, 27, 27⟩
abbrev HUB_PANEL_STATUS_TRAY_LOCATE : Fld := ⟨HUB_PANEL_STATUS, 26, 26⟩
abbrev HUB_PANEL_STATUS_LED : Fld := ⟨HUB_PANEL_STATUS, 25, 23⟩
abbrev HUB_PANEL_EVENT : Nat := 0x508
abbrev HUB_PANEL_EVENT_DRAIN_TIMEOUT : Fld := ⟨HUB_PANEL_EVENT, 5, 5⟩
abbrev HUB_PANEL_EVENT_DRAIN_DONE : Fld := ⟨HUB_PANEL_EVENT, 4, 4⟩
abbrev HUB_PANEL_EVENT_LATCH_CLOSED : Fld := ⟨HUB_PANEL_EVENT, 3, 3⟩
abbrev HUB_PANEL_EVENT_LATCH_OPENED : Fld := ⟨HUB_PANEL_EVENT, 2, 2⟩
abbrev HUB_PANEL_EVENT_LONG_PRESS : Fld := ⟨HUB_PANEL_EVENT, 1, 1⟩
abbrev HUB_PANEL_EVENT_BUTTON : Fld := ⟨HUB_PANEL_EVENT, 0, 0⟩
abbrev HUB_PANEL_EVENT_SEQ : Nat := 0x50c
abbrev HUB_PANEL_EVENT_SEQ_SEQ : Fld := ⟨HUB_PANEL_EVENT_SEQ, 15, 0⟩
abbrev HUB_RWB_STEP_LO (g : Nat) : Nat := 0x600 + 16 * g
abbrev HUB_RWB_STEP_HI (g : Nat) : Nat := 0x604 + 16 * g
abbrev HUB_RWB_STEP_HI_VALUE (g : Nat) : Fld := ⟨HUB_RWB_STEP_HI g, 15, 0⟩
abbrev HUB_RWB_STEP_SNAP (g : Nat) : Nat := 0x608 + 16 * g
abbrev HUB_RWB_STEP_SNAP_VALUE (g : Nat) : Fld := ⟨HUB_RWB_STEP_SNAP g, 15, 0⟩
abbrev HUB_PRV_DENY_COUNT : Nat := 0x640
abbrev HUB_PRV_DENY_LAST : Nat := 0x644
abbrev HUB_PRV_DENY_LAST_OFFSET : Fld := ⟨HUB_PRV_DENY_LAST, 25, 0⟩
abbrev HUB_RESET : Nat := 0x700
abbrev HUB_RESET_GO : Fld := ⟨HUB_RESET, 31, 31⟩
abbrev HUB_RESET_KIND : Fld := ⟨HUB_RESET, 30, 30⟩
abbrev HUB_RESET_STATUS : Nat := 0x704
abbrev HUB_RESET_STATUS_LAST : Fld := ⟨HUB_RESET_STATUS, 31, 29⟩
abbrev HUB_RESET_STATUS_WARM_COUNT : Fld := ⟨HUB_RESET_STATUS, 15, 0⟩
abbrev HUB_FATAL_INFO : Nat := 0x708
abbrev HUB_FATAL_INFO_CAUSE : Fld := ⟨HUB_FATAL_INFO, 31, 24⟩
abbrev HUB_FATAL_INFO_ARG : Fld := ⟨HUB_FATAL_INFO, 23, 0⟩
abbrev HUB_DUMP_CTRL : Nat := 0x70c
abbrev HUB_DUMP_CTRL_FATAL_RESET : Fld := ⟨HUB_DUMP_CTRL, 31, 31⟩
abbrev HUB_DUMP_CTRL_DISCARD : Fld := ⟨HUB_DUMP_CTRL, 7, 0⟩
abbrev HUB_DUMP_STATUS : Nat := 0x710
abbrev HUB_DUMP_STATUS_ACTIVE : Fld := ⟨HUB_DUMP_STATUS, 31, 31⟩
abbrev HUB_DUMP_STATUS_NEWEST : Fld := ⟨HUB_DUMP_STATUS, 10, 8⟩
abbrev HUB_DUMP_STATUS_VALID : Fld := ⟨HUB_DUMP_STATUS, 7, 0⟩
abbrev HUB_LOG_HEAD : Nat := 0x720

/-! The interrupt controller, R464. -/
abbrev INT_CTRL : Nat := 0x100000
abbrev INT_CTRL_GEN : Fld := ⟨INT_CTRL, 0, 0⟩
abbrev INT_STATUS : Nat := 0x100004
abbrev INT_STATUS_MSIX_EN : Fld := ⟨INT_STATUS, 31, 31⟩
abbrev INT_STATUS_FMASK : Fld := ⟨INT_STATUS, 30, 30⟩
abbrev INT_STATUS_PENDING : Fld := ⟨INT_STATUS, 9, 0⟩
abbrev INT_FORCE : Nat := 0x100008
abbrev INT_FORCE_SRC : Fld := ⟨INT_FORCE, 9, 0⟩
abbrev INT_PEND_CLR : Nat := 0x10000c
abbrev INT_PEND_CLR_SRC : Fld := ⟨INT_PEND_CLR, 9, 0⟩
abbrev INT_SENT_COUNT : Nat := 0x100010
abbrev INT_PEND (k : Nat) : Nat := 0x100100 + 4 * k
abbrev INT_SRC_CFG (i : Nat) : Nat := 0x101000 + 4 * i
abbrev INT_SRC_CFG_ENABLE (i : Nat) : Fld := ⟨INT_SRC_CFG i, 31, 31⟩
abbrev INT_SRC_CFG_VECTOR (i : Nat) : Fld := ⟨INT_SRC_CFG i, 10, 0⟩

/-! The memory controller block, R196. -/
abbrev MEM_CTRL (n : Nat) : Nat := tileBase n + 0x40000
abbrev MEM_CTRL_REPAIR_EN (n : Nat) : Fld := ⟨MEM_CTRL n, 5, 5⟩
abbrev MEM_CTRL_SCRUB_EN (n : Nat) : Fld := ⟨MEM_CTRL n, 4, 4⟩
abbrev MEM_CTRL_SCRUB_LINES (n : Nat) : Fld := ⟨MEM_CTRL n, 3, 0⟩
abbrev MEM_STATUS (n : Nat) : Nat := tileBase n + 0x40000 + 0x4
abbrev MEM_STATUS_MODE (n : Nat) : Fld := ⟨MEM_STATUS n, 31, 30⟩
abbrev MEM_STATUS_REPAIR_DEPTH (n : Nat) : Fld := ⟨MEM_STATUS n, 22, 16⟩
abbrev MEM_STATUS_CAL_STEP (n : Nat) : Fld := ⟨MEM_STATUS n, 3, 0⟩
abbrev MEM_EVENT (n : Nat) : Nat := tileBase n + 0x40000 + 0x8
abbrev MEM_EVENT_CHAN_FAIL (n : Nat) : Fld := ⟨MEM_EVENT n, 5, 5⟩
abbrev MEM_EVENT_CAL_WARN (n : Nat) : Fld := ⟨MEM_EVENT n, 4, 4⟩
abbrev MEM_EVENT_REPAIR_DROP (n : Nat) : Fld := ⟨MEM_EVENT n, 3, 3⟩
abbrev MEM_EVENT_LINK_UE (n : Nat) : Fld := ⟨MEM_EVENT n, 2, 2⟩
abbrev MEM_EVENT_UE (n : Nat) : Fld := ⟨MEM_EVENT n, 1, 1⟩
abbrev MEM_EVENT_CE_OVER (n : Nat) : Fld := ⟨MEM_EVENT n, 0, 0⟩
abbrev MEM_EVENT_SEQ (n : Nat) : Nat := tileBase n + 0x40000 + 0xc
abbrev MEM_EVENT_SEQ_SEQ (n : Nat) : Fld := ⟨MEM_EVENT_SEQ n, 15, 0⟩
abbrev MEM_CE_LIMIT (n : Nat) : Nat := tileBase n + 0x40000 + 0x10
abbrev MEM_CE_COUNT (n : Nat) : Nat := tileBase n + 0x40000 + 0x14
abbrev MEM_UE_COUNT (n : Nat) : Nat := tileBase n + 0x40000 + 0x18
abbrev MEM_LINK_CE_COUNT (n : Nat) : Nat := tileBase n + 0x40000 + 0x1c
abbrev MEM_LINK_UE_COUNT (n : Nat) : Nat := tileBase n + 0x40000 + 0x20
abbrev MEM_WB_CANCEL_COUNT (n : Nat) : Nat := tileBase n + 0x40000 + 0x24
abbrev MEM_UE_ADDR_LO (n : Nat) : Nat := tileBase n + 0x40000 + 0x28
abbrev MEM_UE_ADDR_LO_OFFSET_LO (n : Nat) : Fld := ⟨MEM_UE_ADDR_LO n, 31, 6⟩
abbrev MEM_UE_ADDR_HI (n : Nat) : Nat := tileBase n + 0x40000 + 0x2c
abbrev MEM_UE_ADDR_HI_SOURCE (n : Nat) : Fld := ⟨MEM_UE_ADDR_HI n, 31, 29⟩
abbrev MEM_UE_ADDR_HI_OFFSET_HI (n : Nat) : Fld := ⟨MEM_UE_ADDR_HI n, 2, 0⟩
abbrev MEM_UE_ADDR_SNAP (n : Nat) : Nat := tileBase n + 0x40000 + 0x30
abbrev MEM_UE_ADDR_SNAP_SOURCE (n : Nat) : Fld := ⟨MEM_UE_ADDR_SNAP n, 31, 29⟩
abbrev MEM_UE_ADDR_SNAP_OFFSET_HI (n : Nat) : Fld := ⟨MEM_UE_ADDR_SNAP n, 2, 0⟩
abbrev MEM_SCRUB_POS (n : Nat) : Nat := tileBase n + 0x40000 + 0x34
abbrev MEM_SCRUB_POS_POS (n : Nat) : Fld := ⟨MEM_SCRUB_POS n, 23, 0⟩
abbrev MEM_SCRUB_PASSES (n : Nat) : Nat := tileBase n + 0x40000 + 0x38
abbrev MEM_DIE_TEMP (n d : Nat) : Nat := tileBase n + 0x40000 + 0x40 + 4 * d
abbrev MEM_DIE_TEMP_TEMP (n d : Nat) : Fld := ⟨MEM_DIE_TEMP n d, 15, 0⟩
abbrev MEM_LEND (n : Nat) : Nat := tileBase n + 0x40000 + 0x60
abbrev MEM_LEND_GRACE (n : Nat) : Fld := ⟨MEM_LEND n, 31, 16⟩
abbrev MEM_LEND_LOW_WATER (n : Nat) : Fld := ⟨MEM_LEND n, 15, 1⟩
abbrev MEM_LEND_LEND (n : Nat) : Fld := ⟨MEM_LEND n, 0, 0⟩
abbrev MEM_POOL_FREE (n : Nat) : Nat := tileBase n + 0x40000 + 0x64
abbrev MEM_POOL_EVICT_COUNT (n : Nat) : Nat := tileBase n + 0x40000 + 0x68
abbrev MEM_POOL_LOST_COUNT (n : Nat) : Nat := tileBase n + 0x40000 + 0x6c
abbrev MEM_KV_PAGES (n : Nat) : Nat := tileBase n + 0x40000 + 0x70
abbrev MEM_KV_RESERVED (n : Nat) : Nat := tileBase n + 0x40000 + 0x74
abbrev MEM_KV_OCCUPIED (n : Nat) : Nat := tileBase n + 0x40000 + 0x78
abbrev MEM_KV_SPILLED (n : Nat) : Nat := tileBase n + 0x40000 + 0x7c
abbrev MEM_SPILL_COUNT (n : Nat) : Nat := tileBase n + 0x40000 + 0x80
abbrev MEM_RETURN_COUNT (n : Nat) : Nat := tileBase n + 0x40000 + 0x84
abbrev MEM_SKIP (n i : Nat) : Nat := tileBase n + 0x40000 + 0x100 + 4 * i
abbrev MEM_SKIP_VALID (n i : Nat) : Fld := ⟨MEM_SKIP n i, 31, 31⟩
abbrev MEM_SKIP_PAGE (n i : Nat) : Fld := ⟨MEM_SKIP n i, 19, 0⟩

/-! The Mangle block, R124. -/
abbrev MGL_STATUS (n : Nat) : Nat := tileBase n + 0x10000
abbrev MGL_STATUS_SHADOW_VALID (n : Nat) : Fld := ⟨MGL_STATUS n, 11, 8⟩
abbrev MGL_STATUS_ACTIVE_VALID (n : Nat) : Fld := ⟨MGL_STATUS n, 7, 4⟩
abbrev MGL_STATUS_BUSY (n : Nat) : Fld := ⟨MGL_STATUS n, 3, 0⟩
abbrev MGL_EVENT (n : Nat) : Nat := tileBase n + 0x10000 + 0x4
abbrev MGL_EVENT_WSCALE_MIX (n : Nat) : Fld := ⟨MGL_EVENT n, 3, 3⟩
abbrev MGL_EVENT_TSCALE_BAD (n : Nat) : Fld := ⟨MGL_EVENT n, 2, 2⟩
abbrev MGL_EVENT_PANEL_ERR (n : Nat) : Fld := ⟨MGL_EVENT n, 1, 1⟩
abbrev MGL_EVENT_MASK_ERR (n : Nat) : Fld := ⟨MGL_EVENT n, 0, 0⟩
abbrev MGL_EVENT_SEQ (n : Nat) : Nat := tileBase n + 0x10000 + 0x8
abbrev MGL_EVENT_SEQ_SEQ (n : Nat) : Fld := ⟨MGL_EVENT_SEQ n, 15, 0⟩
abbrev MGL_ERR_INFO (n : Nat) : Nat := tileBase n + 0x10000 + 0xc
abbrev MGL_ERR_INFO_MANGLE (n : Nat) : Fld := ⟨MGL_ERR_INFO n, 31, 30⟩
abbrev MGL_ERR_INFO_CAUSE (n : Nat) : Fld := ⟨MGL_ERR_INFO n, 29, 28⟩
abbrev MGL_ERR_INFO_WTID (n : Nat) : Fld := ⟨MGL_ERR_INFO n, 11, 0⟩
abbrev MGL_FB_MAP (n i : Nat) : Nat := tileBase n + 0x10000 + 0x100 + 4 * i

/-! The optical-engine blocks, R360. -/
abbrev OEC_STATUS (k : Nat) : Nat := oeBase k
abbrev OEC_STATUS_PBERT_NEXT (k : Nat) : Fld := ⟨OEC_STATUS k, 4, 2⟩
abbrev OEC_STATUS_LASER1_OK (k : Nat) : Fld := ⟨OEC_STATUS k, 1, 1⟩
abbrev OEC_STATUS_LASER0_OK (k : Nat) : Fld := ⟨OEC_STATUS k, 0, 0⟩
abbrev OEC_EVENT (k : Nat) : Nat := oeBase k + 0x4
abbrev OEC_EVENT_PBERT_FAIL (k : Nat) : Fld := ⟨OEC_EVENT k, 3, 3⟩
abbrev OEC_EVENT_MISWIRED (k : Nat) : Fld := ⟨OEC_EVENT k, 2, 2⟩
abbrev OEC_EVENT_LASER_LOSS (k : Nat) : Fld := ⟨OEC_EVENT k, 1, 1⟩
abbrev OEC_EVENT_LINK_DOWN (k : Nat) : Fld := ⟨OEC_EVENT k, 0, 0⟩
abbrev OEC_EVENT_SEQ (k : Nat) : Nat := oeBase k + 0x8
abbrev OEC_EVENT_SEQ_SEQ (k : Nat) : Fld := ⟨OEC_EVENT_SEQ k, 15, 0⟩
abbrev OEC_PBERT_SKIP_COUNT (k : Nat) : Nat := oeBase k + 0xc
abbrev OEC_LINK_STATUS (k i : Nat) : Nat := oeBase k + 0x1000 + 256 * i
abbrev OEC_LINK_STATUS_STATE (k i : Nat) : Fld := ⟨OEC_LINK_STATUS k i, 31, 28⟩
abbrev OEC_LINK_STATUS_CAUSE (k i : Nat) : Fld := ⟨OEC_LINK_STATUS k i, 27, 24⟩
abbrev OEC_LINK_STATUS_SIGNAL (k i : Nat) : Fld := ⟨OEC_LINK_STATUS k i, 15, 8⟩
abbrev OEC_LINK_CTRL (k i : Nat) : Nat := oeBase k + 0x1004 + 256 * i
abbrev OEC_LINK_CTRL_DISABLE (k i : Nat) : Fld := ⟨OEC_LINK_CTRL k i, 31, 31⟩
abbrev OEC_LINK_PEER (k i : Nat) : Nat := oeBase k + 0x1008 + 256 * i
abbrev OEC_LINK_PEER_INFO (k i : Nat) : Nat := oeBase k + 0x100c + 256 * i
abbrev OEC_LINK_PEER_INFO_SLICE (k i : Nat) : Fld := ⟨OEC_LINK_PEER_INFO k i, 31, 16⟩
abbrev OEC_LINK_PEER_INFO_LINK (k i : Nat) : Fld := ⟨OEC_LINK_PEER_INFO k i, 7, 0⟩
abbrev OEC_LINK_FEC_CORR (k i : Nat) : Nat := oeBase k + 0x1010 + 256 * i
abbrev OEC_LINK_FEC_UNCORR (k i : Nat) : Nat := oeBase k + 0x1014 + 256 * i
abbrev OEC_LINK_REPLAY (k i : Nat) : Nat := oeBase k + 0x1018 + 256 * i
abbrev OEC_LINK_DOWN_COUNT (k i : Nat) : Nat := oeBase k + 0x101c + 256 * i
abbrev OEC_LINK_BERT_ERR (k i w : Nat) : Nat := oeBase k + 0x1020 + 256 * i + 4 * w
abbrev OEC_LINK_BERT_BITS_LO (k i : Nat) : Nat := oeBase k + 0x1040 + 256 * i
abbrev OEC_LINK_BERT_BITS_HI (k i : Nat) : Nat := oeBase k + 0x1044 + 256 * i
abbrev OEC_LINK_BERT_BITS_SNAP (k i : Nat) : Nat := oeBase k + 0x1048 + 256 * i
abbrev OEC_LINK_BERT_INFO (k i : Nat) : Nat := oeBase k + 0x104c + 256 * i
abbrev OEC_LINK_BERT_INFO_KIND (k i : Nat) : Fld := ⟨OEC_LINK_BERT_INFO k i, 31, 30⟩
abbrev OEC_LINK_BERT_INFO_RESULT (k i : Nat) : Fld := ⟨OEC_LINK_BERT_INFO k i, 29, 27⟩
abbrev OEC_LINK_PBERT_YIELD (k i : Nat) : Nat := oeBase k + 0x1050 + 256 * i
abbrev OEC_LINK_PBERT_YIELD_RUN (k i : Nat) : Fld := ⟨OEC_LINK_PBERT_YIELD k i, 7, 0⟩

/-! The counter blocks, R470. -/
abbrev PMC_CNT_LO (b i : Nat) : Nat := b + 16 * i
abbrev PMC_CNT_HI (b i : Nat) : Nat := b + 0x4 + 16 * i
abbrev PMC_CNT_HI_VALUE (b i : Nat) : Fld := ⟨PMC_CNT_HI b i, 7, 0⟩
abbrev PMC_CNT_SNAP (b i : Nat) : Nat := b + 0x8 + 16 * i
abbrev PMC_CNT_SNAP_VALUE (b i : Nat) : Fld := ⟨PMC_CNT_SNAP b i, 7, 0⟩
abbrev PMC_SEL (b i : Nat) : Nat := b + 0x200 + 4 * i
abbrev PMC_SEL_EVENT (b i : Nat) : Fld := ⟨PMC_SEL b i, 7, 0⟩
abbrev PMC_CHAIN (b : Nat) : Nat := b + 0x280
abbrev PMC_CHAIN_CHAIN (b : Nat) : Fld := ⟨PMC_CHAIN b, 15, 0⟩
abbrev PMC_SNAP_CMD (b : Nat) : Nat := b + 0x284
abbrev PMC_SNAP_CMD_GO (b : Nat) : Fld := ⟨PMC_SNAP_CMD b, 31, 31⟩
abbrev PMC_SNAP_CMD_LAST_SRC (b : Nat) : Fld := ⟨PMC_SNAP_CMD b, 1, 0⟩
abbrev PMC_OVF (b : Nat) : Nat := b + 0x288
abbrev PMC_OVF_SEQ (b : Nat) : Nat := b + 0x28c
abbrev PMC_OVF_SEQ_SEQ (b : Nat) : Fld := ⟨PMC_OVF_SEQ b, 15, 0⟩
abbrev PMC_SH_INFO (b : Nat) : Nat := b + 0x290
abbrev PMC_SH_INFO_SNAPSEQ (b : Nat) : Fld := ⟨PMC_SH_INFO b, 31, 16⟩
abbrev PMC_SH_INFO_MARKER (b : Nat) : Fld := ⟨PMC_SH_INFO b, 15, 0⟩
abbrev PMC_SH_CYCLE (b : Nat) : Nat := b + 0x294
abbrev PMC_SH_TIME_LO (b : Nat) : Nat := b + 0x298
abbrev PMC_SH_TIME_HI (b : Nat) : Nat := b + 0x29c
abbrev PMC_SH_TIME_SNAP (b : Nat) : Nat := b + 0x2a0
abbrev PMC_SH_LO (b i : Nat) : Nat := b + 0x400 + 16 * i
abbrev PMC_SH_HI (b i : Nat) : Nat := b + 0x404 + 16 * i
abbrev PMC_SH_HI_VALUE (b i : Nat) : Fld := ⟨PMC_SH_HI b i, 7, 0⟩

/-! The power and thermal block, R416. -/
abbrev PWR_STATUS : Nat := 0x300000
abbrev PWR_STATUS_LEASE_VALID : Fld := ⟨PWR_STATUS, 31, 31⟩
abbrev PWR_STATUS_FLOOR : Fld := ⟨PWR_STATUS, 30, 30⟩
abbrev PWR_STATUS_UV_WARN : Fld := ⟨PWR_STATUS, 29, 29⟩
abbrev PWR_STATUS_STEP : Fld := ⟨PWR_STATUS, 20, 16⟩
abbrev PWR_STATUS_BUDGET_W : Fld := ⟨PWR_STATUS, 15, 0⟩
abbrev PWR_LEASE_PEND : Nat := 0x300004
abbrev PWR_LEASE_PEND_PENDING : Fld := ⟨PWR_LEASE_PEND, 31, 31⟩
abbrev PWR_LEASE_PEND_BUDGET_W : Fld := ⟨PWR_LEASE_PEND, 15, 0⟩
abbrev PWR_LEASE_SEQ : Nat := 0x300008
abbrev PWR_LEASE_SEQ_SEQ : Fld := ⟨PWR_LEASE_SEQ, 15, 0⟩
abbrev PWR_LEASE_EXP_LO : Nat := 0x30000c
abbrev PWR_LEASE_EXP_HI : Nat := 0x300010
abbrev PWR_LEASE_EXP_SNAP : Nat := 0x300014
abbrev PWR_CAP : Nat := 0x300018
abbrev PWR_CAP_CAP_W : Fld := ⟨PWR_CAP, 15, 0⟩
abbrev PWR_CTRL : Nat := 0x30001c
abbrev PWR_CTRL_TJ_THROTTLE : Fld := ⟨PWR_CTRL, 31, 24⟩
abbrev PWR_CTRL_DRAM_THROTTLE : Fld := ⟨PWR_CTRL, 23, 16⟩
abbrev PWR_CTRL_MIN_STEP : Fld := ⟨PWR_CTRL, 12, 8⟩
abbrev PWR_CTRL_IIN_LIMIT : Fld := ⟨PWR_CTRL, 7, 0⟩
abbrev PWR_PFIX : Nat := 0x300020
abbrev PWR_PFIX_PFIX_W : Fld := ⟨PWR_PFIX, 15, 0⟩
abbrev PWR_UV : Nat := 0x300024
abbrev PWR_UV_WARN_MV : Fld := ⟨PWR_UV, 15, 0⟩
abbrev PWR_VIN : Nat := 0x300028
abbrev PWR_VIN_VALUE : Fld := ⟨PWR_VIN, 15, 0⟩
abbrev PWR_IIN : Nat := 0x30002c
abbrev PWR_IIN_VALUE : Fld := ⟨PWR_IIN, 15, 0⟩
abbrev PWR_PIN : Nat := 0x300030
abbrev PWR_PIN_VALUE : Fld := ⟨PWR_PIN, 15, 0⟩
abbrev PWR_TEMP : Nat := 0x300034
abbrev PWR_TEMP_DRAM_MAX : Fld := ⟨PWR_TEMP, 31, 16⟩
abbrev PWR_TEMP_DIE_MAX : Fld := ⟨PWR_TEMP, 15, 0⟩
abbrev PWR_EVENT : Nat := 0x300038
abbrev PWR_EVENT_STOP_SEEN : Fld := ⟨PWR_EVENT, 5, 5⟩
abbrev PWR_EVENT_CURRENT : Fld := ⟨PWR_EVENT, 4, 4⟩
abbrev PWR_EVENT_THERMAL_DRAM : Fld := ⟨PWR_EVENT, 3, 3⟩
abbrev PWR_EVENT_THERMAL_TILE : Fld := ⟨PWR_EVENT, 2, 2⟩
abbrev PWR_EVENT_UV_WARN : Fld := ⟨PWR_EVENT, 1, 1⟩
abbrev PWR_EVENT_LEASE_EXPIRED : Fld := ⟨PWR_EVENT, 0, 0⟩
abbrev PWR_EVENT_SEQ : Nat := 0x30003c
abbrev PWR_EVENT_SEQ_SEQ : Fld := ⟨PWR_EVENT_SEQ, 15, 0⟩
abbrev PWR_STOP_CAUSE : Nat := 0x300040
abbrev PWR_STOP_CAUSE_FIRST : Fld := ⟨PWR_STOP_CAUSE, 31, 24⟩
abbrev PWR_STOP_CAUSE_MASK : Fld := ⟨PWR_STOP_CAUSE, 7, 0⟩
abbrev PWR_THR_LO (i : Nat) : Nat := 0x300100 + 16 * i
abbrev PWR_THR_HI (i : Nat) : Nat := 0x300104 + 16 * i
abbrev PWR_THR_SNAP (i : Nat) : Nat := 0x300108 + 16 * i

/-! The tile power block, R417. -/
abbrev PWR_TSTATUS (n : Nat) : Nat := tileBase n + 0xB0000
abbrev PWR_TSTATUS_VCORE_MV (n : Nat) : Fld := ⟨PWR_TSTATUS n, 31, 16⟩
abbrev PWR_TSTATUS_STEP (n : Nat) : Fld := ⟨PWR_TSTATUS n, 4, 0⟩
abbrev PWR_TDROOP (n : Nat) : Nat := tileBase n + 0xB0000 + 0x4
abbrev PWR_TDROOP_HOLD (n : Nat) : Fld := ⟨PWR_TDROOP n, 15, 8⟩
abbrev PWR_TDROOP_TH_MV (n : Nat) : Fld := ⟨PWR_TDROOP n, 5, 0⟩
abbrev PWR_TSTRETCH_LO (n : Nat) : Nat := tileBase n + 0xB0000 + 0x8
abbrev PWR_TSTRETCH_HI (n : Nat) : Nat := tileBase n + 0xB0000 + 0xc
abbrev PWR_TSTRETCH_SNAP (n : Nat) : Nat := tileBase n + 0xB0000 + 0x10
abbrev PWR_TDROOP_COUNT (n : Nat) : Nat := tileBase n + 0xB0000 + 0x14
abbrev PWR_TTEMP (n i : Nat) : Nat := tileBase n + 0xB0000 + 0x20 + 4 * i
abbrev PWR_TTEMP_TEMP (n i : Nat) : Fld := ⟨PWR_TTEMP n i, 15, 0⟩

/-! The quantiser block, R82. -/
abbrev QNT_CTRL (n : Nat) : Nat := tileBase n + 0x30000
abbrev QNT_CTRL_HEADROOM (n : Nat) : Fld := ⟨QNT_CTRL n, 11, 8⟩
abbrev QNT_CTRL_STOCH_EN (n : Nat) : Fld := ⟨QNT_CTRL n, 1, 1⟩
abbrev QNT_CTRL_REPLAY_EN (n : Nat) : Fld := ⟨QNT_CTRL n, 0, 0⟩
abbrev QNT_LIMITS (n : Nat) : Nat := tileBase n + 0x30000 + 0x4
abbrev QNT_LIMITS_TROUBLE_LIMIT (n : Nat) : Fld := ⟨QNT_LIMITS n, 31, 16⟩
abbrev QNT_LIMITS_ZERO_LIMIT (n : Nat) : Fld := ⟨QNT_LIMITS n, 5, 0⟩
abbrev QNT_TABLE_BASE (n : Nat) : Nat := tileBase n + 0x30000 + 0x8
abbrev QNT_TABLE_BASE_BASE (n : Nat) : Fld := ⟨QNT_TABLE_BASE n, 25, 17⟩
abbrev QNT_VOTE_BASE (n : Nat) : Nat := tileBase n + 0x30000 + 0xc
abbrev QNT_VOTE_BASE_BASE (n : Nat) : Fld := ⟨QNT_VOTE_BASE n, 25, 15⟩
abbrev QNT_LFSR_SEED (n : Nat) : Nat := tileBase n + 0x30000 + 0x10
abbrev QNT_LFSR_STATE (n : Nat) : Nat := tileBase n + 0x30000 + 0x14
abbrev QNT_STEP_STATUS (n : Nat) : Nat := tileBase n + 0x30000 + 0x18
abbrev QNT_STEP_STATUS_PASS (n : Nat) : Fld := ⟨QNT_STEP_STATUS n, 31, 30⟩
abbrev QNT_STEP_STATUS_TROUBLE (n : Nat) : Fld := ⟨QNT_STEP_STATUS n, 29, 29⟩
abbrev QNT_STEP_STATUS_NAN_SEEN (n : Nat) : Fld := ⟨QNT_STEP_STATUS n, 28, 28⟩
abbrev QNT_STEP_STATUS_TSCALE_BAD (n : Nat) : Fld := ⟨QNT_STEP_STATUS n, 27, 27⟩
abbrev QNT_STEP_STATUS_TROUBLED_TENSORS (n : Nat) : Fld := ⟨QNT_STEP_STATUS n, 12, 0⟩
abbrev QNT_EVENT (n : Nat) : Nat := tileBase n + 0x30000 + 0x1c
abbrev QNT_EVENT_TSCALE_BAD (n : Nat) : Fld := ⟨QNT_EVENT n, 2, 2⟩
abbrev QNT_EVENT_NAN (n : Nat) : Fld := ⟨QNT_EVENT n, 1, 1⟩
abbrev QNT_EVENT_TROUBLE (n : Nat) : Fld := ⟨QNT_EVENT n, 0, 0⟩
abbrev QNT_EVENT_SEQ (n : Nat) : Nat := tileBase n + 0x30000 + 0x20
abbrev QNT_EVENT_SEQ_SEQ (n : Nat) : Fld := ⟨QNT_EVENT_SEQ n, 15, 0⟩

/-! The seam block, R45. -/
abbrev SEAM_STATUS (n : Nat) : Nat := tileBase n + 0x80000
abbrev SEAM_STATUS_PRESENT (n : Nat) : Fld := ⟨SEAM_STATUS n, 11, 8⟩
abbrev SEAM_STATUS_UP (n : Nat) : Fld := ⟨SEAM_STATUS n, 3, 0⟩
abbrev SEAM_EVENT (n : Nat) : Nat := tileBase n + 0x80000 + 0x4
abbrev SEAM_EVENT_LOST (n : Nat) : Fld := ⟨SEAM_EVENT n, 1, 1⟩
abbrev SEAM_EVENT_DOWN (n : Nat) : Fld := ⟨SEAM_EVENT n, 0, 0⟩
abbrev SEAM_EVENT_SEQ (n : Nat) : Nat := tileBase n + 0x80000 + 0x8
abbrev SEAM_EVENT_SEQ_SEQ (n : Nat) : Fld := ⟨SEAM_EVENT_SEQ n, 15, 0⟩
abbrev SEAM_PASS_LO (n : Nat) : Nat := tileBase n + 0x80000 + 0x10
abbrev SEAM_PASS_HI (n : Nat) : Nat := tileBase n + 0x80000 + 0x14
abbrev SEAM_PASS_SNAP (n : Nat) : Nat := tileBase n + 0x80000 + 0x18
abbrev SEAM_PORT_RETRY (n d : Nat) : Nat := tileBase n + 0x80000 + 0x100 + 16 * d
abbrev SEAM_PORT_DOWN_COUNT (n d : Nat) : Nat := tileBase n + 0x80000 + 0x104 + 16 * d
abbrev SEAM_PORT_ERR_RESP (n d : Nat) : Nat := tileBase n + 0x80000 + 0x108 + 16 * d
abbrev SEAM_PORT_ID (n d : Nat) : Nat := tileBase n + 0x80000 + 0x10c + 16 * d
abbrev SEAM_PORT_ID_SEAM (n d : Nat) : Fld := ⟨SEAM_PORT_ID n d, 6, 0⟩

/-! The security block, R439, R444. -/
abbrev SEC_FLOOR : Nat := 0x400004
abbrev SEC_FLOOR_REVOKED : Fld := ⟨SEC_FLOOR, 19, 16⟩
abbrev SEC_FLOOR_FLOOR : Fld := ⟨SEC_FLOOR, 13, 0⟩
abbrev SEC_SLOTA : Nat := 0x400008
abbrev SEC_SLOTA_BOOTABLE : Fld := ⟨SEC_SLOTA, 31, 31⟩
abbrev SEC_SLOTA_BOOTED : Fld := ⟨SEC_SLOTA, 30, 30⟩
abbrev SEC_SLOTA_REASON : Fld := ⟨SEC_SLOTA, 27, 24⟩
abbrev SEC_SLOTA_SVN : Fld := ⟨SEC_SLOTA, 12, 0⟩
abbrev SEC_SLOTB : Nat := 0x40000c
abbrev SEC_SLOTB_BOOTABLE : Fld := ⟨SEC_SLOTB, 31, 31⟩
abbrev SEC_SLOTB_BOOTED : Fld := ⟨SEC_SLOTB, 30, 30⟩
abbrev SEC_SLOTB_REASON : Fld := ⟨SEC_SLOTB, 27, 24⟩
abbrev SEC_SLOTB_SVN : Fld := ⟨SEC_SLOTB, 12, 0⟩
abbrev SEC_EVENT : Nat := 0x400010
abbrev SEC_EVENT_FLASH_ERR : Fld := ⟨SEC_EVENT, 2, 2⟩
abbrev SEC_EVENT_GRANT_END : Fld := ⟨SEC_EVENT, 1, 1⟩
abbrev SEC_EVENT_GRANT_START : Fld := ⟨SEC_EVENT, 0, 0⟩
abbrev SEC_EVENT_SEQ : Nat := 0x400014
abbrev SEC_EVENT_SEQ_SEQ : Fld := ⟨SEC_EVENT_SEQ, 15, 0⟩
abbrev SEC_GRANT : Nat := 0x400000
abbrev SEC_GRANT_HELD : Fld := ⟨SEC_GRANT, 31, 31⟩
abbrev SEC_GRANT_RELEASE : Fld := ⟨SEC_GRANT, 0, 0⟩

/-! The serving block, R324. -/
abbrev SRV_CTRL : Nat := 0x200000
abbrev SRV_CTRL_ADMIT_MAX : Fld := ⟨SRV_CTRL, 15, 0⟩
abbrev SRV_EVENT : Nat := 0x200004
abbrev SRV_EVENT_LEAD_LOST : Fld := ⟨SRV_EVENT, 4, 4⟩
abbrev SRV_EVENT_CANCEL_UNKNOWN : Fld := ⟨SRV_EVENT, 3, 3⟩
abbrev SRV_EVENT_CQ_STALL : Fld := ⟨SRV_EVENT, 2, 2⟩
abbrev SRV_EVENT_BAD_CQ : Fld := ⟨SRV_EVENT, 1, 1⟩
abbrev SRV_EVENT_BAD_DOORBELL : Fld := ⟨SRV_EVENT, 0, 0⟩
abbrev SRV_EVENT_SEQ : Nat := 0x200008
abbrev SRV_EVENT_SEQ_SEQ : Fld := ⟨SRV_EVENT_SEQ, 15, 0⟩
abbrev SRV_CQ_BOUND : Nat := 0x20000c
abbrev SRV_CQ_BOUND_MS : Fld := ⟨SRV_CQ_BOUND, 15, 0⟩
abbrev SRV_SEQ_LIVE : Nat := 0x200010
abbrev SRV_SEQ_LIVE_COUNT : Fld := ⟨SRV_SEQ_LIVE, 14, 0⟩
abbrev SRV_ADMIT_COUNT : Nat := 0x200014
abbrev SRV_REFUSE_COUNT : Nat := 0x200018
abbrev SRV_CANCEL_UNKNOWN_COUNT : Nat := 0x20001c
abbrev SRV_TOKENS_LO : Nat := 0x200020
abbrev SRV_TOKENS_HI : Nat := 0x200024
abbrev SRV_TOKENS_SNAP : Nat := 0x200028
abbrev SRV_CUST_SNAP : Nat := 0x20002c
abbrev SRV_GROUP_STATE (g : Nat) : Nat := 0x200100 + 64 * g
abbrev SRV_GROUP_STATE_STATE (g : Nat) : Fld := ⟨SRV_GROUP_STATE g, 31, 29⟩
abbrev SRV_GROUP_STATE_LEAD (g : Nat) : Fld := ⟨SRV_GROUP_STATE g, 28, 28⟩
abbrev SRV_GROUP_STATE_GEN_FIRST (g : Nat) : Fld := ⟨SRV_GROUP_STATE g, 27, 27⟩
abbrev SRV_GROUP_STATE_EPOCH (g : Nat) : Fld := ⟨SRV_GROUP_STATE g, 15, 0⟩
abbrev SRV_GROUP_CTRL (g : Nat) : Nat := 0x200104 + 64 * g
abbrev SRV_GROUP_CTRL_GEN_FIRST (g : Nat) : Fld := ⟨SRV_GROUP_CTRL g, 31, 31⟩
abbrev SRV_GROUP_CTRL_GF_STEPS (g : Nat) : Fld := ⟨SRV_GROUP_CTRL g, 15, 0⟩
abbrev SRV_GROUP_SHARE (g : Nat) : Nat := 0x200108 + 64 * g
abbrev SRV_GROUP_SHARE_S_MIN (g : Nat) : Fld := ⟨SRV_GROUP_SHARE g, 31, 24⟩
abbrev SRV_GROUP_SHARE_S_MAX (g : Nat) : Fld := ⟨SRV_GROUP_SHARE g, 23, 16⟩
abbrev SRV_GROUP_SHARE_UP (g : Nat) : Fld := ⟨SRV_GROUP_SHARE g, 15, 12⟩
abbrev SRV_GROUP_SHARE_DOWN (g : Nat) : Fld := ⟨SRV_GROUP_SHARE g, 11, 8⟩
abbrev SRV_GROUP_SHARE_S (g : Nat) : Fld := ⟨SRV_GROUP_SHARE g, 7, 0⟩
abbrev SRV_GROUP_PTARGET (g : Nat) : Nat := 0x20010c + 64 * g
abbrev SRV_GROUP_MINPERIOD (g : Nat) : Nat := 0x200110 + 64 * g
abbrev SRV_GROUP_BE_FLOOR (g : Nat) : Nat := 0x200114 + 64 * g
abbrev SRV_GROUP_BE_FLOOR_ENTRIES (g : Nat) : Fld := ⟨SRV_GROUP_BE_FLOOR g, 14, 0⟩
abbrev SRV_GROUP_STEP_LO (g : Nat) : Nat := 0x200118 + 64 * g
abbrev SRV_GROUP_STEP_HI (g : Nat) : Nat := 0x20011c + 64 * g
abbrev SRV_GROUP_STEP_SNAP (g : Nat) : Nat := 0x200120 + 64 * g
abbrev SRV_GROUP_LEAD_TIMEOUT (g : Nat) : Nat := 0x200124 + 64 * g
abbrev SRV_GROUP_LEAD_TIMEOUT_MS (g : Nat) : Fld := ⟨SRV_GROUP_LEAD_TIMEOUT g, 15, 0⟩
abbrev SRV_GROUP_STEP_NS (g : Nat) : Nat := 0x200128 + 64 * g
abbrev SRV_SQ_CFG (q : Nat) : Nat := 0x201000 + 32 * q
abbrev SRV_SQ_CFG_ENABLE (q : Nat) : Fld := ⟨SRV_SQ_CFG q, 31, 31⟩
abbrev SRV_SQ_CFG_SIZE (q : Nat) : Fld := ⟨SRV_SQ_CFG q, 2, 0⟩
abbrev SRV_SQ_HEAD (q : Nat) : Nat := 0x201004 + 32 * q
abbrev SRV_SQ_HEAD_HEAD (q : Nat) : Fld := ⟨SRV_SQ_HEAD q, 11, 0⟩
abbrev SRV_CQ_CFG (q : Nat) : Nat := 0x201008 + 32 * q
abbrev SRV_CQ_CFG_ENABLE (q : Nat) : Fld := ⟨SRV_CQ_CFG q, 31, 31⟩
abbrev SRV_CQ_CFG_VECTOR (q : Nat) : Fld := ⟨SRV_CQ_CFG q, 26, 16⟩
abbrev SRV_CQ_CFG_SIZE (q : Nat) : Fld := ⟨SRV_CQ_CFG q, 3, 0⟩
abbrev SRV_CQ_BASE_LO (q : Nat) : Nat := 0x20100c + 32 * q
abbrev SRV_CQ_BASE_LO_VALUE (q : Nat) : Fld := ⟨SRV_CQ_BASE_LO q, 31, 12⟩
abbrev SRV_CQ_BASE_HI (q : Nat) : Nat := 0x201010 + 32 * q
abbrev SRV_CQ_BASE_SNAP (q : Nat) : Nat := 0x201014 + 32 * q
abbrev SRV_CQ_TAIL (q : Nat) : Nat := 0x201018 + 32 * q
abbrev SRV_CQ_TAIL_PHASE (q : Nat) : Fld := ⟨SRV_CQ_TAIL q, 31, 31⟩
abbrev SRV_CQ_TAIL_TAIL (q : Nat) : Fld := ⟨SRV_CQ_TAIL q, 15, 0⟩
abbrev SRV_CQ_HELD (q : Nat) : Nat := 0x20101c + 32 * q
abbrev SRV_CQ_HELD_COUNT (q : Nat) : Fld := ⟨SRV_CQ_HELD q, 14, 0⟩

/-! The Stitch units, R475. -/
abbrev STC_CFG (b : Nat) : Nat := b
abbrev STC_CFG_WIDTH (b : Nat) : Fld := ⟨STC_CFG b, 31, 30⟩
abbrev STC_CFG_REFIN (b : Nat) : Fld := ⟨STC_CFG b, 29, 29⟩
abbrev STC_CFG_REFOUT (b : Nat) : Fld := ⟨STC_CFG b, 28, 28⟩
abbrev STC_CFG_FOLD (b : Nat) : Fld := ⟨STC_CFG b, 27, 26⟩
abbrev STC_CFG_FOLD_SHIFT (b : Nat) : Fld := ⟨STC_CFG b, 25, 20⟩
abbrev STC_POLY_LO (b : Nat) : Nat := b + 0x4
abbrev STC_POLY_HI (b : Nat) : Nat := b + 0x8
abbrev STC_POLY_SNAP (b : Nat) : Nat := b + 0xc
abbrev STC_INIT_LO (b : Nat) : Nat := b + 0x10
abbrev STC_INIT_HI (b : Nat) : Nat := b + 0x14
abbrev STC_INIT_SNAP (b : Nat) : Nat := b + 0x18
abbrev STC_XOROUT_LO (b : Nat) : Nat := b + 0x1c
abbrev STC_XOROUT_HI (b : Nat) : Nat := b + 0x20
abbrev STC_XOROUT_SNAP (b : Nat) : Nat := b + 0x24
abbrev STC_SRC_LO (b : Nat) : Nat := b + 0x28
abbrev STC_SRC_HI (b : Nat) : Nat := b + 0x2c
abbrev STC_SRC_SNAP (b : Nat) : Nat := b + 0x30
abbrev STC_LEN (b : Nat) : Nat := b + 0x34
abbrev STC_SEQ (b : Nat) : Nat := b + 0x38
abbrev STC_CMD (b : Nat) : Nat := b + 0x3c
abbrev STC_CMD_GO (b : Nat) : Fld := ⟨STC_CMD b, 31, 31⟩
abbrev STC_CMD_KIND (b : Nat) : Fld := ⟨STC_CMD b, 1, 0⟩
abbrev STC_STATUS (b : Nat) : Nat := b + 0x40
abbrev STC_STATUS_STATE (b : Nat) : Fld := ⟨STC_STATUS b, 31, 29⟩
abbrev STC_STATUS_OWN (b : Nat) : Fld := ⟨STC_STATUS b, 28, 28⟩
abbrev STC_STATUS_ERR (b : Nat) : Fld := ⟨STC_STATUS b, 27, 24⟩
abbrev STC_RESULT_LO (b : Nat) : Nat := b + 0x44
abbrev STC_RESULT_HI (b : Nat) : Nat := b + 0x48
abbrev STC_RESULT_SNAP (b : Nat) : Nat := b + 0x4c
abbrev STC_FOLD_LO (b : Nat) : Nat := b + 0x50
abbrev STC_FOLD_HI (b : Nat) : Nat := b + 0x54
abbrev STC_FOLD_SNAP (b : Nat) : Nat := b + 0x58
abbrev STC_EVENT (b : Nat) : Nat := b + 0x5c
abbrev STC_EVENT_ERR (b : Nat) : Fld := ⟨STC_EVENT b, 1, 1⟩
abbrev STC_EVENT_DONE (b : Nat) : Fld := ⟨STC_EVENT b, 0, 0⟩
abbrev STC_EVENT_SEQ (b : Nat) : Nat := b + 0x60
abbrev STC_EVENT_SEQ_SEQ (b : Nat) : Fld := ⟨STC_EVENT_SEQ b, 15, 0⟩

/-! The tile control block, R156. -/
abbrev TCTL_PASS_STATUS (n : Nat) : Nat := tileBase n
abbrev TCTL_PASS_STATUS_STATE (n : Nat) : Fld := ⟨TCTL_PASS_STATUS n, 31, 30⟩
abbrev TCTL_PASS_STATUS_RERUN (n : Nat) : Fld := ⟨TCTL_PASS_STATUS n, 29, 29⟩
abbrev TCTL_PASS_STATUS_FB_HALF (n : Nat) : Fld := ⟨TCTL_PASS_STATUS n, 28, 28⟩
abbrev TCTL_PASS_STATUS_PASS_SEQ (n : Nat) : Fld := ⟨TCTL_PASS_STATUS n, 15, 0⟩
abbrev TCTL_ROTA (n : Nat) : Nat := tileBase n + 0x4
abbrev TCTL_ROTA_BEAT (n : Nat) : Fld := ⟨TCTL_ROTA n, 20, 16⟩
abbrev TCTL_ROTA_PHASE (n : Nat) : Fld := ⟨TCTL_ROTA n, 15, 8⟩
abbrev TCTL_ROTA_HOME_W (n : Nat) : Fld := ⟨TCTL_ROTA n, 1, 0⟩
abbrev TCTL_PASS_LEN (n : Nat) : Nat := tileBase n + 0x8
abbrev TCTL_SFAULT_INFO (n : Nat) : Nat := tileBase n + 0xc
abbrev TCTL_SFAULT_INFO_CAUSE (n : Nat) : Fld := ⟨TCTL_SFAULT_INFO n, 31, 24⟩
abbrev TCTL_SFAULT_INFO_STREAM (n : Nat) : Fld := ⟨TCTL_SFAULT_INFO n, 23, 21⟩
abbrev TCTL_SFAULT_INFO_INDEX (n : Nat) : Fld := ⟨TCTL_SFAULT_INFO n, 17, 0⟩
abbrev TCTL_SFAULT_CYCLE (n : Nat) : Nat := tileBase n + 0x10
abbrev TCTL_SFAULT_ARG (n : Nat) : Nat := tileBase n + 0x14
abbrev TCTL_EVENT (n : Nat) : Nat := tileBase n + 0x18
abbrev TCTL_EVENT_SIGNAL_ERR (n : Nat) : Fld := ⟨TCTL_EVENT n, 4, 4⟩
abbrev TCTL_EVENT_STALE_TOKEN (n : Nat) : Fld := ⟨TCTL_EVENT n, 3, 3⟩
abbrev TCTL_EVENT_TIER_ERR (n : Nat) : Fld := ⟨TCTL_EVENT n, 2, 2⟩
abbrev TCTL_EVENT_TIER_LATE (n : Nat) : Fld := ⟨TCTL_EVENT n, 1, 1⟩
abbrev TCTL_EVENT_SFAULT (n : Nat) : Fld := ⟨TCTL_EVENT n, 0, 0⟩
abbrev TCTL_EVENT_SEQ (n : Nat) : Nat := tileBase n + 0x1c
abbrev TCTL_EVENT_SEQ_SEQ (n : Nat) : Fld := ⟨TCTL_EVENT_SEQ n, 15, 0⟩
abbrev TCTL_STALE_COUNT (n : Nat) : Nat := tileBase n + 0x20
abbrev TCTL_WAIT_BEATS (n : Nat) : Nat := tileBase n + 0x24
abbrev TCTL_TRIP (n i : Nat) : Nat := tileBase n + 0x100 + 4 * i
abbrev TCTL_TRIP_TRIP (n i : Nat) : Fld := ⟨TCTL_TRIP n i, 15, 0⟩
abbrev TCTL_TIER_LATE (n i : Nat) : Nat := tileBase n + 0x200 + 4 * i
abbrev TCTL_TIER_ERR (n i : Nat) : Nat := tileBase n + 0x280 + 4 * i

/-! The vector engine block, R125. -/
abbrev VEC_EVENT (n : Nat) : Nat := tileBase n + 0x20000
abbrev VEC_EVENT_OVERFLOW (n : Nat) : Fld := ⟨VEC_EVENT n, 1, 1⟩
abbrev VEC_EVENT_INVALID (n : Nat) : Fld := ⟨VEC_EVENT n, 0, 0⟩
abbrev VEC_EVENT_SEQ (n : Nat) : Nat := tileBase n + 0x20000 + 0x4
abbrev VEC_EVENT_SEQ_SEQ (n : Nat) : Fld := ⟨VEC_EVENT_SEQ n, 15, 0⟩
abbrev VEC_EVENT_EN (n : Nat) : Nat := tileBase n + 0x20000 + 0x8
abbrev VEC_EVENT_EN_OVERFLOW_EN (n : Nat) : Fld := ⟨VEC_EVENT_EN n, 1, 1⟩
abbrev VEC_EVENT_EN_INVALID_EN (n : Nat) : Fld := ⟨VEC_EVENT_EN n, 0, 0⟩

/-! The Wringer block, R232. -/
abbrev WRG_STATUS (n : Nat) : Nat := tileBase n + 0x50000
abbrev WRG_STATUS_LOAD (n : Nat) : Fld := ⟨WRG_STATUS n, 2, 2⟩
abbrev WRG_STATUS_TIER (n : Nat) : Fld := ⟨WRG_STATUS n, 1, 1⟩
abbrev WRG_STATUS_SCHED (n : Nat) : Fld := ⟨WRG_STATUS n, 0, 0⟩
abbrev WRG_EVENT (n : Nat) : Nat := tileBase n + 0x50000 + 0x4
abbrev WRG_EVENT_VERIFY_FAIL (n : Nat) : Fld := ⟨WRG_EVENT n, 2, 2⟩
abbrev WRG_EVENT_SPARSITY (n : Nat) : Fld := ⟨WRG_EVENT n, 1, 1⟩
abbrev WRG_EVENT_PANEL_HDR (n : Nat) : Fld := ⟨WRG_EVENT n, 0, 0⟩
abbrev WRG_EVENT_SEQ (n : Nat) : Nat := tileBase n + 0x50000 + 0x8
abbrev WRG_EVENT_SEQ_SEQ (n : Nat) : Fld := ⟨WRG_EVENT_SEQ n, 15, 0⟩
abbrev WRG_YIELD_COUNT (n : Nat) : Nat := tileBase n + 0x50000 + 0xc
abbrev WRG_LOAD_BYTES_LO (n : Nat) : Nat := tileBase n + 0x50000 + 0x10
abbrev WRG_LOAD_BYTES_HI (n : Nat) : Nat := tileBase n + 0x50000 + 0x14
abbrev WRG_LOAD_BYTES_SNAP (n : Nat) : Nat := tileBase n + 0x50000 + 0x18

/-! The weight-residency block, R231. -/
abbrev WTR_DRIVE_STATUSA : Nat := 0x700000
abbrev WTR_DRIVE_STATUSA_LINK_UP : Fld := ⟨WTR_DRIVE_STATUSA, 31, 31⟩
abbrev WTR_DRIVE_STATUSA_READY : Fld := ⟨WTR_DRIVE_STATUSA, 30, 30⟩
abbrev WTR_DRIVE_STATUSA_WRITE_EN : Fld := ⟨WTR_DRIVE_STATUSA, 29, 29⟩
abbrev WTR_DRIVE_STATUSA_SPEED : Fld := ⟨WTR_DRIVE_STATUSA, 23, 20⟩
abbrev WTR_DRIVE_STATUSA_WIDTH : Fld := ⟨WTR_DRIVE_STATUSA, 19, 16⟩
abbrev WTR_DRIVE_STATUSA_MAX_READ : Fld := ⟨WTR_DRIVE_STATUSA, 15, 0⟩
abbrev WTR_DRIVE_STATUSB : Nat := 0x700004
abbrev WTR_DRIVE_STATUSB_LINK_UP : Fld := ⟨WTR_DRIVE_STATUSB, 31, 31⟩
abbrev WTR_DRIVE_STATUSB_READY : Fld := ⟨WTR_DRIVE_STATUSB, 30, 30⟩
abbrev WTR_DRIVE_STATUSB_WRITE_EN : Fld := ⟨WTR_DRIVE_STATUSB, 29, 29⟩
abbrev WTR_DRIVE_STATUSB_SPEED : Fld := ⟨WTR_DRIVE_STATUSB, 23, 20⟩
abbrev WTR_DRIVE_STATUSB_WIDTH : Fld := ⟨WTR_DRIVE_STATUSB, 19, 16⟩
abbrev WTR_DRIVE_STATUSB_MAX_READ : Fld := ⟨WTR_DRIVE_STATUSB, 15, 0⟩
abbrev WTR_DRIVE_CTRL : Nat := 0x700008
abbrev WTR_DRIVE_CTRL_WRITE_EN_B : Fld := ⟨WTR_DRIVE_CTRL, 17, 17⟩
abbrev WTR_DRIVE_CTRL_WRITE_EN_A : Fld := ⟨WTR_DRIVE_CTRL, 16, 16⟩
abbrev WTR_DRIVE_CTRL_CMD_TIMEOUT : Fld := ⟨WTR_DRIVE_CTRL, 15, 0⟩
abbrev WTR_EVENT : Nat := 0x70000c
abbrev WTR_EVENT_DAMAGED : Fld := ⟨WTR_EVENT, 3, 3⟩
abbrev WTR_EVENT_SLOT_LOST : Fld := ⟨WTR_EVENT, 2, 2⟩
abbrev WTR_EVENT_DRIVE_UP : Fld := ⟨WTR_EVENT, 1, 1⟩
abbrev WTR_EVENT_DRIVE_DOWN : Fld := ⟨WTR_EVENT, 0, 0⟩
abbrev WTR_EVENT_SEQ : Nat := 0x700010
abbrev WTR_EVENT_SEQ_SEQ : Fld := ⟨WTR_EVENT_SEQ, 15, 0⟩
abbrev WTR_LOAD_DONE : Nat := 0x700014
abbrev WTR_LOAD_CHUNKS : Nat := 0x700018
abbrev WTR_LOAD_SEQ : Nat := 0x70001c
abbrev WTR_CHUNK_RETRY_COUNT : Nat := 0x700020
abbrev WTR_LOAD_COUNT : Nat := 0x700024
abbrev WTR_EVICT_COUNT : Nat := 0x700028
abbrev WTR_DROP_COUNT : Nat := 0x70002c
abbrev WTR_SLOT_STATE (i : Nat) : Nat := 0x700100 + 32 * i
abbrev WTR_SLOT_STATE_STATE (i : Nat) : Fld := ⟨WTR_SLOT_STATE i, 31, 29⟩
abbrev WTR_SLOT_STATE_DAMAGED (i : Nat) : Fld := ⟨WTR_SLOT_STATE i, 28, 28⟩
abbrev WTR_SLOT_STATE_RETIRED_OVERLAP (i : Nat) : Fld := ⟨WTR_SLOT_STATE i, 27, 27⟩
abbrev WTR_SLOT_STATE_CONTEXT (i : Nat) : Fld := ⟨WTR_SLOT_STATE i, 23, 16⟩
abbrev WTR_SLOT_STATE_REASON (i : Nat) : Fld := ⟨WTR_SLOT_STATE i, 15, 8⟩
abbrev WTR_SLOT_STATE_GROUPS (i : Nat) : Fld := ⟨WTR_SLOT_STATE i, 7, 0⟩
abbrev WTR_SLOT_TILES (i : Nat) : Nat := 0x700104 + 32 * i
abbrev WTR_SLOT_MODEL_LO (i : Nat) : Nat := 0x700108 + 32 * i
abbrev WTR_SLOT_MODEL_HI (i : Nat) : Nat := 0x70010c + 32 * i
abbrev WTR_SLOT_USE_LO (i : Nat) : Nat := 0x700110 + 32 * i
abbrev WTR_SLOT_USE_HI (i : Nat) : Nat := 0x700114 + 32 * i
abbrev WTR_SLOT_MODEL_SNAP (i : Nat) : Nat := 0x700118 + 32 * i
abbrev WTR_SLOT_USE_SNAP (i : Nat) : Nat := 0x70011c + 32 * i

/-! The expert router block, R294. -/
abbrev XPT_CTRL (n : Nat) : Nat := tileBase n + 0x70000
abbrev XPT_CTRL_EPOCH (n : Nat) : Fld := ⟨XPT_CTRL n, 31, 16⟩
abbrev XPT_STATUS (n : Nat) : Nat := tileBase n + 0x70000 + 0x4
abbrev XPT_STATUS_INTAKES (n : Nat) : Fld := ⟨XPT_STATUS n, 24, 16⟩
abbrev XPT_STATUS_HELD (n : Nat) : Fld := ⟨XPT_STATUS n, 12, 0⟩
abbrev XPT_EVENT (n : Nat) : Nat := tileBase n + 0x70000 + 0x8
abbrev XPT_EVENT_LATE (n : Nat) : Fld := ⟨XPT_EVENT n, 7, 7⟩
abbrev XPT_EVENT_DUP (n : Nat) : Fld := ⟨XPT_EVENT n, 6, 6⟩
abbrev XPT_EVENT_NO_INTAKE (n : Nat) : Fld := ⟨XPT_EVENT n, 5, 5⟩
abbrev XPT_EVENT_SEND_ERR (n : Nat) : Fld := ⟨XPT_EVENT n, 4, 4⟩
abbrev XPT_EVENT_DESC_ERR (n : Nat) : Fld := ⟨XPT_EVENT n, 3, 3⟩
abbrev XPT_EVENT_MISSING (n : Nat) : Fld := ⟨XPT_EVENT n, 2, 2⟩
abbrev XPT_EVENT_RENORM (n : Nat) : Fld := ⟨XPT_EVENT n, 1, 1⟩
abbrev XPT_EVENT_STALE (n : Nat) : Fld := ⟨XPT_EVENT n, 0, 0⟩
abbrev XPT_EVENT_SEQ (n : Nat) : Nat := tileBase n + 0x70000 + 0xc
abbrev XPT_EVENT_SEQ_SEQ (n : Nat) : Fld := ⟨XPT_EVENT_SEQ n, 15, 0⟩
abbrev XPT_STALE_COUNT (n : Nat) : Nat := tileBase n + 0x70000 + 0x10
abbrev XPT_REFUSE_COUNT (n : Nat) : Nat := tileBase n + 0x70000 + 0x14
abbrev XPT_EVICT_COUNT (n : Nat) : Nat := tileBase n + 0x70000 + 0x18
abbrev XPT_DEFER_COUNT (n : Nat) : Nat := tileBase n + 0x70000 + 0x1c
abbrev XPT_FWD_COUNT (n : Nat) : Nat := tileBase n + 0x70000 + 0x20
abbrev XPT_RET_COUNT (n : Nat) : Nat := tileBase n + 0x70000 + 0x24
abbrev XPT_INTAKE_DEMAND (n i : Nat) : Nat := tileBase n + 0x70000 + 0x100 + 4 * i

end Sys2Proof.Machine.Reg
end

