-- ==== Sys2Proof/Machine/RegMap.lean ====
section
/-! DEFINITION. The access code, privilege, boundary and reset value of every register field (R10, R12, R13, R15,
R16), as descriptor tables made from the register-map tables of the spec, and the lookup by BAR0 offset. -/

namespace Sys2Proof.Machine

/-- Access codes of R12. -/
inductive Acc where
  | ro | rw | wo | rwb | sqc
  deriving DecidableEq, Repr

/-- The boundary at which an RWB field applies (R451). -/
inductive Bnd where
  | none | step | rota | rotaIdle | reset
  deriving DecidableEq, Repr

/-- One field of a register map: bits, access code, PRV- prefix, reset value and boundary. -/
structure FieldDesc where
  hi : Nat
  lo : Nat
  acc : Acc
  prv : Bool
  reset : Nat
  bnd : Bnd
  deriving DecidableEq, Repr

/-- One register, or `count` registers `stride` bytes apart from block offset `base`. -/
structure RegDesc where
  base : Nat
  count : Nat
  stride : Nat
  fields : List FieldDesc
  deriving DecidableEq, Repr

/-- The Delud block, R388. -/
def dldRegs0 : List RegDesc := [
   /- DLD_CTRL -/ ⟨0x0, 1, 4, [⟨31, 31, .rw, true, 0x1, .none⟩, ⟨30, 30, .rw, false, 0x1, .none⟩, ⟨15, 0, .rw, false, 0x3e8, .none⟩]⟩,
   /- DLD_EVENT -/ ⟨0x4, 1, 4, [⟨3, 3, .sqc, false, 0, .none⟩, ⟨2, 2, .sqc, false, 0, .none⟩, ⟨1, 1, .sqc, false, 0, .none⟩, ⟨0, 0, .sqc, false, 0, .none⟩]⟩,
   /- DLD_EVENT_SEQ -/ ⟨0x8, 1, 4, [⟨15, 0, .sqc, false, 0, .none⟩]⟩,
   /- DLD_KEY_CMD -/ ⟨0xc, 1, 4, [⟨31, 31, .rw, true, 0, .none⟩, ⟨30, 29, .rw, true, 0, .none⟩, ⟨20, 16, .rw, true, 0, .none⟩, ⟨13, 0, .rw, true, 0, .none⟩]⟩,
   /- DLD_KEY_DATA -/ ⟨0x10, 1, 4, [⟨31, 0, .rw, true, 0, .none⟩]⟩,
   /- DLD_KEY_PERM -/ ⟨0x14, 1, 4, [⟨3, 3, .rw, true, 0, .none⟩, ⟨2, 2, .rw, true, 0, .none⟩, ⟨1, 1, .rw, true, 0, .none⟩, ⟨0, 0, .rw, true, 0, .none⟩]⟩,
   /- DLD_GRANT_CMD -/ ⟨0x18, 1, 4, [⟨31, 31, .rw, true, 0, .none⟩, ⟨30, 30, .rw, true, 0, .none⟩, ⟨20, 16, .rw, true, 0, .none⟩, ⟨5, 0, .rw, true, 0, .none⟩]⟩,
   /- DLD_GRANT_BASE_LO -/ ⟨0x1c, 1, 4, [⟨31, 0, .rw, true, 0, .none⟩]⟩,
   /- DLD_GRANT_BASE_HI -/ ⟨0x20, 1, 4, [⟨31, 0, .rw, true, 0, .none⟩]⟩,
   /- DLD_GRANT_BASE_SNAP -/ ⟨0x24, 1, 4, [⟨31, 0, .ro, true, 0, .none⟩]⟩,
   /- DLD_GRANT_UNITS -/ ⟨0x28, 1, 4, [⟨31, 31, .rw, true, 0, .none⟩, ⟨16, 0, .rw, true, 0, .none⟩]⟩,
   /- DLD_GRANT_KEY -/ ⟨0x2c, 1, 4, [⟨31, 0, .rw, true, 0, .none⟩]⟩]

/-- The Delud block, R388. -/
def dldRegs1 : List RegDesc := [
   /- DLD_POOL_KEY -/ ⟨0x30, 1, 4, [⟨31, 0, .rw, true, 0, .none⟩]⟩,
   /- DLD_KEY_FAULT_COUNT -/ ⟨0x40, 1, 4, [⟨31, 0, .ro, false, 0, .none⟩]⟩,
   /- DLD_ERR_RESP_COUNT -/ ⟨0x44, 1, 4, [⟨31, 0, .ro, false, 0, .none⟩]⟩,
   /- DLD_LATE_RESP_COUNT -/ ⟨0x48, 1, 4, [⟨31, 0, .ro, false, 0, .none⟩]⟩,
   /- DLD_GW_OUT_COUNT -/ ⟨0x4c, 1, 4, [⟨31, 0, .ro, false, 0, .none⟩]⟩,
   /- DLD_GW_IN_COUNT -/ ⟨0x50, 1, 4, [⟨31, 0, .ro, false, 0, .none⟩]⟩,
   /- DLD_GW_REFUSE_COUNT -/ ⟨0x54, 1, 4, [⟨31, 0, .ro, false, 0, .none⟩]⟩,
   /- DLD_TIME_OFFSET -/ ⟨0x60, 1, 4, [⟨31, 0, .ro, false, 0, .none⟩]⟩,
   /- DLD_BEACON_PORT -/ ⟨0x64, 1, 4, [⟨31, 31, .ro, false, 0, .none⟩, ⟨3, 0, .ro, false, 0, .none⟩]⟩]
def dldRegs : List RegDesc := dldRegs0 ++ dldRegs1

/-- The fabric block, R359. -/
def fabRegs0 : List RegDesc := [
   /- FAB_CTRL -/ ⟨0x0, 1, 4, [⟨31, 24, .rw, false, 0x14, .none⟩, ⟨19, 19, .rw, false, 0x1, .none⟩, ⟨18, 18, .rw, false, 0x1, .none⟩, ⟨17, 16, .rw, false, 0, .none⟩, ⟨15, 0, .rw, true, 0, .none⟩]⟩,
   /- FAB_SELF -/ ⟨0x4, 1, 4, [⟨16, 0, .rw, true, 0, .none⟩]⟩,
   /- FAB_TIMING -/ ⟨0x8, 1, 4, [⟨31, 16, .rw, false, 0xc8, .none⟩, ⟨15, 0, .rw, false, 0x64, .none⟩]⟩,
   /- FAB_PBERT -/ ⟨0xc, 1, 4, [⟨31, 16, .rw, false, 0x3c, .none⟩, ⟨15, 8, .rw, false, 0x8, .none⟩, ⟨7, 0, .rw, false, 0xa, .none⟩]⟩,
   /- FAB_EVENT -/ ⟨0x10, 1, 4, [⟨5, 5, .sqc, false, 0, .none⟩, ⟨4, 4, .sqc, false, 0, .none⟩, ⟨3, 3, .sqc, false, 0, .none⟩, ⟨2, 2, .sqc, false, 0, .none⟩, ⟨1, 1, .sqc, false, 0, .none⟩]⟩,
   /- FAB_EVENT_SEQ -/ ⟨0x14, 1, 4, [⟨15, 0, .sqc, false, 0, .none⟩]⟩,
   /- FAB_LINK_ACTIVE_LO -/ ⟨0x18, 1, 4, [⟨31, 0, .ro, false, 0, .none⟩]⟩,
   /- FAB_LINK_ACTIVE_HI -/ ⟨0x1c, 1, 4, [⟨31, 0, .ro, false, 0, .none⟩]⟩,
   /- FAB_LINK_ACTIVE_SNAP -/ ⟨0x20, 1, 4, [⟨31, 0, .ro, false, 0, .none⟩]⟩,
   /- FAB_PORT_ACTIVE -/ ⟨0x24, 1, 4, [⟨15, 0, .ro, false, 0, .none⟩]⟩,
   /- FAB_SLICE_DROP_COUNT -/ ⟨0x28, 1, 4, [⟨31, 0, .ro, false, 0, .none⟩]⟩,
   /- FAB_EXPIRED_COUNT -/ ⟨0x2c, 1, 4, [⟨31, 0, .ro, false, 0, .none⟩]⟩]

/-- The fabric block, R359. -/
def fabRegs1 : List RegDesc := [
   /- FAB_UNREACH_COUNT -/ ⟨0x30, 1, 4, [⟨31, 0, .ro, false, 0, .none⟩]⟩,
   /- FAB_FENCE_COUNT -/ ⟨0x34, 1, 4, [⟨31, 0, .ro, false, 0, .none⟩]⟩,
   /- FAB_LAST_LOST -/ ⟨0x38, 1, 4, [⟨31, 31, .ro, false, 0, .none⟩, ⟨16, 0, .ro, false, 0, .none⟩]⟩,
   /- FAB_PORT_CFG -/ ⟨0x100, 16, 32, [⟨31, 31, .rw, true, 0, .none⟩, ⟨30, 30, .rw, true, 0, .none⟩, ⟨29, 24, .rw, true, 0x1, .none⟩, ⟨16, 0, .rw, true, 0, .none⟩]⟩,
   /- FAB_PORT_LINKS_LO -/ ⟨0x104, 16, 32, [⟨31, 0, .rw, true, 0, .none⟩]⟩,
   /- FAB_PORT_LINKS_HI -/ ⟨0x108, 16, 32, [⟨31, 0, .rw, true, 0, .none⟩]⟩,
   /- FAB_PORT_LINKS_SNAP -/ ⟨0x10c, 16, 32, [⟨31, 0, .ro, true, 0, .none⟩]⟩,
   /- FAB_PORT_STATUS -/ ⟨0x110, 16, 32, [⟨31, 30, .ro, false, 0, .none⟩, ⟨6, 0, .ro, false, 0, .none⟩]⟩,
   /- FAB_PORT_NEIGHBOUR -/ ⟨0x114, 16, 32, [⟨31, 0, .ro, false, 0, .none⟩]⟩,
   /- FAB_LROUTE0 -/ ⟨0x1000, 64, 8, [⟨31, 31, .rw, true, 0, .none⟩, ⟨15, 0, .rw, true, 0, .none⟩]⟩,
   /- FAB_LROUTE1 -/ ⟨0x1004, 64, 8, [⟨31, 31, .ro, false, 0, .none⟩, ⟨15, 0, .ro, false, 0, .none⟩]⟩,
   /- FAB_RROUTE0 -/ ⟨0x2000, 2048, 8, [⟨31, 31, .rw, true, 0, .none⟩, ⟨15, 0, .rw, true, 0, .none⟩]⟩]

/-- The fabric block, R359. -/
def fabRegs2 : List RegDesc := [
   /- FAB_RROUTE1 -/ ⟨0x2004, 2048, 8, [⟨31, 31, .ro, false, 0, .none⟩, ⟨15, 0, .ro, false, 0, .none⟩]⟩]
def fabRegs : List RegDesc := fabRegs0 ++ fabRegs1 ++ fabRegs2

/-- The Hamper block, R259. -/
def hmpRegs0 : List RegDesc := [
   /- HMP_CTRL -/ ⟨0x0, 1, 4, [⟨15, 12, .rwb, false, 0x2, .step⟩, ⟨11, 8, .rwb, false, 0x2, .step⟩, ⟨0, 0, .rwb, false, 0, .step⟩]⟩,
   /- HMP_AREA -/ ⟨0x4, 1, 4, [⟨25, 15, .rwb, false, 0, .step⟩, ⟨10, 0, .rwb, false, 0, .step⟩]⟩,
   /- HMP_STATUS -/ ⟨0x8, 1, 4, [⟨26, 16, .ro, false, 0, .none⟩, ⟨10, 0, .ro, false, 0, .none⟩]⟩,
   /- HMP_PEGQ -/ ⟨0xc, 1, 4, [⟨26, 16, .ro, false, 0, .none⟩, ⟨10, 0, .ro, false, 0, .none⟩]⟩,
   /- HMP_EVENT -/ ⟨0x10, 1, 4, [⟨4, 4, .sqc, false, 0, .none⟩, ⟨3, 3, .sqc, false, 0, .none⟩, ⟨2, 2, .sqc, false, 0, .none⟩, ⟨1, 1, .sqc, false, 0, .none⟩, ⟨0, 0, .sqc, false, 0, .none⟩]⟩,
   /- HMP_EVENT_SEQ -/ ⟨0x14, 1, 4, [⟨15, 0, .sqc, false, 0, .none⟩]⟩,
   /- HMP_SAT_COUNT -/ ⟨0x18, 1, 4, [⟨31, 0, .ro, false, 0, .none⟩]⟩,
   /- HMP_ZERO_COUNT -/ ⟨0x1c, 1, 4, [⟨31, 0, .ro, false, 0, .none⟩]⟩,
   /- HMP_FLUSH_COUNT -/ ⟨0x20, 1, 4, [⟨31, 0, .ro, false, 0, .none⟩]⟩,
   /- HMP_NULL_COUNT -/ ⟨0x24, 1, 4, [⟨31, 0, .ro, false, 0, .none⟩]⟩,
   /- HMP_PEG_LO -/ ⟨0x28, 1, 4, [⟨31, 0, .ro, false, 0, .none⟩]⟩,
   /- HMP_PEG_HI -/ ⟨0x2c, 1, 4, [⟨31, 0, .ro, false, 0, .none⟩]⟩]

/-- The Hamper block, R259. -/
def hmpRegs1 : List RegDesc := [
   /- HMP_PEG_SNAP -/ ⟨0x30, 1, 4, [⟨31, 0, .ro, false, 0, .none⟩]⟩]
def hmpRegs : List RegDesc := hmpRegs0 ++ hmpRegs1

/-- The hub global block. -/
def hubRegs0 : List RegDesc := [
   /- HUB_ID -/ ⟨0x0, 1, 4, [⟨31, 16, .ro, false, 0xa032, .none⟩, ⟨7, 0, .ro, false, 0x10, .none⟩]⟩,
   /- HUB_UID_LO -/ ⟨0x4, 1, 4, [⟨31, 0, .ro, false, 0, .none⟩]⟩,
   /- HUB_UID_HI -/ ⟨0x8, 1, 4, [⟨31, 0, .ro, false, 0, .none⟩]⟩,
   /- HUB_UID_SNAP -/ ⟨0xc, 1, 4, [⟨31, 0, .ro, false, 0, .none⟩]⟩,
   /- HUB_FW_VER_LO -/ ⟨0x10, 1, 4, [⟨31, 0, .ro, false, 0, .none⟩]⟩,
   /- HUB_FW_VER_HI -/ ⟨0x14, 1, 4, [⟨31, 0, .ro, false, 0, .none⟩]⟩,
   /- HUB_FW_VER_SNAP -/ ⟨0x18, 1, 4, [⟨31, 0, .ro, false, 0, .none⟩]⟩,
   /- HUB_BOOT_STATUS -/ ⟨0x100, 1, 4, [⟨31, 28, .ro, false, 0, .none⟩, ⟨27, 27, .ro, false, 0, .none⟩, ⟨26, 26, .ro, false, 0, .none⟩, ⟨25, 25, .ro, false, 0, .none⟩, ⟨23, 16, .ro, false, 0, .none⟩, ⟨12, 0, .ro, false, 0, .none⟩]⟩,
   /- HUB_BOOT_MS -/ ⟨0x104, 1, 4, [⟨31, 0, .ro, false, 0, .none⟩]⟩,
   /- HUB_MBX_CMD -/ ⟨0x200, 1, 4, [⟨31, 31, .wo, false, 0, .none⟩, ⟨15, 0, .rw, false, 0, .none⟩]⟩,
   /- HUB_MBX_P -/ ⟨0x204, 8, 4, [⟨31, 0, .rw, false, 0, .none⟩]⟩,
   /- HUB_MBX_STATUS -/ ⟨0x224, 1, 4, [⟨31, 28, .ro, false, 0, .none⟩, ⟨27, 26, .ro, false, 0, .none⟩, ⟨23, 16, .ro, false, 0, .none⟩, ⟨15, 0, .ro, false, 0, .none⟩]⟩]

/-- The hub global block. -/
def hubRegs1 : List RegDesc := [
   /- HUB_MBX_ABORT -/ ⟨0x228, 1, 4, [⟨0, 0, .wo, false, 0, .none⟩]⟩,
   /- HUB_MBX_CONSUME -/ ⟨0x22c, 1, 4, [⟨0, 0, .wo, false, 0, .none⟩]⟩,
   /- HUB_BAR4_SEL -/ ⟨0x300, 1, 4, [⟨12, 8, .rw, true, 0, .none⟩, ⟨2, 0, .rw, true, 0, .none⟩]⟩,
   /- HUB_TILE_INSERVICE -/ ⟨0x400, 1, 4, [⟨31, 0, .ro, false, 0, .none⟩]⟩,
   /- HUB_TILE_RETIRE -/ ⟨0x404, 1, 4, [⟨31, 0, .rwb, true, 0, .reset⟩]⟩,
   /- HUB_TILE_EXIT -/ ⟨0x408, 1, 4, [⟨31, 0, .sqc, false, 0, .none⟩]⟩,
   /- HUB_TILE_EXIT_SEQ -/ ⟨0x40c, 1, 4, [⟨15, 0, .sqc, false, 0, .none⟩]⟩,
   /- HUB_SEAM_UP0 -/ ⟨0x410, 1, 4, [⟨31, 0, .ro, false, 0, .none⟩]⟩,
   /- HUB_SEAM_UP1 -/ ⟨0x414, 1, 4, [⟨31, 0, .ro, false, 0, .none⟩]⟩,
   /- HUB_SEAM_UP2 -/ ⟨0x418, 1, 4, [⟨7, 0, .ro, false, 0, .none⟩]⟩,
   /- HUB_VOTE_CTRL -/ ⟨0x480, 1, 4, [⟨15, 0, .rw, false, 0x64, .none⟩]⟩,
   /- HUB_VOTE_STAT -/ ⟨0x484, 1, 4, [⟨1, 0, .ro, false, 0, .none⟩]⟩]

/-- The hub global block. -/
def hubRegs2 : List RegDesc := [
   /- HUB_REPLAY1_COUNT -/ ⟨0x488, 1, 4, [⟨31, 0, .ro, false, 0, .none⟩]⟩,
   /- HUB_REPLAY2_COUNT -/ ⟨0x48c, 1, 4, [⟨31, 0, .ro, false, 0, .none⟩]⟩,
   /- HUB_SFAULT_COUNT -/ ⟨0x490, 1, 4, [⟨31, 0, .ro, false, 0, .none⟩]⟩,
   /- HUB_SHALT_COUNT -/ ⟨0x494, 1, 4, [⟨31, 0, .ro, false, 0, .none⟩]⟩,
   /- HUB_PANEL_CTRL -/ ⟨0x500, 1, 4, [⟨31, 16, .rw, false, 0x1388, .none⟩, ⟨2, 2, .wo, false, 0, .none⟩, ⟨1, 1, .wo, false, 0, .none⟩, ⟨0, 0, .rw, false, 0, .none⟩]⟩,
   /- HUB_PANEL_STATUS -/ ⟨0x504, 1, 4, [⟨31, 31, .ro, false, 0, .none⟩, ⟨30, 30, .ro, false, 0, .none⟩, ⟨29, 29, .ro, false, 0, .none⟩, ⟨28, 28, .ro, false, 0, .none⟩, ⟨27, 27, .ro, false, 0, .none⟩, ⟨26, 26, .ro, false, 0, .none⟩, ⟨25, 23, .ro, false, 0, .none⟩]⟩,
   /- HUB_PANEL_EVENT -/ ⟨0x508, 1, 4, [⟨5, 5, .sqc, false, 0, .none⟩, ⟨4, 4, .sqc, false, 0, .none⟩, ⟨3, 3, .sqc, false, 0, .none⟩, ⟨2, 2, .sqc, false, 0, .none⟩, ⟨1, 1, .sqc, false, 0, .none⟩, ⟨0, 0, .sqc, false, 0, .none⟩]⟩,
   /- HUB_PANEL_EVENT_SEQ -/ ⟨0x50c, 1, 4, [⟨15, 0, .sqc, false, 0, .none⟩]⟩,
   /- HUB_RWB_STEP_LO -/ ⟨0x600, 4, 16, [⟨31, 0, .rw, false, 0, .none⟩]⟩,
   /- HUB_RWB_STEP_HI -/ ⟨0x604, 4, 16, [⟨15, 0, .rw, false, 0, .none⟩]⟩,
   /- HUB_RWB_STEP_SNAP -/ ⟨0x608, 4, 16, [⟨15, 0, .ro, false, 0, .none⟩]⟩,
   /- HUB_PRV_DENY_COUNT -/ ⟨0x640, 1, 4, [⟨31, 0, .ro, false, 0, .none⟩]⟩]

/-- The hub global block. -/
def hubRegs3 : List RegDesc := [
   /- HUB_PRV_DENY_LAST -/ ⟨0x644, 1, 4, [⟨25, 0, .ro, false, 0, .none⟩]⟩,
   /- HUB_RESET -/ ⟨0x700, 1, 4, [⟨31, 31, .wo, true, 0, .none⟩, ⟨30, 30, .wo, true, 0, .none⟩]⟩,
   /- HUB_RESET_STATUS -/ ⟨0x704, 1, 4, [⟨31, 29, .ro, false, 0, .none⟩, ⟨15, 0, .ro, false, 0, .none⟩]⟩,
   /- HUB_FATAL_INFO -/ ⟨0x708, 1, 4, [⟨31, 24, .ro, false, 0, .none⟩, ⟨23, 0, .ro, false, 0, .none⟩]⟩,
   /- HUB_DUMP_CTRL -/ ⟨0x70c, 1, 4, [⟨31, 31, .rw, true, 0x1, .none⟩, ⟨7, 0, .wo, true, 0, .none⟩]⟩,
   /- HUB_DUMP_STATUS -/ ⟨0x710, 1, 4, [⟨31, 31, .ro, false, 0, .none⟩, ⟨10, 8, .ro, false, 0, .none⟩, ⟨7, 0, .ro, false, 0, .none⟩]⟩,
   /- HUB_LOG_HEAD -/ ⟨0x720, 1, 4, [⟨31, 0, .ro, false, 0x1, .none⟩]⟩]
def hubRegs : List RegDesc := hubRegs0 ++ hubRegs1 ++ hubRegs2 ++ hubRegs3

/-- The interrupt controller, R464. -/
def intRegs : List RegDesc := [
   /- INT_CTRL -/ ⟨0x0, 1, 4, [⟨0, 0, .rw, false, 0, .none⟩]⟩,
   /- INT_STATUS -/ ⟨0x4, 1, 4, [⟨31, 31, .ro, false, 0, .none⟩, ⟨30, 30, .ro, false, 0, .none⟩, ⟨9, 0, .ro, false, 0, .none⟩]⟩,
   /- INT_FORCE -/ ⟨0x8, 1, 4, [⟨9, 0, .wo, false, 0, .none⟩]⟩,
   /- INT_PEND_CLR -/ ⟨0xc, 1, 4, [⟨9, 0, .wo, false, 0, .none⟩]⟩,
   /- INT_SENT_COUNT -/ ⟨0x10, 1, 4, [⟨31, 0, .ro, false, 0, .none⟩]⟩,
   /- INT_PEND -/ ⟨0x100, 24, 4, [⟨31, 0, .ro, false, 0, .none⟩]⟩,
   /- INT_SRC_CFG -/ ⟨0x1000, 768, 4, [⟨31, 31, .rw, false, 0, .none⟩, ⟨10, 0, .rw, false, 0, .none⟩]⟩]

/-- The memory controller block, R196. -/
def memRegs0 : List RegDesc := [
   /- MEM_CTRL -/ ⟨0x0, 1, 4, [⟨5, 5, .rwb, false, 0x1, .rota⟩, ⟨4, 4, .rwb, false, 0x1, .rota⟩, ⟨3, 0, .rwb, false, 0x2, .rota⟩]⟩,
   /- MEM_STATUS -/ ⟨0x4, 1, 4, [⟨31, 30, .ro, false, 0, .none⟩, ⟨22, 16, .ro, false, 0, .none⟩, ⟨3, 0, .ro, false, 0, .none⟩]⟩,
   /- MEM_EVENT -/ ⟨0x8, 1, 4, [⟨5, 5, .sqc, false, 0, .none⟩, ⟨4, 4, .sqc, false, 0, .none⟩, ⟨3, 3, .sqc, false, 0, .none⟩, ⟨2, 2, .sqc, false, 0, .none⟩, ⟨1, 1, .sqc, false, 0, .none⟩, ⟨0, 0, .sqc, false, 0, .none⟩]⟩,
   /- MEM_EVENT_SEQ -/ ⟨0xc, 1, 4, [⟨15, 0, .sqc, false, 0, .none⟩]⟩,
   /- MEM_CE_LIMIT -/ ⟨0x10, 1, 4, [⟨31, 0, .rw, false, 0x100, .none⟩]⟩,
   /- MEM_CE_COUNT -/ ⟨0x14, 1, 4, [⟨31, 0, .ro, false, 0, .none⟩]⟩,
   /- MEM_UE_COUNT -/ ⟨0x18, 1, 4, [⟨31, 0, .ro, false, 0, .none⟩]⟩,
   /- MEM_LINK_CE_COUNT -/ ⟨0x1c, 1, 4, [⟨31, 0, .ro, false, 0, .none⟩]⟩,
   /- MEM_LINK_UE_COUNT -/ ⟨0x20, 1, 4, [⟨31, 0, .ro, false, 0, .none⟩]⟩,
   /- MEM_WB_CANCEL_COUNT -/ ⟨0x24, 1, 4, [⟨31, 0, .ro, false, 0, .none⟩]⟩,
   /- MEM_UE_ADDR_LO -/ ⟨0x28, 1, 4, [⟨31, 6, .ro, false, 0, .none⟩]⟩,
   /- MEM_UE_ADDR_HI -/ ⟨0x2c, 1, 4, [⟨31, 29, .ro, false, 0, .none⟩, ⟨2, 0, .ro, false, 0, .none⟩]⟩]

/-- The memory controller block, R196. -/
def memRegs1 : List RegDesc := [
   /- MEM_UE_ADDR_SNAP -/ ⟨0x30, 1, 4, [⟨31, 29, .ro, false, 0, .none⟩, ⟨2, 0, .ro, false, 0, .none⟩]⟩,
   /- MEM_SCRUB_POS -/ ⟨0x34, 1, 4, [⟨23, 0, .ro, false, 0, .none⟩]⟩,
   /- MEM_SCRUB_PASSES -/ ⟨0x38, 1, 4, [⟨31, 0, .ro, false, 0, .none⟩]⟩,
   /- MEM_DIE_TEMP -/ ⟨0x40, 8, 4, [⟨15, 0, .ro, false, 0, .none⟩]⟩,
   /- MEM_LEND -/ ⟨0x60, 1, 4, [⟨31, 16, .rw, true, 0x14, .none⟩, ⟨15, 1, .rw, true, 0x40, .none⟩, ⟨0, 0, .rw, true, 0, .none⟩]⟩,
   /- MEM_POOL_FREE -/ ⟨0x64, 1, 4, [⟨31, 0, .ro, false, 0, .none⟩]⟩,
   /- MEM_POOL_EVICT_COUNT -/ ⟨0x68, 1, 4, [⟨31, 0, .ro, false, 0, .none⟩]⟩,
   /- MEM_POOL_LOST_COUNT -/ ⟨0x6c, 1, 4, [⟨31, 0, .ro, false, 0, .none⟩]⟩,
   /- MEM_KV_PAGES -/ ⟨0x70, 1, 4, [⟨31, 0, .ro, false, 0, .none⟩]⟩,
   /- MEM_KV_RESERVED -/ ⟨0x74, 1, 4, [⟨31, 0, .ro, false, 0, .none⟩]⟩,
   /- MEM_KV_OCCUPIED -/ ⟨0x78, 1, 4, [⟨31, 0, .ro, false, 0, .none⟩]⟩,
   /- MEM_KV_SPILLED -/ ⟨0x7c, 1, 4, [⟨31, 0, .ro, false, 0, .none⟩]⟩]

/-- The memory controller block, R196. -/
def memRegs2 : List RegDesc := [
   /- MEM_SPILL_COUNT -/ ⟨0x80, 1, 4, [⟨31, 0, .ro, false, 0, .none⟩]⟩,
   /- MEM_RETURN_COUNT -/ ⟨0x84, 1, 4, [⟨31, 0, .ro, false, 0, .none⟩]⟩,
   /- MEM_SKIP -/ ⟨0x100, 128, 4, [⟨31, 31, .rwb, true, 0, .rota⟩, ⟨19, 0, .rwb, true, 0, .rota⟩]⟩]
def memRegs : List RegDesc := memRegs0 ++ memRegs1 ++ memRegs2

/-- The Mangle block, R124. -/
def mglRegs : List RegDesc := [
   /- MGL_STATUS -/ ⟨0x0, 1, 4, [⟨11, 8, .ro, false, 0, .none⟩, ⟨7, 4, .ro, false, 0, .none⟩, ⟨3, 0, .ro, false, 0, .none⟩]⟩,
   /- MGL_EVENT -/ ⟨0x4, 1, 4, [⟨3, 3, .sqc, false, 0, .none⟩, ⟨2, 2, .sqc, false, 0, .none⟩, ⟨1, 1, .sqc, false, 0, .none⟩, ⟨0, 0, .sqc, false, 0, .none⟩]⟩,
   /- MGL_EVENT_SEQ -/ ⟨0x8, 1, 4, [⟨15, 0, .sqc, false, 0, .none⟩]⟩,
   /- MGL_ERR_INFO -/ ⟨0xc, 1, 4, [⟨31, 30, .ro, false, 0, .none⟩, ⟨29, 28, .ro, false, 0, .none⟩, ⟨11, 0, .ro, false, 0, .none⟩]⟩,
   /- MGL_FB_MAP -/ ⟨0x100, 128, 4, [⟨31, 0, .ro, false, 0, .none⟩]⟩]

/-- The optical-engine blocks, R360. -/
def oecRegs0 : List RegDesc := [
   /- OEC_STATUS -/ ⟨0x0, 1, 4, [⟨4, 2, .ro, false, 0, .none⟩, ⟨1, 1, .ro, false, 0, .none⟩, ⟨0, 0, .ro, false, 0, .none⟩]⟩,
   /- OEC_EVENT -/ ⟨0x4, 1, 4, [⟨3, 3, .sqc, false, 0, .none⟩, ⟨2, 2, .sqc, false, 0, .none⟩, ⟨1, 1, .sqc, false, 0, .none⟩, ⟨0, 0, .sqc, false, 0, .none⟩]⟩,
   /- OEC_EVENT_SEQ -/ ⟨0x8, 1, 4, [⟨15, 0, .sqc, false, 0, .none⟩]⟩,
   /- OEC_PBERT_SKIP_COUNT -/ ⟨0xc, 1, 4, [⟨31, 0, .ro, false, 0, .none⟩]⟩,
   /- OEC_LINK_STATUS -/ ⟨0x1000, 8, 256, [⟨31, 28, .ro, false, 0x1, .none⟩, ⟨27, 24, .ro, false, 0, .none⟩, ⟨15, 8, .ro, false, 0, .none⟩]⟩,
   /- OEC_LINK_CTRL -/ ⟨0x1004, 8, 256, [⟨31, 31, .rw, true, 0, .none⟩]⟩,
   /- OEC_LINK_PEER -/ ⟨0x1008, 8, 256, [⟨31, 0, .ro, false, 0, .none⟩]⟩,
   /- OEC_LINK_PEER_INFO -/ ⟨0x100c, 8, 256, [⟨31, 16, .ro, false, 0, .none⟩, ⟨7, 0, .ro, false, 0, .none⟩]⟩,
   /- OEC_LINK_FEC_CORR -/ ⟨0x1010, 8, 256, [⟨31, 0, .ro, false, 0, .none⟩]⟩,
   /- OEC_LINK_FEC_UNCORR -/ ⟨0x1014, 8, 256, [⟨31, 0, .ro, false, 0, .none⟩]⟩,
   /- OEC_LINK_REPLAY -/ ⟨0x1018, 8, 256, [⟨31, 0, .ro, false, 0, .none⟩]⟩,
   /- OEC_LINK_DOWN_COUNT -/ ⟨0x101c, 8, 256, [⟨31, 0, .ro, false, 0, .none⟩]⟩]

/-- The optical-engine blocks, R360. -/
def oecRegs1 : List RegDesc := [
   /- OEC_LINK_BERT_ERR 0 -/ ⟨0x1020, 8, 256, [⟨31, 0, .ro, false, 0, .none⟩]⟩,
   /- OEC_LINK_BERT_ERR 1 -/ ⟨0x1024, 8, 256, [⟨31, 0, .ro, false, 0, .none⟩]⟩,
   /- OEC_LINK_BERT_ERR 2 -/ ⟨0x1028, 8, 256, [⟨31, 0, .ro, false, 0, .none⟩]⟩,
   /- OEC_LINK_BERT_ERR 3 -/ ⟨0x102c, 8, 256, [⟨31, 0, .ro, false, 0, .none⟩]⟩,
   /- OEC_LINK_BERT_ERR 4 -/ ⟨0x1030, 8, 256, [⟨31, 0, .ro, false, 0, .none⟩]⟩,
   /- OEC_LINK_BERT_ERR 5 -/ ⟨0x1034, 8, 256, [⟨31, 0, .ro, false, 0, .none⟩]⟩,
   /- OEC_LINK_BERT_ERR 6 -/ ⟨0x1038, 8, 256, [⟨31, 0, .ro, false, 0, .none⟩]⟩,
   /- OEC_LINK_BERT_ERR 7 -/ ⟨0x103c, 8, 256, [⟨31, 0, .ro, false, 0, .none⟩]⟩,
   /- OEC_LINK_BERT_BITS_LO -/ ⟨0x1040, 8, 256, [⟨31, 0, .ro, false, 0, .none⟩]⟩,
   /- OEC_LINK_BERT_BITS_HI -/ ⟨0x1044, 8, 256, [⟨31, 0, .ro, false, 0, .none⟩]⟩,
   /- OEC_LINK_BERT_BITS_SNAP -/ ⟨0x1048, 8, 256, [⟨31, 0, .ro, false, 0, .none⟩]⟩,
   /- OEC_LINK_BERT_INFO -/ ⟨0x104c, 8, 256, [⟨31, 30, .ro, false, 0, .none⟩, ⟨29, 27, .ro, false, 0, .none⟩]⟩]

/-- The optical-engine blocks, R360. -/
def oecRegs2 : List RegDesc := [
   /- OEC_LINK_PBERT_YIELD -/ ⟨0x1050, 8, 256, [⟨7, 0, .ro, false, 0, .none⟩]⟩]
def oecRegs : List RegDesc := oecRegs0 ++ oecRegs1 ++ oecRegs2

/-- The counter blocks, R470. -/
def pmcRegs0 : List RegDesc := [
   /- PMC_CNT_LO -/ ⟨0x0, 32, 16, [⟨31, 0, .ro, false, 0, .none⟩]⟩,
   /- PMC_CNT_HI -/ ⟨0x4, 32, 16, [⟨7, 0, .ro, false, 0, .none⟩]⟩,
   /- PMC_CNT_SNAP -/ ⟨0x8, 32, 16, [⟨7, 0, .ro, false, 0, .none⟩]⟩,
   /- PMC_SEL -/ ⟨0x200, 32, 4, [⟨7, 0, .rwb, false, 0, .rota⟩]⟩,
   /- PMC_CHAIN -/ ⟨0x280, 1, 4, [⟨15, 0, .rwb, false, 0, .rota⟩]⟩,
   /- PMC_SNAP_CMD -/ ⟨0x284, 1, 4, [⟨31, 31, .wo, false, 0, .none⟩, ⟨1, 0, .ro, false, 0, .none⟩]⟩,
   /- PMC_OVF -/ ⟨0x288, 1, 4, [⟨31, 0, .sqc, false, 0, .none⟩]⟩,
   /- PMC_OVF_SEQ -/ ⟨0x28c, 1, 4, [⟨15, 0, .sqc, false, 0, .none⟩]⟩,
   /- PMC_SH_INFO -/ ⟨0x290, 1, 4, [⟨31, 16, .ro, false, 0, .none⟩, ⟨15, 0, .ro, false, 0, .none⟩]⟩,
   /- PMC_SH_CYCLE -/ ⟨0x294, 1, 4, [⟨31, 0, .ro, false, 0, .none⟩]⟩,
   /- PMC_SH_TIME_LO -/ ⟨0x298, 1, 4, [⟨31, 0, .ro, false, 0, .none⟩]⟩,
   /- PMC_SH_TIME_HI -/ ⟨0x29c, 1, 4, [⟨31, 0, .ro, false, 0, .none⟩]⟩]

/-- The counter blocks, R470. -/
def pmcRegs1 : List RegDesc := [
   /- PMC_SH_TIME_SNAP -/ ⟨0x2a0, 1, 4, [⟨31, 0, .ro, false, 0, .none⟩]⟩,
   /- PMC_SH_LO -/ ⟨0x400, 32, 16, [⟨31, 0, .ro, false, 0, .none⟩]⟩,
   /- PMC_SH_HI -/ ⟨0x404, 32, 16, [⟨7, 0, .ro, false, 0, .none⟩]⟩]
def pmcRegs : List RegDesc := pmcRegs0 ++ pmcRegs1

/-- The power and thermal block, R416. -/
def pwrRegs0 : List RegDesc := [
   /- PWR_STATUS -/ ⟨0x0, 1, 4, [⟨31, 31, .ro, false, 0, .none⟩, ⟨30, 30, .ro, false, 0x1, .none⟩, ⟨29, 29, .ro, false, 0, .none⟩, ⟨20, 16, .ro, false, 0x10, .none⟩, ⟨15, 0, .ro, false, 0x7d0, .none⟩]⟩,
   /- PWR_LEASE_PEND -/ ⟨0x4, 1, 4, [⟨31, 31, .ro, false, 0, .none⟩, ⟨15, 0, .ro, false, 0, .none⟩]⟩,
   /- PWR_LEASE_SEQ -/ ⟨0x8, 1, 4, [⟨15, 0, .ro, false, 0, .none⟩]⟩,
   /- PWR_LEASE_EXP_LO -/ ⟨0xc, 1, 4, [⟨31, 0, .ro, false, 0, .none⟩]⟩,
   /- PWR_LEASE_EXP_HI -/ ⟨0x10, 1, 4, [⟨31, 0, .ro, false, 0, .none⟩]⟩,
   /- PWR_LEASE_EXP_SNAP -/ ⟨0x14, 1, 4, [⟨31, 0, .ro, false, 0, .none⟩]⟩,
   /- PWR_CAP -/ ⟨0x18, 1, 4, [⟨15, 0, .rw, false, 0xe10, .none⟩]⟩,
   /- PWR_CTRL -/ ⟨0x1c, 1, 4, [⟨31, 24, .rw, false, 0x5f, .none⟩, ⟨23, 16, .rw, false, 0x5f, .none⟩, ⟨12, 8, .rw, false, 0, .none⟩, ⟨7, 0, .rw, true, 0x52, .none⟩]⟩,
   /- PWR_PFIX -/ ⟨0x20, 1, 4, [⟨15, 0, .rw, true, 0, .none⟩]⟩,
   /- PWR_UV -/ ⟨0x24, 1, 4, [⟨15, 0, .rw, true, 0xa7f8, .none⟩]⟩,
   /- PWR_VIN -/ ⟨0x28, 1, 4, [⟨15, 0, .ro, false, 0, .none⟩]⟩,
   /- PWR_IIN -/ ⟨0x2c, 1, 4, [⟨15, 0, .ro, false, 0, .none⟩]⟩]

/-- The power and thermal block, R416. -/
def pwrRegs1 : List RegDesc := [
   /- PWR_PIN -/ ⟨0x30, 1, 4, [⟨15, 0, .ro, false, 0, .none⟩]⟩,
   /- PWR_TEMP -/ ⟨0x34, 1, 4, [⟨31, 16, .ro, false, 0, .none⟩, ⟨15, 0, .ro, false, 0, .none⟩]⟩,
   /- PWR_EVENT -/ ⟨0x38, 1, 4, [⟨5, 5, .sqc, false, 0, .none⟩, ⟨4, 4, .sqc, false, 0, .none⟩, ⟨3, 3, .sqc, false, 0, .none⟩, ⟨2, 2, .sqc, false, 0, .none⟩, ⟨1, 1, .sqc, false, 0, .none⟩, ⟨0, 0, .sqc, false, 0, .none⟩]⟩,
   /- PWR_EVENT_SEQ -/ ⟨0x3c, 1, 4, [⟨15, 0, .sqc, false, 0, .none⟩]⟩,
   /- PWR_STOP_CAUSE -/ ⟨0x40, 1, 4, [⟨31, 24, .ro, false, 0, .none⟩, ⟨7, 0, .ro, false, 0, .none⟩]⟩,
   /- PWR_THR_LO -/ ⟨0x100, 7, 16, [⟨31, 0, .ro, false, 0, .none⟩]⟩,
   /- PWR_THR_HI -/ ⟨0x104, 7, 16, [⟨31, 0, .ro, false, 0, .none⟩]⟩,
   /- PWR_THR_SNAP -/ ⟨0x108, 7, 16, [⟨31, 0, .ro, false, 0, .none⟩]⟩]
def pwrRegs : List RegDesc := pwrRegs0 ++ pwrRegs1

/-- The tile power block, R417. -/
def pwrtRegs : List RegDesc := [
   /- PWR_TSTATUS -/ ⟨0x0, 1, 4, [⟨31, 16, .ro, false, 0, .none⟩, ⟨4, 0, .ro, false, 0x10, .none⟩]⟩,
   /- PWR_TDROOP -/ ⟨0x4, 1, 4, [⟨15, 8, .rwb, false, 0x20, .rota⟩, ⟨5, 0, .rwb, false, 0x1e, .rota⟩]⟩,
   /- PWR_TSTRETCH_LO -/ ⟨0x8, 1, 4, [⟨31, 0, .ro, false, 0, .none⟩]⟩,
   /- PWR_TSTRETCH_HI -/ ⟨0xc, 1, 4, [⟨31, 0, .ro, false, 0, .none⟩]⟩,
   /- PWR_TSTRETCH_SNAP -/ ⟨0x10, 1, 4, [⟨31, 0, .ro, false, 0, .none⟩]⟩,
   /- PWR_TDROOP_COUNT -/ ⟨0x14, 1, 4, [⟨31, 0, .ro, false, 0, .none⟩]⟩,
   /- PWR_TTEMP -/ ⟨0x20, 4, 4, [⟨15, 0, .ro, false, 0, .none⟩]⟩]

/-- The quantiser block, R82. -/
def qntRegs : List RegDesc := [
   /- QNT_CTRL -/ ⟨0x0, 1, 4, [⟨11, 8, .rwb, false, 0x1, .step⟩, ⟨1, 1, .rwb, false, 0, .step⟩, ⟨0, 0, .rwb, false, 0x1, .step⟩]⟩,
   /- QNT_LIMITS -/ ⟨0x4, 1, 4, [⟨31, 16, .rwb, false, 0x4, .step⟩, ⟨5, 0, .rwb, false, 0x10, .step⟩]⟩,
   /- QNT_TABLE_BASE -/ ⟨0x8, 1, 4, [⟨25, 17, .rwb, false, 0, .step⟩]⟩,
   /- QNT_VOTE_BASE -/ ⟨0xc, 1, 4, [⟨25, 15, .rwb, false, 0, .step⟩]⟩,
   /- QNT_LFSR_SEED -/ ⟨0x10, 1, 4, [⟨31, 0, .rwb, false, 0x1, .step⟩]⟩,
   /- QNT_LFSR_STATE -/ ⟨0x14, 1, 4, [⟨31, 0, .ro, false, 0x1, .none⟩]⟩,
   /- QNT_STEP_STATUS -/ ⟨0x18, 1, 4, [⟨31, 30, .ro, false, 0, .none⟩, ⟨29, 29, .ro, false, 0, .none⟩, ⟨28, 28, .ro, false, 0, .none⟩, ⟨27, 27, .ro, false, 0, .none⟩, ⟨12, 0, .ro, false, 0, .none⟩]⟩,
   /- QNT_EVENT -/ ⟨0x1c, 1, 4, [⟨2, 2, .sqc, false, 0, .none⟩, ⟨1, 1, .sqc, false, 0, .none⟩, ⟨0, 0, .sqc, false, 0, .none⟩]⟩,
   /- QNT_EVENT_SEQ -/ ⟨0x20, 1, 4, [⟨15, 0, .sqc, false, 0, .none⟩]⟩]

/-- The seam block, R45. -/
def seamRegs : List RegDesc := [
   /- SEAM_STATUS -/ ⟨0x0, 1, 4, [⟨11, 8, .ro, false, 0, .none⟩, ⟨3, 0, .ro, false, 0, .none⟩]⟩,
   /- SEAM_EVENT -/ ⟨0x4, 1, 4, [⟨1, 1, .sqc, false, 0, .none⟩, ⟨0, 0, .sqc, false, 0, .none⟩]⟩,
   /- SEAM_EVENT_SEQ -/ ⟨0x8, 1, 4, [⟨15, 0, .sqc, false, 0, .none⟩]⟩,
   /- SEAM_PASS_LO -/ ⟨0x10, 1, 4, [⟨31, 0, .ro, false, 0, .none⟩]⟩,
   /- SEAM_PASS_HI -/ ⟨0x14, 1, 4, [⟨31, 0, .ro, false, 0, .none⟩]⟩,
   /- SEAM_PASS_SNAP -/ ⟨0x18, 1, 4, [⟨31, 0, .ro, false, 0, .none⟩]⟩,
   /- SEAM_PORT_RETRY -/ ⟨0x100, 4, 16, [⟨31, 0, .ro, false, 0, .none⟩]⟩,
   /- SEAM_PORT_DOWN_COUNT -/ ⟨0x104, 4, 16, [⟨31, 0, .ro, false, 0, .none⟩]⟩,
   /- SEAM_PORT_ERR_RESP -/ ⟨0x108, 4, 16, [⟨31, 0, .ro, false, 0, .none⟩]⟩,
   /- SEAM_PORT_ID -/ ⟨0x10c, 4, 16, [⟨6, 0, .ro, false, 0, .none⟩]⟩]

/-- The security block, R439, R444. -/
def secRegs : List RegDesc := [
   /- SEC_FLOOR -/ ⟨0x4, 1, 4, [⟨19, 16, .ro, false, 0, .none⟩, ⟨13, 0, .ro, false, 0, .none⟩]⟩,
   /- SEC_SLOTA -/ ⟨0x8, 1, 4, [⟨31, 31, .ro, false, 0, .none⟩, ⟨30, 30, .ro, false, 0, .none⟩, ⟨27, 24, .ro, false, 0, .none⟩, ⟨12, 0, .ro, false, 0, .none⟩]⟩,
   /- SEC_SLOTB -/ ⟨0xc, 1, 4, [⟨31, 31, .ro, false, 0, .none⟩, ⟨30, 30, .ro, false, 0, .none⟩, ⟨27, 24, .ro, false, 0, .none⟩, ⟨12, 0, .ro, false, 0, .none⟩]⟩,
   /- SEC_EVENT -/ ⟨0x10, 1, 4, [⟨2, 2, .sqc, false, 0, .none⟩, ⟨1, 1, .sqc, false, 0, .none⟩, ⟨0, 0, .sqc, false, 0, .none⟩]⟩,
   /- SEC_EVENT_SEQ -/ ⟨0x14, 1, 4, [⟨15, 0, .sqc, false, 0, .none⟩]⟩,
   /- SEC_GRANT -/ ⟨0x0, 1, 4, [⟨31, 31, .ro, false, 0, .none⟩, ⟨0, 0, .wo, true, 0, .none⟩]⟩]

/-- The serving block, R324. -/
def srvRegs0 : List RegDesc := [
   /- SRV_CTRL -/ ⟨0x0, 1, 4, [⟨15, 0, .rwb, false, 0x100, .step⟩]⟩,
   /- SRV_EVENT -/ ⟨0x4, 1, 4, [⟨4, 4, .sqc, false, 0, .none⟩, ⟨3, 3, .sqc, false, 0, .none⟩, ⟨2, 2, .sqc, false, 0, .none⟩, ⟨1, 1, .sqc, false, 0, .none⟩, ⟨0, 0, .sqc, false, 0, .none⟩]⟩,
   /- SRV_EVENT_SEQ -/ ⟨0x8, 1, 4, [⟨15, 0, .sqc, false, 0, .none⟩]⟩,
   /- SRV_CQ_BOUND -/ ⟨0xc, 1, 4, [⟨15, 0, .rw, false, 0xa, .none⟩]⟩,
   /- SRV_SEQ_LIVE -/ ⟨0x10, 1, 4, [⟨14, 0, .ro, false, 0, .none⟩]⟩,
   /- SRV_ADMIT_COUNT -/ ⟨0x14, 1, 4, [⟨31, 0, .ro, false, 0, .none⟩]⟩,
   /- SRV_REFUSE_COUNT -/ ⟨0x18, 1, 4, [⟨31, 0, .ro, false, 0, .none⟩]⟩,
   /- SRV_CANCEL_UNKNOWN_COUNT -/ ⟨0x1c, 1, 4, [⟨31, 0, .ro, false, 0, .none⟩]⟩,
   /- SRV_TOKENS_LO -/ ⟨0x20, 1, 4, [⟨31, 0, .ro, false, 0, .none⟩]⟩,
   /- SRV_TOKENS_HI -/ ⟨0x24, 1, 4, [⟨31, 0, .ro, false, 0, .none⟩]⟩,
   /- SRV_TOKENS_SNAP -/ ⟨0x28, 1, 4, [⟨31, 0, .ro, false, 0, .none⟩]⟩,
   /- SRV_CUST_SNAP -/ ⟨0x2c, 1, 4, [⟨31, 0, .ro, false, 0, .none⟩]⟩]

/-- The serving block, R324. -/
def srvRegs1 : List RegDesc := [
   /- SRV_GROUP_STATE -/ ⟨0x100, 4, 64, [⟨31, 29, .ro, false, 0, .none⟩, ⟨28, 28, .ro, false, 0, .none⟩, ⟨27, 27, .ro, false, 0, .none⟩, ⟨15, 0, .ro, false, 0, .none⟩]⟩,
   /- SRV_GROUP_CTRL -/ ⟨0x104, 4, 64, [⟨31, 31, .rwb, false, 0, .step⟩, ⟨15, 0, .rwb, false, 0x3e8, .step⟩]⟩,
   /- SRV_GROUP_SHARE -/ ⟨0x108, 4, 64, [⟨31, 24, .rwb, false, 0x20, .step⟩, ⟨23, 16, .rwb, false, 0x80, .step⟩, ⟨15, 12, .rwb, false, 0x4, .step⟩, ⟨11, 8, .rwb, false, 0x8, .step⟩, ⟨7, 0, .ro, false, 0x20, .none⟩]⟩,
   /- SRV_GROUP_PTARGET -/ ⟨0x10c, 4, 64, [⟨31, 0, .rwb, false, 0x30d40, .step⟩]⟩,
   /- SRV_GROUP_MINPERIOD -/ ⟨0x110, 4, 64, [⟨31, 0, .rwb, false, 0x3e8, .step⟩]⟩,
   /- SRV_GROUP_BE_FLOOR -/ ⟨0x114, 4, 64, [⟨14, 0, .rwb, false, 0x400, .step⟩]⟩,
   /- SRV_GROUP_STEP_LO -/ ⟨0x118, 4, 64, [⟨31, 0, .ro, false, 0, .none⟩]⟩,
   /- SRV_GROUP_STEP_HI -/ ⟨0x11c, 4, 64, [⟨31, 0, .ro, false, 0, .none⟩]⟩,
   /- SRV_GROUP_STEP_SNAP -/ ⟨0x120, 4, 64, [⟨31, 0, .ro, false, 0, .none⟩]⟩,
   /- SRV_GROUP_LEAD_TIMEOUT -/ ⟨0x124, 4, 64, [⟨15, 0, .rw, false, 0x64, .none⟩]⟩,
   /- SRV_GROUP_STEP_NS -/ ⟨0x128, 4, 64, [⟨31, 0, .ro, false, 0, .none⟩]⟩,
   /- SRV_SQ_CFG -/ ⟨0x1000, 64, 32, [⟨31, 31, .rw, false, 0, .none⟩, ⟨2, 0, .rw, false, 0, .none⟩]⟩]

/-- The serving block, R324. -/
def srvRegs2 : List RegDesc := [
   /- SRV_SQ_HEAD -/ ⟨0x1004, 64, 32, [⟨11, 0, .ro, false, 0, .none⟩]⟩,
   /- SRV_CQ_CFG -/ ⟨0x1008, 64, 32, [⟨31, 31, .rw, false, 0, .none⟩, ⟨26, 16, .rw, false, 0, .none⟩, ⟨3, 0, .rw, false, 0, .none⟩]⟩,
   /- SRV_CQ_BASE_LO -/ ⟨0x100c, 64, 32, [⟨31, 12, .rw, false, 0, .none⟩]⟩,
   /- SRV_CQ_BASE_HI -/ ⟨0x1010, 64, 32, [⟨31, 0, .rw, false, 0, .none⟩]⟩,
   /- SRV_CQ_BASE_SNAP -/ ⟨0x1014, 64, 32, [⟨31, 0, .ro, false, 0, .none⟩]⟩,
   /- SRV_CQ_TAIL -/ ⟨0x1018, 64, 32, [⟨31, 31, .ro, false, 0x1, .none⟩, ⟨15, 0, .ro, false, 0, .none⟩]⟩,
   /- SRV_CQ_HELD -/ ⟨0x101c, 64, 32, [⟨14, 0, .ro, false, 0, .none⟩]⟩]
def srvRegs : List RegDesc := srvRegs0 ++ srvRegs1 ++ srvRegs2

/-- The Stitch units, R475. -/
def stcRegs0 : List RegDesc := [
   /- STC_CFG -/ ⟨0x0, 1, 4, [⟨31, 30, .rw, false, 0x2, .none⟩, ⟨29, 29, .rw, false, 0x1, .none⟩, ⟨28, 28, .rw, false, 0x1, .none⟩, ⟨27, 26, .rw, false, 0, .none⟩, ⟨25, 20, .rw, false, 0x3, .none⟩]⟩,
   /- STC_POLY_LO -/ ⟨0x4, 1, 4, [⟨31, 0, .rw, false, 0x1edc6f41, .none⟩]⟩,
   /- STC_POLY_HI -/ ⟨0x8, 1, 4, [⟨31, 0, .rw, false, 0, .none⟩]⟩,
   /- STC_POLY_SNAP -/ ⟨0xc, 1, 4, [⟨31, 0, .ro, false, 0, .none⟩]⟩,
   /- STC_INIT_LO -/ ⟨0x10, 1, 4, [⟨31, 0, .rw, false, 0xffffffff, .none⟩]⟩,
   /- STC_INIT_HI -/ ⟨0x14, 1, 4, [⟨31, 0, .rw, false, 0, .none⟩]⟩,
   /- STC_INIT_SNAP -/ ⟨0x18, 1, 4, [⟨31, 0, .ro, false, 0, .none⟩]⟩,
   /- STC_XOROUT_LO -/ ⟨0x1c, 1, 4, [⟨31, 0, .rw, false, 0xffffffff, .none⟩]⟩,
   /- STC_XOROUT_HI -/ ⟨0x20, 1, 4, [⟨31, 0, .rw, false, 0, .none⟩]⟩,
   /- STC_XOROUT_SNAP -/ ⟨0x24, 1, 4, [⟨31, 0, .ro, false, 0, .none⟩]⟩,
   /- STC_SRC_LO -/ ⟨0x28, 1, 4, [⟨31, 0, .rw, false, 0, .none⟩]⟩,
   /- STC_SRC_HI -/ ⟨0x2c, 1, 4, [⟨31, 0, .rw, false, 0, .none⟩]⟩]

/-- The Stitch units, R475. -/
def stcRegs1 : List RegDesc := [
   /- STC_SRC_SNAP -/ ⟨0x30, 1, 4, [⟨31, 0, .ro, false, 0, .none⟩]⟩,
   /- STC_LEN -/ ⟨0x34, 1, 4, [⟨31, 0, .rw, false, 0, .none⟩]⟩,
   /- STC_SEQ -/ ⟨0x38, 1, 4, [⟨31, 0, .rw, false, 0, .none⟩]⟩,
   /- STC_CMD -/ ⟨0x3c, 1, 4, [⟨31, 31, .wo, false, 0, .none⟩, ⟨1, 0, .wo, false, 0, .none⟩]⟩,
   /- STC_STATUS -/ ⟨0x40, 1, 4, [⟨31, 29, .ro, false, 0, .none⟩, ⟨28, 28, .ro, false, 0, .none⟩, ⟨27, 24, .ro, false, 0, .none⟩]⟩,
   /- STC_RESULT_LO -/ ⟨0x44, 1, 4, [⟨31, 0, .ro, false, 0, .none⟩]⟩,
   /- STC_RESULT_HI -/ ⟨0x48, 1, 4, [⟨31, 0, .ro, false, 0, .none⟩]⟩,
   /- STC_RESULT_SNAP -/ ⟨0x4c, 1, 4, [⟨31, 0, .ro, false, 0, .none⟩]⟩,
   /- STC_FOLD_LO -/ ⟨0x50, 1, 4, [⟨31, 0, .ro, false, 0, .none⟩]⟩,
   /- STC_FOLD_HI -/ ⟨0x54, 1, 4, [⟨31, 0, .ro, false, 0, .none⟩]⟩,
   /- STC_FOLD_SNAP -/ ⟨0x58, 1, 4, [⟨31, 0, .ro, false, 0, .none⟩]⟩,
   /- STC_EVENT -/ ⟨0x5c, 1, 4, [⟨1, 1, .sqc, false, 0, .none⟩, ⟨0, 0, .sqc, false, 0, .none⟩]⟩]

/-- The Stitch units, R475. -/
def stcRegs2 : List RegDesc := [
   /- STC_EVENT_SEQ -/ ⟨0x60, 1, 4, [⟨15, 0, .sqc, false, 0, .none⟩]⟩]
def stcRegs : List RegDesc := stcRegs0 ++ stcRegs1 ++ stcRegs2

/-- The tile control block, R156. -/
def tctlRegs0 : List RegDesc := [
   /- TCTL_PASS_STATUS -/ ⟨0x0, 1, 4, [⟨31, 30, .ro, false, 0, .none⟩, ⟨29, 29, .ro, false, 0, .none⟩, ⟨28, 28, .ro, false, 0, .none⟩, ⟨15, 0, .ro, false, 0, .none⟩]⟩,
   /- TCTL_ROTA -/ ⟨0x4, 1, 4, [⟨20, 16, .ro, false, 0, .none⟩, ⟨15, 8, .ro, false, 0, .none⟩, ⟨1, 0, .rwb, false, 0, .rotaIdle⟩]⟩,
   /- TCTL_PASS_LEN -/ ⟨0x8, 1, 4, [⟨31, 0, .ro, false, 0, .none⟩]⟩,
   /- TCTL_SFAULT_INFO -/ ⟨0xc, 1, 4, [⟨31, 24, .ro, false, 0, .none⟩, ⟨23, 21, .ro, false, 0, .none⟩, ⟨17, 0, .ro, false, 0, .none⟩]⟩,
   /- TCTL_SFAULT_CYCLE -/ ⟨0x10, 1, 4, [⟨31, 0, .ro, false, 0, .none⟩]⟩,
   /- TCTL_SFAULT_ARG -/ ⟨0x14, 1, 4, [⟨31, 0, .ro, false, 0, .none⟩]⟩,
   /- TCTL_EVENT -/ ⟨0x18, 1, 4, [⟨4, 4, .sqc, false, 0, .none⟩, ⟨3, 3, .sqc, false, 0, .none⟩, ⟨2, 2, .sqc, false, 0, .none⟩, ⟨1, 1, .sqc, false, 0, .none⟩, ⟨0, 0, .sqc, false, 0, .none⟩]⟩,
   /- TCTL_EVENT_SEQ -/ ⟨0x1c, 1, 4, [⟨15, 0, .sqc, false, 0, .none⟩]⟩,
   /- TCTL_STALE_COUNT -/ ⟨0x20, 1, 4, [⟨31, 0, .ro, false, 0, .none⟩]⟩,
   /- TCTL_WAIT_BEATS -/ ⟨0x24, 1, 4, [⟨31, 0, .ro, false, 0, .none⟩]⟩,
   /- TCTL_TRIP -/ ⟨0x100, 64, 4, [⟨15, 0, .ro, false, 0, .none⟩]⟩,
   /- TCTL_TIER_LATE -/ ⟨0x200, 30, 4, [⟨31, 0, .ro, false, 0, .none⟩]⟩]

/-- The tile control block, R156. -/
def tctlRegs1 : List RegDesc := [
   /- TCTL_TIER_ERR -/ ⟨0x280, 30, 4, [⟨31, 0, .ro, false, 0, .none⟩]⟩]
def tctlRegs : List RegDesc := tctlRegs0 ++ tctlRegs1

/-- The vector engine block, R125. -/
def vecRegs : List RegDesc := [
   /- VEC_EVENT -/ ⟨0x0, 1, 4, [⟨1, 1, .sqc, false, 0, .none⟩, ⟨0, 0, .sqc, false, 0, .none⟩]⟩,
   /- VEC_EVENT_SEQ -/ ⟨0x4, 1, 4, [⟨15, 0, .sqc, false, 0, .none⟩]⟩,
   /- VEC_EVENT_EN -/ ⟨0x8, 1, 4, [⟨1, 1, .rwb, false, 0, .step⟩, ⟨0, 0, .rwb, false, 0, .step⟩]⟩]

/-- The Wringer block, R232. -/
def wrgRegs : List RegDesc := [
   /- WRG_STATUS -/ ⟨0x0, 1, 4, [⟨2, 2, .ro, false, 0, .none⟩, ⟨1, 1, .ro, false, 0, .none⟩, ⟨0, 0, .ro, false, 0, .none⟩]⟩,
   /- WRG_EVENT -/ ⟨0x4, 1, 4, [⟨2, 2, .sqc, false, 0, .none⟩, ⟨1, 1, .sqc, false, 0, .none⟩, ⟨0, 0, .sqc, false, 0, .none⟩]⟩,
   /- WRG_EVENT_SEQ -/ ⟨0x8, 1, 4, [⟨15, 0, .sqc, false, 0, .none⟩]⟩,
   /- WRG_YIELD_COUNT -/ ⟨0xc, 1, 4, [⟨31, 0, .ro, false, 0, .none⟩]⟩,
   /- WRG_LOAD_BYTES_LO -/ ⟨0x10, 1, 4, [⟨31, 0, .ro, false, 0, .none⟩]⟩,
   /- WRG_LOAD_BYTES_HI -/ ⟨0x14, 1, 4, [⟨31, 0, .ro, false, 0, .none⟩]⟩,
   /- WRG_LOAD_BYTES_SNAP -/ ⟨0x18, 1, 4, [⟨31, 0, .ro, false, 0, .none⟩]⟩]

/-- The weight-residency block, R231. -/
def wtrRegs0 : List RegDesc := [
   /- WTR_DRIVE_STATUSA -/ ⟨0x0, 1, 4, [⟨31, 31, .ro, false, 0, .none⟩, ⟨30, 30, .ro, false, 0, .none⟩, ⟨29, 29, .ro, false, 0, .none⟩, ⟨23, 20, .ro, false, 0, .none⟩, ⟨19, 16, .ro, false, 0, .none⟩, ⟨15, 0, .ro, false, 0, .none⟩]⟩,
   /- WTR_DRIVE_STATUSB -/ ⟨0x4, 1, 4, [⟨31, 31, .ro, false, 0, .none⟩, ⟨30, 30, .ro, false, 0, .none⟩, ⟨29, 29, .ro, false, 0, .none⟩, ⟨23, 20, .ro, false, 0, .none⟩, ⟨19, 16, .ro, false, 0, .none⟩, ⟨15, 0, .ro, false, 0, .none⟩]⟩,
   /- WTR_DRIVE_CTRL -/ ⟨0x8, 1, 4, [⟨17, 17, .rw, true, 0, .none⟩, ⟨16, 16, .rw, true, 0, .none⟩, ⟨15, 0, .rw, false, 0x3e8, .none⟩]⟩,
   /- WTR_EVENT -/ ⟨0xc, 1, 4, [⟨3, 3, .sqc, false, 0, .none⟩, ⟨2, 2, .sqc, false, 0, .none⟩, ⟨1, 1, .sqc, false, 0, .none⟩, ⟨0, 0, .sqc, false, 0, .none⟩]⟩,
   /- WTR_EVENT_SEQ -/ ⟨0x10, 1, 4, [⟨15, 0, .sqc, false, 0, .none⟩]⟩,
   /- WTR_LOAD_DONE -/ ⟨0x14, 1, 4, [⟨31, 0, .ro, false, 0, .none⟩]⟩,
   /- WTR_LOAD_CHUNKS -/ ⟨0x18, 1, 4, [⟨31, 0, .ro, false, 0, .none⟩]⟩,
   /- WTR_LOAD_SEQ -/ ⟨0x1c, 1, 4, [⟨31, 0, .ro, false, 0, .none⟩]⟩,
   /- WTR_CHUNK_RETRY_COUNT -/ ⟨0x20, 1, 4, [⟨31, 0, .ro, false, 0, .none⟩]⟩,
   /- WTR_LOAD_COUNT -/ ⟨0x24, 1, 4, [⟨31, 0, .ro, false, 0, .none⟩]⟩,
   /- WTR_EVICT_COUNT -/ ⟨0x28, 1, 4, [⟨31, 0, .ro, false, 0, .none⟩]⟩,
   /- WTR_DROP_COUNT -/ ⟨0x2c, 1, 4, [⟨31, 0, .ro, false, 0, .none⟩]⟩]

/-- The weight-residency block, R231. -/
def wtrRegs1 : List RegDesc := [
   /- WTR_SLOT_STATE -/ ⟨0x100, 16, 32, [⟨31, 29, .ro, false, 0, .none⟩, ⟨28, 28, .ro, false, 0, .none⟩, ⟨27, 27, .ro, false, 0, .none⟩, ⟨23, 16, .ro, false, 0, .none⟩, ⟨15, 8, .ro, false, 0, .none⟩, ⟨7, 0, .ro, false, 0, .none⟩]⟩,
   /- WTR_SLOT_TILES -/ ⟨0x104, 16, 32, [⟨31, 0, .ro, false, 0, .none⟩]⟩,
   /- WTR_SLOT_MODEL_LO -/ ⟨0x108, 16, 32, [⟨31, 0, .ro, false, 0, .none⟩]⟩,
   /- WTR_SLOT_MODEL_HI -/ ⟨0x10c, 16, 32, [⟨31, 0, .ro, false, 0, .none⟩]⟩,
   /- WTR_SLOT_USE_LO -/ ⟨0x110, 16, 32, [⟨31, 0, .ro, false, 0, .none⟩]⟩,
   /- WTR_SLOT_USE_HI -/ ⟨0x114, 16, 32, [⟨31, 0, .ro, false, 0, .none⟩]⟩,
   /- WTR_SLOT_MODEL_SNAP -/ ⟨0x118, 16, 32, [⟨31, 0, .ro, false, 0, .none⟩]⟩,
   /- WTR_SLOT_USE_SNAP -/ ⟨0x11c, 16, 32, [⟨31, 0, .ro, false, 0, .none⟩]⟩]
def wtrRegs : List RegDesc := wtrRegs0 ++ wtrRegs1

/-- The expert router block, R294. -/
def xptRegs : List RegDesc := [
   /- XPT_CTRL -/ ⟨0x0, 1, 4, [⟨31, 16, .ro, false, 0, .none⟩]⟩,
   /- XPT_STATUS -/ ⟨0x4, 1, 4, [⟨24, 16, .ro, false, 0, .none⟩, ⟨12, 0, .ro, false, 0, .none⟩]⟩,
   /- XPT_EVENT -/ ⟨0x8, 1, 4, [⟨7, 7, .sqc, false, 0, .none⟩, ⟨6, 6, .sqc, false, 0, .none⟩, ⟨5, 5, .sqc, false, 0, .none⟩, ⟨4, 4, .sqc, false, 0, .none⟩, ⟨3, 3, .sqc, false, 0, .none⟩, ⟨2, 2, .sqc, false, 0, .none⟩, ⟨1, 1, .sqc, false, 0, .none⟩, ⟨0, 0, .sqc, false, 0, .none⟩]⟩,
   /- XPT_EVENT_SEQ -/ ⟨0xc, 1, 4, [⟨15, 0, .sqc, false, 0, .none⟩]⟩,
   /- XPT_STALE_COUNT -/ ⟨0x10, 1, 4, [⟨31, 0, .ro, false, 0, .none⟩]⟩,
   /- XPT_REFUSE_COUNT -/ ⟨0x14, 1, 4, [⟨31, 0, .ro, false, 0, .none⟩]⟩,
   /- XPT_EVICT_COUNT -/ ⟨0x18, 1, 4, [⟨31, 0, .ro, false, 0, .none⟩]⟩,
   /- XPT_DEFER_COUNT -/ ⟨0x1c, 1, 4, [⟨31, 0, .ro, false, 0, .none⟩]⟩,
   /- XPT_FWD_COUNT -/ ⟨0x20, 1, 4, [⟨31, 0, .ro, false, 0, .none⟩]⟩,
   /- XPT_RET_COUNT -/ ⟨0x24, 1, 4, [⟨31, 0, .ro, false, 0, .none⟩]⟩,
   /- XPT_INTAKE_DEMAND -/ ⟨0x100, 64, 4, [⟨31, 0, .ro, false, 0, .none⟩]⟩]

/-- Budget records of R321 (4,096 of 64 B at 0x4_0000 of the serving block): words 0 to 15 of a record. -/
def budgetRegs : List RegDesc := [
   ⟨0x40000, 4096, 64, [⟨31, 0, .ro, false, 0, .none⟩]⟩, ⟨0x40004, 4096, 64, [⟨31, 0, .ro, false, 0, .none⟩]⟩,
   ⟨0x40008, 4096, 64, [⟨31, 0, .ro, false, 0, .none⟩]⟩, ⟨0x4000C, 4096, 64, [⟨31, 0, .ro, false, 0, .none⟩]⟩,
   ⟨0x40010, 4096, 64, [⟨31, 0, .rwb, true, 0, .step⟩]⟩, ⟨0x40014, 4096, 64, [⟨31, 0, .rwb, true, 0, .step⟩]⟩,
   ⟨0x40018, 4096, 64, [⟨31, 16, .rwb, true, 0, .step⟩, ⟨15, 0, .rwb, true, 0, .step⟩]⟩,
   ⟨0x4001C, 4096, 64, [⟨31, 0, .ro, false, 0, .none⟩]⟩, ⟨0x40020, 4096, 64, [⟨31, 0, .rwb, true, 0, .step⟩]⟩,
   ⟨0x40024, 4096, 64, [⟨1, 1, .rwb, true, 0, .step⟩, ⟨0, 0, .rwb, true, 0, .step⟩]⟩,
   ⟨0x40028, 4096, 64, [⟨31, 0, .ro, false, 0, .none⟩]⟩, ⟨0x4002C, 4096, 64, []⟩,
   ⟨0x40030, 4096, 64, [⟨31, 0, .ro, false, 0, .none⟩]⟩, ⟨0x40034, 4096, 64, [⟨31, 0, .ro, false, 0, .none⟩]⟩,
   ⟨0x40038, 4096, 64, []⟩, ⟨0x4003C, 4096, 64, []⟩,
   /- sequence-table window, read-only, computed on read -/ ⟨0x80000, 131072, 4, [⟨31, 0, .ro, false, 0, .none⟩]⟩]

/-- The MSI-X table and pending-bit array of R464: address, address high, data, vector control (bit 0 Mask). -/
def msixRegs : List RegDesc := [
   ⟨0x10000, 2048, 16, [⟨31, 2, .rw, false, 0, .none⟩]⟩, ⟨0x10004, 2048, 16, [⟨31, 0, .rw, false, 0, .none⟩]⟩,
   ⟨0x10008, 2048, 16, [⟨31, 0, .rw, false, 0, .none⟩]⟩, ⟨0x1000C, 2048, 16, [⟨0, 0, .rw, false, 1, .none⟩]⟩,
   ⟨0x20000, 64, 4, [⟨31, 0, .ro, false, 0, .none⟩]⟩]

/-- The event-log window of R491, read-only, computed on read. -/
def logRegs : List RegDesc := [⟨0x10000, 65536, 4, [⟨31, 0, .ro, false, 0, .none⟩]⟩]

/-- The first descriptor of a list that covers block offset `o`. -/
def findDesc (l : List RegDesc) (o : Nat) : Option RegDesc :=
  l.find? fun d => d.base ≤ o && (o - d.base) % d.stride == 0 && (o - d.base) / d.stride < d.count

/-- The sub-block list of a tile block and the offset within it (00_scope.md and the block bases of each chapter). -/
def tileDesc (o : Nat) : Option RegDesc :=
  match o / 0x10000 with
  | 0 => findDesc tctlRegs (o % 0x10000)
  | 1 => findDesc mglRegs (o % 0x10000)
  | 2 => findDesc vecRegs (o % 0x10000)
  | 3 => findDesc qntRegs (o % 0x10000)
  | 4 => findDesc memRegs (o % 0x10000)
  | 5 => findDesc wrgRegs (o % 0x10000)
  | 6 => findDesc hmpRegs (o % 0x10000)
  | 7 => findDesc xptRegs (o % 0x10000)
  | 8 => findDesc seamRegs (o % 0x10000)
  | 9 => if (o % 0x10000 < 0x200 ∧ 0x100 ≤ o % 0x10000) ∨ (o % 0x10000 < 0x280 ∧ 0x240 ≤ o % 0x10000)
      ∨ 0x500 ≤ o % 0x10000 then none else findDesc pmcRegs (o % 0x10000)
  | 10 => findDesc stcRegs (o % 0x10000)
  | 11 => findDesc pwrtRegs (o % 0x10000)
  | _ => none

/-- The hub blocks by their MiB of BAR0. -/
def hubDesc (o : Nat) : Option RegDesc :=
  match o / 0x100000 with
  | 0 => findDesc (hubRegs ++ logRegs) (o % 0x100000)
  | 1 => findDesc (intRegs ++ msixRegs) (o % 0x100000)
  | 2 => findDesc (srvRegs ++ budgetRegs) (o % 0x100000)
  | 3 => findDesc pwrRegs (o % 0x100000)
  | 4 => findDesc secRegs (o % 0x100000)
  | 5 => findDesc fabRegs (o % 0x100000)
  | 6 => findDesc dldRegs (o % 0x100000)
  | 7 => findDesc wtrRegs (o % 0x100000)
  | 8 => findDesc pmcRegs (o % 0x100000)
  | 9 => if o % 0x100000 < 0x400 then findDesc stcRegs (o % 0x100) else none
  | _ => none

/-- The descriptor of the register at BAR0 offset `o`, none where no block defines it (R11). -/
def regDesc (o : Nat) : Option RegDesc :=
  if o < 0x1000000 then hubDesc o
  else if o < 0x3000000 then tileDesc ((o - 0x1000000) % 0x100000)
  else if o < 0x3800000 then findDesc oecRegs ((o - 0x3000000) % 0x100000)
  else none

/-- The seam number on port `d` of tile `n` (R27, R45); 0x7F where the port has no seam. -/
def seamOfPort (n d : Nat) : Nat :=
  let r := n / 8
  let c := n % 8
  match d with
  | 0 => if c = 0 then 52 + r else 7 * r + (c - 1)
  | 1 => if c = 7 then 0x7F else 7 * r + c
  | 2 => if r = 0 then 56 + 2 * (c / 2) + c % 2 else 28 + 8 * (r - 1) + c
  | _ => if r = 3 then 56 + 2 * (4 + c / 2) + c % 2 else 28 + 8 * r + c

/-- Reset bits of a tile's seam block that depend on the tile (SEAM_STATUS.PRESENT and SEAM_PORTd_ID of R45). -/
def seamReset (o : Nat) : Nat :=
  let n := (o - 0x1000000) / 0x100000
  let b := (o - 0x1000000) % 0x100000
  if o < 0x1000000 ∨ 0x3000000 ≤ o then 0
  else if b = 0x80000 then (if n % 8 = 7 then 0xD00 else 0xF00)
  else if 0x8010C ≤ b ∧ b < 0x80140 ∧ b % 16 = 12 then seamOfPort n ((b - 0x8010C) / 16)
  else 0

/-- The value a register holds after a COLD reset, before boot loads its "cfg" fields: the Reset column of its map
(R16). A "cfg" field holds 0 until boot loads it (DESIGN CHOICE, notes/assumptions/2.md). -/
def resetVal (o : Nat) : BitVec 32 :=
  match regDesc o with
  | none => 0
  | some d => BitVec.ofNat 32 (d.fields.foldl (fun a f => a + f.reset * 2 ^ f.lo) 0 + seamReset o)

end Sys2Proof.Machine
end

