-- ==== Sys2Proof/Machine/State.lean ====
section
/-! DEFINITION. The state of the package as plain data: every register (one register file keyed by BAR0 offset), every
buffer, queue, table and engine state that the spec gives, the configuration flash, and the queue of waiting
commands; and the state right after reset. -/

namespace Sys2Proof.Machine

/-- A pending value of an RWB field (R13): the register, the field's bits, the value, and the global time of the write
(R451's 1 ms rule). -/
structure RwbVal where
  off : Nat
  hi : Nat
  lo : Nat
  val : Nat
  since : Nat
  deriving DecidableEq, Repr

/-- An event-log entry (R489). -/
structure LogEntry where
  time : Nat
  logseq : Nat
  code : Nat
  source : Nat
  arg0 : Nat
  arg1 : Nat
  arg2 : Nat
  arg3 : Nat
  deriving DecidableEq, Repr

/-- The slot that was never written: LOGSEQ 0 (R489). -/
def LogEntry.empty : LogEntry := ⟨0, 0, 0, 0, 0, 0, 0, 0⟩

/-- The MSI-X capability bits of R460. -/
structure Msix where
  enable : Bool
  fmask : Bool
  deriving DecidableEq, Repr


/-- Something the package sends: over the host link, the sideband, DOE, JTAG, the fabric or between its dies. -/
inductive Output where
  /-- a BAR read completes with data -/
  | readData (v : Word)
  /-- a BAR request completes with Unsupported Request (R8, R300) -/
  | unsupported
  /-- a Configuration Request completes with Request Retry Status, or normally (R431) -/
  | configRetry
  | configDone
  /-- an MSI-X message: vector, address, data (R460) -/
  | msix (vec addr data : Nat)
  /-- a BAR4 read completes with data -/
  | window (data : List Byte)
  /-- a write to host memory -/
  | hostWrite (addr : Nat) (data : List Byte)
  /-- the sideband answers a read, acknowledges a write, or refuses -/
  | smbData (data : List Byte)
  | smbAck
  | smbNack
  /-- a DOE or SPDM answer: the response's name and its content -/
  | spdm (name : String) (items : List String) (data : List Byte)
  /-- JTAG shifts bits out -/
  | tdo (bits : List Bool)
  /-- the optical transmitters go dark (R415, R480) -/
  | transmittersOff
  /-- the PCIe endpoint link goes down -/
  | hostLinkDown
  /-- a message reaches its endpoint inside the package -/
  | arrive (dest : EndPt) (m : Dmsg)
  /-- an optical link transmits a frame (R329) -/
  | frame (link : Nat) (f : Frame)
  /-- a management message to a package whose body no rule lays out: its name and its content -/
  | mgmt (pkg : Nat) (name : String) (args : List Nat)
  /-- a signal between dies of the package whose form no rule lays out: its name and its content -/
  | signal (name : String) (args : List Nat)
  deriving DecidableEq, Repr


/-- Where the package stands between off and powered (R389, R393, R414, R415). -/
inductive PwrPhase where
  /-- the standby stage is off (no input, EPO_N or overvoltage) -/
  | off
  /-- the standby stage runs and the main stages are off -/
  | standby
  /-- the main stages are ordered on and the 6 V bus rises -/
  | softStart
  /-- the 6 V bus is in regulation -/
  | main
  /-- the stop sequence of R415 runs -/
  | stopping
  deriving DecidableEq, Repr

/-- The power controller, the converters, the always-on island and the power pins (50 V Power chapter). -/
structure Power where
  phase : PwrPhase
  /-- EPO_N as qualified (R413): true while high -/
  epoHigh : Bool
  /-- FLOW_OK as qualified (R412) -/
  flowOk : Bool
  /-- after an overvoltage cut: the input has not yet fallen below 38.0 V (R409) -/
  ovHold : Bool
  /-- the input has met the restart condition of a UV cause (R414) -/
  uvMet : Bool
  /-- an OPERATION on has met the restart conditions of the other causes (R414) -/
  onMet : Bool
  /-- a stop is latched (R393 step 3, R414) -/
  stopLatched : Bool
  /-- the next power-up is a restart after a stop (HUB_RESET_STATUS.LAST 1) -/
  restart : Bool
  /-- the 150 µs converter timers run (R412) -/
  flowTimer : Bool
  /-- SB_ADDR[2:0] as sampled (R504) -/
  sbAddr : Option (BitVec 3)
  /-- s_pwr, s_tile and s_dram of R396 and R400, with the global times of their last changes -/
  sPwr : Nat
  sTile : Nat
  sDram : Nat
  tPwr : Nat
  tTile : Nat
  tDram : Nat
  /-- a raise of TCLK whose VCORE settles: the step to publish and when VCORE was raised (R394) -/
  raising : Option (Nat × Nat)
  /-- the throttle step whose VCORE set-point each tile's regulator holds (R392, R394) -/
  vcoreStep : Vector Nat 32
  /-- the input power of the last reports, in units of 10 µW (R391) -/
  pin : Nat
  /-- the throttle reasons that accumulate now (R397), bit n for reason n, and the time counted up to -/
  reasons : Nat
  accAt : Nat
  /-- the smallest term of lim at the last tick: 0 budget, 1 cap, 2 current (R397) -/
  limTerm : Nat
  /-- the hub's two junction sensors after trim, in units of 0.0625 °C (R399) -/
  hubTemp0 : BitVec 16
  hubTemp1 : BitVec 16
  /-- the tiles under the forced stretch of R411 -/
  uvStretch : BitVec 32
  /-- a lease SEQ has been accepted since reset (R402) -/
  seqHeld : Bool
  /-- the acceptance time of the pending budget (R402) -/
  pendAt : Nat
  /-- tiles whose droop detector stretches (R398) -/
  droop : BitVec 32
  deriving DecidableEq, Repr

def Power.reset : Power where
  phase := .off
  epoHigh := true
  flowOk := true
  ovHold := false
  uvMet := false
  onMet := false
  stopLatched := false
  restart := false
  flowTimer := false
  sbAddr := none
  sPwr := 16
  sTile := 0
  sDram := 0
  tPwr := 0
  tTile := 0
  tDram := 0
  raising := none
  vcoreStep := Vector.replicate 32 16
  pin := 0
  reasons := 0
  accAt := 0
  limTerm := 0
  hubTemp0 := 0
  hubTemp1 := 0
  uvStretch := 0
  seqHeld := false
  pendAt := 0
  droop := 0

/-- The sideband (R406, R445): what holds SMBALERT# asserted (a status bit, a panel event), the latched PMBus faults,
the warning bits as last seen (UV, OC, OT), and the state of OPERATION. -/
structure Sideband where
  alertStatus : Bool
  alertPanel : Bool
  uvFault : Bool
  otFault : Bool
  seenUv : Bool
  seenOc : Bool
  seenOt : Bool
  operation : Nat
  deriving DecidableEq, Repr

/-- OPERATION reads on until it is written (DESIGN CHOICE, notes/assumptions/13.md). -/
def Sideband.reset : Sideband := ⟨false, false, false, false, false, false, false, 0x80⟩

/-- The service panel's timing state (R446 to R448). -/
structure Panel where
  /-- when the debounced button was pressed, while it is held -/
  pressedAt : Option Nat
  /-- the 5 s limit of this press has passed -/
  longDone : Bool
  /-- the running drain was started by the button -/
  byButton : Bool
  /-- when the running drain started -/
  drainAt : Nat
  /-- the drain timer has ended -/
  timedOut : Bool
  deriving DecidableEq, Repr

def Panel.reset : Panel := ⟨none, false, false, 0, false⟩


/-- The configuration flash (R422, R423): its bytes by address; an unlisted byte is erased and reads 0xFF. -/
structure Flash where
  bytes : Mem
  deriving DecidableEq, Repr

/-- A flash in which every byte is erased. -/
def Flash.blank : Flash := ⟨[]⟩

/-- An entry of the event log that boot makes and the hub writes at BOOT_DONE, after the RESET entry (R490). -/
structure BootNote where
  code : Nat
  source : Nat
  arg0 : Nat
  arg1 : Nat
  deriving DecidableEq, Repr

/-- Boot progress (R429 to R432). -/
structure Boot where
  /-- boot runs (event 1 has happened and neither BOOT_DONE nor an error has) -/
  running : Bool
  /-- global time of event 1 of R431 -/
  startAt : Nat
  /-- BSCAN_EN as sampled at the last COLD or WARM reset (R510) -/
  bscan : Bool
  /-- the slot whose signed part is read next: 0 A, 1 B (R429) -/
  trying : Option (Fin 2)
  /-- the slot to try when the first fails, if its header is good -/
  second : Option (Fin 2)
  /-- the first slot tried failed -/
  fellBack : Bool
  /-- event 9 of R431 has passed -/
  tilesDone : Bool
  /-- the entries that the hub will write at BOOT_DONE -/
  notes : List BootNote
  deriving DecidableEq, Repr

def Boot.reset : Boot := ⟨false, 0, false, none, none, false, false, []⟩

/-- An SPDM session of the root of trust (R437, R439). -/
structure Session where
  id : Nat
  /-- mutually authenticated with a provisioned requester key (ReqSlotID 0xFF) -/
  mutAuth : Bool
  /-- SHA-512 of the requester's public key -/
  keyHash : List Byte
  /-- FINISH has completed -/
  finished : Bool
  /-- global time of the last message that renewed the session -/
  lastBeat : Nat
  /-- number of key updates -/
  keyGen : Nat
  deriving DecidableEq, Repr

/-- The root of trust's answering state (R436 to R439). -/
structure Trust where
  sessions : List Session
  nextId : Nat
  /-- the session that holds the privileged grant -/
  holder : Option Nat
  /-- attestation is available: the identity key was derived (R432) -/
  identity : Bool
  /-- the alias key and certificate exist (R436) -/
  alias_ : Bool
  /-- measurement blocks 2 to 8 as fixed at BOOT_DONE (R438) -/
  blocks : List (List Byte)
  /-- a large request gathered by CHUNK_SEND, and a large response given out by CHUNK_GET -/
  chunkIn : List Byte
  chunkOut : List Byte
  deriving DecidableEq, Repr

def Trust.reset : Trust := ⟨[], 1, none, false, false, [], [], []⟩

/-- What the running mailbox command does between its issue and its end. -/
inductive MbxJob where
  /-- the owning chapter's own state holds the progress -/
  | owner
  /-- IMAGE_WRITE: slot, offset, sectors in all, sectors done, RECORDS -/
  | imageWrite (slot : Fin 2) (off sectors done : Nat) (records : Bool)
  /-- FLOOR_RAISE: the floor requested -/
  | floor (target : Nat)
  /-- KEY_REVOKE: the key slot -/
  | revoke (k : Fin 4)
  deriving DecidableEq, Repr

/-- The running mailbox command (R440, R441): its code and latched parameters, an accepted abort, its job. -/
structure MbxRun where
  code : Nat
  params : List Nat
  abort : Bool
  job : MbxJob
  deriving DecidableEq, Repr

/-- The mailbox: the running command, and whether the next read of STATUS returns REJECT_BUSY (R441). -/
structure Mailbox where
  run : Option MbxRun
  rejected : Bool
  /-- record-area appends that wait for an IMAGE_WRITE of the other slot's record area to end (R427): page entries and
  tile masks -/
  latePages : List Nat
  lateMasks : List Nat
  deriving DecidableEq, Repr

def Mailbox.reset : Mailbox := ⟨none, false, [], []⟩

/-- The JTAG port (R510): the instruction selected and the boundary-scan chain. -/
inductive JtagInstr where
  | bypass | idcode | sample | extest
  deriving DecidableEq, Repr

structure Jtag where
  instr : JtagInstr
  /-- the one-bit bypass register -/
  bypass : Bool
  /-- the boundary-scan chain, one bit per signal land it covers -/
  chain : List Bool
  /-- EXTEST drives the chain onto the lands -/
  driving : Bool
  /-- BSCAN_EN as the strap stands now -/
  bscanPin : Bool
  deriving DecidableEq, Repr

/-- IEEE 1149.1 selects IDCODE after a test-logic reset. -/
def Jtag.reset : Jtag := ⟨.idcode, false, [], false, false⟩


/-- The 512 lanes of a vector register (R84). -/
abbrev Lanes := Vector Word 512

/-- An accumulator row: its scale tag and its 64 FP32 values (R84, R97). -/
structure AccRow where
  tag : Word
  vals : Vector Word 64
  deriving DecidableEq, Repr

/-- A valid panel register: the panel image of R89 and whether the header check rejected it (R93). -/
structure PanelReg where
  image : List Byte
  err : Bool
  deriving DecidableEq, Repr

/-- A Mangle: its active and shadow panel registers, each valid or not, and its accumulator rows (R84, R92, R117). -/
structure Mangle where
  active : Option PanelReg
  shadow : Option PanelReg
  acc : Vector AccRow 256
  deriving DecidableEq, Repr

def Mangle.reset : Mangle := ⟨none, none, Vector.replicate 256 ⟨0, Vector.replicate 64 0⟩⟩

/-- A running wait: its token, its bound, its issue cycle and its instruction index (R142). -/
structure WaitRec where
  tok : Nat
  bound : Nat
  cyc : Nat
  idx : Nat
  deriving DecidableEq, Repr

/-- An open loop group: its number, the cycle of its LOOP, the latched trip count, the period once the first LEND has
issued, and the iterations that have ended (R146, R147). -/
structure LoopRec where
  group : Nat
  start : Nat
  trips : Nat
  period : Nat
  iter : Nat
  deriving DecidableEq, Repr

/-- A token message that the sequencer holds, with the global operations it waits for (R140). -/
structure HeldTok where
  msg : Dmsg
  waits : List Nat
  deriving DecidableEq, Repr

/-- How the tile controller has released the sequencer for a pass (R127, R154): the half, and whether the pass is a
schedule rerun. -/
structure Release where
  fallback : Bool
  rerun : Bool
  deriving DecidableEq, Repr

/-- The sequencer of a tile (R110, R123, R127, R141 to R147). -/
structure Seq where
  released : Option Release
  /-- trip counts as latched at pass start, slot 0 to 63 -/
  trips : Vector Nat 64
  /-- the fallback map as latched at pass start (R99) -/
  fbMap : BitVec 4096
  /-- streams that have issued END, or had no instruction: bit i for stream i -/
  ended : BitVec 5
  wait : Option WaitRec
  loops : List LoopRec
  /-- the pass cycle from which the next DELTA counts after a release or group end -/
  resumeAt : Nat
  /-- beats spent in waits in this pass -/
  waitBeats : Nat
  /-- token counts of the two banks, by token; an unlisted one is 0 -/
  cur : SMap Nat
  next : SMap Nat
  /-- tokens of the next bank whose count would have exceeded 255 -/
  nextOver : List Nat
  /-- tier tokens of the next bank that carried ERR -/
  nextErr : List Nat
  held : List HeldTok
  deriving DecidableEq, Repr

def Seq.reset : Seq where
  released := none
  trips := Vector.replicate 64 0
  fbMap := 0
  ended := 0
  wait := none
  loops := []
  resumeAt := 0
  waitBeats := 0
  cur := []
  next := []
  nextOver := []
  nextErr := []
  held := []


/-- Where a transfer of the package network stands (R29, R38). -/
inductive NetAt where
  /-- launched, in the crossing from its source to the network -/
  | launch
  /-- in the seam island of a tile -/
  | seam (n : Fin 32)
  /-- at its endpoint, in the crossing to it -/
  | arrived
  deriving DecidableEq, Repr

/-- A transfer on the seams and crossings of the package. -/
structure Transit where
  msg : Dmsg
  vc : Vc
  src : EndPt
  dst : EndPt
  /-- route class YX (R29) -/
  yx : Bool
  where_ : NetAt
  /-- the optical link that carries it on, when its endpoint is an engine -/
  link : Nat
  deriving DecidableEq, Repr

/-- A message that waits at a link transmitter (R347): its bytes, and how many have been framed. -/
structure TxMsg where
  src : Node
  dstPkg : Nat
  msg : Dmsg
  sent : Nat
  deriving DecidableEq, Repr

/-- What a link under test runs (R353 to R356): whether for LINK_BERT (2) or a periodic test (3), at the far end's
request, its duration in ms, the pattern (true PRBS13Q), and the global time of its start. -/
structure LinkTest where
  kind : Nat
  byFar : Bool
  ms : Nat
  pattern : Bool
  start : Nat
  deriving DecidableEq, Repr

/-- A link's transmitter, receiver and test state (R330 to R335). Vectors over VCs are in the order of R329's code. -/
structure Link where
  /-- SEQ of the next numbered frame -/
  txSeq : Nat
  /-- numbered frames not yet acknowledged, oldest first (R330) -/
  unacked : List Frame
  /-- frames that wait to be resent -/
  resend : List Frame
  /-- SEQ of the last frame accepted -/
  rxSeq : Nat
  /-- a NAK waits to be sent -/
  nakDue : Bool
  /-- frames that may be sent on each VC (R331) -/
  credit : Vector Nat 4
  /-- frames of credit to return to the far end -/
  owed : Vector Nat 4
  /-- messages that wait on each VC -/
  txq : Vector (List TxMsg) 4
  /-- the bytes of the message being received on each VC -/
  rx : Vector (List Byte) 4
  /-- which of the last 8 frames sent were management frames, newest first -/
  recent : List Bool
  /-- place in the round robin request, request, response, response, bulk -/
  wrr : Nat
  /-- global times of the resends of the last 1 ms -/
  resends : List Nat
  /-- this end's and the far end's qualification results (R334) -/
  qualOwn : Option Bool
  qualFar : Option Bool
  test : Option LinkTest
  /-- a test was asked of the far end and TEST_ACK has not come (R353) -/
  ackDue : Bool
  /-- a test run at the far end's request has ended and the link has not yet requalified or rejoined (R353) -/
  afterFar : Bool
  /-- global time of the last ACK progress, or of the first frame not acknowledged (R330) -/
  ackAt : Nat
  /-- global time of the last frame with a correct CRC (R349) -/
  goodAt : Nat
  deriving DecidableEq, Repr

def Link.reset : Link where
  txSeq := 0
  unacked := []
  resend := []
  rxSeq := 4095
  nakDue := false
  credit := #v[256, 256, 512, 64]
  owed := #v[0, 0, 0, 0]
  txq := Vector.replicate 4 []
  rx := Vector.replicate 4 []
  recent := []
  wrr := 0
  resends := []
  qualOwn := none
  qualFar := none
  test := none
  ackDue := false
  afterFar := false
  ackAt := 0
  goodAt := 0

/-- The link that the path hash selects for a source and a destination package (R344, R365). -/
structure Path where
  src : Node
  dst : Nat
  link : Nat
  deriving DecidableEq, Repr

/-- A fence (R344): the pair, when its hold time ends, the old link of a PEER port, and the messages held. -/
structure Fence where
  src : Node
  dst : Nat
  until_ : Nat
  peer : Option Nat
  held : List (Vc × Dmsg)
  deriving DecidableEq, Repr

/-- The package network and the optical links. -/
structure Fabric where
  /-- the seams as the route classes take them: bit i for seam Si (R30) -/
  routeSeams : BitVec 72
  /-- transfers in the package, oldest first -/
  net : List Transit
  /-- the copies of global time of the 32 seam islands and the 8 engines' protocol sides (R40) -/
  copies : Vector Nat 40
  links : Vector Link 64
  paths : List Path
  fences : List Fence
  /-- LINK_BERT waits for periodic tests on the engines that it needs (R356) -/
  bertWait : Bool
  deriving DecidableEq, Repr

def Fabric.reset : Fabric where
  routeSeams := 0
  net := []
  copies := Vector.replicate 40 0
  links := Vector.replicate 64 Link.reset
  paths := []
  fences := []
  bertWait := false

/-- On whose behalf an access or a transaction runs: the mover's schedule, the expert router, the tile controller's or hub's
job of a number, the ingress gateway for a message of another stage, or nobody's. -/
inductive Owner where
  | mover
  | helper
  | job (id : Nat)
  | gateway (outer : Dmsg) (inner : Dmsg)
  | nobody
  deriving DecidableEq, Repr

/-- An access that waits at the elastic port of tile store (R134): the bytes it writes. -/
structure Elastic where
  addr : Nat
  data : List Byte
  owner : Owner
  deriving DecidableEq, Repr

/-- What a transaction does with its responses (R367, R371): data landing in tile store or DRAM (from global address `g` on, at
`a`), in a job's buffer, a write, an atomic whose old value lands at a tile-store address, a send of the router. -/
inductive TxUse where
  | toStore (g a : Nat)
  | toDram (g a : Nat)
  | toBuf (g : Nat)
  | write
  | atomic (a size : Nat)
  deriving DecidableEq, Repr

/-- An operation that waits at its source for a transaction number or a credit (R368). -/
structure SendItem where
  id : Nat
  owner : Owner
  use : TxUse
  vc : Vc
  msg : Dmsg
  deriving DecidableEq, Repr

/-- An outstanding transaction (R368, R369): its number, the operation, the global time of its send, and the bytes of load
data that have not arrived. -/
structure Txn where
  num : Nat
  id : Nat
  owner : Owner
  use : TxUse
  vc : Vc
  msg : Dmsg
  sent : Nat
  left : Nat
  deriving DecidableEq, Repr

/-- An operation that ended in an error (R381, R382): its owner, the code and the destination. -/
structure OpErr where
  owner : Owner
  code : Nat
  home : Node
  deriving DecidableEq, Repr

/-- A source of Delud operations: a tile or the hub. -/
structure Source where
  nextId : Nat
  queue : List SendItem
  txns : List Txn
  /-- timed-out numbers and the global times at which they become free (R369) -/
  quarantine : List (Nat × Nat)
  /-- errors of the operations that have ended, oldest first -/
  errs : List OpErr
  /-- COALESCED messages, and the copies whose acknowledgements each waits for (R274) -/
  holds : List (Dmsg × List Nat)
  deriving DecidableEq, Repr

def Source.reset : Source := ⟨0, [], [], [], [], []⟩

/-- A key-table entry (R374). -/
structure KeyEnt where
  key : Nat
  valid : Bool
  rd : Bool
  wr : Bool
  at_ : Bool
  deriving DecidableEq, Repr

def KeyEnt.reset : KeyEnt := ⟨0, false, false, false, false⟩

/-- A grant-table entry (R375). -/
structure Grant where
  base : Nat
  units : Nat
  key : Nat
  valid : Bool
  deriving DecidableEq, Repr

def Grant.reset : Grant := ⟨0, 0, 0, false⟩

/-- A register of the home line unit (R378, R379), least recently used first in its list: the line, its bytes once the
acquiring read has delivered them, whether it holds updates that DRAM does not, whether a write-back stands in the home
queue, and the responses that the write-back will release. -/
structure HeldLine where
  line : Nat
  data : Option (List Byte)
  dirty : Bool
  back : Bool
  resps : List Dmsg
  deriving DecidableEq, Repr

/-- A load or bulk store in progress at its home (R371): the request, the VC it came on, the lines still to be accessed, the
lines read, and whether a line was uncorrectable. -/
structure HomeJob where
  id : Nat
  msg : Dmsg
  left : Nat
  got : List (Nat × List Byte)
  ue : Bool
  deriving DecidableEq, Repr

/-- What an access of the home queue does (R175). -/
inductive HomeUse where
  /-- the acquiring read of a held line -/
  | fill
  /-- the write-back of a held line -/
  | back
  /-- a line of home job `id`: read, or written with bytes -/
  | jobRead (id : Nat)
  | jobWrite (id : Nat) (data : List Byte)
  /-- inbound Delud data, or a write of the tile controller, the Darner or the Wringer -/
  | land (owner : Owner) (data : List Byte)
  /-- a read for the tile controller, the Darner's tier transfer or the hub -/
  | read (owner : Owner)
  deriving DecidableEq, Repr

/-- A line access in the home queue. -/
structure HomeAcc where
  line : Nat
  use : HomeUse
  deriving DecidableEq, Repr

/-- The Delud side of a tile: key and grant tables, home line unit, home queue, and its own operations. -/
structure Delud where
  keys : SMap KeyEnt
  grants : Vector Grant 64
  /-- the admission buffer, in arrival order -/
  adm : List Dmsg
  held : List HeldLine
  jobs : List HomeJob
  nextJob : Nat
  /-- the home queues of all channels, in arrival order -/
  hq : List HomeAcc
  src : Source
  /-- bytes read into the send buffer since pass start or the last mover-quiet release (R370) -/
  sendBytes : Nat
  deriving DecidableEq, Repr

def Delud.reset : Delud := ⟨[], Vector.replicate 64 Grant.reset, [], [], [], 0, [], Source.reset, 0⟩

/-- The Darner and the DRAM interface of a tile (R164 to R174). -/
structure Darner where
  /-- lines stored poisoned, or unreadable -/
  poison : SMap Bool
  /-- the repair queue, oldest first -/
  repair : List Nat
  /-- pending write-backs, oldest first: line and corrected data -/
  wb : List (Nat × List Byte)
  /-- words corrected on the die in this scrub pass, and whether CE_OVER was set for it -/
  ce : Nat
  ceOver : Bool
  /-- link UEs of each channel in this rota -/
  linkUes : Vector Nat 48
  /-- the refresh group that the next rota refreshes, 0 to 992 -/
  group : Nat
  /-- channel and bank of the background reads of this beat -/
  used : List (Nat × Nat)
  deriving DecidableEq, Repr

def Darner.reset : Darner := ⟨[], [], [], 0, false, Vector.replicate 48 0, 0, []⟩

/-- A message of another stage at the egress gateway (R384, R385): the tile it came from (32 for the hub), the message, its VC,
and whether its slots have been asked for. -/
structure GwItem where
  id : Nat
  origin : Nat
  msg : Dmsg
  vc : Vc
  asked : Bool
  deriving DecidableEq, Repr

/-- A slot ask that an ingress gateway holds (R385): from which package, for how many slots. -/
structure GwAsk where
  pkg : Nat
  slots : Nat
  deriving DecidableEq, Repr

/-- The hub's Delud side: its own operations, the gateways, and the running key-table revoke. -/
structure Gateway where
  src : Source
  queue : List GwItem
  nextId : Nat
  /-- free egress slots of each tile's 128, with the hub's own at 32, and free ingress slots of 4,096 -/
  egress : Vector Nat 33
  ingress : Nat
  asks : List GwAsk
  /-- the tile and unit whose REVOKE is not yet DONE (R376) -/
  revoke : Option (Fin 32 × Nat)
  /-- when each port last delivered a time beacon (R387) -/
  beacons : Vector (Option Nat) 16
  deriving DecidableEq, Repr

def Gateway.reset : Gateway := ⟨Source.reset, [], 0, Vector.replicate 33 128, 4096, [], none, Vector.replicate 16 none⟩

/-- A Peg (R244): its page's address, KIND, QUEUE, SEAT and PAGE, as pushed. -/
structure Peg where
  addr : Nat
  kind : Nat
  queue : Nat
  seat : Nat
  page : Nat
  deriving DecidableEq, Repr


/-- An intake (R261, R263, R276): its descriptor, its capacity, the rows it holds by slot, the rows that have arrived in this
pass, and whether its forward and return sides are closed. -/
structure Intake where
  flags : Nat
  disp : Nat
  slot : Nat
  c : Nat
  base : Nat
  slotBytes : Nat
  sbase : Nat
  cap : Nat
  held : List Dmsg
  seen : List (Nat × Nat)
  closed : Bool
  retClosed : Bool
  deriving DecidableEq, Repr

def Intake.reset : Intake := ⟨0, 0, 0, 0, 0, 0, 0, 0, [], [], true, true⟩

/-- A dispatch on a tile in this pass: its tokens, whether its forward XDISPATCH has ended, and what the router has reported to
the hub (R279). -/
structure DispRun where
  disp : Nat
  tokF : Nat
  tokR : Nat
  ended : Bool
  fwdDone : Bool
  retDone : Bool
  deriving DecidableEq, Repr

/-- The expert router of a tile (R262, R263, R289): its placement memory, its intakes, the dispatches of this pass, the messages
of the next pass whose credit it withholds, and the dispatches that the hub has told it to close with their TOKEN_F. -/
structure Router where
  place : SMap Nat
  intakes : Vector Intake 64
  runs : List DispRun
  early : List Dmsg
  closes : List (Nat × Nat)
  deriving DecidableEq, Repr

def Router.reset : Router := ⟨[], Vector.replicate 64 Intake.reset, [], [], []⟩

/-- A page-table entry of a tile (R243): the sequence's table index, the stream, the page index, the entry's two words, and the pack
header of a spilled page from the spill directory. -/
structure PageEnt where
  seq : Nat
  stream : Nat
  page : Nat
  w0 : Nat
  w1 : Nat
  hdr : List Byte
  deriving DecidableEq, Repr

/-- An open bin (R236, R237): its number, its sequence, stream and page, the tensor IDs of its keys and values, whether it was
opened for the running step, and whether its sequence is to repeat its last step, so that the page stays open (R291, R512). -/
structure BinEnt where
  bin : Nat
  seq : Nat
  stream : Nat
  page : Nat
  ktid : Nat
  vtid : Nat
  fresh : Bool
  again : Bool
  deriving DecidableEq, Repr

/-- What a tile saves before pass 0 (R70, R240): the rounding generator's state, the trip counts, and the trailer of
every open bin. -/
structure StepSave where
  lfsr : Word
  trips : List Nat
  bins : List (Nat × List Byte)
  deriving DecidableEq, Repr

/-- A tier transfer of the Darner (R190, R191): the page-table key of its page, with the words 0 of its source and destination; a
region's transfer has no key and two global addresses. -/
structure TierJob where
  id : Nat
  key : Option (Nat × Nat × Nat)
  src : Nat
  dest : Nat
  /-- the pack header that a spill has formed -/
  header : List Byte
  writing : Bool
  failed : Bool
  done : Bool
  stopped : Bool
  deriving DecidableEq, Repr

/-- A tier fetch (R194): its tier token, its sequence, the pass sequence that it serves, the tile-store addresses of its slot array
and staging header, the lender or tile that it reads, the staging header once everything has landed, and whether it has ended. -/
structure Fetch where
  id : Nat
  tok : Nat
  seq : Nat
  pass : Nat
  slots : Nat
  hdr : Nat
  home : Nat
  header : List Byte
  done : Bool
  deriving DecidableEq, Repr

/-- A run of granules lent to another package's tile (R187): the owner, the page, the first granule and the length, TOUCH, and the
global time of the notice under which it stands. -/
structure PoolRun where
  pkg : Nat
  tile : Nat
  page : Nat
  first : Nat
  len : Nat
  touch : Nat
  notice : Option Nat
  deriving DecidableEq, Repr


/-- A submission entry as the dispatcher cores read it (R301, R304): its queue, the queue's head after the read, the global time of
the read, its bytes, and the latch time of a CANCEL. -/
structure SubEnt where
  sq : Nat
  sqHead : Nat
  at_ : Nat
  raw : List Byte
  cancel : Option Nat
  deriving DecidableEq, Repr

/-- A sequence's part in the running or coming step (R309, R312). -/
structure SeatRun where
  prefill : Bool
  rows : Nat
  first : Nat
  basket : Nat
  seat : Nat
  last : Bool
  deriving DecidableEq, Repr

/-- A live entry of the sequence table (R305, R306, R324). -/
structure SeqEnt where
  idx : Nat
  state : Nat
  hold : Nat
  sub : SubEnt
  /-- order of admission -/
  order : Nat
  /-- prompt tokens consumed, and tokens delivered -/
  prompt : Nat
  tokens : Nat
  /-- the last delivered token and its boundary time -/
  last : Nat
  lastAt : Nat
  age : Nat
  deferred : Bool
  mark : Bool
  cancel : Option Nat
  /-- no step of it has run -/
  fresh : Bool
  run : Option SeatRun
  /-- since when it has been held for CQ_FULL, and whether that hold has set CQ_STALL -/
  cqSince : Option Nat
  stalled : Bool
  deriving DecidableEq, Repr

/-- A completion entry (R302) that is due, with its queue, the table index that it frees (16,384 for none), and whether its TIME is
that of its posting (R304). -/
structure Comp where
  cq : Nat
  req : Nat
  status : Nat
  final : Bool
  tokenValid : Bool
  late : Bool
  first : Bool
  token : Nat
  pos : Nat
  time : Nat
  step : Nat
  sqHead : Nat
  sq : Nat
  detail : Nat
  seq : Nat
  posting : Bool
  deriving DecidableEq, Repr

/-- A basket of the step program (R252). -/
structure Basket where
  seats : Nat
  slot : Nat
  maxPages : Nat
  stage : Nat
  deriving DecidableEq, Repr

/-- What GROUP_START took from the group descriptor and the image (R296). -/
structure GroupCfg where
  lead : Nat
  members : List Nat
  tiles : Word
  ctx : Nat
  slot : Nat
  rowCap : Nat
  pchunk : Nat
  prog : Nat
  baskets : List Basket
  /-- KV streams of each tile (R233) -/
  streams : Vector Nat 32
  deriving DecidableEq, Repr

/-- A barrier of a dispatch at the hub (R280): forward or return, its dispatch, the pass sequence, the token, the tiles that have
reported done, whether END has been sent, and the packages whose END has arrived. -/
structure Barrier where
  ret : Bool
  disp : Nat
  seq : Nat
  tok : Nat
  tiles : List Nat
  sent : Bool
  ends : List Nat
  deriving DecidableEq, Repr

/-- Why a group is to stop at its next boundary (R43, R299). -/
inductive GroupEnd where
  | tileExit | force
  deriving DecidableEq, Repr

/-- A serving group on this package (R295 to R299, R312 to R320). -/
structure Group where
  cfg : Option GroupCfg
  /-- JOINs that the lead holds: package and EPOCH -/
  joins : List (Nat × Nat)
  /-- global time at which GROUP_START was accepted -/
  startAt : Nat
  /-- the pass index of the running or last pass, and whether the step has had its schedule rerun -/
  pass : Nat
  rerun : Bool
  /-- vote records of local tiles, the package vote once formed, and when it was formed -/
  votes : List (Nat × Vote)
  pkgVote : Option Vote
  voteAt : Nat
  /-- the last decision record, until its pass is prepared or the next step order is received -/
  decision : Option (Nat × Vote)
  /-- the step report of the accepted step has been formed -/
  reported : Bool
  /-- the sequences that take part in the running step, by table index -/
  part : List Nat
  /-- a schedule fault of the step is being handled: when it was reported, local tiles and packages that have reported ready -/
  abortAt : Option Nat
  readyTiles : List Nat
  readyPkgs : List Nat
  /-- the step report that this package has formed -/
  report : Option StepRep
  /-- the step order that waits for MINPERIOD, or, while no sequence can be composed, for its DECODE and PREFILL entries; and when the
  last one was sent or received -/
  order : Option StepOrder
  lastOrder : Nat
  /-- a boundary composed nothing: when it ran -/
  retryAt : Option Nat
  /-- steps completed since the start or restart (R311) -/
  gf : Nat
  stop : Option GroupEnd
  /-- packages that have reported DAMAGED clear during a pause -/
  cleared : List Nat
  barriers : List Barrier
  /-- when this follower last sent a vote or step report, and has heard nothing since -/
  waitFrom : Option Nat
  deriving DecidableEq, Repr

def Group.reset : Group where
  cfg := none
  joins := []
  startAt := 0
  pass := 0
  rerun := false
  votes := []
  pkgVote := none
  voteAt := 0
  decision := none
  reported := false
  part := []
  abortAt := none
  readyTiles := []
  readyPkgs := []
  report := none
  order := none
  lastOrder := 0
  retryAt := none
  gf := 0
  stop := none
  cleared := []
  barriers := []
  waitFrom := none

/-- The serving engine (R295 to R324): the submission rings, the queues' hidden pointers, the admission list, the sequence table,
completions that wait for room, and the groups. -/
structure Serve where
  ring : Mem
  sqTail : Vector Nat 64
  cqHead : Vector Nat 64
  adm : List SubEnt
  seqs : List SeqEnt
  due : List Comp
  /-- the submission queue that admission served last -/
  lastSq : Nat
  nextOrder : Nat
  groups : Vector Group 4
  deriving DecidableEq, Repr

def Serve.reset : Serve := ⟨[], Vector.replicate 64 0, Vector.replicate 64 0, [], [], [], 63, 0, Vector.replicate 4 Group.reset⟩


/-- A chunk of a running load (R210, R211): 0 not issued, 1 being read, 2 checked in the hub's chunk buffer, 3 in its tile's Wringer
input buffer, 4 written; errors of its Read, failed checks, and its bytes while a buffer holds them. -/
structure ChunkSt where
  st : Nat
  errs : Nat
  crcs : Nat
  data : List Byte
  deriving DecidableEq, Repr

/-- Statistics of a weight tensor on one tile (R64, R80). -/
structure WStat where
  amax : Nat
  sat : Nat
  zero : Nat
  troubled : Nat
  hi : Nat
  lo : Nat
  nan : Nat
  blocks : Nat
  inf : Bool
  deriving DecidableEq, Repr

/-- A running MODEL_LOAD or REGION_REWRITE (R225 to R230): the slot and context, the manifest, the report buffer, the region of a
rewrite, and its progress. -/
structure LoadJob where
  slot : Nat
  ctx : Nat
  drive : Nat
  lba : Nat
  man : List Byte
  repAddr : Nat
  repLen : Nat
  start : Nat
  region : Option Nat
  /-- the status with which the command will end, with its detail and time, once decided -/
  ending : Option (Nat × Nat × Nat)
  srcBytes : Nat
  resBytes : Nat
  retries : Nat
  evicted : Nat
  /-- HEADROOM as taken on each tile when its first chunk arrived -/
  heads : List (Nat × Nat)
  chunks : List ChunkSt
  /-- RESULT and the resident CRC of each region entry -/
  regions : List (Nat × Nat)
  stats : List (Nat × Nat × WStat)
  deriving DecidableEq, Repr

/-- Weight residency (R197 to R230): the running load, and the damaged units of each slot. -/
structure Resid where
  job : Option LoadJob
  /-- slot, tile, unit -/
  damaged : List (Nat × Nat × Nat)
  deriving DecidableEq, Repr

def Resid.reset : Resid := ⟨none, []⟩


/-- A tile: its compute island, its tile store and its bonded DRAM. -/
structure Tile where
  /-- tile store, 64 MiB (R85) -/
  store : Mem
  /-- the two halves of the instruction store, 4 MiB each (R128) -/
  imem : Mem
  /-- V0 to V63 -/
  vreg : Vector Lanes 64
  /-- M0 to M7; M0 is the constant of all ones (R103) -/
  mreg : Vector (BitVec 512) 8
  mangle : Vector Mangle 4
  seq : Seq
  /-- tensors in trouble in this pass (R63, R65) -/
  troubled : List Nat
  /-- END has closed the pass's counts and the vote record is not yet written (R77) -/
  voteDue : Bool
  /-- the vote record stands in tile store and is not yet sent to the hub (R77) -/
  voteReady : Bool
  /-- accesses that wait at the elastic port, in arrival order (R134) -/
  elastic : List Elastic
  /-- bonded DRAM, 32 GiB (R158) -/
  dram : Mem
  darner : Darner
  delud : Delud
  /-- data that operations of the tile controller, the Darner and the hub have brought, by owner and offset -/
  bufs : List (Owner × Nat × List Byte)
  /-- the throttle step that the tile runs at (R35, R394) -/
  tstep : Nat
  /-- the Peg queues PQ0 and PQ1, next Peg first (R246) -/
  pq : Vector (List Peg) 2
  /-- an event of R249 has occurred in the running step -/
  hmpFault : Bool
  router : Router
  /-- page tables, open bins and the saved step state that tile firmware keeps (R70, R236, R243) -/
  pages : List PageEnt
  binTab : List BinEnt
  saved : StepSave
  /-- tier transfers, tier fetches, and the tier tokens whose fetch is late for this step (R191, R194, R195) -/
  tiers : List TierJob
  fetches : List Fetch
  lateToks : List Nat
  nextTier : Nat
  /-- the directory of a lent tile's DRAM (R187), and whether the tile lends -/
  pool : List PoolRun
  /-- sequences that a record of this tile will end at the boundary: KIND of R313 and sequence -/
  recs : List (Nat × Nat)
  deriving DecidableEq, Repr

/-- A tile at reset: every memory, register and buffer zero or empty, and M0 all ones. -/
def Tile.reset : Tile where
  store := []
  imem := []
  vreg := Vector.replicate 64 (Vector.replicate 512 0)
  mreg := (Vector.replicate 8 0).set 0 (BitVec.allOnes 512)
  mangle := Vector.replicate 4 Mangle.reset
  seq := Seq.reset
  troubled := []
  voteDue := false
  voteReady := false
  elastic := []
  dram := []
  darner := Darner.reset
  delud := Delud.reset
  bufs := []
  tstep := 16
  pq := Vector.replicate 2 []
  hmpFault := false
  router := Router.reset
  pages := []
  binTab := []
  saved := ⟨0, [], []⟩
  tiers := []
  fetches := []
  lateToks := []
  nextTier := 0
  pool := []
  recs := []

/-- The fatal error in hand (R483, R484): the global time of its event 1, HUB_TILE_INSERVICE and HUB_LOG_HEAD at that time. -/
structure Fatal where
  at_ : Nat
  tileUp : Nat
  logHead : Nat
  deriving DecidableEq, Repr

/-- The resets of R476: the level of PERST#, a WARM reset that runs (true from PERST#, false of 100 µs) and its start, the fatal error
in hand, and whether the endpoint link has gone down and the host has not configured the endpoint since (R421). -/
structure Rst where
  perstLow : Bool
  warm : Option Bool
  since : Nat
  fatal : Option Fatal
  hostDown : Bool
  deriving DecidableEq, Repr

/-- PERST# stands high at reset (DESIGN CHOICE, notes/assumptions/51.md). -/
def Rst.reset : Rst := ⟨false, none, 0, none, false⟩


/-- Everything the package holds but its configuration flash and the queue of waiting commands. -/
structure Dev where
  /-- Every BAR0 register by offset; an unlisted one holds its reset value (`resetVal`). -/
  regs : SMap Word
  /-- The pending values of RWB fields, one per field (R13). -/
  rwb : List RwbVal
  /-- The age of each set event bit, keyed by 32 × the event register's offset + the bit (R456). -/
  ages : SMap Nat
  /-- The event log by window slot (R489). -/
  log : SMap LogEntry
  /-- Global time in ns (R21, R478). -/
  now : Nat
  /-- The MSI-X Enable and Function Mask bits (R460). -/
  msix : Msix
  /-- The values in effect before each write whose masking window is still open (R462), by offset. -/
  maskOld : SMap Word
  /-- The MSI-X bits in effect before a configuration write whose masking window is still open (R462). -/
  msixOld : Option Msix
  /-- Everything the package has sent at its boundary and between its dies, oldest first. -/
  out : List Output
  /-- The power controller, converters and power pins. -/
  pw : Power
  /-- The sideband's alert and latched status. -/
  sb : Sideband
  /-- The service panel's timing. -/
  panel : Panel
  /-- Boot progress. -/
  boot : Boot
  /-- The root of trust's sessions, grant holder and measurements. -/
  trust : Trust
  /-- The mailbox. -/
  mbx : Mailbox
  /-- The JTAG port. -/
  jtag : Jtag
  /-- The 32 tiles. -/
  tiles : Vector Tile 32
  /-- The seams and crossings inside the package, and the optical links (Package and Optical Links chapters). -/
  fab : Fabric
  /-- The hub's Delud operations and gateways (R368, R384, R385). -/
  gw : Gateway
  /-- Data that the hub's own Delud loads have brought, by owner and offset. -/
  hubBufs : List (Owner × Nat × List Byte)
  /-- The serving engine (Serving Engine chapter). -/
  srv : Serve
  /-- Weight residency (Weight Residency chapter). -/
  res : Resid
  /-- The resets and the fatal error in hand (R476, R484). -/
  rst : Rst
  /-- Field of the model, not of the spec: how many free values have been drawn (notes/assumptions/56.md). -/
  free : Nat
  deriving DecidableEq, Repr

/-- The package right after its standby stage has lost power, before the input rises (R389, R393, R476): every register
at the Reset column of its map, every buffer empty. -/
def Dev.reset : Dev where
  regs := []
  rwb := []
  ages := []
  log := []
  now := 0
  msix := ⟨false, false⟩
  maskOld := []
  msixOld := none
  out := []
  pw := Power.reset
  sb := Sideband.reset
  panel := Panel.reset
  boot := Boot.reset
  trust := Trust.reset
  mbx := Mailbox.reset
  jtag := Jtag.reset
  tiles := Vector.replicate 32 Tile.reset
  fab := Fabric.reset
  gw := Gateway.reset
  hubBufs := []
  srv := Serve.reset
  res := Resid.reset
  rst := Rst.reset
  free := 0

/-- The machine: the commands that wait (first in, first out), the configuration flash, and the rest of the package. -/
structure State where
  pending : List Instr
  flash : Flash
  dev : Dev
  deriving DecidableEq, Repr

/-- The machine at reset: no command waits, the configuration flash as shipped blank (notes/assumptions/4.md), and the
rest of the package at its reset values. -/
def State.reset : State where
  pending := []
  flash := Flash.blank
  dev := Dev.reset

/-- No command faults the machine: the package answers errors in its registers, replies and completions. -/
inductive Fault where
  /-- Raised by no command: the block has no fault of its own (safe, it is never reached). -/
  | none_
  deriving DecidableEq, Repr

/-- Why the model gives a command no meaning. -/
inductive Refusal where
  /-- Raised by an arm of exec whose command has no meaning yet (safe: nothing is claimed of it). -/
  | notModelled (mnemonic : String)
  deriving DecidableEq, Repr

end Sys2Proof.Machine
end

