-- ==== Sys2Proof/Machine/Ops.lean ====
section
/-! DEFINITION. The operations that every meaning shares: reading and writing registers and their fields (R8 to R13),
event groups (R14, R456), interrupt edges (R459), counters, the event log (R489, R490), global time (R21) and the
outputs of the package. -/

namespace Sys2Proof.Machine

open Reg

/-! Registers. -/

/-- The value a register holds. -/
def Dev.getR (d : Dev) (o : Nat) : Word := smGet resetVal d.regs o

/-- Give a register a value. -/
def Dev.setR (d : Dev) (o : Nat) (v : Word) : Dev := { d with regs := smPut resetVal d.regs o v }

/-- Give a register a value held as a number (modulo 2^32). -/
def Dev.setN (d : Dev) (o : Nat) (v : Nat) : Dev := d.setR o (BitVec.ofNat 32 v)

/-- The value of a register as a number. -/
def Dev.getN (d : Dev) (o : Nat) : Nat := (d.getR o).toNat

/-- The mask of bits `[hi:lo]` of a 32-bit register (R19). -/
def fieldMask (hi lo : Nat) : Word := BitVec.ofNat 32 ((2 ^ (hi + 1 - lo) - 1) * 2 ^ lo)

/-- Bits `[hi:lo]` of a register word. -/
def wordField (w : Word) (hi lo : Nat) : Nat := w.toNat / 2 ^ lo % 2 ^ (hi + 1 - lo)

/-- A register word with bits `[hi:lo]` replaced by `v`. -/
def wordPut (w : Word) (hi lo v : Nat) : Word :=
  (w &&& ~~~ fieldMask hi lo) ||| (BitVec.ofNat 32 (v * 2 ^ lo) &&& fieldMask hi lo)

/-- The value of a register field. -/
def Dev.getF (d : Dev) (f : Fld) : Nat := wordField (d.getR f.off) f.hi f.lo

/-- Give a register field a value (modulo its width). -/
def Dev.setF (d : Dev) (f : Fld) (v : Nat) : Dev := d.setR f.off (wordPut (d.getR f.off) f.hi f.lo v)

/-- A one-bit field as a Bool. -/
def Dev.flag (d : Dev) (f : Fld) : Bool := d.getF f == 1

/-- Bit `b` of a register. -/
def Dev.regBit (d : Dev) (o b : Nat) : Bool := (d.getR o).getLsbD b

/-- Give bit `b` of a register a value. -/
def Dev.setBit (d : Dev) (o b : Nat) (v : Bool) : Dev := d.setF ⟨o, b, b⟩ (if v then 1 else 0)

/-- A 64-bit register pair, low half at the lower offset (R9). -/
def Dev.getPair (d : Dev) (lo hi : Nat) : Nat := d.getN lo + d.getN hi * 2 ^ 32

/-- Give a register pair a 64-bit value. -/
def Dev.setPair (d : Dev) (lo hi : Nat) (v : Nat) : Dev := (d.setN lo v).setN hi (v / 2 ^ 32)

/-- Add to a counter that stops at 0xFFFF_FFFF. -/
def Dev.satAdd (d : Dev) (o n : Nat) : Dev := d.setN o (min (d.getN o + n) 0xFFFFFFFF)

/-- Add 1 to a counter that stops at 0xFFFF_FFFF. -/
def Dev.satInc (d : Dev) (o : Nat) : Dev := d.satAdd o 1

/-- Add 1 to a field that stops at its largest value. -/
def Dev.satIncF (d : Dev) (f : Fld) : Dev := d.setF f (min (d.getF f + 1) (2 ^ (f.hi + 1 - f.lo) - 1))

/-! Free values. -/

/-- A free value has been drawn: the next one is another (notes/assumptions/56.md). -/
def Dev.drawFree (d : Dev) : Dev := { d with free := d.free + 1 }

/-! Outputs. -/

/-- Send something. -/
def Dev.emit (d : Dev) (o : Output) : Dev := { d with out := d.out ++ [o] }

/-- Send several things in order. -/
def Dev.emits (d : Dev) (l : List Output) : Dev := { d with out := d.out ++ l }

/-! Global time. -/

/-- Global time has reached `t`: it never goes back (R21, R387). -/
def Dev.at_ (d : Dev) (t : Nat) : Dev := { d with now := max d.now t }

/-! Interrupt sources. -/

/-- Whether a source number is listed in R458; every other is reserved. -/
def sourceListed (n : Nat) : Bool :=
  n ≤ 14 || (16 ≤ n && n ≤ 23) || (64 ≤ n && n ≤ 127) || (256 ≤ n && n < 768 && (n - 256) % 16 ≤ 10)

/-- An edge on a source sets its pending bit, whatever ENABLE, GEN or any mask holds (R459). -/
def Dev.edge (d : Dev) (n : Nat) : Dev :=
  if sourceListed n then d.setBit (INT_PEND (n / 32)) (n % 32) true else d

/-- Whether a source is pending. -/
def Dev.isPending (d : Dev) (n : Nat) : Bool := d.regBit (INT_PEND (n / 32)) (n % 32)

/-! Event groups. -/

/-- An event group: the event register, its _SEQ register, its width in bits, and the source it raises (R456, R458). -/
structure EvGroup where
  ev : Nat
  seq : Nat
  width : Nat
  src : Nat
  deriving DecidableEq, Repr

def egTileExit : EvGroup := ⟨HUB_TILE_EXIT, HUB_TILE_EXIT_SEQ, 32, 1⟩
def egWtr : EvGroup := ⟨WTR_EVENT, WTR_EVENT_SEQ, 32, 2⟩
def egSrv : EvGroup := ⟨SRV_EVENT, SRV_EVENT_SEQ, 32, 3⟩
def egFab : EvGroup := ⟨FAB_EVENT, FAB_EVENT_SEQ, 32, 4⟩
def egDld : EvGroup := ⟨DLD_EVENT, DLD_EVENT_SEQ, 32, 5⟩
def egPwr : EvGroup := ⟨PWR_EVENT, PWR_EVENT_SEQ, 32, 6⟩
def egSec : EvGroup := ⟨SEC_EVENT, SEC_EVENT_SEQ, 32, 7⟩
def egPanel : EvGroup := ⟨HUB_PANEL_EVENT, HUB_PANEL_EVENT_SEQ, 32, 8⟩
def egHubPmc : EvGroup := ⟨PMC_OVF hubPmc, PMC_OVF_SEQ hubPmc, 32, 9⟩
def egHubStc (u : Nat) : EvGroup := ⟨STC_EVENT (hubStc u), STC_EVENT_SEQ (hubStc u), 32, 10 + u⟩
def egOec (k : Nat) : EvGroup := ⟨OEC_EVENT k, OEC_EVENT_SEQ k, 32, 16 + k⟩
def egTctl (n : Nat) : EvGroup := ⟨TCTL_EVENT n, TCTL_EVENT_SEQ n, 32, 256 + 16 * n⟩
def egMgl (n : Nat) : EvGroup := ⟨MGL_EVENT n, MGL_EVENT_SEQ n, 32, 256 + 16 * n + 1⟩
def egVec (n : Nat) : EvGroup := ⟨VEC_EVENT n, VEC_EVENT_SEQ n, 32, 256 + 16 * n + 2⟩
def egQnt (n : Nat) : EvGroup := ⟨QNT_EVENT n, QNT_EVENT_SEQ n, 32, 256 + 16 * n + 3⟩
def egMem (n : Nat) : EvGroup := ⟨MEM_EVENT n, MEM_EVENT_SEQ n, 32, 256 + 16 * n + 4⟩
def egWrg (n : Nat) : EvGroup := ⟨WRG_EVENT n, WRG_EVENT_SEQ n, 32, 256 + 16 * n + 5⟩
def egHmp (n : Nat) : EvGroup := ⟨HMP_EVENT n, HMP_EVENT_SEQ n, 32, 256 + 16 * n + 6⟩
def egXpt (n : Nat) : EvGroup := ⟨XPT_EVENT n, XPT_EVENT_SEQ n, 32, 256 + 16 * n + 7⟩
def egTilePmc (n : Nat) : EvGroup := ⟨PMC_OVF (tilePmc n), PMC_OVF_SEQ (tilePmc n), 16, 256 + 16 * n + 8⟩
def egTileStc (n : Nat) : EvGroup := ⟨STC_EVENT (tileStc n), STC_EVENT_SEQ (tileStc n), 32, 256 + 16 * n + 9⟩
def egSeam (n : Nat) : EvGroup := ⟨SEAM_EVENT n, SEAM_EVENT_SEQ n, 32, 256 + 16 * n + 10⟩

/-- The key under which the age of a set bit is held. -/
def ageKey (g : EvGroup) (b : Nat) : Nat := g.ev * 32 + b

/-- The age of a set bit (R456). -/
def Dev.age (d : Dev) (g : EvGroup) (b : Nat) : Nat := smGet (fun _ => 0) d.ages (ageKey g b)

def Dev.setAge (d : Dev) (g : EvGroup) (b v : Nat) : Dev :=
  { d with ages := smPut (fun _ => 0) d.ages (ageKey g b) v }

/-- The sequence number of the group moves on by one: every other set bit ages by one, stopping at 65,535 (R456). -/
def Dev.ageOthers (d : Dev) (g : EvGroup) (b : Nat) : Dev :=
  (List.range g.width).foldl
    (fun d c => if c ≠ b ∧ d.regBit g.ev c then d.setAge g c (min (d.age g c + 1) 65535) else d) d

/-- An event latches: the group's sequence number advances, the bit is set with the new number, and the group's
source raises an edge (R14, R456, R459). -/
def Dev.latch (d : Dev) (g : EvGroup) (b : Nat) : Dev :=
  ((((d.ageOthers g b).setAge g b 0).setF ⟨g.seq, 15, 0⟩ (d.getF ⟨g.seq, 15, 0⟩ + 1)).setBit g.ev b true).edge g.src

/-- Whether any bit of the group is set. -/
def Dev.anySet (d : Dev) (g : EvGroup) : Bool := (List.range g.width).any fun b => d.regBit g.ev b

/-- A write-back of `w` (R456): clears every bit whose age is no smaller than the age of `w`, and nothing when `w` is
newer than the current number; a group left with any bit set raises an edge (R461). -/
def Dev.writeback (d : Dev) (g : EvGroup) (w : Nat) : Dev :=
  let aw := (d.getF ⟨g.seq, 15, 0⟩ + 65536 - w % 65536) % 65536
  let d' := if 32768 ≤ aw then d else
    (List.range g.width).foldl
      (fun e b => if d.regBit g.ev b ∧ aw ≤ d.age g b then (e.setBit g.ev b false).setAge g b 0 else e) d
  if d'.anySet g then d'.edge g.src else d'

/-! The event log. -/

/-- Write an event-log entry (R489): slot LOGSEQ mod 8,192, the next number (1 after 0xFFFF_FFFF), an edge on
source 14. -/
def Dev.logEntry (d : Dev) (code source a0 a1 a2 : Nat) : Dev :=
  let q := d.getN HUB_LOG_HEAD
  ({ d with log := smPut (fun _ => LogEntry.empty) d.log (q % 8192) ⟨d.now, q, code, source, a0, a1, a2, 0⟩ }.setN
    HUB_LOG_HEAD (if q = 0xFFFFFFFF then 1 else q + 1)).edge 14

/-- The hub's own entries carry SOURCE 0. -/
def Dev.logHub (d : Dev) (code a0 a1 : Nat) : Dev := d.logEntry code 0 a0 a1 0

/-- The latest entry of the log. -/
def Dev.lastLog (d : Dev) : LogEntry :=
  let q := d.getN HUB_LOG_HEAD
  smGet (fun _ => LogEntry.empty) d.log ((if q = 1 then 0xFFFFFFFF else q - 1) % 8192)

/-! Masters and reads over BAR0. -/

/-- The privileged masters of R15 and R454. -/
def Dev.privileged (d : Dev) : Master → Bool
  | .rot => true
  | .mgmt => true
  | .host => d.flag SEC_GRANT_HELD
  | .other => false

/-- Bits set in a word. -/
def popCount (w : Word) : Nat := ((List.range 32).filter fun b => w.getLsbD b).length

/-- Pending sources, 0 to 768 (INT_STATUS.PENDING of R464). -/
def Dev.pendingCount (d : Dev) : Nat := ((List.range 24).map fun k => popCount (d.getR (INT_PEND k))).sum

/-- A WARM reset runs, a fatal error is in hand, or boot has stopped: the tiles, the engines, the fabric and the serving engine
are in reset, halted or without power, and BAR0 reaches none of their blocks (R432, R477, R484). -/
def Dev.frozen (d : Dev) : Bool := d.rst.warm.isSome || d.rst.fatal.isSome || d.getF HUB_BOOT_STATUS_ERROR != 0

/-! Pending values of RWB fields (R13). -/

/-- Hold a pending value: a later write of the field replaces the earlier one. -/
def Dev.hold (d : Dev) (f : Fld) (v : Nat) (t : Nat) : Dev :=
  { d with rwb := d.rwb.filter (fun e => ¬ (e.off = f.off ∧ e.hi = f.hi ∧ e.lo = f.lo)) ++ [⟨f.off, f.hi, f.lo, v, t⟩] }

end Sys2Proof.Machine
end

