-- ==== Sys2Proof/Machine/Flash.lean ====
section
/-! DEFINITION. The configuration flash: its map (R423), reading it, programming and erasing it (R422), the write-once
region (R428), image headers and their checks (R425, R429), the site block (R426), the page list (R179) and the
tile-mask log (R426), and appends to the record areas (R427, R482). -/

namespace Sys2Proof.Machine

/-- An erased byte reads 0xFF. -/
def flashDefault (_ : Nat) : Byte := 0xFF

/-- One byte of the flash. -/
def Flash.get (f : Flash) (a : Nat) : Byte := smGet flashDefault f.bytes a

/-- `n` bytes of the flash. -/
def Flash.read (f : Flash) (a n : Nat) : List Byte := (List.range n).map fun i => f.get (a + i)

/-- Little-endian value of `n` bytes of the flash (R19). -/
def Flash.le (f : Flash) (a n : Nat) : Nat := leVal (f.read a n)

/-- Programming a NOR flash turns bits from 1 to 0 only. -/
def Flash.programByte (f : Flash) (a : Nat) (v : Byte) : Flash :=
  ⟨smPut flashDefault f.bytes a (f.get a &&& v)⟩

/-- The protected sectors 0x000_0000 and 0x001_0000 (R422). -/
def flashProtected (a : Nat) : Bool := a < 0x20000

/-- A program command of the port: refused in the protected sectors (R422). -/
def Flash.program (f : Flash) (a : Nat) : List Byte → Flash
  | [] => f
  | v :: t => (if flashProtected a then f else f.programByte a v).program (a + 1) t

/-- Erasing the 64 KiB sector that holds `a`: every byte reads 0xFF; refused in the protected sectors (R422). -/
def Flash.eraseSector (f : Flash) (a : Nat) : Flash :=
  if flashProtected a then f else ⟨f.bytes.filter fun e => e.1 / 0x10000 ≠ a / 0x10000⟩

/-! The write-once region (R428). -/

/-- Bit `k` of the thermometer. -/
def Flash.thermo (f : Flash) (k : Nat) : Bool := (f.get (k / 8)).getLsbD (k % 8)

/-- The anti-rollback floor: the lowest thermometer bit that reads 1, or 8,192. -/
def Flash.floor (f : Flash) : Nat := ((List.range 8192).find? fun k => f.thermo k).getD 8192

/-- Firmware key slot `k` is revoked. -/
def Flash.revoked (f : Flash) (k : Nat) : Bool := !(f.get 0x400).getLsbD k

/-- Program one thermometer bit from 1 to 0; the root of trust's exception to R422. -/
def Flash.burn (f : Flash) (k : Nat) : Flash :=
  f.programByte (k / 8) (~~~ BitVec.ofNat 8 (2 ^ (k % 8)))

/-- Program the REVOKE bit of a firmware key slot. -/
def Flash.burnRevoke (f : Flash) (k : Nat) : Flash := f.programByte 0x400 (~~~ BitVec.ofNat 8 (2 ^ k))

/-! Slots (R423, R425). -/

/-- Base of slot A (0) and slot B (1). -/
def slotBase (k : Fin 2) : Nat := if k = 0 then 0x100000 else 0x2000000

/-- The other slot. -/
def otherSlot (k : Fin 2) : Fin 2 := if k = 0 then 1 else 0

def Flash.hdr (f : Flash) (k : Fin 2) (o n : Nat) : Nat := f.le (slotBase k + o) n

def Flash.svn (f : Flash) (k : Fin 2) : Nat := f.hdr k 8 4
def Flash.signedLen (f : Flash) (k : Fin 2) : Nat := f.hdr k 0xC 4
def Flash.imageVersion (f : Flash) (k : Fin 2) : Nat := f.hdr k 0x10 8
def Flash.keyIndex (f : Flash) (k : Fin 2) : Nat := f.hdr k 6 1

/-- Bytes of the header that R425 requires to be zero. -/
def Flash.zeros (f : Flash) (k : Fin 2) (o n : Nat) : Bool := (f.read (slotBase k + o) n).all (· == 0)

/-- One component entry (R425) against a signed part of `len` bytes; an unused entry has TYPE 0. -/
def Flash.componentOk (f : Flash) (k : Fin 2) (j len : Nat) : Bool :=
  let b := 0x20 + 32 * j
  let ty := f.hdr k b 1
  let off := f.hdr k (b + 4) 4
  let ln := f.hdr k (b + 8) 4
  1 ≤ ty && ty ≤ 4 && f.zeros k (b + 1) 3 && f.zeros k (b + 0x14) 12 && off % 0x1000 == 0 && 0x1000 ≤ off
    && off + ln ≤ len && (ty != 3 || ln ≤ 0x80000)

/-- The component table meets R425: COMPONENTS entries, types 1 to 4 each exactly once, the others unused. -/
def Flash.tableOk (f : Flash) (k : Fin 2) : Bool :=
  let n := f.hdr k 0x18 4
  let tys := (List.range 32).map fun j => f.hdr k (0x20 + 32 * j) 1
  4 ≤ n && n ≤ 32 && [1, 2, 3, 4].all (fun t => tys.count t == 1) &&
    (List.range 32).all (fun j => if f.hdr k (0x20 + 32 * j) 1 = 0 then true
      else decide (j < n) && f.componentOk k j (f.signedLen k))

/-- REASON of R444 for the header checks of R429, in their order, 6 when every one passes. -/
def Flash.headerReason (f : Flash) (k : Fin 2) : Nat :=
  let len := f.signedLen k
  if ¬ (f.hdr k 0 4 = 0x49435A4B ∧ f.hdr k 4 2 = 1 ∧ f.keyIndex k ≤ 3 ∧ f.hdr k 7 1 = 0 ∧ f.svn k ≤ 8191
      ∧ len % 0x1000 = 0 ∧ 0x2000 ≤ len ∧ len ≤ 0x1E00000 ∧ f.hdr k 0x1C 4 = 0 ∧ f.zeros k 0x4A5 603
      ∧ f.zeros k 0x784 2172 ∧ f.tableOk k) then 1
  else if Config.sha512 (f.read (slotBase k + 0x420) 133) ≠ Config.romFirmwareHash (f.keyIndex k) then 2
  else if f.revoked (f.keyIndex k) then 3
  else if f.svn k < f.floor then 4
  else 6

/-- The signature of the signed part verifies (R425, R429). -/
def Flash.signatureOk (f : Flash) (k : Fin 2) : Bool :=
  Config.ecdsaVerify (f.read (slotBase k + 0x420) 133)
    (f.read (slotBase k) 0x700 ++ f.read (slotBase k + 0x1000) (f.signedLen k - 0x1000))
    (f.read (slotBase k + 0x700) 132)

/-- REASON of a full check (R429, R444): 0 good. -/
def Flash.fullReason (f : Flash) (k : Fin 2) : Nat :=
  if f.headerReason k ≠ 6 then f.headerReason k else if f.signatureOk k then 0 else 5

/-- The device block's format and factory signature (R426, R431). -/
def Flash.deviceBlockOk (f : Flash) : Bool :=
  f.le 0x10000 4 == 0x42445A4B && f.le 0x10004 2 == 1 && f.le 0x10006 1 ≤ 3 && f.le 0x10007 1 == 0 &&
    Config.factoryVerify (f.le 0x10006 1) (f.read 0x10000 0xDC00) (f.read 0x1DC00 132)

/-- DEVID_PUB of the device block. -/
def Flash.devidPub (f : Flash) : List Byte := f.read 0x10008 133

/-- The UID: the first 8 bytes of SHA-512(DEVID_PUB), little-endian (R435). -/
def Flash.uid (f : Flash) : Nat := leVal ((Config.sha512 f.devidPub).take 8)

/-- The VCORE set-point of throttle step `st` on tile `n`, in mV (R392, R426): the step's value plus the tile's signed
offset in units of 5 mV, clamped to 600 to 850. -/
def Flash.vcore (f : Flash) (st n : Nat) : Nat :=
  let base : Int := f.le (0x10890 + 2 * st) 2
  let off : Int := (f.get (0x10890 + 0x22 + n)).toInt * 5
  (max 600 (min 850 (base + off))).toNat

/-- The offset trim of sensor `j` (0 to 127 tile sensors, 128 and 129 the hub's), R399, R426. -/
def Flash.sensorTrim (f : Flash) (j : Nat) : BitVec 16 := BitVec.ofNat 16 (f.le (0x10990 + 2 * j) 2)

/-- PFIX of the device block. -/
def Flash.pfix (f : Flash) : Nat := f.le 0x10BD0 4

/-! The site block (R426). -/

def Flash.site (f : Flash) (k : Fin 2) (o n : Nat) : Nat := f.le (slotBase k + 0x1E00000 + o) n

/-- The site block passes its MAGIC and CRC checks. -/
def Flash.siteOk (f : Flash) (k : Fin 2) : Bool :=
  f.site k 0 4 == 0x42535A4B && f.site k 0xFC 4 == crc32c (f.read (slotBase k + 0x1E00000) 0xFC)

/-- OPERATOR_KEY of the site block in effect: all zero when none. -/
def Flash.operatorKey (f : Flash) (k : Fin 2) : List Byte :=
  if f.siteOk k then f.read (slotBase k + 0x1E00010) 64 else List.replicate 64 0

/-! The record area (R179, R426, R427). -/

def recordBase (k : Fin 2) : Nat := slotBase k + 0x1E10000

/-- Page-list entry `j`. -/
def Flash.pageEntry (f : Flash) (k : Fin 2) (j : Nat) : Nat := f.le (recordBase k + 4 * j) 4

/-- The page list: the entries before the first empty one (R179). -/
def Flash.pageList (f : Flash) (k : Fin 2) : List Nat :=
  ((List.range 4096).map (f.pageEntry k)).takeWhile (· != 0xFFFFFFFF)

/-- An entry is valid: bits [3:0] are 0 and CAUSE is not 7 (R179). -/
def pageEntryValid (e : Nat) : Bool := e % 16 == 0 && e / 16 % 8 != 7

/-- TILE and PAGE of an entry (R179). -/
def pageEntryTile (e : Nat) : Nat := e / 2 ^ 27 % 32
def pageEntryPage (e : Nat) : Nat := e / 2 ^ 7 % 2 ^ 20

/-- The entry that names page `p` of tile `t` with a cause (R179). -/
def mkPageEntry (t p cause : Nat) : Nat := t * 2 ^ 27 + p * 2 ^ 7 + cause * 16

/-- The retired pages of a tile (valid entries), in list order. -/
def Flash.retiredOf (f : Flash) (k : Fin 2) (t : Nat) : List Nat :=
  ((f.pageList k).filter fun e => pageEntryValid e && pageEntryTile e == t).map pageEntryPage

/-- Word 0 and word 4 of tile-mask entry `j` (R426). -/
def Flash.maskWord (f : Flash) (k : Fin 2) (j : Nat) : Nat := f.le (recordBase k + 0x4000 + 8 * j) 4
def Flash.maskCheck (f : Flash) (k : Fin 2) (j : Nat) : Nat := f.le (recordBase k + 0x4004 + 8 * j) 4

/-- An erased tile-mask entry reads ones everywhere. -/
def Flash.maskErased (f : Flash) (k : Fin 2) (j : Nat) : Bool :=
  f.maskWord k j == 0xFFFFFFFF && f.maskCheck k j == 0xFFFFFFFF

/-- A tile-mask entry is valid when its second word is the inverse of its first (R426). -/
def Flash.maskValid (f : Flash) (k : Fin 2) (j : Nat) : Bool := f.maskWord k j + f.maskCheck k j == 0xFFFFFFFF

/-- The retirement mask in effect: the last valid entry's, or 0 (R426). -/
def Flash.tileMask (f : Flash) (k : Fin 2) : Nat :=
  ((List.range 512).foldl (fun a j => if f.maskValid k j then some (f.maskWord k j) else a) none).getD 0

/-- The next erased tile-mask entry. -/
def Flash.nextMask (f : Flash) (k : Fin 2) : Option Nat := (List.range 512).find? fun j => f.maskErased k j

/-- The next erased page-list entry. -/
def Flash.nextPage (f : Flash) (k : Fin 2) : Option Nat :=
  if (f.pageList k).length < 4096 then some (f.pageList k).length else none

/-- Append a page-list entry to a slot, `n` of its four bytes programmed, in the order 3, 2, 1, 0 (R482). -/
def Flash.appendPage (f : Flash) (k : Fin 2) (e n : Nat) : Flash :=
  match f.nextPage k with
  | none => f
  | some j =>
    (List.range (min n 4)).foldl
      (fun g b => g.program (recordBase k + 4 * j + (3 - b)) [BitVec.ofNat 8 (e / 256 ^ (3 - b))]) f

/-- Append a tile-mask entry to a slot, `n` of its two words programmed, word 0 first (R482). -/
def Flash.appendMask (f : Flash) (k : Fin 2) (mask n : Nat) : Flash :=
  match f.nextMask k with
  | none => f
  | some j =>
    let a := recordBase k + 0x4000 + 8 * j
    let g := if 1 ≤ n then f.program a (leBytes 4 mask) else f
    if 2 ≤ n then g.program (a + 4) (leBytes 4 (0xFFFFFFFF - mask % 2 ^ 32)) else g

end Sys2Proof.Machine
end

