-- ==== Sys2Proof/Machine/ResetOps.lean ====
section
/-! DEFINITION. What each loss of power and each reset keeps (R476 to R480), as operations on the package. -/

namespace Sys2Proof.Machine

open Reg

/-- A register that a restart after a stop keeps because the always-on and service-panel islands stay powered:
PWR_STOP_CAUSE, PWR_THRn (R478) and the panel's registers (R389). -/
def keptStandby (o : Nat) : Bool :=
  o == PWR_STOP_CAUSE || (PWR_THR_LO 0 ≤ o && o < PWR_THR_LO 7) || (HUB_PANEL_CTRL ≤ o && o ≤ HUB_PANEL_EVENT_SEQ)

/-- A register that a WARM reset keeps besides (R478): the log head, HUB_FATAL_INFO, HUB_RESET_STATUS. -/
def keptWarm (o : Nat) : Bool :=
  keptStandby o || o == HUB_LOG_HEAD || o == HUB_FATAL_INFO || o == HUB_RESET_STATUS

/-- The registers that `p` keeps hold their values; every other goes back to its reset value. -/
def keepRegs (m : SMap Word) (p : Nat → Bool) : SMap Word := m.filter fun e => p e.1

/-- The panel's event group keeps its ages with its registers. -/
def keepAges (m : SMap Nat) : SMap Nat := m.filter fun e => e.1 / 32 == HUB_PANEL_EVENT

/-- The pins and the always-on island's own state, kept while the standby stage runs. -/
def Power.standbyKept (p : Power) (ph : PwrPhase) : Power :=
  { Power.reset with
    phase := ph, epoHigh := p.epoHigh, flowOk := p.flowOk, ovHold := p.ovHold, uvMet := p.uvMet, onMet := p.onMet,
    stopLatched := p.stopLatched, restart := p.restart, sbAddr := p.sbAddr, pin := p.pin }

/-- The main stages are off: everything outside the standby islands has lost its power and its state, bonded DRAM
included (R392, R415, R478). -/
def Dev.mainOff (d : Dev) : Dev :=
  { Dev.reset with
    regs := keepRegs d.regs fun o => keptStandby o || o == PWR_VIN || o == PWR_IIN || o == PWR_PIN
    ages := keepAges d.ages
    out := d.out
    pw := d.pw.standbyKept .standby
    sb := d.sb
    panel := d.panel
    jtag := { Jtag.reset with bscanPin := d.jtag.bscanPin }
    rst := { Rst.reset with perstLow := d.rst.perstLow }
    free := d.free }

/-- The standby stage is off too: nothing survives but the levels on the pins (R409, R413). -/
def Dev.allOff (d : Dev) (ovHold : Bool) : Dev :=
  { Dev.reset with
    out := d.out
    pw := { Power.reset with epoHigh := d.pw.epoHigh, flowOk := d.pw.flowOk, ovHold := ovHold }
    jtag := { Jtag.reset with bscanPin := d.jtag.bscanPin }
    rst := { Rst.reset with perstLow := d.rst.perstLow }
    free := d.free }

/-- A tile across a WARM reset: its DRAM and the poisoned state of its lines stay (R177). -/
def Tile.warm (t : Tile) : Tile := { Tile.reset with dram := t.dram, darner := { Darner.reset with poison := t.darner.poison } }

/-- A WARM reset begins (R177, R476 to R481): every island but the always-on, sideband, service-panel, timebase and
converter-controller islands restarts, the DRAM enters self-refresh, the transmitters and the host link go down; the event log,
HUB_FATAL_INFO, WARM_COUNT and each EPOCH stay. `pin`: the reset comes from PERST#; `last`: LAST of R488. -/
def Dev.warmReset (d : Dev) (last : Nat) (pin : Bool) : Dev :=
  let e : Dev := { Dev.reset with
    regs := keepRegs d.regs fun o => keptWarm o || o == PWR_VIN || o == PWR_IIN || o == PWR_PIN
    rwb := d.rwb.filter fun v => v.off == HUB_TILE_RETIRE
    ages := keepAges d.ages
    log := d.log
    now := d.now
    out := d.out ++ [.transmittersOff, .hostLinkDown]
    pw := { d.pw.standbyKept .main with accAt := d.now }
    sb := d.sb
    panel := d.panel
    jtag := { Jtag.reset with bscanPin := d.jtag.bscanPin }
    tiles := d.tiles.map Tile.warm
    rst := { d.rst with warm := some pin, since := d.now, fatal := none }
    free := d.free }
  let e : Dev := (List.range 4).foldl (fun e g => e.setF (SRV_GROUP_STATE_EPOCH g) (d.getF (SRV_GROUP_STATE_EPOCH g))) e
  let e : Dev := (List.finRange 32).foldl (fun e (n : Fin 32) => if d.regBit HUB_TILE_INSERVICE n then e.setF (MEM_STATUS_MODE n) 2 else e) e
  (e.setF HUB_RESET_STATUS_LAST last).satIncF HUB_RESET_STATUS_WARM_COUNT

end Sys2Proof.Machine
end

