-- ==== Sys2Proof/Machine/Power.lean ====
section
/-! DEFINITION. Power, cooling and safety: the converters' reports, the control loop, leases, undervoltage, droop, and the
stops (50 V Power, Budget Leases, Throttling and Shutdown). -/

namespace Sys2Proof.Machine

open Reg

/-- A state change of the package alone: the flash and the queue stay. -/
def onDev (f : Dev → Dev) (s : State) : Host.Outcome State Fault Refusal := .next { s with dev := f s.dev }

/-- A state change of the package by a part that acts only while it is not frozen. -/
def onRun (f : Dev → Dev) (s : State) : Host.Outcome State Fault Refusal :=
  .next { s with dev := if s.dev.frozen then s.dev else f s.dev }

/-- A state change of the package that reads the flash. -/
def onDevF (f : Flash → Dev → Dev) (s : State) : Host.Outcome State Fault Refusal :=
  .next { s with dev := f s.flash s.dev }

/-- A state change of the package and of the flash. -/
def onBoth (f : Flash × Dev → Flash × Dev) (s : State) : Host.Outcome State Fault Refusal :=
  .next { s with flash := (f (s.flash, s.dev)).1, dev := (f (s.flash, s.dev)).2 }

/-! The budget in effect (R401 to R404). -/

/-- The budget in effect becomes `w`; FLOOR reads 1 while it is 2,000 W (R401, notes/assumptions/10.md). -/
def Dev.setBudget (d : Dev) (w : Nat) : Dev :=
  (d.setF PWR_STATUS_BUDGET_W w).setF PWR_STATUS_FLOOR (if w = 2000 then 1 else 0)

/-- No budget is pending. -/
def Dev.dropPending (d : Dev) : Dev := d.setN PWR_LEASE_PEND 0

/-- The lease ends: the floor takes effect, any pending budget is dropped, LEASE_EXPIRED latches (R401, R402, R404). -/
def Dev.endLease (d : Dev) : Dev :=
  ((((d.setBudget 2000).dropPending.setF PWR_STATUS_LEASE_VALID 0).setPair PWR_LEASE_EXP_LO PWR_LEASE_EXP_HI 0).latch
    egPwr 0)

/-- The pending greater budget takes effect (R402). -/
def Dev.applyPending (d : Dev) : Dev :=
  if d.flag PWR_LEASE_PEND_PENDING then (d.setBudget (d.getF PWR_LEASE_PEND_BUDGET_W)).dropPending else d

/-- BUDGET_W and DURATION_MS as applied (R402). -/
def leaseBudget (b : Nat) : Nat := max 2000 (min 3600 b)
def leaseDuration (t : Nat) : Nat := if t = 0 then 0 else max 10 (min 10000 t)

/-- Acceptance of a lease at global time `now` (R402, R403). -/
def Dev.acceptLease (d : Dev) (now b t q : Nat) : Dev :=
  let d : Dev := { d.setF PWR_LEASE_SEQ_SEQ q with pw := { d.pw with seqHeld := true } }
  if leaseDuration t = 0 then d.endLease
  else
    let d : Dev := (d.setF PWR_STATUS_LEASE_VALID 1).setPair PWR_LEASE_EXP_LO PWR_LEASE_EXP_HI
      (now + leaseDuration t * 1000000)
    if leaseBudget b ≤ d.getF PWR_STATUS_BUDGET_W then (d.setBudget (leaseBudget b)).dropPending
    else
      { (d.setF PWR_LEASE_PEND_PENDING 1).setF PWR_LEASE_PEND_BUDGET_W (leaseBudget b) with
        pw := { d.pw with pendAt := now } }

/-! Limits as applied (R416). -/

def Dev.capW (d : Dev) : Nat := max 2000 (min 3600 (d.getF PWR_CAP_CAP_W))
def Dev.iinLimit (d : Dev) : Nat := min 82 (d.getF PWR_CTRL_IIN_LIMIT)
def Dev.minStep (d : Dev) : Nat := min 16 (d.getF PWR_CTRL_MIN_STEP)
/-- Throttle temperatures in units of 0.0625 °C, each clamped to 70 to 100 °C. -/
def Dev.tjThrottle (d : Dev) : Int := 16 * max 70 (min 100 (d.getF PWR_CTRL_TJ_THROTTLE : Int))
def Dev.dramThrottle (d : Dev) : Int := 16 * max 70 (min 100 (d.getF PWR_CTRL_DRAM_THROTTLE : Int))
def Dev.warnMv (d : Dev) : Nat := max 42500 (min 44000 (d.getF PWR_UV_WARN_MV))

/-! Temperatures (R399, R400). -/

/-- The tile sensors' and hub sensors' readings, and the DRAM dies', as signed numbers. -/
def Dev.tileTemps (d : Dev) : List Int :=
  (List.range 128).map fun j => (BitVec.ofNat 16 (d.getF (PWR_TTEMP_TEMP (j / 4) (j % 4)))).toInt
def Dev.hubTemps (d : Dev) : List Int := [d.pw.hubTemp0.toInt, d.pw.hubTemp1.toInt]
def Dev.dramTemps (d : Dev) : List Int :=
  (List.range 256).map fun j => (BitVec.ofNat 16 (d.getF (MEM_DIE_TEMP_TEMP (j / 8) (j % 8)))).toInt

/-- The largest of a list of readings. -/
def maxTemp (l : List Int) : Int := l.foldl max (-32768)

/-- A thermal step after one tick (R400): up by 1 every 100 µs while a sensor is at or above the limit, down by 1 every
1 ms while every sensor is below the limit less 3 °C; with the time of the change. -/
def thermalStep (st last now : Nat) (hottest limit : Int) : Nat × Nat :=
  if limit ≤ hottest then (if last + 100000 ≤ now then (min 16 (st + 1), now) else (st, last))
  else if hottest < limit - 48 then
    (if st ≠ 0 ∧ last + 1000000 ≤ now then (st - 1, now) else (st, last))
  else (st, last)

/-! The control loop (R396). Powers are held in units of 10 µW: 1 W is 100,000. -/

/-- The terms of lim: the budget, the cap, and IIN_LIMIT × vin. -/
def Dev.limTerms (d : Dev) : Nat × Nat × Nat :=
  (d.getF PWR_STATUS_BUDGET_W * 100000, d.capW * 100000, d.iinLimit * d.getF ⟨PWR_VIN, 15, 0⟩ * 100)

/-- lim of R396. -/
def Dev.lim (d : Dev) : Nat := min d.limTerms.1 (min d.limTerms.2.1 d.limTerms.2.2)

/-- Which term is the smallest, the lower reason number on a tie (R397). -/
def Dev.limWhich (d : Dev) : Nat :=
  if d.limTerms.1 ≤ d.limTerms.2.1 ∧ d.limTerms.1 ≤ d.limTerms.2.2 then 0
  else if d.limTerms.2.1 ≤ d.limTerms.2.2 then 1 else 2

/-- The smallest step whose frequency is at most fn of R396, 16 when none is: step s runs at (4000 − 125 s)/2 MHz. -/
def smallestStep (sp p lim pfix : Nat) : Nat :=
  if lim ≤ pfix then 16
  else ((List.range 17).find? fun st =>
    decide ((4000 - 125 * st) * (p - pfix) ≤ (4000 - 125 * sp) * (lim - pfix))).getD 16

/-- s_pwr and the time of its last change after one tick (R396). -/
def pwrStep (sp last now p lim pfix : Nat) : Nat × Nat :=
  if lim < p then
    let n := min 16 (max (sp + 1) (smallestStep sp p lim pfix))
    (n, if n = sp then last else now)
  else if 100 * p < 97 * lim ∧ last + 100000 ≤ now then
    (sp - 1, if sp = 0 then last else now)
  else (sp, last)

/-! Throttle reasons (R397). -/

/-- The reasons that hold now: bit n for reason n. UV holds whatever the others demand. -/
def Dev.reasonsNow (d : Dev) : Nat :=
  let st := d.getF PWR_STATUS_STEP
  let bit (c : Bool) (n : Nat) : Nat := if c ∧ st ≠ 0 then 2 ^ n else 0
  bit (d.pw.limTerm == 0 && d.pw.sPwr == st) 0 + bit (d.pw.limTerm == 1 && d.pw.sPwr == st) 1 +
  bit (d.pw.limTerm == 2 && d.pw.sPwr == st) 2 + bit (d.pw.sTile == st) 3 + bit (d.pw.sDram == st) 4 +
  bit (d.minStep == st) 5 + (if d.flag PWR_STATUS_UV_WARN then 64 else 0)

/-- Add the time since the last accrual to every reason that accumulated over it (R397). -/
def Dev.accrue (d : Dev) (now : Nat) : Dev :=
  let d' := (List.range 7).foldl
    (fun e n => if d.pw.reasons.testBit n then
        e.setPair (PWR_THR_LO n) (PWR_THR_HI n) (e.getPair (PWR_THR_LO n) (PWR_THR_HI n) + (now - d.pw.accAt)) else e) d
  { d' with pw := { d'.pw with accAt := max d.pw.accAt now } }

/-- CURRENT throttles. -/
def Dev.currentOn (d : Dev) : Bool := d.pw.reasons.testBit 2

/-- Take the reasons that hold from now on; CURRENT beginning to throttle latches its event (R416). -/
def Dev.setReasons (d : Dev) : Dev :=
  let r := d.reasonsNow
  let e : Dev := { d with pw := { d.pw with reasons := r } }
  if r.testBit 2 && !d.currentOn then e.latch egPwr 4 else e

/-! PMBus status (R406, R445). The bit places are PMBus 1.3's (PRESUMED, notes/assumptions/11.md). -/

def Dev.uvWarning (d : Dev) : Bool := d.flag PWR_STATUS_UV_WARN
def Dev.otWarning (d : Dev) : Bool := d.pw.reasons.testBit 3 || d.pw.reasons.testBit 4

def bitIf (c : Bool) (n : Nat) : Nat := if c then 2 ^ n else 0

def Dev.statusInput (d : Dev) : Nat := bitIf d.uvWarning 5 + bitIf d.sb.uvFault 4 + bitIf d.currentOn 1
def Dev.statusTemperature (d : Dev) : Nat := bitIf d.otWarning 6 + bitIf d.sb.otFault 7
def Dev.statusWord (d : Dev) : Nat :=
  bitIf (d.statusInput != 0) 13 + bitIf (decide (d.pw.phase ≠ .main)) 6 + bitIf (d.statusTemperature != 0) 2

/-- SMBALERT# is asserted when a PMBus status bit sets (R445). -/
def Dev.alertOnStatus (d : Dev) : Dev :=
  let rises := (d.uvWarning && !d.sb.seenUv) || (d.currentOn && !d.sb.seenOc) || (d.otWarning && !d.sb.seenOt)
  { d with sb := { d.sb with
      alertStatus := d.sb.alertStatus || rises, seenUv := d.uvWarning, seenOc := d.currentOn, seenOt := d.otWarning } }

/-- A latched PMBus fault sets: SMBALERT# is asserted. -/
def Dev.faultUv (d : Dev) : Dev := { d with sb := { d.sb with uvFault := true, alertStatus := true } }
def Dev.faultOt (d : Dev) : Dev := { d with sb := { d.sb with otFault := true, alertStatus := true } }

/-! Publishing a step (R394, R396). -/

/-- The step published by the loop: the largest demand. -/
def Dev.demand (d : Dev) : Nat := max (max d.pw.sPwr d.pw.sTile) (max d.pw.sDram d.minStep)

/-- Publish the demand when it lowers TCLK or keeps it; a raise first raises VCORE and waits 20 µs (R394). -/
def Dev.publish (d : Dev) (now : Nat) : Dev :=
  let st := d.demand
  if d.getF PWR_STATUS_STEP ≤ st then
    { d.setF PWR_STATUS_STEP st with pw := { d.pw with raising := none } }
  else
    match d.pw.raising with
    | some (r, t) =>
      if r ≤ st then { d with pw := { d.pw with raising := some (st, t) } }
      else { d with pw := { d.pw with raising := some (st, now), vcoreStep := Vector.replicate 32 st } }
    | none => { d with pw := { d.pw with raising := some (st, now), vcoreStep := Vector.replicate 32 st } }

/-- The sensors' readings of one tick (R399): the raw readings (128 tile, 2 hub) after trim, the measured VCORE of each tile in mV, and
the largest readings. -/
def Dev.sense (d : Dev) (temps vcore : List (BitVec 16)) (f : Flash) : Dev :=
  let trim (j : Nat) : BitVec 16 := temps.getD j 0 + f.sensorTrim j
  let d : Dev := (List.range 128).foldl (fun e j => e.setF (PWR_TTEMP_TEMP (j / 4) (j % 4)) (trim j).toNat) d
  let d : Dev := (List.range 32).foldl (fun e n => e.setF (PWR_TSTATUS_VCORE_MV n) (vcore.getD n 0).toNat) d
  let d : Dev := { d with pw := { d.pw with hubTemp0 := trim 128, hubTemp1 := trim 129 } }
  (d.setF PWR_TEMP_DIE_MAX (BitVec.ofInt 16 (maxTemp (d.tileTemps ++ d.hubTemps))).toNat).setF PWR_TEMP_DRAM_MAX
    (BitVec.ofInt 16 (maxTemp d.dramTemps)).toNat

/-- The three demands of one tick (R396, R400), the events of a thermal demand that begins, and the limit that binds. -/
def Dev.demands (d : Dev) (now : Nat) : Dev :=
  let p := pwrStep d.pw.sPwr d.pw.tPwr now d.pw.pin d.lim (d.getF PWR_PFIX_PFIX_W * 100000)
  let t := thermalStep d.pw.sTile d.pw.tTile now (maxTemp d.tileTemps) d.tjThrottle
  let r := thermalStep d.pw.sDram d.pw.tDram now (maxTemp d.dramTemps) d.dramThrottle
  let e : Dev := { d with pw := { d.pw with
    sPwr := p.1, tPwr := p.2, sTile := t.1, tTile := t.2, sDram := r.1, tDram := r.2, limTerm := d.limWhich } }
  let e : Dev := if d.pw.sTile = 0 ∧ t.1 ≠ 0 then e.latch egPwr 2 else e
  if d.pw.sDram = 0 ∧ r.1 ≠ 0 then e.latch egPwr 3 else e

/-- One tick of the power controller (R396, R399, R400). -/
def tickDev (now : Nat) (temps vcore : List (BitVec 16)) (f : Flash) (d : Dev) : Dev :=
  (((((((d.at_ now).accrue now).sense temps vcore f).demands now).publish now).setReasons).alertOnStatus)

/-- POWER_CONTROL_TICK (R396). -/
def execPowerControlTick (now : Nat) (temps vcore : List (BitVec 16)) (s : State) :
    Host.Outcome State Fault Refusal := onDevF (tickDev now temps vcore) s

/-- CONVERTER_REPORT (R391): each converter's mean input voltage in mV and current in units of 10 mA. The hub adds the
four powers and currents; PWR_VIN is the mean of the four voltages (notes/assumptions/12.md). -/
def execConverterReport (v0 v1 v2 v3 i0 i1 i2 i3 : BitVec 16) (s : State) : Host.Outcome State Fault Refusal :=
  onDev (fun d =>
    let p := v0.toNat * i0.toNat + v1.toNat * i1.toNat + v2.toNat * i2.toNat + v3.toNat * i3.toNat
    let d : Dev := (d.setF ⟨PWR_VIN, 15, 0⟩ ((v0.toNat + v1.toNat + v2.toNat + v3.toNat) / 4)).setF ⟨PWR_IIN, 15, 0⟩
      (i0.toNat + i1.toNat + i2.toNat + i3.toNat)
    { d.setF ⟨PWR_PIN, 15, 0⟩ (p / 100000) with pw := { d.pw with pin := p } }) s

/-- STEP_PUBLISH (R394): 20 µs after VCORE was raised, the lower step number is published. -/
def execStepPublish (now : Nat) (s : State) : Host.Outcome State Fault Refusal :=
  onDev (fun d =>
    match d.pw.raising with
    | some (r, t) =>
      if t + 20000 ≤ now then
        let d : Dev := (d.at_ now).accrue now
        ({ d.setF PWR_STATUS_STEP r with pw := { d.pw with raising := none } }.setReasons).alertOnStatus
      else d
    | none => d) s

/-- DROOP_START (R398): VCORE of the tile falls below its threshold; the tile stretches and counts the episode. -/
def execDroopStart (n : Fin 32) (s : State) : Host.Outcome State Fault Refusal :=
  onDev (fun d =>
    if d.pw.droop.getLsbD n then d
    else { d.satInc (PWR_TDROOP_COUNT n) with pw := { d.pw with droop := d.pw.droop ||| BitVec.ofNat 32 (2 ^ n.val) } }) s

/-- HOLD of PWR_TDROOP as applied: 0 is applied as 1 (R417). -/
def Dev.droopHold (d : Dev) (n : Nat) : Nat := max 1 (d.getF (PWR_TDROOP_HOLD n))

/-- DROOP_END (R398): VCORE has stayed above the threshold for HOLD cycles; `cycles` cycles were stretched in all. -/
def execDroopEnd (n : Fin 32) (cycles : Nat) (s : State) : Host.Outcome State Fault Refusal :=
  onDev (fun d =>
    if d.pw.droop.getLsbD n ∧ d.droopHold n ≤ cycles then
      let e := d.setPair (PWR_TSTRETCH_LO n) (PWR_TSTRETCH_HI n)
        (d.getPair (PWR_TSTRETCH_LO n) (PWR_TSTRETCH_HI n) + cycles)
      { e with pw := { e.pw with droop := e.pw.droop &&& ~~~ BitVec.ofNat 32 (2 ^ n.val) } }
    else d) s

/-! The sideband's power-state gate (R406). -/

/-- The commands that the sideband answers while the main stages are off: OPERATION, the three STATUS commands, READ_VIN
and READ_IIN. -/
def sbAlways (code : Nat) : Bool := [0x01, 0x79, 0x7C, 0x7D, 0x88, 0x89].contains code

/-- The commands defined at all (R406, R445). -/
def sbDefined (code : Nat) : Bool :=
  [0x01, 0x03, 0x79, 0x7C, 0x7D, 0x88, 0x89, 0x97, 0x8D, 0x8E, 0xD0, 0xD1, 0x98, 0x99, 0x9A, 0x9B, 0x9E, 0xD2, 0xD3,
    0xD4, 0xD5].contains code

/-- Whether the sideband answers a command in the current power and boot state (R406, R477). -/
def Dev.sbAllowed (d : Dev) (code : Nat) : Bool :=
  sbDefined code && decide (d.pw.phase ≠ .off) &&
    (sbAlways code || (decide (d.pw.phase = .main) && (code == 0xD5 || d.getF HUB_BOOT_STATUS_STAGE == 4)))

/-- A sideband command that is allowed acts; any other is refused under PMBus rules. -/
def Dev.sbRun (d : Dev) (code : Nat) (act : Dev → Dev) : Dev := if d.sbAllowed code then act d else d.emit .smbNack

/-- KZ_LEASE (R402, R403, R445): discarded without acknowledging when the PEC is wrong, and when SEQ repeats. -/
def execKzLease (now : Nat) (pec : Bool) (budget duration seq : BitVec 16) (s : State) :
    Host.Outcome State Fault Refusal :=
  onDev (fun d => (d.at_ now).sbRun 0xD0 fun d =>
    if ¬ pec then d.emit .smbNack
    else if d.pw.seqHeld ∧ d.getF PWR_LEASE_SEQ_SEQ = seq.toNat then d.emit .smbAck
    else (d.acceptLease d.now budget.toNat duration.toNat seq.toNat).emit .smbAck) s

/-- LEASE_PENDING_TIMEOUT (R402): 20 ms after acceptance the pending greater budget takes effect. -/
def execLeasePendingTimeout (now : Nat) (s : State) : Host.Outcome State Fault Refusal :=
  onDev (fun d => if d.pw.pendAt + 20000000 ≤ now then (d.at_ now).applyPending else d) s

/-- LEASE_EXPIRY (R401, R404). -/
def execLeaseExpiry (now : Nat) (s : State) : Host.Outcome State Fault Refusal :=
  onDev (fun d =>
    if d.flag PWR_STATUS_LEASE_VALID ∧ d.getPair PWR_LEASE_EXP_LO PWR_LEASE_EXP_HI ≤ now then (d.at_ now).endLease
    else d) s

/-! Undervoltage (R407, R408, R411). -/

/-- UV_WARNING: the input falls below WARN_MV; every tile stretches every cycle until its next rota boundary. -/
def execUvWarning (now mv : Nat) (s : State) : Host.Outcome State Fault Refusal :=
  onDev (fun d =>
    if mv < d.warnMv ∧ ¬ d.uvWarning then
      let d : Dev := ((d.at_ now).accrue now).setF PWR_STATUS_UV_WARN 1
      let d : Dev := { d with pw := { d.pw with uvStretch := BitVec.allOnes 32 } }
      ((d.latch egPwr 1).setReasons).alertOnStatus
    else d) s

/-- UV_WARNING_CLEAR: the input has stayed 1.0 V above WARN_MV for 1 ms; UV is released and the loop raises TCLK from
step 16 one step at a time (R408). -/
def execUvWarningClear (now : Nat) (s : State) : Host.Outcome State Fault Refusal :=
  onDev (fun d =>
    if d.uvWarning then
      let d : Dev := ((d.at_ now).accrue now).setF PWR_STATUS_UV_WARN 0
      let d : Dev := { d.setF PWR_STATUS_STEP 16 with
        pw := { d.pw with uvStretch := 0, sPwr := 16, tPwr := now, raising := none } }
      (d.setReasons).alertOnStatus
    else d) s

/-! Stops (R412 to R415). -/

/-- Record a stop cause: the first in FIRST, every one seen before the main stages are off in MASK (R414). -/
def Dev.stopCause (d : Dev) (c : Nat) : Dev :=
  if d.pw.phase = .stopping then d.setBit PWR_STOP_CAUSE c true
  else (d.setN PWR_STOP_CAUSE (c * 2 ^ 24)).setBit PWR_STOP_CAUSE c true

/-- A qualified trigger starts the stop sequence, or adds its cause to the one that runs; with the main stages off it
is no stop (R414). -/
def Dev.beginStop (d : Dev) (c : Nat) : Dev :=
  match d.pw.phase with
  | .off => d
  | .standby => d
  | _ =>
    let d := d.stopCause c
    { d with pw := { d.pw with phase := .stopping, stopLatched := true, uvMet := false, onMet := false } }

/-- The 105 °C of R400 in units of 0.0625 °C. -/
def tripTemp : Int := 1680

/-- Some tile, hub or DRAM sensor is at or above 105 °C. -/
def Dev.tripped (d : Dev) : Bool := (d.tileTemps ++ d.hubTemps ++ d.dramTemps).any fun t => decide (tripTemp ≤ t)

/-- THERMAL_TRIP (R400). -/
def execThermalTrip (now : Nat) (s : State) : Host.Outcome State Fault Refusal :=
  onDev (fun d => if d.tripped then ((d.at_ now).beginStop 4).faultOt else d) s

/-- UV_STOP (R407): below 42.0 V for 5 µs. -/
def execUvStop (now : Nat) (s : State) : Host.Outcome State Fault Refusal :=
  onDev (fun d => ((d.at_ now).beginStop 2).faultUv) s

/-- FLOW_STOP (R412): FLOW_OK low for 1 µs; each converter starts its 150 µs timer. -/
def execFlowStop (now : Nat) (s : State) : Host.Outcome State Fault Refusal :=
  onDev (fun d =>
    let d : Dev := (d.at_ now).beginStop 1
    { d with pw := { d.pw with flowOk := false, flowTimer := true } }) s

/-- CONVERTER_FAULT (R414). -/
def execConverterFault (now : Nat) (s : State) : Host.Outcome State Fault Refusal :=
  onDev (fun d => (d.at_ now).beginStop 6) s

/-- Tell the peers and the host that the package goes dark (R415 events 3 and 5). -/
def Dev.goDark (d : Dev) : Dev := d.emits [.transmittersOff, .hostLinkDown]

/-- STOP (R415): the stop sequence runs to its end; tiles halt, transmitters and rails go off, the main stages go off. -/
def execStop (now : Nat) (s : State) : Host.Outcome State Fault Refusal :=
  onDev (fun d => if d.pw.phase = .stopping then ((d.at_ now).goDark).mainOff else d) s

/-- FLOW_CUT_TIMER (R412): the converter controllers cut the main stages when their timer ends. -/
def execFlowCutTimer (s : State) : Host.Outcome State Fault Refusal :=
  onDev (fun d =>
    if d.pw.flowTimer then
      if d.pw.phase = .stopping then (d.goDark).mainOff else { d with pw := { d.pw with flowTimer := false } }
    else d) s

/-- INPUT_OVERVOLTAGE (R409): every converter stage is cut, the standby stage included. -/
def execInputOvervoltage (s : State) : Host.Outcome State Fault Refusal := onDev (fun d => (d.goDark).allOff true) s

/-- STANDBY_OFF (R407): below 38.0 V the standby stage and the always-on island lose power; an overvoltage hold ends. -/
def execStandbyOff (s : State) : Host.Outcome State Fault Refusal := onDev (fun d => (d.goDark).allOff false) s

/-- EPO (R413): every converter stage stops, the standby stage included. -/
def execEpo (s : State) : Host.Outcome State Fault Refusal :=
  onDev (fun d =>
    let d : Dev := (d.goDark).allOff d.pw.ovHold
    { d with pw := { d.pw with epoHigh := false } }) s

/-- The standby stage comes into regulation: the always-on island runs and SB_ADDR is sampled (R393 event 2, R504). -/
def Dev.standbyOn (d : Dev) (sbAddr : BitVec 3) : Dev :=
  { d with pw := { d.pw with phase := .standby, sbAddr := some sbAddr, stopLatched := false, restart := false } }

/-- EPO_RELEASE (R413): EPO_N has been high for 100 ms and the package powers up under R393. -/
def execEpoRelease (now : Nat) (sbAddr : BitVec 3) (s : State) : Host.Outcome State Fault Refusal :=
  onDev (fun d =>
    let d : Dev := { d with pw := { d.pw with epoHigh := true } }
    if d.pw.phase = .off ∧ ¬ d.pw.ovHold then (d.standbyOn sbAddr).at_ now else d) s

/-- The restart rule of R414: once every cause in MASK has met its condition, the stop is no longer latched. UV is met
by an input rise, the others by one OPERATION on. -/
def Dev.checkRestart (d : Dev) : Dev :=
  let uv := d.regBit PWR_STOP_CAUSE 2
  let others := d.getF PWR_STOP_CAUSE_MASK ≠ 0 ∧ d.getF PWR_STOP_CAUSE_MASK ≠ 4
  if d.pw.phase = .standby ∧ d.pw.stopLatched ∧ (uv → d.pw.uvMet = true) ∧ (others → d.pw.onMet = true) then
    { d with pw := { d.pw with stopLatched := false, restart := true, uvMet := false, onMet := false } }
  else d

/-- INPUT_RISE (R393, R409, R414): through 44.0 V. With the standby stage off, a COLD power-up begins; with the main
stages off after a stop, a UV cause is met; before that point it does not count. -/
def execInputRise (now : Nat) (sbAddr : BitVec 3) (s : State) : Host.Outcome State Fault Refusal :=
  onDev (fun d =>
    match d.pw.phase with
    | .off => if d.pw.ovHold ∨ ¬ d.pw.epoHigh then d else d.standbyOn sbAddr
    | .standby =>
      if d.pw.stopLatched then ({ d.at_ now with pw := { d.pw with uvMet := true } }).checkRestart else d.at_ now
    | _ => d.at_ now) s

/-- MAIN_STAGES_ON (R393 event 3): EPO_N and FLOW_OK are both high and no stop is latched. -/
def execMainStagesOn (now : Nat) (epoN flow : Bool) (s : State) : Host.Outcome State Fault Refusal :=
  onDev (fun d =>
    let d : Dev := { d with pw := { d.pw with flowOk := flow } }
    if d.pw.phase = .standby ∧ epoN ∧ flow ∧ ¬ d.pw.stopLatched then
      { d.at_ now with pw := { d.pw with phase := .softStart } }
    else d) s

/-- Whether one OPERATION on meets the FLOW, THERMAL, OFF_CMD and CONVERTER causes now (R414): FLOW_OK is high when
MASK holds FLOW, and every sensor is below TJ_THROTTLE when it holds THERMAL. -/
def Dev.onMeets (d : Dev) (cool : Bool) : Bool :=
  (!d.regBit PWR_STOP_CAUSE 1 || d.pw.flowOk) && (!d.regBit PWR_STOP_CAUSE 4 || cool)

/-- OPERATION_ON (R414): acknowledged and discarded during the stop sequence; after it, it meets its causes. `flow` is
the level of FLOW_OK, and `cool` says that every sensor is below TJ_THROTTLE. -/
def execOperationOn (now : Nat) (pec flow cool : Bool) (s : State) : Host.Outcome State Fault Refusal :=
  onDev (fun d => (d.at_ now).sbRun 0x01 fun d =>
    if ¬ pec then d.emit .smbNack
    else
      let d : Dev := { d with pw := { d.pw with flowOk := flow }, sb := { d.sb with operation := 0x80 } }
      if d.pw.phase = .standby ∧ d.pw.stopLatched ∧ d.onMeets cool then
        (({ d with pw := { d.pw with onMet := true } } : Dev).checkRestart).emit .smbAck
      else d.emit .smbAck) s

/-- OPERATION off: both forms stop with cause OFF_CMD (R406). -/
def Dev.operationOff (d : Dev) (now : Nat) (pec : Bool) (value : Nat) : Dev :=
  (d.at_ now).sbRun 0x01 fun d =>
    if pec then ({ d.beginStop 5 with sb := { d.sb with operation := value } } : Dev).emit .smbAck
    else d.emit .smbNack

/-- OPERATION_SOFT_OFF (R406). -/
def execOperationSoftOff (now : Nat) (pec : Bool) (s : State) : Host.Outcome State Fault Refusal :=
  onDev (fun d => d.operationOff now pec 0x40) s

/-- OPERATION_IMMEDIATE_OFF (R406). -/
def execOperationImmediateOff (now : Nat) (pec : Bool) (s : State) : Host.Outcome State Fault Refusal :=
  onDev (fun d => d.operationOff now pec 0x00) s

end Sys2Proof.Machine
end

