-- ==== Sys2Proof/Machine/Counters.lean ====
section
/-! DEFINITION. The performance counters: 40-bit counters that wrap, their event selection, chaining, overflow events and
snapshots (R465 to R470). -/

namespace Sys2Proof.Machine

open Reg

/-- BAR0 base of a counter block. -/
def pmcBase : PmcBlock → Nat
  | .hub => hubPmc
  | .tile n => tilePmc n

/-- Counters in a block: 32 in the hub, 16 in a tile. -/
def pmcSize : PmcBlock → Nat
  | .hub => 32
  | .tile _ => 16

/-- The overflow event group of a block. -/
def pmcGroup : PmcBlock → EvGroup
  | .hub => egHubPmc
  | .tile n => egTilePmc n

/-- The value of counter `c` of a block, 40 bits as a register pair (R470). -/
def Dev.pmc (d : Dev) (b : PmcBlock) (c : Nat) : Nat :=
  d.getPair (PMC_CNT_LO (pmcBase b) c) (PMC_CNT_HI (pmcBase b) c)

/-- Counter 2p + 1 is chained to counter 2p (R467). -/
def Dev.chained (d : Dev) (b : PmcBlock) (p : Nat) : Bool := d.regBit (PMC_CHAIN (pmcBase b)) p

/-- One counter adds `k`: past 2^40 − 1 it wraps and latches its overflow bit. Answers whether it wrapped. -/
def Dev.pmcStep (d : Dev) (b : PmcBlock) (c k : Nat) : Bool × Dev :=
  let v := d.pmc b c + k
  let e := d.setPair (PMC_CNT_LO (pmcBase b) c) (PMC_CNT_HI (pmcBase b) c) (v % 2 ^ 40)
  if 2 ^ 40 ≤ v then (true, e.latch (pmcGroup b) c) else (false, e)

/-- A counter adds `k`, and a wrap of counter 2p advances its chained partner by 1 (R465, R467). -/
def Dev.pmcAdd (d : Dev) (b : PmcBlock) (c k : Nat) : Dev :=
  let r := d.pmcStep b c k
  if r.1 && c % 2 == 0 && r.2.chained b (c / 2) then (r.2.pmcStep b (c + 1) 1).2 else r.2

/-- The event that counter `c` counts: nothing while it is the partner of a chained pair (R466, R467). -/
def Dev.pmcEvent (d : Dev) (b : PmcBlock) (c : Nat) : Nat :=
  if c % 2 = 1 ∧ d.chained b (c / 2) then 0 else d.getF (PMC_SEL_EVENT (pmcBase b) c)

/-- An event happens `k` times in a block: every counter that has selected it adds `k` (R465, R466). -/
def Dev.count (d : Dev) (b : PmcBlock) (ev k : Nat) : Dev :=
  (List.range (pmcSize b)).foldl (fun e c => if d.pmcEvent b c = ev ∧ ev ≠ 0 ∧ k ≠ 0 then e.pmcAdd b c k else e) d

/-- COUNTER_WRAP (R465, R467): a counter receives the increments that take it past its maximum. -/
def execCounterWrap (b : PmcBlock) (c add : Nat) (s : State) : Host.Outcome State Fault Refusal :=
  .next { s with dev := if c < pmcSize b then s.dev.pmcAdd b c add else s.dev }

/-- Whether tile `n` is in service (R44). -/
def Dev.inService (d : Dev) (n : Nat) : Bool := d.regBit HUB_TILE_INSERVICE n

/-- A snapshot of a block: every counter into the shadow set, with global time, the source and SNAPSEQ (R468). -/
def Dev.snapshot (d : Dev) (b : PmcBlock) (src : Nat) : Dev :=
  let a := pmcBase b
  let d := (List.range (pmcSize b)).foldl (fun e c => e.setPair (PMC_SH_LO a c) (PMC_SH_HI a c) (d.pmc b c)) d
  let d := d.setPair (PMC_SH_TIME_LO a) (PMC_SH_TIME_HI a) d.now
  (d.setF (PMC_SNAP_CMD_LAST_SRC a) src).setF (PMC_SH_INFO_SNAPSEQ a) (d.getF (PMC_SH_INFO_SNAPSEQ a) + 1)

/-- PMC_SNAPSHOT (R468): a write of GO. The counter block of a tile out of service discards writes (R469). -/
def execPmcSnapshot (b : PmcBlock) (now : Nat) (s : State) : Host.Outcome State Fault Refusal :=
  .next { s with dev :=
    if s.dev.frozen then s.dev else match b with
    | .hub => (s.dev.at_ now).snapshot .hub 1
    | .tile n => if s.dev.inService n then (s.dev.at_ now).snapshot (.tile n) 1 else s.dev }

end Sys2Proof.Machine
end

