-- ==== Sys2Proof/Machine/Float.lean ====
section
/-! DEFINITION. FP32 arithmetic as the vector engine, the Mangles, the quantiser and the tile controller use it (R57, R94,
R104, R105): every operation is computed exactly and rounded once, to nearest even, with subnormals kept. -/

namespace Sys2Proof.Machine

/-! Reading an FP32 word. -/

/-- The exponent and fraction fields. -/
def fExp (w : Word) : Nat := w.toNat / 2 ^ 23 % 256
def fFrac (w : Word) : Nat := w.toNat % 2 ^ 23
def fNeg (w : Word) : Bool := w.getLsbD 31
/-- The word without its sign. -/
def fAbs (w : Word) : Word := w &&& 0x7FFFFFFF
def fFlip (w : Word) : Word := w ^^^ 0x80000000
def isNan (w : Word) : Bool := fExp w == 255 && fFrac w != 0
def isInf (w : Word) : Bool := fExp w == 255 && fFrac w == 0
def isZero (w : Word) : Bool := w.toNat % 2 ^ 31 == 0
def isFinite (w : Word) : Bool := fExp w != 255

/-- The significand and the exponent of a finite word: its magnitude is `fMant w × 2^(fE w)`. -/
def fMant (w : Word) : Nat := if fExp w = 0 then fFrac w else fFrac w + 2 ^ 23
def fE (w : Word) : Int := if fExp w = 0 then -149 else (fExp w : Int) - 150
/-- The signed significand. -/
def fInt (w : Word) : Int := if fNeg w then -(fMant w : Int) else fMant w

/-- The NaN of the vector engine (R104). -/
def vNan : Word := 0x7FC00000
def fInf (neg : Bool) : Word := if neg then 0xFF800000 else 0x7F800000
def fZero (neg : Bool) : Word := if neg then 0x80000000 else 0

/-! Rounding. -/

/-- An integer division by `2^k` rounded to nearest even; `sticky` says that more lies below the last bit. -/
def rneShift (m k : Nat) (sticky : Bool) : Nat :=
  let n := m / 2 ^ k
  let r := m % 2 ^ k
  if k = 0 then m
  else if 2 ^ (k - 1) < r ∨ (r = 2 ^ (k - 1) ∧ (sticky = true ∨ n % 2 = 1)) then n + 1 else n

/-- The FP32 word nearest to `m × 2^e` (plus a little more when `sticky`), ties to even, with gradual underflow; a
magnitude of 2^128 and above after rounding is infinite. -/
def fRound (neg : Bool) (m : Nat) (e : Int) (sticky : Bool) : Word :=
  if m = 0 then fZero neg
  else
    let q : Int := max (e + (Nat.log2 m : Int) - 23) (-149)
    let n : Nat := if q ≤ e then m * 2 ^ (e - q).toNat else rneShift m (q - e).toNat sticky
    let bits := (q + 149).toNat * 2 ^ 23 + n
    if 0x7F800000 ≤ bits then fInf neg else BitVec.ofNat 32 bits ||| fZero neg

/-- The FP32 word nearest to the exact value `m × 2^e`; an exact zero takes the sign `zneg`. -/
def fOfDyadic (zneg : Bool) (m e : Int) : Word :=
  if m = 0 then fZero zneg else fRound (m < 0) m.natAbs e false

/-! Operations. `nan` is the word that a NaN result takes. -/

def fMul (nan a b : Word) : Word :=
  let s := fNeg a != fNeg b
  if isNan a || isNan b then nan
  else if isInf a || isInf b then (if isZero a || isZero b then nan else fInf s)
  else fRound s (fMant a * fMant b) (fE a + fE b) false

/-- The exact sum of two dyadic numbers: its significand at the smaller exponent. -/
def dySum (m1 e1 m2 e2 : Int) : Int × Int :=
  let e := min e1 e2
  (m1 * 2 ^ (e1 - e).toNat + m2 * 2 ^ (e2 - e).toNat, e)

def fAdd (nan a b : Word) : Word :=
  if isNan a || isNan b then nan
  else if isInf a then (if isInf b && fNeg a != fNeg b then nan else a)
  else if isInf b then b
  else
    let r := dySum (fInt a) (fE a) (fInt b) (fE b)
    fOfDyadic (fNeg a && fNeg b) r.1 r.2

def fSub (nan a b : Word) : Word := if isNan b then nan else fAdd nan a (fFlip b)

/-- a × b + c with one rounding. -/
def fFma (nan a b c : Word) : Word :=
  let s := fNeg a != fNeg b
  if isNan a || isNan b || isNan c then nan
  else if isInf a || isInf b then
    (if isZero a || isZero b then nan else if isInf c && fNeg c != s then nan else fInf s)
  else if isInf c then c
  else
    let r := dySum (fInt a * fInt b) (fE a + fE b) (fInt c) (fE c)
    fOfDyadic (s && fNeg c) r.1 r.2

def fDiv (nan a b : Word) : Word :=
  let s := fNeg a != fNeg b
  if isNan a || isNan b then nan
  else if isInf a then (if isInf b then nan else fInf s)
  else if isInf b then fZero s
  else if isZero b then (if isZero a then nan else fInf s)
  else
    let n := fMant a * 2 ^ 64
    fRound s (n / fMant b) (fE a - fE b - 64) (n % fMant b != 0)

/-- The order of non-NaN words by value, −0 below +0 (R104). -/
def fKey (w : Word) : Int := if fNeg w then -1 - ((fAbs w).toNat : Int) else ((fAbs w).toNat : Int)

def fMax (a b : Word) : Word := if isNan a || isNan b then vNan else if fKey a < fKey b then b else a
def fMin (a b : Word) : Word := if isNan a || isNan b then vNan else if fKey b < fKey a then b else a

/-- Comparison by value: −0 equals +0. -/
def fVal (w : Word) : Int := if fNeg w then -((fAbs w).toNat : Int) else ((fAbs w).toNat : Int)
def fLt (a b : Word) : Bool := !isNan a && !isNan b && fVal a < fVal b
def fLe (a b : Word) : Bool := !isNan a && !isNan b && fVal a ≤ fVal b
def fEq (a b : Word) : Bool := !isNan a && !isNan b && fVal a == fVal b

/-! The special functions of R105, each the correctly rounded value of the exact function. The two that are not
algebraic are evaluated with 256 fractional bits (notes/assumptions/20.md). -/

def fRcp (nan x : Word) : Word := fDiv nan 0x3F800000 x

/-- The integer square root by bits: the largest `r` below `2^b + r₀` with `r² ≤ n`. -/
def isqrt (n : Nat) : Nat → Nat → Nat
  | 0, r => r
  | b + 1, r => if (r + 2 ^ b) * (r + 2 ^ b) ≤ n then isqrt n b (r + 2 ^ b) else isqrt n b r

def fRsqrt (nan x : Word) : Word :=
  if isNan x then nan
  else if isZero x then fInf (fNeg x)
  else if fNeg x then nan
  else if isInf x then 0
  else
    let odd := fE x % 2 != 0
    let m := if odd then 2 * fMant x else fMant x
    let e := if odd then fE x - 1 else fE x
    let r := isqrt (2 ^ 128 / m) 65 0
    fRound false r (-(e / 2) - 64) (r * r * m != 2 ^ 128)

/-- Fractional bits of the fixed-point evaluations. -/
def fixBits : Nat := 256

/-- `2 atanh (a / b)` in fixed point: the sum of `2 (a/b)^(2k+1) / (2k+1)` over `k < n`, from term `k` on with the
power `p` at hand. -/
def atanh2 (a b : Nat) : Nat → Nat → Nat → Nat
  | 0, _, _ => 0
  | n + 1, k, p => 2 * p / (2 * k + 1) + atanh2 a b n (k + 1) (p * a * a / (b * b))

/-- The natural logarithm of `(b + a) / (b − a)` in fixed point, for `3 a ≤ b`. -/
def lnFix (a b : Nat) : Nat := atanh2 a b 100 0 (2 ^ fixBits * a / b)

/-- ln 2 in fixed point: `2 atanh (1/3)`. -/
def ln2Fix : Nat := lnFix 1 3

/-- `exp y` in fixed point for `0 ≤ y < 1`, by Horner's rule over `n` terms. -/
def expFix (y : Nat) : Nat → Nat → Nat
  | 0, _ => 2 ^ fixBits
  | n + 1, k => 2 ^ fixBits + y * expFix y n (k + 1) / (2 ^ fixBits * k)

def fExp2 (nan x : Word) : Word :=
  if isNan x then nan
  else if isInf x then (if fNeg x then 0 else fInf false)
  else if 0x43000000 ≤ (fAbs x).toNat ∧ ¬ fNeg x then fInf false
  else if 0x43160000 ≤ (fAbs x).toNat then 0
  else
    -- x = n + f with 0 ≤ f < 1, f in fixed point
    let v : Int := fInt x * 2 ^ ((fixBits : Int) + fE x).toNat
    let n : Int := v / 2 ^ fixBits
    let f : Nat := (v % 2 ^ fixBits).toNat
    if f = 0 then fRound false 1 n false
    else fRound false (expFix (f * ln2Fix / 2 ^ fixBits) 80 1) (n - fixBits) true

def fLog2 (nan x : Word) : Word :=
  if isNan x then nan
  else if isZero x then fInf true
  else if fNeg x then nan
  else if isInf x then x
  else
    let l := Nat.log2 (fMant x)
    let e : Int := fE x + (l : Int)
    -- x = 2^e × z with z = fMant / 2^l, 1 ≤ z < 2, and ln z = 2 atanh ((z − 1) / (z + 1))
    let a := fMant x - 2 ^ l
    if a = 0 then fOfDyadic false e 0
    else
      let v : Int := e * 2 ^ fixBits + (lnFix a (fMant x + 2 ^ l) * 2 ^ fixBits / ln2Fix : Nat)
      fRound (v < 0) v.natAbs (-(fixBits : Int)) true

/-- VEXP (R105): VEXP2 of the rounded product with log2(e). -/
def fExpE (nan x : Word) : Word := fExp2 nan (fMul nan x 0x3FB8AA3B)

/-! BF16. -/

/-- A BF16 word as FP32, exact. -/
def ofBf16 (h : BitVec 16) : Word := h.zeroExtend 32 <<< 16

/-- FP32 rounded to BF16, NaN as 0x7FC0 (R102, R107). -/
def toBf16 (w : Word) : BitVec 16 :=
  if isNan w then 0x7FC0
  else BitVec.ofNat 16 ((w.toNat + 0x7FFF + w.toNat / 2 ^ 16 % 2) / 2 ^ 16)

end Sys2Proof.Machine
end

