-- ==== Sys2Proof/Machine/Quant.lean ====
section
/-! DEFINITION. The narrow formats and the quantiser: element and scale code points (R49, R51, R53), block storage (R50),
the rounding generator (R60), and the quantisation of a block or an FP8 group (R57 to R62). -/

namespace Sys2Proof.Machine

/-- The narrow formats of R46, numbered as FORMAT of R89 numbers them. -/
inductive NFmt where
  | k4f | k4i | k3i | k2l | k2t | e4m3 | e5m2
  deriving DecidableEq, Repr

/-- FORMAT codes of R89; every other code is none of the seven. -/
def nfmtOf : Nat → Option NFmt
  | 0 => some .k4f
  | 1 => some .k4i
  | 2 => some .k3i
  | 3 => some .k2l
  | 4 => some .k2t
  | 5 => some .e4m3
  | 6 => some .e5m2
  | _ => none

def NFmt.code : NFmt → Nat
  | .k4f => 0
  | .k4i => 1
  | .k3i => 2
  | .k2l => 3
  | .k2t => 4
  | .e4m3 => 5
  | .e5m2 => 6

def NFmt.isFp8 : NFmt → Bool
  | .e4m3 => true
  | .e5m2 => true
  | _ => false

/-- Element width in bits (R46). -/
def NFmt.bits : NFmt → Nat
  | .k4f => 4
  | .k4i => 4
  | .k3i => 3
  | .k2l => 2
  | .k2t => 2
  | .e4m3 => 8
  | .e5m2 => 8

/-- qmax of R46 as an FP32 word. -/
def NFmt.qmax : NFmt → Word
  | .k4f => 0x40C00000
  | .k4i => 0x40E00000
  | .k3i => 0x40400000
  | .k2l => 0x3FC00000
  | .k2t => 0x3F800000
  | .e4m3 => 0x43E00000
  | .e5m2 => 0x47600000

/-! Code points. -/

/-- Twice the value of a Kyozen element code (R49); reserved codes and the K4F code 0x8 are zero. -/
def kyozenHalves (f : NFmt) (c : Nat) : Int :=
  match f with
  | .k4f => [0, 1, 2, 3, 4, 6, 8, 12, 0, -1, -2, -3, -4, -6, -8, -12].getD c 0
  | .k4i => [0, 2, 4, 6, 8, 10, 12, 14, 0, -14, -12, -10, -8, -6, -4, -2].getD c 0
  | .k3i => [0, 2, 4, 6, 0, -6, -4, -2].getD c 0
  | .k2l => [1, 3, -1, -3].getD c 0
  | .k2t => [0, 2, 0, -2].getD c 0
  | _ => 0

/-- The value of an FP8 code as an FP32 word (R53): NaN codes as the engine's NaN, E5M2 infinities as infinities. -/
def fp8Word (f : NFmt) (c : Nat) : Word :=
  let neg := 128 ≤ c % 256
  let a := c % 128
  match f with
  | .e4m3 => if a = 0x7F then vNan
      else if a < 8 then fRound neg a (-9) false else fRound neg (8 + a % 8) ((a / 8 : Nat) - 10 : Int) false
  | .e5m2 => if 0x7D ≤ a then vNan else if a = 0x7C then fInf neg
      else if a < 4 then fRound neg a (-16) false else fRound neg (4 + a % 4) ((a / 4 : Nat) - 17 : Int) false
  | _ => 0

/-- The value of a Kyozen code as an FP32 word. -/
def kyozenWord (f : NFmt) (c : Nat) : Word := fOfDyadic false (kyozenHalves f c) (-1)

/-- The value of a code in units of 2^−16, as a Mangle reads it: NaN is none, an E5M2 infinity is ±57,344 (R94). -/
def mangleVal (f : NFmt) (c : Nat) : Option Int :=
  let a := c % 128
  let s : Int := if 128 ≤ c % 256 then -1 else 1
  match f with
  | .e4m3 => if a = 0x7F then none else some (s * if a < 8 then (a * 2 ^ 7 : Nat) else ((8 + a % 8) * 2 ^ (a / 8 + 6) : Nat))
  | .e5m2 => if 0x7D ≤ a then none else if a = 0x7C then some (s * 57344 * 65536)
      else some (s * if a < 4 then (a : Nat) else ((4 + a % 4) * 2 ^ (a / 4 - 1) : Nat))
  | f => some (kyozenHalves f c * 2 ^ 15)

/-- The value of a UE5M3 block-scale code as an FP32 word (R51). -/
def ue5m3 (c : Nat) : Word :=
  if c = 0xFF then vNan
  else if c < 8 then fRound false c (-17) false
  else fRound false (8 + c % 8) ((c / 8 : Nat) - 18 : Int) false

/-- A tensor scale is valid: positive, normal, from 2^−96 to 2^96 (R52). -/
def tscaleValid (w : Word) : Bool := 0x0F800000 ≤ w.toNat && w.toNat ≤ 0x6F800000

/-- The scale in use: 1.0 in place of one that is not valid (R52). -/
def tscaleUsed (w : Word) : Word := if tscaleValid w then w else 0x3F800000

/-! Block storage (R50). -/

/-- Bytes of a dense block of 32 elements. -/
def NFmt.blockBytes (f : NFmt) : Nat := 4 * f.bits

/-- The bytes of a list of codes of `w` bits each, element 0 in the lowest bits. -/
def packCodes (w : Nat) (codes : List Nat) : List Byte :=
  leBytes ((codes.length * w + 7) / 8) (codes.foldr (fun c acc => c % 2 ^ w + 2 ^ w * acc) 0)

/-- Code `i` of a run of codes of `w` bits each, read from a byte function. -/
def codeAt (w : Nat) (bytes : List Byte) (i : Nat) : Nat :=
  let b := i * w / 8
  ((bytes.getD b 0).toNat + 256 * (bytes.getD (b + 1) 0).toNat) / 2 ^ (i * w % 8) % 2 ^ w

/-! The rounding generator (R60). -/

/-- One advance: the bit it returns and the next state. -/
def lfsrStep (s : Word) : Bool × Word :=
  if s.getLsbD 0 then (true, (s >>> 1) ^^^ 0x80200003) else (false, s >>> 1)

/-- `n` advances: the value they form, first bit lowest, and the state after. -/
def lfsrTake : Nat → Word → Nat × Word
  | 0, s => (0, s)
  | n + 1, s =>
    let r := lfsrStep s
    let t := lfsrTake n r.2
    ((if r.1 then 1 else 0) + 2 * t.1, t.2)

/-- `n` random values of 16 advances each, in order. -/
def lfsrValues : Nat → Word → List Nat × Word
  | 0, s => ([], s)
  | n + 1, s =>
    let r := lfsrTake 16 s
    let t := lfsrValues n r.2
    (r.1 :: t.1, t.2)

/-! Rounding to a format (R57 to R59). -/

/-- The representable magnitudes of a format, ascending, as FP32 words. -/
def NFmt.mags : NFmt → List Word
  | .k4f => (List.range 8).map (kyozenWord .k4f)
  | .k4i => (List.range 8).map (kyozenWord .k4i)
  | .k3i => (List.range 4).map (kyozenWord .k3i)
  | .k2l => (List.range 2).map (kyozenWord .k2l)
  | .k2t => (List.range 2).map (kyozenWord .k2t)
  | .e4m3 => (List.range 0x7F).map (fp8Word .e4m3)
  | .e5m2 => (List.range 0x7C).map (fp8Word .e5m2)

/-- The sign of `2 q − (a + b)` for positive finite words. -/
def cmpMid (q a b : Word) : Int :=
  let s := dySum (fInt a) (fE a) (fInt b) (fE b)
  (dySum (2 * fInt q) (fE q) (-s.1) s.2).1

/-- The index of the magnitude that a positive finite word rounds to: nearest, a tie to the even index (the code with
bit 0 clear, the even integer), and the largest where it lies above; with a random value `r`, the stochastic choice of
R59 between its two neighbours. -/
def roundIdx (ms : List Word) (q : Word) (r : Option Nat) : Nat :=
  let k := (ms.filter fun m => m.toNat ≤ q.toNat).length
  if k = 0 then 0
  else if ms.length ≤ k then ms.length - 1
  else
    let lo := ms.getD (k - 1) 0
    let hi := ms.getD k 0
    match r with
    | some v =>
      if lo = q then k - 1
      else
        let t := fMul vNan (fDiv vNan (fSub vNan q lo) (fSub vNan hi lo)) 0x47800000
        if v < fMant t * 2 ^ (fE t).toNat / 2 ^ (-fE t).toNat then k else k - 1
    | none =>
      let c := cmpMid q lo hi
      if c < 0 then k - 1 else if 0 < c then k else if k % 2 = 0 then k else k - 1

/-- The code of a signed magnitude index. -/
def NFmt.codeOf (f : NFmt) (neg : Bool) (i : Nat) : Nat :=
  match f with
  | .k4f => if neg && i != 0 then 8 + i else i
  | .k4i => if neg && i != 0 then 16 - i else i
  | .k3i => if neg && i != 0 then 8 - i else i
  | .k2l => if neg then 2 + i else i
  | .k2t => if neg && i != 0 then 3 else i
  | .e4m3 => if neg && i != 0 then 128 + i else i
  | .e5m2 => if neg && i != 0 then 128 + i else i

/-- What quantising one block or group gives. -/
structure QBlock where
  /-- the block scale code (0 for FP8) -/
  scale : Nat
  codes : List Nat
  nan : Bool
  clampHi : Bool
  clampLo : Bool
  sat : Nat
  zero : Nat
  troubled : Bool
  /-- the largest magnitude over the non-NaN inputs, an infinite input as 0x7F7FFFFF (R64) -/
  amax : Word
  inf : Bool
  deriving DecidableEq, Repr

/-- The largest magnitude over the non-NaN inputs. -/
def maxAbs (xs : List Word) : Word :=
  xs.foldl (fun m x => if isNan x then m else if m.toNat < (fAbs x).toNat then fAbs x else m) 0

/-- The magnitude that a statistics record keeps (R64). -/
def amaxRecord (w : Word) : Word := if isInf w then 0x7F7FFFFF else w

/-- Round one scaled value of a Kyozen format (R57 to R59). -/
def quantElem (f : NFmt) (ms : List Word) (q : Word) (r : Option Nat) : Nat :=
  if isInf q then f.codeOf (fNeg q) (ms.length - 1)
  else if isZero q then f.codeOf false 0
  else f.codeOf (fNeg q) (roundIdx ms (fAbs q) r)

/-- The random value of element `i`, when the element rounds stochastically. -/
def randAt (rs : Option (List Nat)) (i : Nat) : Option Nat := rs.map fun l => l.getD i 0

/-- Quantise a block to a Kyozen format with tensor scale `st` (R61). -/
def quantBlock (f : NFmt) (st : Word) (limit : Nat) (xs : List Word) (rs : Option (List Nat)) : QBlock :=
  let amax := maxAbs xs
  if xs.any isNan then
    ⟨0xFF, xs.map fun _ => 0, true, false, false, 0, 0, false, amaxRecord amax, xs.any isInf⟩
  else if isZero amax then ⟨0, xs.map fun _ => 0, false, false, false, 0, 0, false, 0, false⟩
  else
    let c := fMul vNan f.qmax st
    let ideal := fDiv vNan amax c
    let hi := decide (0x47E00000 < ideal.toNat)
    let lo := !hi && decide (ideal.toNat < 0x37000000)
    let code :=
      if hi then 0xFE else if lo then 0x01
      else ((List.range 0xFF).find? fun k => k ≠ 0 ∧ ideal.toNat ≤ (ue5m3 k).toNat).getD 0xFE
    let d := fMul vNan (ue5m3 code) st
    let ms := f.mags
    let rsF := if f = .k4f then rs else none
    let qs := xs.map fun x => fDiv vNan x d
    let codes := (List.range xs.length).map fun i => quantElem f ms (qs.getD i 0) (randAt rsF i)
    let sat := if hi then (qs.filter fun q => decide (f.qmax.toNat < (fAbs q).toNat)).length else 0
    let zero := ((List.range xs.length).filter fun i =>
      !isZero (xs.getD i 0) && kyozenHalves f (codes.getD i 0) == 0).length
    ⟨code, codes, false, hi, lo, sat, zero, hi || lo || decide (limit < zero), amaxRecord amax, xs.any isInf⟩

/-- A scaled magnitude whose rounding exceeds the format's largest finite magnitude (R53, R62): above the midpoint to the
next step, a tie going to the even code. -/
def fp8Over (f : NFmt) (q : Word) : Bool :=
  match f with
  | .e4m3 => decide (0x43E80000 < (fAbs q).toNat)
  | .e5m2 => decide (0x47700000 ≤ (fAbs q).toNat)
  | _ => false

/-- Quantise a group of 32 to FP8 (R53, R62). -/
def quantFp8 (f : NFmt) (st : Word) (limit : Nat) (xs : List Word) (rs : Option (List Nat)) : QBlock :=
  let ms := f.mags
  let qs := xs.map fun x => fDiv vNan x st
  let codes := (List.range xs.length).map fun i =>
    if isNan (xs.getD i 0) then 0x7F else quantElem f ms (qs.getD i 0) (randAt rs i)
  let sat := ((List.range xs.length).filter fun i => !isNan (xs.getD i 0) && fp8Over f (qs.getD i 0)).length
  let zero := ((List.range xs.length).filter fun i =>
    !isNan (xs.getD i 0) && !isZero (xs.getD i 0) && codes.getD i 0 == 0).length
  let nan := xs.any isNan
  ⟨0, codes, nan, false, false, sat, zero, !nan && (sat != 0 || decide (limit < zero)), amaxRecord (maxAbs xs), xs.any isInf⟩

/-- Quantise a block or group of the format. -/
def quantise (f : NFmt) (st : Word) (limit : Nat) (xs : List Word) (rs : Option (List Nat)) : QBlock :=
  if f.isFp8 then quantFp8 f st limit xs rs else quantBlock f st limit xs rs

end Sys2Proof.Machine
end

