-- ==== Sys2Proof/Machine/TileOps.lean ====
section
/-! DEFINITION. The operations that a tile's instructions share: reaching a tile and its tile store, whether an instruction
issues, the schedule fault (R154), and the quantiser's statistics records (R64, R65). -/

namespace Sys2Proof.Machine

open Reg

/-- The state of tile `n`. -/
def Dev.tile (d : Dev) (n : Fin 32) : Tile := d.tiles[n]

/-- Change tile `n`. -/
def Dev.onTile (d : Dev) (n : Fin 32) (f : Tile → Tile) : Dev := { d with tiles := d.tiles.set n (f (d.tile n)) }

/-- Bytes of tile store. -/
def tsBytes : Nat := 0x4000000

/-- `k` little-endian bytes of tile store. -/
def Dev.tsLe (d : Dev) (n : Fin 32) (a k : Nat) : Nat := memLe (d.tile n).store a k

/-- Write `k` little-endian bytes to tile store. -/
def Dev.tsPutLe (d : Dev) (n : Fin 32) (a k v : Nat) : Dev :=
  d.onTile n fun t => { t with store := memPutLe t.store a k v }

/-- Bytes of tile store. -/
def Dev.tsRead (d : Dev) (n : Fin 32) (a k : Nat) : List Byte := memBytes (d.tile n).store a k

def Dev.tsWrite (d : Dev) (n : Fin 32) (a : Nat) (l : List Byte) : Dev :=
  d.onTile n fun t => { t with store := memPutBytes t.store a l }

/-- A run of 32-bit little-endian words as bytes. -/
def wordBytes (l : List Word) : List Byte := l.flatMap fun w => leBytes 4 w.toNat

/-! Issue. -/

/-- A pass runs on the tile (TCTL_PASS_STATUS.STATE 1). -/
def Dev.running (d : Dev) (n : Fin 32) : Bool := d.getF (TCTL_PASS_STATUS_STATE n) == 1

/-- Stream `st` of the tile may issue: a pass runs, the stream has not issued END, no wait holds it (R123, R142). -/
def Dev.issues (d : Dev) (n : Fin 32) (st : Nat) : Bool :=
  d.running n && !(d.tile n).seq.ended.getLsbD st && (d.tile n).seq.wait.isNone

/-- The schedule fault of R154 event 1: the sequencer stops all issue, records the cause, and sets TCTL_EVENT.SFAULT. -/
def Dev.sfault (d : Dev) (n : Fin 32) (cause stream idx cyc arg : Nat) : Dev :=
  ((((((d.setF (TCTL_PASS_STATUS_STATE n) 2).setF (TCTL_SFAULT_INFO_CAUSE n) cause).setF
    (TCTL_SFAULT_INFO_STREAM n) stream).setF (TCTL_SFAULT_INFO_INDEX n) idx).setN (TCTL_SFAULT_CYCLE n) cyc).setN
      (TCTL_SFAULT_ARG n) arg).latch (egTctl n) 0 |>.count (.tile n) 6 1

/-- An instruction of stream `st` comes to its issue cycle: nothing where the stream does not issue, a MALFORMED fault
(R113, R152) where `bad` holds, and its effect otherwise. -/
def Dev.issue (d : Dev) (p : Issue) (st : Nat) (bad : Bool) (f : Dev → Dev) : Dev :=
  if !d.issues p.tile st then d
  else if bad then d.sfault p.tile 1 st p.idx p.cyc 0
  else f d

/-- A helper instruction comes to its issue cycle (R122, R133). -/
def Dev.helperIssue (d : Dev) (p : Issue) (bad : Bool) (f : Dev → Dev) : Dev :=
  d.issue p 4 bad fun d => f (d.count (.tile p.tile) 0x14 1)

/-! Statistics records (R64). -/

/-- Address of the record of tensor `t`. -/
def Dev.statAt (d : Dev) (n : Fin 32) (t : Nat) : Nat := d.getN (QNT_TABLE_BASE n) + 32 * t

/-- A record's TSCALE and FLAGS. -/
def Dev.tscale (d : Dev) (n : Fin 32) (t : Nat) : Word := BitVec.ofNat 32 (d.tsLe n (d.statAt n t) 4)
def Dev.statFlags (d : Dev) (n : Fin 32) (t : Nat) : Nat := d.tsLe n (d.statAt n t + 0x1A) 2
def Dev.statFlag (d : Dev) (n : Fin 32) (t b : Nat) : Bool := (d.statFlags n t).testBit b
def Dev.setStatFlag (d : Dev) (n : Fin 32) (t b : Nat) : Dev :=
  d.tsPutLe n (d.statAt n t + 0x1A) 2 (d.statFlags n t ||| 2 ^ b)
def Dev.clearStatFlag (d : Dev) (n : Fin 32) (t b : Nat) : Dev :=
  if d.statFlag n t b then d.tsPutLe n (d.statAt n t + 0x1A) 2 (d.statFlags n t - 2 ^ b) else d

/-- Add to a count of a record, stopping at its largest value. -/
def Dev.statAdd (d : Dev) (n : Fin 32) (t off size k : Nat) : Dev :=
  d.tsPutLe n (d.statAt n t + off) size (min (d.tsLe n (d.statAt n t + off) size + k) (256 ^ size - 1))

/-- Tensor `t` is in trouble in this pass (R63, R65): TROUBLE is set in its record, and QNT_STEP_STATUS follows. -/
def Dev.tensorTrouble (d : Dev) (n : Fin 32) (t : Nat) : Dev :=
  let d := d.setStatFlag n t 1
  if t ∈ (d.tile n).troubled then d
  else
    let d : Dev := d.onTile n fun u => { u with troubled := u.troubled ++ [t] }
    let d : Dev := d.setF (QNT_STEP_STATUS_TROUBLED_TENSORS n) (d.tile n).troubled.length
    if d.flag (QNT_CTRL_REPLAY_EN n) then d.setF (QNT_STEP_STATUS_TROUBLE n) 1 else d

/-- The pass meets an invalid tensor scale of tensor `t` (R52): TSCALE_BAD in its record, the tensor in trouble. -/
def Dev.tscaleBad (d : Dev) (n : Fin 32) (t : Nat) : Dev :=
  let e := (d.setStatFlag n t 4).tensorTrouble n t
  if d.flag (QNT_STEP_STATUS_TSCALE_BAD n) then e
  else (e.setF (QNT_STEP_STATUS_TSCALE_BAD n) 1).latch (egQnt n) 2

/-- The first block of tensor `t` in a pass sets TOUCHED and clears AMAX, the counts, TROUBLE, TSCALE_BAD and INF_SEEN
(R65); FALLBACK and STOCH stay. -/
def Dev.statTouch (d : Dev) (n : Fin 32) (t : Nat) : Dev :=
  if d.statFlag n t 0 then d
  else
    let fl := 1 + (if d.statFlag n t 2 then 4 else 0) + (if d.statFlag n t 3 then 8 else 0)
    (d.tsPutLe n (d.statAt n t + 4) 22 0).tsPutLe n (d.statAt n t + 0x1A) 2 fl |>.tsPutLe n (d.statAt n t + 0x1C) 4 0

/-- The limits of QNT_LIMITS. -/
def Dev.zeroLimit (d : Dev) (n : Fin 32) : Nat := d.getF (QNT_LIMITS_ZERO_LIMIT n)
def Dev.troubleLimit (d : Dev) (n : Fin 32) : Nat := d.getF (QNT_LIMITS_TROUBLE_LIMIT n)

/-- A quantised block of tensor `t` enters its record (R64, R65). -/
def Dev.statBlock (d : Dev) (n : Fin 32) (t : Nat) (b : QBlock) : Dev :=
  let d := ((d.statAdd n t 0x1C 4 1).statAdd n t 8 4 b.sat).statAdd n t 0xC 4 b.zero
  let d : Dev := if d.tsLe n (d.statAt n t + 4) 4 < b.amax.toNat then d.tsPutLe n (d.statAt n t + 4) 4 b.amax.toNat else d
  let d : Dev := if b.inf then d.setStatFlag n t 5 else d
  let d : Dev := if b.clampHi then d.statAdd n t 0x14 2 1 else d
  let d : Dev := if b.clampLo then d.statAdd n t 0x16 2 1 else d
  let d : Dev := if b.nan then
      let e := d.statAdd n t 0x18 2 1
      if d.flag (QNT_STEP_STATUS_NAN_SEEN n) then e
      else (e.setF (QNT_STEP_STATUS_NAN_SEEN n) 1).latch (egQnt n) 1
    else d
  let d : Dev := d.count (.tile n) 0x0E 1
  if b.troubled then
    let d := (d.statAdd n t 0x10 4 1).count (.tile n) 0x0F 1
    if d.troubleLimit n < d.tsLe n (d.statAt n t + 0x10) 4 then d.tensorTrouble n t else d
  else d

/-- One block of tensor `t` passes through the tile's quantiser: the record is touched, an invalid tensor scale is
replaced by 1.0 and marked (R52), the block is quantised and counted. -/
def Dev.quantInto (d : Dev) (n : Fin 32) (t : Nat) (f : NFmt) (xs : List Word) (rs : Option (List Nat)) : QBlock × Dev :=
  let d := d.statTouch n t
  let st := d.tscale n t
  let d : Dev := if tscaleValid st then d else d.tscaleBad n t
  let b := quantise f (tscaleUsed st) (d.zeroLimit n) xs rs
  (b, d.statBlock n t b)

end Sys2Proof.Machine
end

