-- ==== Sys2Proof/Machine/Dram.lean ====
section
/-! DEFINITION. Bonded DRAM, its error handling, and the Darner in the rota (R158 to R174). -/

namespace Sys2Proof.Machine

open Reg

/-! The channel hash (R364). -/

def lineCh (l : Nat) : Nat := l % 48
def lineBank (l : Nat) : Nat := l / 48 % 32
def linePos (l : Nat) : Nat := l / 48 / 32
/-- Lines of a tile: 32 GiB in 64 B (R158). -/
def dramLines : Nat := 2 ^ 29
/-- The line at a position of a bank of a channel. -/
def lineAt (ch bank pos : Nat) : Nat := (pos * 32 + bank) * 48 + ch

/-- The stored bytes of a line. -/
def Dev.dramLine (d : Dev) (n : Fin 32) (l : Nat) : List Byte := memBytes (d.tile n).dram (64 * l) 64

def Dev.onDarner (d : Dev) (n : Fin 32) (f : Darner → Darner) : Dev := d.onTile n fun t => { t with darner := f t.darner }
def Dev.darner (d : Dev) (n : Fin 32) : Darner := (d.tile n).darner

/-- The line is stored poisoned, or cannot be read (R164). -/
def Dev.poisoned (d : Dev) (n : Fin 32) (l : Nat) : Bool := smGet (fun _ => false) (d.darner n).poison l
def Dev.setPoison (d : Dev) (n : Fin 32) (l : Nat) (v : Bool) : Dev :=
  d.onDarner n fun k => { k with poison := smPut (fun _ => false) k.poison l v }

/-- The report of a line that both codes found clean. -/
def cleanRep : EccRep := ⟨0, 0, false, false⟩

/-- The report of line `l` in a list of the lines that were not clean. -/
def repOf (reps : List (Nat × EccRep)) (l : Nat) : EccRep :=
  match reps.find? fun r => r.1 == l with
  | some r => r.2
  | none => cleanRep

/-! Errors (R163, R164, R169, R170, R174). -/

/-- MEM_UE_ADDR takes a line and the source code of R196, and the tile controller is notified. -/
def Dev.ueAddr (d : Dev) (n : Fin 32) (l source : Nat) : Dev :=
  ((((d.setN (MEM_UE_ADDR_LO n) (64 * l)).setF (MEM_UE_ADDR_HI_SOURCE n) source).setF (MEM_UE_ADDR_HI_OFFSET_HI n)
    (64 * l / 2 ^ 32))).emit (.signal "UE" [n, l, source])

/-- A channel fails (R174). -/
def Dev.chanFail (d : Dev) (n : Fin 32) : Dev := d.latch (egMem n) 5

/-- A link UE of a channel: the 16th of a rota fails the channel. -/
def Dev.linkUeSeen (d : Dev) (n : Fin 32) (l : Nat) : Dev :=
  let k := Fin.ofNat 48 l
  let d : Dev := (d.satInc (MEM_LINK_UE_COUNT n)).latch (egMem n) 2
  let d : Dev := d.onDarner n fun w => { w with linkUes := w.linkUes.set k (w.linkUes[k] + 1) }
  if (d.darner n).linkUes[k] = 16 then d.chanFail n else d

/-- A corrected line is offered to the repair queue (R169). -/
def Dev.offerRepair (d : Dev) (n : Fin 32) (l : Nat) : Dev :=
  let q := (d.darner n).repair
  if ¬ d.flag (MEM_CTRL_REPAIR_EN n) ∨ l ∈ q then d
  else if 64 ≤ q.length then d.latch (egMem n) 3
  else (d.onDarner n fun w => { w with repair := w.repair ++ [l] }).setF (MEM_STATUS_REPAIR_DEPTH n) (q.length + 1)

/-- Words corrected on the die join the scrub pass's count; past MEM_CE_LIMIT, CE_OVER is set once (R170). -/
def Dev.ceSeen (d : Dev) (n : Fin 32) (k : Nat) : Dev :=
  let d : Dev := (d.satAdd (MEM_CE_COUNT n) k).onDarner n fun w => { w with ce := w.ce + k }
  if d.getN (MEM_CE_LIMIT n) < (d.darner n).ce ∧ ¬ (d.darner n).ceOver then
    (d.onDarner n fun w => { w with ceOver := true }).latch (egMem n) 0
  else d

/-- A read of a line (R163): its data as delivered, whether it was uncorrectable, and whether the die corrected it. The
source codes are R196's: 0 foreground, 1 home, 2 scrub, 3 repair. -/
def Dev.dramRead (d : Dev) (n : Fin 32) (l source : Nat) (r : EccRep) : List Byte × Bool × Dev :=
  if r.dieUe || r.linkUe || d.poisoned n l then
    let d : Dev := if r.dieUe || d.poisoned n l then (d.satInc (MEM_UE_COUNT n)).latch (egMem n) 1 else d
    let d : Dev := if r.linkUe then d.linkUeSeen n l else d
    (List.replicate 64 0xFF, true, d.ueAddr n l source)
  else
    let d : Dev := (d.ceSeen n r.dieCe).satAdd (MEM_LINK_CE_COUNT n) r.bondCe
    let d : Dev := if r.dieCe ≠ 0 ∧ source < 2 then d.offerRepair n l else d
    (d.dramLine n l, false, d)

/-- A write of a line: a pending write-back of it is discarded (R168), and a link UE stores it poisoned (R164). -/
def Dev.dramWrite (d : Dev) (n : Fin 32) (l : Nat) (data : List Byte) (linkUe : Bool) : Dev :=
  let k := ((d.darner n).wb.filter fun w => w.1 == l).length
  let d : Dev := if k = 0 then d
    else (d.onDarner n fun w => { w with wb := w.wb.filter fun x => x.1 != l }).satAdd (MEM_WB_CANCEL_COUNT n) k
  let d : Dev := d.onTile n fun t => { t with dram := memPutBytes t.dram (64 * l) (data.take 64) }
  let d : Dev := d.setPoison n l linkUe
  if linkUe then (d.linkUeSeen n l).ueAddr n l 4 else d

/-- A bulk or foreground write also reaches a held copy of the line in the cycle in which it issues (R379). -/
def Dev.heldApply (d : Dev) (n : Fin 32) (l : Nat) (data : List Byte) : Dev :=
  d.onTile n fun t => { t with delud := { t.delud with held := t.delud.held.map fun h =>
    if h.line = l ∧ h.data.isSome then { h with data := some (data.take 64) } else h } }

/-- The memory controller issues lines: it is neither in self-refresh nor off (R177, R196). -/
def Dev.memRuns (d : Dev) (n : Fin 32) : Bool := d.getF (MEM_STATUS_MODE n) < 2

/-! The background window. -/

/-- The current beat. -/
def Dev.beat (d : Dev) (n : Fin 32) : Nat := d.getF (TCTL_ROTA_BEAT n)

/-- REFRESH (R135, R171): beat `k` begins with the refresh of a group of bank `k`; the groups follow in turn, one a rota. -/
def execRefresh (n : Fin 32) (k : Fin 32) (s : State) : Host.Outcome State Fault Refusal :=
  onRun (fun d =>
    if ¬ d.memRuns n then d
    else
      let d := (d.setF (TCTL_ROTA_BEAT n) k).setF (TCTL_ROTA_PHASE n) 0
      d.onDarner n fun w => { w with used := [], group := if k = 31 then (w.group + 1) % 993 else w.group }) s

/-- A line lies in a page of the skip table (R166, R180). -/
def Dev.skipped (d : Dev) (n : Fin 32) (l : Nat) : Bool :=
  (List.range 128).any fun i => d.flag (MEM_SKIP_VALID n i) && d.getF (MEM_SKIP_PAGE n i) == l / 512

/-- Channel `ch` may issue a background read to bank `b` in this beat (R135, R166, R167). -/
def Dev.scrubFree (d : Dev) (n : Fin 32) (ch b : Nat) : Bool :=
  let u := (d.darner n).used
  b != d.beat n && !u.contains (ch, b) &&
    decide ((u.filter fun x => x.1 == ch).length < min 8 (d.getF (MEM_CTRL_SCRUB_LINES n))) &&
    decide (((d.darner n).wb.filter fun w => lineCh w.1 == ch).length < 16)

/-- A Darner read of a line: a word corrected on the die leaves a pending write-back (R167). -/
def Dev.darnerRead (d : Dev) (n : Fin 32) (l source : Nat) (r : EccRep) : Dev :=
  let d : Dev := (d.onDarner n fun w => { w with used := w.used ++ [(lineCh l, lineBank l)] }).count (.tile n) 0x12 1
  let x := d.dramRead n l source r
  if r.dieCe ≠ 0 ∧ ¬ x.2.1 then x.2.2.onDarner n fun w => { w with wb := w.wb.filter (fun y => y.1 != l) ++ [(l, x.1)] }
  else x.2.2

/-- The oldest repair-queue entry of each channel that may issue now. -/
def Dev.repairPicks (d : Dev) (n : Fin 32) : List Nat :=
  (List.range 48).filterMap fun ch =>
    match (d.darner n).repair.find? fun l => lineCh l == ch with
    | some l => if d.scrubFree n ch (lineBank l) then some l else none
    | none => none

/-- Positions per bank as the walk counts them, and the end of the walk (R158, R166). -/
def walkPositions : Nat := 349536
def walkEnd : Nat := 32 * walkPositions

/-- The walk moves on by one position; a completed walk counts and starts again (R166, R170). -/
def Dev.walkOn (d : Dev) (n : Fin 32) : Dev :=
  let p := d.getF (MEM_SCRUB_POS_POS n) + 1
  if p = walkEnd then
    let d : Dev := d.onDarner n fun w => { w with ce := 0, ceOver := false }
    ((d.setF (MEM_SCRUB_POS_POS n) 0).satInc (MEM_SCRUB_PASSES n))
  else d.setF (MEM_SCRUB_POS_POS n) p

/-- One read slot of the walk: the line of every channel at the position, past retired pages and positions outside the address
space; nothing while the position's bank is not free on some channel. -/
def Dev.walkSlot (d : Dev) (n : Fin 32) (reps : List (Nat × EccRep)) : Dev :=
  let p := d.getF (MEM_SCRUB_POS_POS n)
  let bank := p / walkPositions
  let lines := (List.range 48).map fun ch => lineAt ch bank (p % walkPositions)
  if (List.range 48).all fun ch => d.scrubFree n ch bank then
    (lines.foldl (fun d l => if l < dramLines ∧ ¬ d.skipped n l then d.darnerRead n l 2 (repOf reps l) else d) d).walkOn n
  else d

/-- SCRUB_READ (R166, R167): one slot of phases 1 to 8. Repair entries take the slot; else the scrub walk moves on by one
position on all channels. `reps` lists the lines that the codes did not find clean. -/
def execScrubRead (n : Fin 32) (reps : List (Nat × EccRep)) (s : State) : Host.Outcome State Fault Refusal :=
  onRun (fun d =>
    if ¬ d.memRuns n then d
    else
      match d.repairPicks n with
      | [] => if d.flag (MEM_CTRL_SCRUB_EN n) then d.walkSlot n reps else d
      | ls =>
        ls.foldl (fun d l =>
          let d : Dev := d.onDarner n fun w => { w with repair := w.repair.filter fun x => x != l }
          (d.setF (MEM_STATUS_REPAIR_DEPTH n) (d.darner n).repair.length).darnerRead n l 3 (repOf reps l)) d) s

/-- DARNER_WRITEBACK (R167, R168): the channel's oldest pending write-back issues; `linkUe` is the die's report. -/
def execDarnerWriteback (n : Fin 32) (ch : Fin 48) (linkUe : Bool) (s : State) : Host.Outcome State Fault Refusal :=
  onRun (fun d =>
    if ¬ d.memRuns n then d
    else
      match (d.darner n).wb.find? fun w => lineCh w.1 == ch.val && lineBank w.1 != d.beat n with
      | none => d
      | some w =>
        let d : Dev := d.onDarner n fun k => { k with wb := k.wb.filter fun x => x.1 != w.1 }
        (d.dramWrite n w.1 w.2 linkUe).count (.tile n) 0x12 1) s

/-- TELEMETRY_READ (R172): in the beats that read word 0, every die's temperature reaches MEM_DIE_TEMPd. -/
def execTelemetryRead (n : Fin 32) (temps : List (BitVec 16)) (s : State) : Host.Outcome State Fault Refusal :=
  onRun (fun d =>
    if d.memRuns n ∧ d.beat n % 8 = 0 then
      (List.range 8).foldl (fun d k => d.setF (MEM_DIE_TEMP_TEMP n k) (temps.getD k 0).toNat) d
    else d) s

/-- CALIBRATION_STEP (R173, R174), in beat 31: a delay reached the end of its range, or a channel found no passing delay. -/
def execCalibrationStep (n : Fin 32) (warn fail : Bool) (s : State) : Host.Outcome State Fault Refusal :=
  onRun (fun d =>
    if d.memRuns n ∧ d.beat n = 31 then
      let d := d.setF (MEM_STATUS_CAL_STEP n) (d.getF (MEM_STATUS_CAL_STEP n) + 1)
      let d : Dev := if warn then d.latch (egMem n) 4 else d
      if fail then d.chanFail n else d
    else d) s

end Sys2Proof.Machine
end

