-- ==== Sys2Proof/Machine/Net.lean ====
section
/-! DEFINITION. The package network: seams, dimension-order routes and route classes, crossings, and the transfers on them
(R25 to R32, R38, R40, R45). -/

namespace Sys2Proof.Machine

open Reg

/-! The grid (R25, R27). -/

/-- The seam register and bit of seam `i` (R44). -/
def Dev.seamUp (d : Dev) (i : Nat) : Bool := d.regBit (HUB_SEAM_UP0 + 4 * (i / 32)) (i % 32)
def Dev.setSeam (d : Dev) (i : Nat) (v : Bool) : Dev := d.setBit (HUB_SEAM_UP0 + 4 * (i / 32)) (i % 32) v

/-- The lower-numbered tile attached to an engine (R26). -/
def oeTile (k : Fin 8) : Nat := if k.val < 4 then 2 * k.val else 24 + 2 * (k.val - 4)

/-- The OE seam of engine `k` and its tile `j` (R27). -/
def oeSeam (k : Fin 8) (j : Nat) : Nat := 56 + 2 * k.val + j

/-- The engine's attached tile in the nearer column, the lower-numbered on a tie (R29): 0 or 1. -/
def oeNear (k : Fin 8) (col : Nat) : Nat := if col ≤ oeTile k % 8 then 0 else 1

/-- The attached tile that a transfer targets: the nearer one when its OE seam is up, else the other (R32). -/
def oeTarget (up : Nat → Bool) (k : Fin 8) (col : Nat) : Nat :=
  let j := oeNear k col
  if up (oeSeam k j) then j else 1 - j

/-- The direction of the next hop from tile `n` toward tile `t` (R29): ports 0 west, 1 east, 2 north, 3 south. -/
def hopDir (yx : Bool) (n t : Nat) : Nat :=
  let h := if n % 8 < t % 8 then 1 else 0
  let v := if n / 8 < t / 8 then 3 else 2
  if yx then (if n / 8 ≠ t / 8 then v else h) else (if n % 8 ≠ t % 8 then h else v)

/-- The neighbour of a tile over a port. -/
def neighbour (n dir : Nat) : Nat :=
  match dir with
  | 0 => n - 1
  | 1 => n + 1
  | 2 => n - 8
  | _ => n + 8

/-- The next hop of a transfer in the seam island of tile `n`: the seam it takes and the place it reaches; none at its
own tile (R29, R32). -/
def nextHop (up : Nat → Bool) (n : Nat) (dst : EndPt) (yx : Bool) : Option (Nat × NetAt) :=
  let go (t : Nat) : Option (Nat × NetAt) :=
    let dir := hopDir yx n t
    some (seamOfPort n dir, .seam (Fin.ofNat 32 (neighbour n dir)))
  match dst with
  | .tile t => if t.val = n then none else go t
  | .hub => if n % 8 = 0 then some (52 + n / 8, .arrived) else go (8 * (n / 8))
  | .oe k =>
    let j := oeTarget up k (n % 8)
    if n = oeTile k + j then some (oeSeam k j, .arrived) else go (oeTile k + j)

/-- The first hop of a transfer that the hub or an engine launches (R29, R32). -/
def firstHop (up : Nat → Bool) (src dst : EndPt) : Option (Nat × NetAt) :=
  match src, dst with
  | .hub, .tile t => some (52 + t.val / 8, .seam (Fin.ofNat 32 (8 * (t.val / 8))))
  | .hub, .oe k => some (52 + oeTile k / 8, .seam (Fin.ofNat 32 (8 * (oeTile k / 8))))
  | .oe k, .tile t =>
    let j := oeTarget up k (t.val % 8)
    some (oeSeam k j, .seam (Fin.ofNat 32 (oeTile k + j)))
  | .oe k, .hub =>
    let j := oeTarget up k 0
    some (oeSeam k j, .seam (Fin.ofNat 32 (oeTile k + j)))
  | _, _ => none

/-- The seams of a path from a place on, for at most `fuel` hops. -/
def pathSeams (up : Nat → Bool) (dst : EndPt) (yx : Bool) : Nat → NetAt → List Nat
  | 0, _ => []
  | fuel + 1, .seam n =>
    match nextHop up n dst yx with
    | some (s, w) => s :: pathSeams up dst yx fuel w
    | none => []
  | _, _ => []

/-- Every seam of the path from an endpoint to another. -/
def routeOf (up : Nat → Bool) (src dst : EndPt) (yx : Bool) : List Nat :=
  match src with
  | .tile n => pathSeams up dst yx 16 (.seam n)
  | _ =>
    match firstHop up src dst with
    | some (s, w) => s :: pathSeams up dst yx 16 w
    | none => []

/-- No down seam lies on the path. -/
def pathUp (up : Nat → Bool) (src dst : EndPt) (yx : Bool) : Bool := (routeOf up src dst yx).all up

/-- A pair has a usable path (R30). -/
def reachable (up : Nat → Bool) (src dst : EndPt) : Bool := pathUp up src dst false || pathUp up src dst true

/-- The seams as the route classes take them (R30). -/
def Dev.routeUp (d : Dev) (i : Nat) : Bool := d.fab.routeSeams.getLsbD i

/-- The route class of a pair: YX where a down seam lies on the XY path and none on the YX path (R30). -/
def Dev.classYx (d : Dev) (src dst : EndPt) : Bool := !pathUp d.routeUp src dst false && pathUp d.routeUp src dst true

/-! Transfers. -/

/-- Launch a transfer into the package network with the class that its source assigns (R29). -/
def Dev.netSend (d : Dev) (src dst : EndPt) (vc : Vc) (m : Dmsg) (link : Nat) : Dev :=
  { d with fab := { d.fab with net := d.fab.net ++ [⟨m, vc, src, dst, d.classYx src dst, .launch, link⟩] } }

/-- Entry `i` of the network moves to a place, behind every transfer that is there already, or leaves the network. -/
def Dev.netSet (d : Dev) (i : Nat) (t : Option Transit) : Dev :=
  { d with fab := { d.fab with net := d.fab.net.eraseIdx i ++ t.toList } }

/-- The port of tile `n` that joins seam `s`. -/
def portOfSeam (n s : Nat) : Option Nat := (List.range 4).find? fun dir => seamOfPort n dir == s

/-- The tiles that seam `s` joins. -/
def seamTiles (s : Nat) : List (Fin 32) := (List.finRange 32).filter fun n => (portOfSeam n s).isSome

/-- The endpoint's message has arrived: it leaves the network. -/
def Dev.deliver (d : Dev) (e : EndPt) (m : Dmsg) : Dev := d.emit (.arrive e m)

/-- An earlier transfer of the network stands in the same crossing (R38): the same place, at the same endpoint. -/
def sameCrossing (a b : Transit) : Bool :=
  match a.where_, b.where_ with
  | .launch, .launch => a.src == b.src
  | .arrived, .arrived => a.dst == b.dst
  | .seam n, .seam m => n == m && a.dst == .tile n && b.dst == .tile m
  | _, _ => false

/-- Whether the transfer is the oldest in its crossing. -/
def Dev.crossingHead (d : Dev) (i : Nat) (t : Transit) : Bool := (d.fab.net.take i).all fun u => !sameCrossing u t

/-- A seam hop of entry `i` over seam `s` to `w` (R28, R29): a CRC retry is counted at the port it left by, a pass through a
tile other than its source is counted there. -/
def Dev.hop (d : Dev) (i : Nat) (t : Transit) (from_ : Option (Fin 32)) (s : Nat) (w : NetAt) (retry : Bool) : Dev :=
  let d : Dev := if retry then
      match from_ with
      | some n => d.satInc (SEAM_PORT_RETRY n ((portOfSeam n s).getD 0))
      | none => match w with
        | .seam n => d.satInc (SEAM_PORT_RETRY n ((portOfSeam n s).getD 0))
        | _ => d
    else d
  let d : Dev := match from_ with
    | some n => if t.src = .tile n then d else d.setPair (SEAM_PASS_LO n) (SEAM_PASS_HI n)
        (min (d.getPair (SEAM_PASS_LO n) (SEAM_PASS_HI n) + 1) (2 ^ 64 - 1))
    | none => d
  d.netSet i (some { t with where_ := w })

end Sys2Proof.Machine
end

