-- ==== Sys2Proof/Machine/Route.lean ====
section
/-! DEFINITION. Ports, routing tables, the path hash, launching a message onto the fabric, and fences (R337 to R345, R365,
R366). -/

namespace Sys2Proof.Machine

open Reg

/-! The message on the wire (R366). -/

def nodeWord (n : Node) : Nat := n.pkg % 2 ^ 17 + n.tile % 32 * 2 ^ 17 + (if n.hub then 2 ^ 22 else 0)
def nodeOfWord (w : Nat) : Node := ⟨w % 2 ^ 17, w / 2 ^ 17 % 32, w.testBit 22⟩

def msgBytes (m : Dmsg) : List Byte :=
  leBytes 1 m.op ++ leBytes 1 m.flags ++ leBytes 2 m.data.length ++ leBytes 4 m.key ++ leBytes 8 m.addr ++
  leBytes 4 (nodeWord m.src) ++ leBytes 4 (nodeWord m.dst) ++ leBytes 8 m.stamp ++ leBytes 2 m.txn ++ leBytes 1 m.aop ++
  leBytes 1 m.err ++ leBytes 4 m.rlen ++ leBytes 8 0 ++ m.data

/-- A message read from its bytes, when all of it is there. -/
def msgOfBytes (l : List Byte) : Option Dmsg :=
  let f (off k : Nat) : Nat := leVal ((l.drop off).take k)
  if l.length < 48 ∨ l.length < 48 + f 2 2 then none
  else some ⟨f 0 1, f 1 1, f 4 4, f 8 8, nodeOfWord (f 0x10 4), nodeOfWord (f 0x14 4), f 0x18 8, f 0x20 2, f 0x22 1,
    f 0x23 1, f 0x24 4, (l.drop 48).take (f 2 2)⟩

/-! Packages and entries. -/

/-- This package's number (R359). -/
def Dev.self (d : Dev) : Nat := d.getF FAB_SELF_PACKAGE

/-- Stage number and member number (R339). -/
def stageOf (pkg : Nat) : Nat := pkg / 64 % 2048
def memberOf (pkg : Nat) : Nat := pkg % 64
def Dev.sameStage (d : Dev) (pkg : Nat) : Bool := stageOf pkg == stageOf d.self

/-- The entry that a destination package uses (R341). -/
def Dev.entryOf (d : Dev) (pkg : Nat) : RouteEnt :=
  if d.sameStage pkg then .loc (Fin.ofNat 64 pkg) else .rem (Fin.ofNat 2048 (stageOf pkg))

def entW0 : RouteEnt → Nat
  | .loc m => FAB_LROUTE0 m
  | .rem st => FAB_RROUTE0 st

def entW1 : RouteEnt → Nat
  | .loc m => FAB_LROUTE1 m
  | .rem st => FAB_RROUTE1 st

def Dev.entValid (d : Dev) (e : RouteEnt) : Bool := d.regBit (entW0 e) 31
def Dev.entLost (d : Dev) (e : RouteEnt) : Bool := d.regBit (entW1 e) 31

/-- The destination is lost (R351). -/
def Dev.pkgLost (d : Dev) (pkg : Nat) : Bool := d.entLost (d.entryOf pkg)

/-! Links and ports. -/

def Dev.linkState (d : Dev) (j : Fin 64) : Nat := d.getF (OEC_LINK_STATUS_STATE (j / 8) (j % 8))
def Dev.setLinkState (d : Dev) (j : Fin 64) (v : Nat) : Dev := d.setF (OEC_LINK_STATUS_STATE (j / 8) (j % 8)) v
def Dev.link (d : Dev) (j : Fin 64) : Link := d.fab.links[j]
def Dev.onLink (d : Dev) (j : Fin 64) (f : Link → Link) : Dev :=
  { d with fab := { d.fab with links := d.fab.links.set j (f (d.link j)) } }

/-- The links of a port (R337). -/
def Dev.portHas (d : Dev) (p : Nat) (j : Nat) : Bool := (d.getPair (FAB_PORT_LINKS_LO p) (FAB_PORT_LINKS_HI p)).testBit j
/-- The port that a link belongs to. -/
def Dev.portOf (d : Dev) (j : Nat) : Option Nat := (List.range 16).find? fun p => d.portHas p j
def Dev.portEn (d : Dev) (p : Nat) : Bool := d.flag (FAB_PORT_CFG_EN p)
def Dev.portActive (d : Dev) (p : Nat) : Bool := d.regBit FAB_PORT_ACTIVE p
def Dev.portPeer (d : Dev) (p : Nat) : Bool := d.flag (FAB_PORT_CFG_KIND p)
def Dev.activeLinks (d : Dev) (p : Nat) : List (Fin 64) := (List.finRange 64).filter fun j => d.portHas p j && d.linkState j == 5

/-- The eligible ports of an entry (R342). -/
def Dev.eligible (d : Dev) (e : RouteEnt) : List Nat :=
  (List.range 16).filter fun p => d.regBit (entW0 e) p && d.portActive p && d.portEn p && !d.regBit (entW1 e) p &&
    (!d.portPeer p || decide (d.entryOf (d.getF (FAB_PORT_CFG_PEER p)) = e))

/-! The path hash (R365). -/

def pathKey (src : Node) (dst : Nat) : Nat :=
  src.pkg * 2 ^ 23 + (if src.hub then 2 ^ 22 else 0) + src.tile % 32 * 2 ^ 17 + dst

def pathScore (key x : Nat) : Nat := crc32c (leBytes 8 key ++ leBytes 8 x)

/-- The member of an ascending list with the largest score, the lower on a tie. -/
def bestOf (score : Nat → Nat) : List Nat → Option Nat
  | [] => none
  | a :: t =>
    match bestOf score t with
    | none => some a
    | some b => if score a < score b then some b else some a

/-- The link that the path hash chooses for a source and a destination package. -/
def Dev.pathLink (d : Dev) (src : Node) (dst : Nat) : Option Nat :=
  let k := pathKey src dst
  match bestOf (fun p => pathScore k (0x100 + p)) (d.eligible (d.entryOf dst)) with
  | none => none
  | some p => bestOf (fun j => pathScore k (0x200 + j)) ((d.activeLinks p).map Fin.val)

/-! Launching (R342, R344). -/

/-- The hold time of a fence: LIFETIME + 4 µs (R344, R359). -/
def Dev.lifetimeUs (d : Dev) : Nat := max 4 (d.getF FAB_CTRL_LIFETIME)

/-- The fence of a pair. -/
def Dev.fenceOf (d : Dev) (src : Node) (dst : Nat) : Option Fence := d.fab.fences.find? fun f => f.src == src && f.dst == dst

/-- Remember the link of a pair (R344). -/
def Dev.notePath (d : Dev) (src : Node) (dst link : Nat) : Dev :=
  { d with fab := { d.fab with paths := d.fab.paths.filter (fun p => ¬ (p.src = src ∧ p.dst = dst)) ++ [⟨src, dst, link⟩] } }

/-- The endpoint at which a node stands in this package. -/
def nodeEndpt (n : Node) : EndPt := if n.hub then .hub else .tile (Fin.ofNat 32 n.tile)

/-- The timebase is synchronised (R387). -/
def Dev.synced (d : Dev) : Bool := d.flag DLD_BEACON_PORT_VALID

/-- The launch stamp and the SYNC flag of a message at launch (R344, R366). -/
def Dev.stampMsg (d : Dev) (m : Dmsg) : Dmsg :=
  { m with stamp := d.now, flags := m.flags % 8 + (if d.synced then 8 else 0) }

/-- Send a message toward another package of this stage, or over a remote entry, along its path, or hold it at its fence;
none where the entry is not valid, is lost, or has no eligible port (R342). -/
def Dev.fabLaunch (d : Dev) (vc : Vc) (m : Dmsg) : Option Dev :=
  let e := d.entryOf m.dst.pkg
  if !d.entValid e || d.entLost e then none
  else
    match d.pathLink m.src m.dst.pkg with
    | none => none
    | some j =>
      match d.fenceOf m.src m.dst.pkg with
      | some _ => some { d with fab := { d.fab with fences := d.fab.fences.map fun f =>
          if f.src = m.src ∧ f.dst = m.dst.pkg then { f with held := f.held ++ [(vc, m)] } else f } }
      | none => some ((d.notePath m.src m.dst.pkg j).netSend (nodeEndpt m.src) (.oe (Fin.ofNat 8 (j / 8))) vc (d.stampMsg m) j)

/-- The path hash now selects another link for some pairs: each is fenced (R344). -/
def Dev.fenceUpdate (d : Dev) : Dev :=
  d.fab.paths.foldl (fun d p =>
    match d.pathLink p.src p.dst with
    | none => d
    | some j =>
      if j = p.link then d
      else
        let peer := match d.portOf p.link with
          | some q => if d.portPeer q then some p.link else none
          | none => none
        let t := d.now + (d.lifetimeUs + 4) * 1000
        let d : Dev := d.notePath p.src p.dst j
        let d : Dev := d.satInc FAB_FENCE_COUNT
        match d.fenceOf p.src p.dst with
        | some _ => { d with fab := { d.fab with fences := d.fab.fences.map fun f =>
            if f.src = p.src ∧ f.dst = p.dst then { f with until_ := t, peer := peer } else f } }
        | none => { d with fab := { d.fab with fences := d.fab.fences ++ [⟨p.src, p.dst, t, peer, []⟩] } }) d

/-- A message waits at a link's transmitter (R347). -/
def vcIdx : Vc → Fin 4
  | .req => 0
  | .resp => 1
  | .bulk => 2
  | .mgmt => 3

def Dev.linkPut (d : Dev) (j : Fin 64) (vc : Vc) (m : Dmsg) : Dev :=
  d.onLink j fun l => { l with txq := l.txq.set (vcIdx vc) (l.txq[vcIdx vc] ++ [⟨m.src, m.dst.pkg, m, 0⟩]) }

/-! The state of a port after a change of its links (R337, R350). -/

/-- UNREACH bit `p` is cleared in every entry (R343). -/
def Dev.clearUnreach (d : Dev) (p : Nat) : Dev :=
  let d := (List.finRange 64).foldl (fun d m => d.setBit (FAB_LROUTE1 m) p false) d
  (List.finRange 2048).foldl (fun d m => d.setBit (FAB_RROUTE1 m) p false) d

/-- Every frame of the port's links has been acknowledged, or its link has left ACTIVE. -/
def Dev.portDrained (d : Dev) (p : Nat) : Bool :=
  (d.activeLinks p).all fun j => (d.link j).unacked.isEmpty && (d.link j).txq.toList.all List.isEmpty

/-- The link bits, the port's link count and its state follow its links. -/
def Dev.portRefresh (d : Dev) (p : Nat) : Dev :=
  let n := (d.activeLinks p).length
  let was := d.portActive p
  let d := d.setF (FAB_PORT_STATUS_LINKS p) n
  if !d.portEn p then
    if d.getF (FAB_PORT_STATUS_STATE p) = 3 then d
    else (d.setF (FAB_PORT_STATUS_STATE p) 0).setBit FAB_PORT_ACTIVE p false
  else if max 1 (d.getF (FAB_PORT_CFG_MIN_LINKS p)) ≤ n then
    let d := (d.setF (FAB_PORT_STATUS_STATE p) 2).setBit FAB_PORT_ACTIVE p true
    if was then d else d.clearUnreach p
  else
    let d := (d.setF (FAB_PORT_STATUS_STATE p) 1).setBit FAB_PORT_ACTIVE p false
    if was then d.latch egFab 2 else d

/-- FAB_LINK_ACTIVE follows link `j`. -/
def Dev.linkBit (d : Dev) (j : Fin 64) : Dev :=
  d.setBit (if j.val < 32 then FAB_LINK_ACTIVE_LO else FAB_LINK_ACTIVE_HI) (j.val % 32) (d.linkState j == 5)

/-- Everything that follows a change of link `j`: its bit, its port, the fences. -/
def Dev.linkChanged (d : Dev) (j : Fin 64) : Dev :=
  let d := d.linkBit j
  let d : Dev := match d.portOf j with
    | some p => d.portRefresh p
    | none => d
  d.fenceUpdate

/-! Gateway slots (R385). -/

/-- Gateway slots that a message of `b` bytes occupies (R385). -/
def gwSlots (b : Nat) : Nat := (b + 1071) / 1072

/-- Slots that the responses to a wrapped message will need. -/
def respSlots (m : Dmsg) : Nat :=
  if m.op = 1 then (m.rlen + 1023) / 1024 else if m.op = 2 ∨ m.op = 3 ∨ m.op = 6 then 1 else 0

/-- Slots of a message once wrapped. -/
def wrapSlots (m : Dmsg) : Nat := gwSlots (48 + 48 + m.data.length)

/-- The egress gateway asks for the slots of each waiting message, in order, once the slots for its response are reserved. -/
def Dev.gwAsks (d : Dev) : Dev :=
  d.gw.queue.foldl (fun d i =>
    if i.asked ∨ d.gw.ingress < respSlots i.msg then d
    else
      let d : Dev := { d with gw := { d.gw with
        ingress := d.gw.ingress - respSlots i.msg
        queue := d.gw.queue.map fun j => if j.id = i.id then { j with asked := true } else j } }
      d.emit (.mgmt i.msg.dst.pkg "SLOT_ASK" [wrapSlots i.msg])) d

/-- Slot asks are granted whole, in order, while enough slots are free. -/
def Dev.gwGrants : Nat → Dev → Dev
  | 0, d => d
  | k + 1, d =>
    match d.gw.asks with
    | a :: t =>
      if a.slots ≤ d.gw.ingress then
        let d : Dev := { d with gw := { d.gw with asks := t, ingress := d.gw.ingress - a.slots } }
        (d.emit (.mgmt a.pkg "SLOT_GRANT" [a.slots])).gwGrants k
      else d
    | [] => d

/-- Slots come free. -/
def Dev.gwFree (d : Dev) (k : Nat) : Dev :=
  let d : Dev := { d with gw := { d.gw with ingress := min 4096 (d.gw.ingress + k) } }
  (d.gwGrants d.gw.asks.length).gwAsks

/-! Messages that cannot be sent (R342). -/

/-- The ERROR UNREACHABLE that answers a message. -/
def unreachMsg (m : Dmsg) : Dmsg := ⟨0x0B, 0, 0, m.addr, m.dst, m.src, 0, m.txn, 0, 6, 0, []⟩

/-- A request, a token or a message of the expert router: what an ERROR can answer. -/
def answerable (m : Dmsg) : Bool := decide (1 ≤ m.op) && decide (m.op ≤ 6)

/-- A wrapped message cannot leave: the egress gateway answers it and keeps the slots of its response no longer. -/
def Dev.gwBack (d : Dev) (m : Dmsg) : Dev :=
  let r := unreachMsg m
  (if !answerable m then d
    else if m.src.hub then d.emit (.arrive .hub r) else d.netSend .hub (nodeEndpt m.src) .resp r 0).gwFree (respSlots m)

/-- A message that cannot be sent is counted and answered at its source. -/
def Dev.answerUnreach (d : Dev) (m : Dmsg) : Dev :=
  let d := d.satInc FAB_UNREACH_COUNT
  if answerable m then d.emit (.arrive (nodeEndpt m.src) (unreachMsg m))
  else if m.op = 0x0C then
    match msgOfBytes m.data with
    | some i => d.gwBack i
    | none => d
  else d

/-- A message that no link has begun goes to the link that its pair now uses, or to the pair's fence (R350); with no eligible
port it is answered under R342. -/
def Dev.requeue (d : Dev) (vc : Vc) (m : Dmsg) : Dev :=
  match d.fenceOf m.src m.dst.pkg with
  | some _ => { d with fab := { d.fab with fences := d.fab.fences.map fun f =>
      if f.src = m.src ∧ f.dst = m.dst.pkg then { f with held := f.held ++ [(vc, m)] } else f } }
  | none =>
    match d.pathLink m.src m.dst.pkg with
    | some j => d.linkPut (Fin.ofNat 64 j) vc m
    | none => d.answerUnreach m

/-- The messages of a link that no frame has begun, in the order of their VCs. -/
def unbegun (l : Link) : List (Vc × Dmsg) :=
  [Vc.req, Vc.resp, Vc.bulk, Vc.mgmt].flatMap fun vc => (l.txq[vcIdx vc].filter fun t => t.sent = 0).map fun t => (vc, t.msg)

/-- What a link keeps as it leaves ACTIVE: in READY its numbering and credits, elsewhere only what a test needs. -/
def linkAfter (l : Link) (st : Nat) : Link :=
  if st = 4 then { l with txq := Vector.replicate 4 [], unacked := [], resend := [] }
  else { Link.reset with test := l.test, afterFar := l.afterFar }

/-- A link enters state `st` with cause `cause` (R349, R350): when it leaves ACTIVE its unacknowledged frames are lost, the
departure is recorded, and messages not begun go by another link. -/
def Dev.linkLeave (d : Dev) (j : Fin 64) (st cause : Nat) : Dev :=
  let l := d.link j
  let k := j.val / 8
  let i := j.val % 8
  if d.linkState j = 5 then
    let d : Dev := d.onLink j fun l => linkAfter l st
    let d : Dev := ((d.setLinkState j st).setF (OEC_LINK_STATUS_CAUSE k i) cause).satInc (OEC_LINK_DOWN_COUNT k i)
    let d : Dev := ((d.latch (egOec k) 0).latch egFab 1).linkChanged j
    (unbegun l).foldl (fun d m => d.requeue m.1 m.2) d
  else
    let d : Dev := d.setLinkState j st
    if cause = 0 then d else (d.onLink j fun l => linkAfter l st).setF (OEC_LINK_STATUS_CAUSE k i) cause

end Sys2Proof.Machine
end

