-- ==== Sys2Proof/Machine/Source.lean ====
section
/-! DEFINITION. Sources of Delud operations: transactions, credits, local errors, responses and the timebase's beacons
(R361 to R373, R381, R382, R387). -/

namespace Sys2Proof.Machine

open Reg

/-- A source: tile `n`, or the hub. -/
def Dev.source (d : Dev) : Option (Fin 32) → Source
  | some n => (d.tile n).delud.src
  | none => d.gw.src

def Dev.onSource (d : Dev) (h : Option (Fin 32)) (f : Source → Source) : Dev :=
  match h with
  | some n => d.onTile n fun t => { t with delud := { t.delud with src := f t.delud.src } }
  | none => { d with gw := { d.gw with src := f d.gw.src } }

/-- The node of a source. -/
def Dev.nodeOf (d : Dev) : Option (Fin 32) → Node
  | some n => ⟨d.self, n, false⟩
  | none => ⟨d.self, 0, true⟩

def Dev.onDelud (d : Dev) (n : Fin 32) (f : Delud → Delud) : Dev := d.onTile n fun t => { t with delud := f t.delud }
def Dev.delud (d : Dev) (n : Fin 32) : Delud := (d.tile n).delud

/-- The tile number of a source, where it is one; performance events of the hub's own operations have no code. -/
def Dev.countSrc (d : Dev) (h : Option (Fin 32)) (ev : Nat) : Dev :=
  match h with
  | some n => d.count (.tile n) ev 1
  | none => d

/-! Global addresses (R361, R363). -/

def gaddr (pkg tile off : Nat) : Nat := pkg % 2 ^ 17 * 2 ^ 40 + tile % 32 * 2 ^ 35 + off % 2 ^ 35
def gaPkg (a : Nat) : Nat := a / 2 ^ 40 % 2 ^ 17
def gaTile (a : Nat) : Nat := a / 2 ^ 35 % 32
def gaOff (a : Nat) : Nat := a % 2 ^ 35
def gaUnit (a : Nat) : Nat := gaOff a / 2 ^ 21
/-- The node that a global address names. -/
def gaNode (a : Nat) : Node := ⟨gaPkg a, gaTile a, false⟩

/-- The message goes to another stage (R362). -/
def Dev.crosses (d : Dev) (m : Dmsg) : Bool := m.dst.pkg != d.self && !d.sameStage m.dst.pkg

/-! Sending. -/

/-- A stage-crossing message at the egress gateway (R384): it waits to be wrapped. -/
def Dev.gwPut (d : Dev) (origin : Nat) (vc : Vc) (m : Dmsg) : Dev :=
  { d with gw := { d.gw with queue := d.gw.queue ++ [⟨d.gw.nextId, origin, m, vc, false⟩], nextId := d.gw.nextId + 1 } }

/-- A message leaves its source (R362): none where it is unreachable (R342). MGMT and GATEWAY messages cross stages hub to hub (R384). -/
def Dev.sendOut (d : Dev) (vc : Vc) (m : Dmsg) : Option Dev :=
  let m := d.stampMsg m
  if m.dst.pkg = d.self then
    if nodeEndpt m.src = nodeEndpt m.dst then some (d.emit (.arrive (nodeEndpt m.dst) m))
    else some (d.netSend (nodeEndpt m.src) (nodeEndpt m.dst) vc m 0)
  else if d.crosses m ∧ m.op ≠ 7 ∧ m.op ≠ 0x0C then
    if m.src.hub then some (d.gwPut 32 vc m) else some (d.netSend (nodeEndpt m.src) .hub vc m 0)
  else d.fabLaunch vc m

/-- Send a message that asks for nothing back. -/
def Dev.sendMsg (d : Dev) (vc : Vc) (m : Dmsg) : Dev :=
  match d.sendOut vc m with
  | some e => e
  | none => d.satInc FAB_UNREACH_COUNT

/-- The egress gateway's answer to a wrapped message (R384): the response `m` of the inner operation goes back wrapped. -/
def Dev.gwAnswer (d : Dev) (outer inner m : Dmsg) : Dev :=
  let r := { m with dst := inner.src, txn := inner.txn }
  d.sendMsg .bulk ⟨0x0C, 1, 0, 0, d.nodeOf none, outer.src, 0, 0, 0, 0, 0, msgBytes r⟩

/-- An operation ends in an error (R381, R382). An ingress gateway's own UNREACHABLE goes back to the requester (R384). -/
def Dev.opError (d : Dev) (h : Option (Fin 32)) (owner : Owner) (code : Nat) (home : Node) : Dev :=
  let d : Dev := ((d.latch egDld 2).satInc DLD_ERR_RESP_COUNT).countSrc h 0x16
  let d : Dev := if code = 2 then d.latch egDld 0 else d
  let d : Dev := match h, owner with
    | some n, .helper => d.latch (egXpt n) 4
    | _, _ => d
  match owner with
  | .gateway outer inner =>
    if code = 6 then d.gwAnswer outer inner ⟨0x0B, 0, 0, inner.addr, home, inner.src, 0, 0, 0, 6, 0, []⟩ else d
  | _ => d.onSource h fun x => { x with errs := x.errs ++ [⟨owner, code, home⟩] }

/-- The lowest number that no entry of a list holds. -/
def freeNum (used : List Nat) : Nat := ((List.range (used.length + 1)).find? fun k => !used.contains k).getD 0

/-- Numbers in use or in quarantine (R368, R369). -/
def usedNums (x : Source) : List Nat := x.txns.map Txn.num ++ x.quarantine.map Prod.fst

/-- An operation may start now: a number is free, at most 8 request-VC transactions stand toward its home tile, and the
egress slots that it needs are free (R368, R385). -/
def Dev.mayStart (d : Dev) (h : Option (Fin 32)) (i : SendItem) : Bool :=
  let x := d.source h
  decide ((usedNums x).length < 4096) &&
    (i.vc != .req || decide ((x.txns.filter fun t => t.vc == .req && t.msg.dst == i.msg.dst).length < 8)) &&
    (!d.crosses i.msg || decide (gwSlots (48 + i.msg.data.length) ≤
      d.gw.egress[match h with
        | some n => Fin.ofNat 33 n.val
        | none => 32]))

/-- Bytes of load data that an operation asks for. -/
def loadBytes (m : Dmsg) : Nat := if m.op = 1 then m.rlen else 0

/-- An operation starts: it takes the lowest free number and is sent, or ends UNREACHABLE. -/
def Dev.startOp (d : Dev) (h : Option (Fin 32)) (i : SendItem) : Dev :=
  let num := freeNum (usedNums (d.source h))
  let m := { i.msg with txn := num, src := d.nodeOf h }
  let d : Dev := if d.crosses m then
      let k : Fin 33 := match h with
        | some n => Fin.ofNat 33 n.val
        | none => 32
      { d with gw := { d.gw with egress := d.gw.egress.set k (d.gw.egress[k] - gwSlots (48 + m.data.length)) } }
    else d
  match d.sendOut i.vc m with
  | some e =>
    (e.countSrc h 0x15).onSource h fun x =>
      { x with txns := x.txns ++ [⟨num, i.id, i.owner, i.use, i.vc, m, e.now, loadBytes m⟩] }
  | none => (d.satInc FAB_UNREACH_COUNT).opError h i.owner 6 i.msg.dst

/-- Waiting operations start in order; one that cannot start holds back the later ones to its destination on its VC. -/
def Dev.pumpItems (d : Dev) (h : Option (Fin 32)) : List SendItem → List (Node × Vc) → Dev
  | [], _ => d
  | i :: t, blocked =>
    if blocked.contains (i.msg.dst, i.vc) || !d.mayStart h i then
      (d.onSource h fun x => { x with queue := x.queue ++ [i] }).pumpItems h t (blocked ++ [(i.msg.dst, i.vc)])
    else (d.startOp h i).pumpItems h t blocked

/-- Start what can start. -/
def Dev.pump (d : Dev) (h : Option (Fin 32)) : Dev :=
  let q := (d.source h).queue
  (d.onSource h fun x => { x with queue := [] }).pumpItems h q []

/-- An operation is given to its source: it ends at once where the source refuses it (R381, R384), and waits or starts
otherwise. -/
def Dev.sendOp (d : Dev) (h : Option (Fin 32)) (owner : Owner) (use : TxUse) (vc : Vc) (m : Dmsg) : Dev :=
  if d.crosses m ∧ m.op = 4 then (d.satInc DLD_GW_REFUSE_COUNT).opError h owner 7 m.dst
  else if d.crosses m ∧ ¬ d.flag DLD_CTRL_GW_EN then d.opError h owner 9 m.dst
  else
    (d.onSource h fun x =>
      { x with queue := x.queue ++ [⟨x.nextId, owner, use, vc, m⟩], nextId := x.nextId + 1 }).pump h

/-- A request message with no data yet. -/
def reqMsg (op key addr : Nat) : Dmsg := ⟨op, 0, key, addr, ⟨0, 0, false⟩, gaNode addr, 0, 0, 0, 0, 0, []⟩

/-! Quiet (R140, R144). -/

/-- Waiting and outstanding operations of an owner. -/
def Dev.busyOps (d : Dev) (n : Fin 32) (o : Owner) : Bool :=
  let x := (d.delud n).src
  (x.queue.any fun i => i.owner == o) || (x.txns.any fun t => t.owner == o)

/-- Landings of an owner that wait at the elastic port or in the home queue. -/
def Dev.busyLandings (d : Dev) (n : Fin 32) (o : Owner) : Bool :=
  ((d.tile n).elastic.any fun e => e.owner == o) ||
    ((d.delud n).hq.any fun a => match a.use with
      | .land w _ => w == o
      | .read w => w == o
      | _ => false)

def Dev.moverQuiet (d : Dev) (n : Fin 32) : Bool := !d.busyOps n .mover && !d.busyLandings n .mover
def Dev.helperQuiet (d : Dev) (n : Fin 32) : Bool := !d.busyOps n .helper && !d.busyLandings n .helper

/-- The mover's global writes and atomics that are not yet acknowledged (R140). -/
def Dev.moverWrites (d : Dev) (n : Fin 32) : List Nat :=
  let x := (d.delud n).src
  let w (u : TxUse) : Bool := match u with
    | .write => true
    | .atomic _ _ => true
    | _ => false
  ((x.queue.filter fun i => i.owner == .mover && w i.use).map SendItem.id) ++
    ((x.txns.filter fun t => t.owner == .mover && w t.use).map Txn.id)

/-! Landing. -/

/-- Bytes for tile store enter the elastic port's queue, one access for each 128-byte line that they touch (R85, R134). -/
def Dev.elasticPut (d : Dev) (n : Fin 32) (o : Owner) (a : Nat) (l : List Byte) : Dev :=
  let first := min (128 - a % 128) l.length
  let rest := l.drop first
  let more := (List.range ((rest.length + 127) / 128)).map fun k => Elastic.mk (a + first + 128 * k) ((rest.drop (128 * k)).take 128) o
  d.onTile n fun t => { t with elastic := t.elastic ++ (if l.isEmpty then [] else [⟨a, l.take first, o⟩]) ++ more }

/-- ELASTIC_ACCESS (R134): the oldest access of a bank's queue takes its bank. -/
def execElasticAccess (n : Fin 32) (bank : Fin 32) (s : State) : Host.Outcome State Fault Refusal :=
  onRun (fun d =>
    let l := (d.tile n).elastic
    match l.findIdx? fun e => e.addr / 128 % 32 == bank.val with
    | none => d
    | some i =>
      match l[i]? with
      | none => d
      | some e =>
        (d.onTile n fun t => { t with elastic := t.elastic.eraseIdx i, store := memPutBytes t.store e.addr e.data }).count
          (.tile n) 0x13 1) s

/-- Lines for own DRAM enter the home queue. -/
def Dev.homeLand (d : Dev) (n : Fin 32) (o : Owner) (a : Nat) (l : List Byte) : Dev :=
  d.onDelud n fun x => { x with hq := x.hq ++
    (List.range ((l.length + 63) / 64)).map fun k => ⟨a / 64 + k, .land o ((l.drop (64 * k)).take 64)⟩ }

/-! Responses at the source. -/

/-- The transaction of a response, if it is outstanding. -/
def Dev.txnOf (d : Dev) (h : Option (Fin 32)) (num : Nat) : Option Txn := (d.source h).txns.find? fun t => t.num == num

/-- Operations that wait or are outstanding, by id. -/
def Source.live (x : Source) : List Nat := x.queue.map SendItem.id ++ x.txns.map Txn.id

/-- A COALESCED message is acknowledged once every copy of it has been (R274). -/
def Dev.holdsCheck (d : Dev) (h : Option (Fin 32)) : Dev :=
  let live := (d.source h).live
  let free (x : Dmsg × List Nat) : Bool := x.2.all fun i => !live.contains i
  let go := (d.source h).holds.filter free
  let d : Dev := d.onSource h fun x => { x with holds := x.holds.filter fun y => !free y }
  go.foldl (fun d x => d.sendMsg .resp
    ⟨if x.1.err = 0 then 0x09 else 0x0B, 0, 0, x.1.addr, d.nodeOf h, x.1.src, 0, x.1.txn, 0, x.1.err, 0, []⟩) d

/-- A transaction completes: its number is free and waiting operations may start. -/
def Dev.txnEnd (d : Dev) (h : Option (Fin 32)) (num : Nat) : Dev :=
  ((d.onSource h fun x => { x with txns := x.txns.filter fun t => t.num != num }).pump h).holdsCheck h

/-- Data of an operation arrives (R367): it lands, joins a job's buffer, or goes back through the gateway. -/
def Dev.landData (d : Dev) (h : Option (Fin 32)) (t : Txn) (m : Dmsg) : Dev :=
  match t.owner with
  | .gateway outer inner => d.gwAnswer outer inner m
  | _ =>
    match h, t.use with
    | some n, .toStore g a => d.elasticPut n t.owner (a + (m.addr - g)) m.data
    | some n, .toDram g a => d.homeLand n t.owner (a + (m.addr - g)) m.data
    | some n, .toBuf g => d.onTile n fun x => { x with bufs := x.bufs ++ [(t.owner, m.addr - g, m.data)] }
    | none, .toBuf g => { d with hubBufs := d.hubBufs ++ [(t.owner, m.addr - g, m.data)] }
    | some n, .atomic a size => d.elasticPut n t.owner a (m.data.take size)
    | _, _ => d

/-- A late response (R369). -/
def Dev.lateResp (d : Dev) : Dev := d.satInc DLD_LATE_RESP_COUNT

/-- LOAD_DATA (R367, R371): the piece with LAST, or the last byte, completes the load. -/
def execLoadData (h : Option (Fin 32)) (m : Dmsg) (s : State) : Host.Outcome State Fault Refusal :=
  onRun (fun d =>
    match d.txnOf h m.txn with
    | none => d.lateResp
    | some t =>
      let d := d.landData h t m
      if m.flags.testBit 1 ∨ t.left ≤ m.data.length then d.txnEnd h t.num
      else d.onSource h fun x => { x with txns := x.txns.map fun u =>
        if u.num = t.num then { u with left := u.left - m.data.length } else u }) s

/-- ACK (R372). -/
def execAck (h : Option (Fin 32)) (m : Dmsg) (s : State) : Host.Outcome State Fault Refusal :=
  onRun (fun d =>
    match d.txnOf h m.txn with
    | none => d.lateResp
    | some t =>
      let d : Dev := match t.owner with
        | .gateway outer inner => d.gwAnswer outer inner m
        | _ => d
      d.txnEnd h t.num) s

/-- ATOMIC_RESULT (R121, R372): the old value lands over the operand. -/
def execAtomicResult (h : Option (Fin 32)) (m : Dmsg) (s : State) : Host.Outcome State Fault Refusal :=
  onRun (fun d =>
    match d.txnOf h m.txn with
    | none => d.lateResp
    | some t => (d.landData h t m).txnEnd h t.num) s

/-- An ERROR that answers a TOKEN of a tile (R140, R156): its TXN is the tile's pass sequence and its ADDR 0. -/
def Dev.tokenErr (d : Dev) (n : Fin 32) (m : Dmsg) : Dev := (d.opError (some n) .mover m.err m.src).latch (egTctl n) 4
def Dev.answersToken (d : Dev) (n : Fin 32) (m : Dmsg) : Bool := m.addr == 0 && m.txn == d.getF (TCTL_PASS_STATUS_PASS_SEQ n)

/-- ERROR (R381, R382). -/
def execError (h : Option (Fin 32)) (m : Dmsg) (s : State) : Host.Outcome State Fault Refusal :=
  onRun (fun d =>
    match d.txnOf h m.txn with
    | none => match h with
      | some n => if d.answersToken n m then d.tokenErr n m else d.lateResp
      | none => d.lateResp
    | some t =>
      let d : Dev := match t.owner with
        | .gateway outer inner => d.gwAnswer outer inner m
        | _ => d.opError h t.owner m.err t.msg.dst
      d.txnEnd h t.num) s

/-- TXN_TIMEOUT in ns (R369, R388). -/
def Dev.txnTimeout (d : Dev) : Nat := max 100 (d.getF DLD_CTRL_TXN_TIMEOUT) * 1000

/-- TXN_TIMEOUT (R369): the transaction completes with TIMEOUT and its number is held back as long again. -/
def execTxnTimeout (h : Option (Fin 32)) (num : Nat) (now : Nat) (s : State) : Host.Outcome State Fault Refusal :=
  onRun (fun d =>
    let d := d.at_ now
    match d.txnOf h num with
    | none => d
    | some t =>
      if t.sent + d.txnTimeout ≤ d.now then
        let d : Dev := d.onSource h fun x => { x with quarantine := x.quarantine ++ [(num, d.now + d.txnTimeout)] }
        (d.opError h t.owner 8 t.msg.dst).txnEnd h num
      else d) s

/-- TXN_QUARANTINE_END (R369). -/
def execTxnQuarantineEnd (h : Option (Fin 32)) (num : Nat) (now : Nat) (s : State) : Host.Outcome State Fault Refusal :=
  onRun (fun d =>
    let d := d.at_ now
    (d.onSource h fun x => { x with quarantine := x.quarantine.filter fun q => ¬ (q.1 = num ∧ q.2 ≤ d.now) }).pump h) s

/-- Every transaction toward a lost destination completes at once with UNREACHABLE (R383). -/
def Dev.txnsLost (d : Dev) (h : Option (Fin 32)) (lost : Nat → Bool) : Dev :=
  ((d.source h).txns.filter fun t => lost t.msg.dst.pkg).foldl (fun d t => (d.opError h t.owner 6 t.msg.dst).txnEnd h t.num) d

/-- MGMT (R348): the hub sinks a management message without waiting; what it asks is a command of its own. -/
def execMgmt (m : Dmsg) (s : State) : Host.Outcome State Fault Refusal :=
  onRun (fun d => if m.op = 7 then d.count .hub 0x11 1 else d) s

/-- The defined operation codes (R367). -/
def opDefined (op : Nat) : Bool := decide (1 ≤ op) && decide (op ≤ 0x0C)

/-- UNKNOWN_DELUD_OP (R367). -/
def execUnknownDeludOp (m : Dmsg) (s : State) : Host.Outcome State Fault Refusal :=
  onRun (fun d => if opDefined m.op then d else d.satInc DLD_ERR_RESP_COUNT) s

/-! The timebase (R387). -/

/-- The lowest-numbered ACTIVE UP port that has delivered a beacon within the last 1 ms. -/
def Dev.beaconPort (d : Dev) : Option (Fin 16) :=
  (List.finRange 16).find? fun p => d.portActive p && !d.portPeer p &&
    match d.gw.beacons[p] with
    | some t => decide (d.now ≤ t + 1000000)
    | none => false

/-- DLD_BEACON_PORT follows it. -/
def Dev.followBeacon (d : Dev) : Dev :=
  match d.beaconPort with
  | some p => (d.setF DLD_BEACON_PORT_VALID 1).setF DLD_BEACON_PORT_PORT p
  | none => d.setF DLD_BEACON_PORT_VALID 0

/-- TIME_BEACON (R387): the offset is measured; a step forward changes global time at once. How fast the timebase then runs
shows in the global times that later commands carry. -/
def execTimeBeacon (port : Fin 16) (time delay : Nat) (now : Nat) (s : State) : Host.Outcome State Fault Refusal :=
  onRun (fun d =>
    let d := d.at_ now
    if ¬ d.flag DLD_CTRL_BEACON_EN then d
    else
      let d : Dev := { d with gw := { d.gw with beacons := d.gw.beacons.set port (some d.now) } }
      let d := d.followBeacon
      if d.beaconPort = some port then
        let off : Int := (time : Int) + delay - d.now
        let d := d.setN DLD_TIME_OFFSET (off % 2 ^ 32).toNat
        if 1000 < off then { d with now := d.now + off.toNat }.latch egDld 3
        else if off < -1000 then d.latch egDld 3
        else d
      else d) s

/-- BEACON_TIMEOUT (R387). -/
def execBeaconTimeout (now : Nat) (s : State) : Host.Outcome State Fault Refusal :=
  onRun (fun d => (d.at_ now).followBeacon) s

end Sys2Proof.Machine
end

