-- ==== Sys2Proof/Machine/Trust.lean ====
section
/-! DEFINITION. Boot as far as the verified image, the root of trust's answers, and the privileged grant (Host Interface,
Configuration Boot and Root of Trust, R429 to R439). -/

namespace Sys2Proof.Machine

open Reg

/-! Boot (R429 to R432). -/

/-- The slot that booted, when one has. -/
def Dev.bootedSlot (d : Dev) : Option (Fin 2) :=
  if d.flag SEC_SLOTA_BOOTED then some 0 else if d.flag SEC_SLOTB_BOOTED then some 1 else none

/-- The slot whose record area and site block are in effect: the booted slot. -/
def Dev.slotInUse (d : Dev) : Fin 2 := (d.bootedSlot).getD 0

/-- SEC_SLOTA or SEC_SLOTB. -/
def secSlot (k : Fin 2) : Nat := if k = 0 then SEC_SLOTA else SEC_SLOTB

/-- Record the outcome of a slot's checks (R429, R444). -/
def Dev.setSlotOutcome (d : Dev) (k : Fin 2) (bootable : Bool) (reason svn : Nat) : Dev :=
  ((d.setF ⟨secSlot k, 31, 31⟩ (if bootable then 1 else 0)).setF ⟨secSlot k, 27, 24⟩ reason).setF ⟨secSlot k, 12, 0⟩ svn

/-- Boot cannot finish: ERROR is set, STAGE 15, the tiles stay unpowered, Configuration Requests complete (R432). -/
def Dev.bootError (d : Dev) (e : Nat) : Dev :=
  { (d.setF HUB_BOOT_STATUS_ERROR e).setF HUB_BOOT_STATUS_STAGE 15 with
    boot := { d.boot with running := false, trying := none, second := none } }

/-- Recovery mode (R432): neither slot is bootable. -/
def Dev.recovery (d : Dev) : Bool := d.getF HUB_BOOT_STATUS_ERROR == 3

/-- SEC_FLOOR shows the write-once region (R444). -/
def Dev.loadFloor (d : Dev) (f : Flash) : Dev :=
  (d.setF SEC_FLOOR_FLOOR f.floor).setF SEC_FLOOR_REVOKED
    (((List.range 4).map fun k => if f.revoked k then 2 ^ k else 0).sum)

/-- Slot A goes first unless slot B has the greater SVN, or the same SVN and the greater IMAGE_VERSION; a slot whose
header format is bad gives no SVN and goes second (R429, notes/assumptions/14.md). -/
def bFirst (f : Flash) : Bool :=
  let ra := f.headerReason 0
  let rb := f.headerReason 1
  if rb = 1 then false else if ra = 1 then true
  else decide (f.svn 0 < f.svn 1) || (f.svn 0 == f.svn 1 && decide (f.imageVersion 0 < f.imageVersion 1))

/-- A slot tried first has failed: FALLBACK, and the entry that the hub writes at BOOT_DONE (R429, R490). -/
def Dev.noteFallback (d : Dev) (k : Fin 2) : Dev :=
  { d with boot := { d.boot with fellBack := true, notes := d.boot.notes ++ [⟨0x000D, 0, d.getN (secSlot k), 0⟩] } }

/-- Events 1 to 4 of R431: the ROM starts, the identity is derived, the device block is verified, both headers are read
and a slot is chosen. `flashOk`: the flash answers and its SFDP table meets R422; `pufOk`: the secret was
reconstructed. -/
def bootStart (now : Nat) (flashOk pufOk : Bool) (f : Flash) (d : Dev) : Dev :=
  let d : Dev := d.at_ now
  let d : Dev := { d with boot := { Boot.reset with running := true, startAt := now, bscan := d.jtag.bscanPin } }
  if d.boot.bscan then d
  else if ¬ flashOk then d.bootError 4
  else if ¬ pufOk ∨ Config.identityPub (f.read 0x10090 2048) ≠ f.devidPub then d.bootError 1
  else
    let d : Dev := { d with trust := { d.trust with identity := true } }
    if ¬ f.deviceBlockOk then d.bootError 2
    else
      let d : Dev := (d.setPair HUB_UID_LO HUB_UID_HI f.uid).setF HUB_BOOT_STATUS_STAGE 1
      let d : Dev := d.loadFloor f
      let d : Dev := (d.setSlotOutcome 0 false (f.headerReason 0) (f.svn 0)).setSlotOutcome 1 false (f.headerReason 1)
        (f.svn 1)
      let k1 : Fin 2 := if bFirst f then 1 else 0
      let k2 := otherSlot k1
      let good (k : Fin 2) : Bool := f.headerReason k == 6
      let d : Dev := d.setF HUB_BOOT_STATUS_STAGE 2
      if good k1 then
        { d with boot := { d.boot with trying := some k1, second := if good k2 then some k2 else none } }
      else if good k2 then
        let d : Dev := d.noteFallback k1
        { d with boot := { d.boot with trying := some k2 } }
      else (d.noteFallback k1).bootError 3

/-- BUS_IN_REGULATION (R393 events 4 and 5): the hub rails come up, the PLLs lock when SYSCLK is present (R507), and boot
starts, or waits for the rising edge of PERST# while that is low (R477, notes/assumptions/51.md); HUB_RESET_STATUS.LAST names a
power-up or a restart after a stop (R488), which sets PWR_EVENT.STOP_SEEN (R414). Global time starts at 0 (R478). -/
def execBusInRegulation (sysclk flashOk pufOk : Bool) (s : State) : Host.Outcome State Fault Refusal :=
  onDevF (fun f d =>
    if d.pw.phase = .softStart ∧ sysclk then
      let d : Dev := { d with pw := { d.pw with phase := .main, accAt := 0 }, now := 0 }
      let d : Dev := d.setF HUB_RESET_STATUS_LAST (if d.pw.restart then 1 else 0)
      let d : Dev := if d.pw.restart then d.latch egPwr 5 else d
      if d.rst.perstLow then { d with rst := { d.rst with warm := some true } } else bootStart 0 flashOk pufOk f d
    else d) s

/-- The site block loads FAB_SELF, FAB_CTRL.SLICE and DLD_POOL_KEY, and the device block PWR_PFIX (R426). -/
def Dev.loadSite (d : Dev) (f : Flash) (k : Fin 2) : Dev :=
  let ok := f.siteOk k
  let v (o n : Nat) : Nat := if ok then f.site k o n else 0
  ((((d.setF FAB_SELF_PACKAGE (v 4 4)).setF FAB_CTRL_SLICE (v 8 2)).setN DLD_POOL_KEY (v 0xC 4)).setF PWR_PFIX_PFIX_W
    f.pfix).setF HUB_BOOT_STATUS_SITE_BAD (if ok then 0 else 1)

/-- SIGNED_PART_VERIFY (R430, R431 events 5 to 7): the signature of the slot's signed part is checked, the other slot is
tried on a failure, and the trims, the site block and the identity of the booted slot take effect. -/
def execSignedPartVerify (now : Nat) (s : State) : Host.Outcome State Fault Refusal :=
  onDevF (fun f d =>
    match d.boot.running, d.boot.trying with
    | true, some k =>
      let d : Dev := d.at_ now
      if f.signatureOk k then
        let d : Dev := (d.setSlotOutcome k true 0 (f.svn k)).setF ⟨secSlot k, 30, 30⟩ 1
        let d : Dev := ((d.setF HUB_BOOT_STATUS_SLOT k).setF HUB_BOOT_STATUS_FALLBACK
          (if d.boot.fellBack then 1 else 0)).setF HUB_BOOT_STATUS_SVN (f.svn k)
        let d : Dev := (d.setPair HUB_FW_VER_LO HUB_FW_VER_HI (f.imageVersion k)).loadSite f k
        let d : Dev := d.setF HUB_BOOT_STATUS_STAGE 3
        { d with boot := { d.boot with trying := none, second := none } }
      else
        let d : Dev := d.setSlotOutcome k false 5 (f.svn k)
        match d.boot.second with
        | some k2 =>
          let d : Dev := d.noteFallback k
          { d with boot := { d.boot with trying := some k2, second := none } }
        | none => (if d.boot.fellBack then d else d.noteFallback k).bootError 3
    | _, _ => d) s

/-- Whether boot has finished (STAGE 4). -/
def Dev.bootDone (d : Dev) : Bool := d.getF HUB_BOOT_STATUS_STAGE == 4

/-- CONFIG_REQUEST (R431, R432): Request Retry Status until BOOT_DONE or a boot error, normal after it. A write of the
MSI-X Enable and Function Mask bits opens a masking window (R462). -/
def execConfigRequest (msixWrite : Option (Bool × Bool)) (s : State) : Host.Outcome State Fault Refusal :=
  onDev (fun d =>
    if ¬ d.bootDone ∧ d.getF HUB_BOOT_STATUS_ERROR = 0 then d.emit .configRetry
    else
      let d : Dev := { d with rst := { d.rst with hostDown := false } }
      match msixWrite with
      | none => d.emit .configDone
      | some (en, fm) =>
        { d with msix := ⟨en, fm⟩, msixOld := some (d.msixOld.getD d.msix) }.emit .configDone) s

/-! Sessions and the grant (R437, R439). -/

/-- The privileged grant ends (R439). -/
def Dev.endGrant (d : Dev) : Dev :=
  match d.trust.holder with
  | none => d
  | some h =>
    let d : Dev := { d with trust := { d.trust with
      holder := none, sessions := d.trust.sessions.filter fun q => q.id ≠ h } }
    (d.setF SEC_GRANT_HELD 0).latch egSec 1

/-- A session ends, and with it any grant it holds (R439). -/
def Dev.endSession (d : Dev) (sid : Nat) : Dev :=
  let d : Dev := if d.trust.holder = some sid then d.endGrant else d
  { d with trust := { d.trust with sessions := d.trust.sessions.filter fun q => q.id ≠ sid } }

/-- Change the session with a number. -/
def Dev.modSession (d : Dev) (sid : Nat) (g : Session → Session) : Dev :=
  { d with trust := { d.trust with sessions := d.trust.sessions.map fun q => if q.id = sid then g q else q } }

/-- The session with a number. -/
def Dev.session (d : Dev) (sid : Nat) : Option Session := d.trust.sessions.find? fun q => q.id == sid

/-- The root of trust answers a request while its identity exists (R432); otherwise it answers with an error. -/
def Dev.answer (d : Dev) (name : String) (items : List String) (data : List Byte) : Dev :=
  if d.trust.identity then d.emit (.spdm name items data) else d.emit (.spdm "ERROR" [] [])

def Dev.spdmError (d : Dev) (why : String) : Dev := d.emit (.spdm "ERROR" [why] [])

/-- The certificate chain of slot 0: the Kyozen certificates, DEVID_CERT and the alias certificate (R436). -/
def certChain (f : Flash) (d : Dev) : List Byte :=
  let k := d.slotInUse
  Config.kyozenCerts ++ f.read 0x1CBE4 (f.le 0x1CBE0 4) ++
    (if d.trust.alias_ then Config.aliasCert (f.read (slotBase k) (f.signedLen k)) else [])

/-- DOE_DISCOVERY (R437). -/
def execDoeDiscovery (s : State) : Host.Outcome State Fault Refusal :=
  onDev (fun d => d.emit (.spdm "DOE_DISCOVERY" ["DOE Discovery", "CMA/SPDM", "Secured CMA/SPDM"] [])) s

/-- GET_VERSION (R437): versions 1.2 and 1.3. -/
def execGetVersion (s : State) : Host.Outcome State Fault Refusal :=
  onDev (fun d => d.answer "VERSION" ["1.2", "1.3"] []) s

/-- GET_CAPABILITIES (R437). -/
def execGetCapabilities (s : State) : Host.Outcome State Fault Refusal :=
  onDev (fun d => d.answer "CAPABILITIES"
    ["CERT", "CHAL", "MEAS with signature", "KEY_EX", "MUT_AUTH", "ENCRYPT", "MAC", "HBEAT", "CHUNK"] []) s

/-- NEGOTIATE_ALGORITHMS (R437). -/
def execNegotiateAlgorithms (s : State) : Host.Outcome State Fault Refusal :=
  onDev (fun d => d.answer "ALGORITHMS"
    ["TPM_ALG_ECDSA_ECC_NIST_P521", "TPM_ALG_SHA_512", "SECP_521_R1", "AES-256-GCM", "SPDM key schedule"] []) s

/-- GET_DIGESTS (R436, R437): the digest of the chain of slot 0. -/
def execGetDigests (s : State) : Host.Outcome State Fault Refusal :=
  onDevF (fun f d => d.answer "DIGESTS" [] (Config.sha512 (certChain f d))) s

/-- GET_CERTIFICATE (R436): a part of the chain of slot 0; slots 1 to 7 are not provisioned. -/
def execGetCertificate (slot off len : Nat) (s : State) : Host.Outcome State Fault Refusal :=
  onDevF (fun f d =>
    if slot = 0 then d.answer "CERTIFICATE" [] (((certChain f d).drop off).take len)
    else d.spdmError "InvalidRequest") s

/-- CHALLENGE (R436): answered with the chain digest, signed. -/
def execChallenge (slot : Nat) (nonce : List Byte) (s : State) : Host.Outcome State Fault Refusal :=
  onDevF (fun f d =>
    if slot = 0 then
      let h := Config.sha512 (certChain f d)
      d.answer "CHALLENGE_AUTH" [] (h ++ Config.deviceSign (nonce ++ h))
    else d.spdmError "InvalidRequest") s

/-- GET_MEASUREMENTS (R438): block 1 is the ROM digest; blocks 2 to 8 are fixed at BOOT_DONE; signed. -/
def execGetMeasurements (index : Nat) (nonce : List Byte) (s : State) : Host.Outcome State Fault Refusal :=
  onDev (fun d =>
    if index = 1 then d.answer "MEASUREMENTS" [] (Config.romDigest ++ Config.deviceSign (nonce ++ Config.romDigest))
    else
      match d.trust.blocks[index - 2]? with
      | some b => if 2 ≤ index then d.answer "MEASUREMENTS" [] (b ++ Config.deviceSign (nonce ++ b))
          else d.spdmError "InvalidRequest"
      | none => d.spdmError "InvalidRequest") s

/-- KEY_EXCHANGE (R437, R439): a session starts, at most 4 at a time; Busy for a further mutually authenticated one
while a session holds the grant. -/
def execKeyExchange (now : Nat) (mutAuth : Bool) (reqKey : List Byte) (s : State) : Host.Outcome State Fault Refusal :=
  onDev (fun d =>
    let d : Dev := d.at_ now
    if ¬ d.trust.identity then d.spdmError "UnsupportedRequest"
    else if mutAuth ∧ d.trust.holder.isSome then d.spdmError "Busy"
    else if 4 ≤ d.trust.sessions.length then d.spdmError "SessionLimitExceeded"
    else
      let q : Session := ⟨d.trust.nextId, mutAuth, Config.sha512 reqKey, false, d.now, 0⟩
      let e : Dev := { d with trust := { d.trust with
        sessions := d.trust.sessions ++ [q], nextId := d.trust.nextId + 1 } }
      e.emit (.spdm "KEY_EXCHANGE_RSP" [] (leBytes 4 q.id))) s

/-- FINISH (R439): completes the session; the grant starts when the mutually authenticated key matches OPERATOR_KEY and
no session holds it. `ok`: the requester's verification data and signature verify. -/
def execFinish (now sid : Nat) (ok : Bool) (s : State) : Host.Outcome State Fault Refusal :=
  onDevF (fun f d =>
    let d : Dev := d.at_ now
    match d.session sid with
    | none => d.spdmError "InvalidSession"
    | some q =>
      if ¬ ok then (d.endSession sid).spdmError "DecryptError"
      else
        let d : Dev := d.modSession sid fun q => { q with finished := true, lastBeat := d.now }
        let opk := f.operatorKey d.slotInUse
        let d : Dev :=
          if q.mutAuth ∧ opk ≠ List.replicate 64 0 ∧ q.keyHash = opk ∧ d.trust.holder = none then
            ({ d with trust := { d.trust with holder := some sid } } : Dev).setF SEC_GRANT_HELD 1 |>.latch egSec 0
          else d
        d.emit (.spdm "FINISH_RSP" [] [])) s

/-- HEARTBEAT (R437): answered, and the session is renewed. -/
def execHeartbeat (now sid : Nat) (s : State) : Host.Outcome State Fault Refusal :=
  onDev (fun d =>
    let d : Dev := d.at_ now
    match d.session sid with
    | none => d.spdmError "InvalidSession"
    | some _ => (d.modSession sid fun q => { q with lastBeat := d.now }).emit (.spdm "HEARTBEAT_ACK" [] [])) s

/-- HEARTBEAT_EXPIRY (R439): a session not renewed for twice the 10 s HeartbeatPeriod ends, and with it any grant. SPDM
gives a session twice its period (PRESUMED, notes/assumptions/15.md). -/
def execHeartbeatExpiry (now sid : Nat) (s : State) : Host.Outcome State Fault Refusal :=
  onDev (fun d =>
    match d.session sid with
    | none => d
    | some q => if q.lastBeat + 20000000000 ≤ now then (d.at_ now).endSession sid else d) s

/-- KEY_UPDATE (R437). -/
def execKeyUpdate (now sid : Nat) (s : State) : Host.Outcome State Fault Refusal :=
  onDev (fun d =>
    let d : Dev := d.at_ now
    match d.session sid with
    | none => d.spdmError "InvalidSession"
    | some _ => (d.modSession sid fun q => { q with keyGen := q.keyGen + 1, lastBeat := d.now }).emit
        (.spdm "KEY_UPDATE_ACK" [] [])) s

/-- END_SESSION (R439). -/
def execEndSession (sid : Nat) (s : State) : Host.Outcome State Fault Refusal :=
  onDev (fun d =>
    match d.session sid with
    | none => d.spdmError "InvalidSession"
    | some _ => (d.endSession sid).emit (.spdm "END_SESSION_ACK" [] [])) s

/-- CHUNK_SEND (R437): one chunk of a large request is kept; objects hold up to 64 KiB. -/
def execChunkSend (data : List Byte) (last : Bool) (s : State) : Host.Outcome State Fault Refusal :=
  onDev (fun d =>
    let b := d.trust.chunkIn ++ data
    if 65536 < b.length then
      ({ d with trust := { d.trust with chunkIn := [] } } : Dev).spdmError "RequestTooLarge"
    else
      let d : Dev := { d with trust := { d.trust with
        chunkIn := if last then [] else b, chunkOut := if last then b else d.trust.chunkOut } }
      d.answer "CHUNK_SEND_ACK" [] []) s

/-- CHUNK_GET (R437): the next chunk of a large response. -/
def execChunkGet (len : Nat) (s : State) : Host.Outcome State Fault Refusal :=
  onDev (fun d =>
    let c := d.trust.chunkOut.take len
    ({ d with trust := { d.trust with chunkOut := d.trust.chunkOut.drop len } } : Dev).answer "CHUNK_RESPONSE" [] c) s

/-- A discarded privileged write is counted and its offset kept (R455). -/
def Dev.deny (d : Dev) (off : Nat) : Dev := (d.satInc HUB_PRV_DENY_COUNT).setN HUB_PRV_DENY_LAST (off % 2 ^ 26)

/-- GRANT_RELEASE (R439): a write of 1 to SEC_GRANT.RELEASE by a privileged master ends the holder's session. -/
def execGrantRelease (m : Master) (s : State) : Host.Outcome State Fault Refusal :=
  onDev (fun d => if d.privileged m then d.endGrant else d.deny SEC_GRANT) s

end Sys2Proof.Machine
end

