-- ==== Sys2Proof/Machine/Home.lean ====
section
/-! DEFINITION. The home of Delud operations: keys, the home line unit, the home queue, and the gateways (R174 to R176, R363,
R371 to R379, R384, R385). -/

namespace Sys2Proof.Machine

open Reg

/-! Keys and grants (R374 to R376). -/

def Dev.keyEnt (d : Dev) (n : Fin 32) (u : Nat) : KeyEnt := smGet (fun _ => KeyEnt.reset) (d.delud n).keys u
def Dev.setKey (d : Dev) (n : Fin 32) (u : Nat) (k : KeyEnt) : Dev :=
  d.onDelud n fun x => { x with keys := smPut (fun _ => KeyEnt.reset) x.keys u k }

/-- The access passes its key check. -/
def Dev.keyOk (d : Dev) (n : Fin 32) (m : Dmsg) : Bool :=
  let k := d.keyEnt n (gaUnit m.addr)
  k.valid && k.key == m.key && m.key != 0 && (if m.op = 1 then k.rd else if m.op = 4 then k.at_ else k.wr)

/-- Bytes of an atomic's target. -/
def atomSize (m : Dmsg) : Nat := if m.aop.testBit 4 then 8 else 4

/-- The address errors of R363. -/
def addrBad (n : Fin 32) (m : Dmsg) : Bool :=
  let u := gaUnit m.addr
  u == 0 || (n.val == 0 && decide (15360 ≤ u)) || (m.op == 4 && m.addr % atomSize m != 0)

/-! Responses. -/

/-- A response of tile `n` to a request. -/
def Dev.respond (d : Dev) (n : Fin 32) (m : Dmsg) (op flags err addr : Nat) (data : List Byte) : Dev :=
  d.sendMsg .resp ⟨op, flags, 0, addr, d.nodeOf (some n), m.src, 0, m.txn, 0, err, 0, data⟩

def Dev.respondErr (d : Dev) (n : Fin 32) (m : Dmsg) (err : Nat) : Dev := d.respond n m 0x0B 0 err m.addr []

/-- LOAD_DATA pieces of up to 1,024 B, the last with LAST (R367). -/
def Dev.respondLoad (d : Dev) (n : Fin 32) (m : Dmsg) (data : List Byte) : Dev :=
  let k := (data.length + 1023) / 1024
  (List.range k).foldl (fun d i =>
    d.respond n m 8 (if i + 1 = k then 2 else 0) 0 (m.addr + 1024 * i) ((data.drop (1024 * i)).take 1024)) d

/-- A response that a write-back releases. -/
def Dev.release (d : Dev) (n : Fin 32) (r : Dmsg) : Dev := d.sendMsg .resp { r with src := d.nodeOf (some n) }

/-- The response to an update, as it waits for its write-back (R372). -/
def updateResp (m : Dmsg) (op : Nat) (data : List Byte) : Dmsg := ⟨op, 0, 0, m.addr, m.dst, m.src, 0, m.txn, 0, 0, 0, data⟩

/-- A home check of an access (R363, R374): none where it may proceed. -/
def Dev.homeRefuse (d : Dev) (n : Fin 32) (m : Dmsg) : Option Dev :=
  if addrBad n m then some (d.respondErr n m 3)
  else if ¬ d.keyOk n m then some (((d.satInc DLD_KEY_FAULT_COUNT).latch egDld 1).respondErr n m 1)
  else none

/-- Whether a REVOKE of a unit still waits: an access that passed its check has not been performed and answered (R376). -/
def Dev.unitBusy (d : Dev) (n : Fin 32) (u : Nat) : Bool :=
  ((d.delud n).jobs.any fun j => gaUnit j.msg.addr == u) ||
    ((d.delud n).held.any fun h => h.line * 64 / 2 ^ 21 == u && !h.resps.isEmpty)

/-- A REVOKE reports DONE once nothing of the unit is pending. -/
def Dev.revokeCheck (d : Dev) : Dev :=
  match d.gw.revoke with
  | some (n, u) => if d.unitBusy n u then d else { d with gw := { d.gw with revoke := none } }.setF DLD_KEY_CMD_GO 0
  | none => d

/-- A command of DLD_KEY_CMD is written: its fields, by a privileged master, while no other runs. -/
def Dev.keyCmd (d : Dev) (m : Master) (op : Nat) (tile : Fin 32) (unit : BitVec 14) (f : Dev → Dev) : Dev :=
  if ¬ d.privileged m then d.deny DLD_KEY_CMD
  else if d.gw.revoke.isSome then d
  else f (((d.setF DLD_KEY_CMD_OP op).setF DLD_KEY_CMD_TILE tile).setF DLD_KEY_CMD_UNIT unit.toNat)

/-- KEY_INSTALL (R376). -/
def execKeyInstall (m : Master) (tile : Fin 32) (unit : BitVec 14) (s : State) : Host.Outcome State Fault Refusal :=
  onRun (fun d => d.keyCmd m 1 tile unit fun d =>
    d.setKey tile unit.toNat ⟨d.getN DLD_KEY_DATA, d.flag DLD_KEY_PERM_VALID, d.flag DLD_KEY_PERM_RD, d.flag DLD_KEY_PERM_WR,
      d.flag DLD_KEY_PERM_AT⟩) s

/-- KEY_TABLE_REVOKE (R376): VALID clears at once; GO reads 1 until the earlier accesses are done. -/
def execKeyTableRevoke (m : Master) (tile : Fin 32) (unit : BitVec 14) (s : State) : Host.Outcome State Fault Refusal :=
  onRun (fun d => d.keyCmd m 2 tile unit fun d =>
    let d := (d.setKey tile unit.toNat { d.keyEnt tile unit.toNat with valid := false }).setF DLD_KEY_CMD_GO 1
    { d with gw := { d.gw with revoke := some (tile, unit.toNat) } }.revokeCheck) s

/-- KEY_READ (R376, R388). -/
def execKeyRead (m : Master) (tile : Fin 32) (unit : BitVec 14) (s : State) : Host.Outcome State Fault Refusal :=
  onRun (fun d => d.keyCmd m 0 tile unit fun d =>
    let k := d.keyEnt tile unit.toNat
    let b (v : Bool) : Nat := if v then 1 else 0
    ((((d.setN DLD_KEY_DATA k.key).setF DLD_KEY_PERM_VALID (b k.valid)).setF DLD_KEY_PERM_RD (b k.rd)).setF DLD_KEY_PERM_WR
      (b k.wr)).setF DLD_KEY_PERM_AT (b k.at_)) s

/-- A command of DLD_GRANT_CMD is written. -/
def Dev.grantCmd (d : Dev) (m : Master) (op : Nat) (tile : Fin 32) (idx : Fin 64) (f : Dev → Dev) : Dev :=
  if ¬ d.privileged m then d.deny DLD_GRANT_CMD
  else f (((d.setF DLD_GRANT_CMD_OP op).setF DLD_GRANT_CMD_TILE tile).setF DLD_GRANT_CMD_INDEX idx)

/-- GRANT_READ (R375, R388). -/
def execGrantRead (m : Master) (tile : Fin 32) (idx : Fin 64) (s : State) : Host.Outcome State Fault Refusal :=
  onRun (fun d => d.grantCmd m 0 tile idx fun d =>
    let g := (d.delud tile).grants[idx]
    (((d.setPair DLD_GRANT_BASE_LO DLD_GRANT_BASE_HI g.base).setF DLD_GRANT_UNITS_VALID (if g.valid then 1 else 0)).setF
      DLD_GRANT_UNITS_UNITS g.units).setN DLD_GRANT_KEY g.key) s

/-- GRANT_WRITE (R375, R388). -/
def execGrantWrite (m : Master) (tile : Fin 32) (idx : Fin 64) (s : State) : Host.Outcome State Fault Refusal :=
  onRun (fun d => d.grantCmd m 1 tile idx fun d =>
    let g : Grant := ⟨d.getPair DLD_GRANT_BASE_LO DLD_GRANT_BASE_HI % 2 ^ 36, d.getF DLD_GRANT_UNITS_UNITS, d.getN DLD_GRANT_KEY,
      d.flag DLD_GRANT_UNITS_VALID⟩
    d.onDelud tile fun x => { x with grants := x.grants.set idx g }) s

/-- The lowest-numbered valid grant whose range holds a global address (R375). -/
def Dev.grantFor (d : Dev) (n : Fin 32) (a : Nat) : Option Grant :=
  (d.delud n).grants.toList.find? fun g => g.valid && decide (g.base ≤ a / 2 ^ 21) && decide (a / 2 ^ 21 < g.base + g.units)

/-! The home line unit (R378, R379). -/

def Dev.heldLine (d : Dev) (n : Fin 32) (l : Nat) : Option HeldLine := (d.delud n).held.find? fun h => h.line == l

/-- Put a held line back as the most recently used. -/
def Dev.touchHeld (d : Dev) (n : Fin 32) (h : HeldLine) : Dev :=
  d.onDelud n fun x => { x with held := x.held.filter (fun y => y.line != h.line) ++ [h] }

def Dev.homeAdd (d : Dev) (n : Fin 32) (l : List HomeAcc) : Dev := d.onDelud n fun x => { x with hq := x.hq ++ l }

/-- The line of an access's first byte, and how many lines it touches. -/
def accLine (m : Dmsg) : Nat := gaOff m.addr / 64
def accBytes (m : Dmsg) : Nat := if m.op = 1 then m.rlen else if m.op = 4 then atomSize m else m.data.length
def accLines (m : Dmsg) : Nat := (gaOff m.addr + accBytes m + 63) / 64 - accLine m

/-- The line is busy: its acquiring read has not delivered it. -/
def Dev.lineBusy (d : Dev) (n : Fin 32) (l : Nat) : Bool :=
  match d.heldLine n l with
  | some h => h.data.isNone
  | none => false

/-- Accesses are taken oldest STAMP first, and on a tie lowest SRC (R378). -/
def accOlder (a b : Dmsg) : Bool := a.stamp < b.stamp || (a.stamp == b.stamp && decide (nodeWord a.src ≤ nodeWord b.src))

/-- The oldest buffered access none of whose lines is busy. -/
def Dev.nextAccess (d : Dev) (n : Fin 32) : Option Dmsg :=
  (((d.delud n).adm.filter fun m => !(List.range (accLines m)).any fun k => d.lineBusy n (accLine m + k))).foldl
    (fun best m =>
      match best with
      | none => some m
      | some b => if accOlder b m then some b else some m) none

/-- Splice bytes into a line. -/
def splice (l : List Byte) (off : Nat) (b : List Byte) : List Byte := l.take off ++ b ++ l.drop (off + b.length)

/-- What an atomic writes: AOP 0 add, 1 min, 2 max, 3 swap, 4 compare-and-swap (R371). -/
def atomNew (aop size old : Nat) (data : List Byte) : Nat :=
  let op := leVal (data.take size)
  match aop % 16 with
  | 0 => (old + op) % 256 ^ size
  | 1 => min old op
  | 2 => max old op
  | 3 => op
  | _ => if old = op then leVal ((data.drop size).take size) else old

/-- A single-line access is performed on the held copy. -/
def Dev.heldAccess (d : Dev) (n : Fin 32) (m : Dmsg) (h : HeldLine) (b : List Byte) : Dev :=
  let off := gaOff m.addr % 64
  if m.op = 1 then (d.touchHeld n h).respondLoad n m ((b.drop off).take m.rlen)
  else if m.op = 2 then
    d.touchHeld n { h with data := some (splice b off m.data), dirty := true, resps := h.resps ++ [updateResp m 9 []] }
  else
    let size := atomSize m
    let old := leVal ((b.drop off).take size)
    let new := atomNew m.aop size old m.data
    d.touchHeld n { h with data := some (splice b off (leBytes size new)), dirty := true
                           resps := h.resps ++ [updateResp m 0x0A (leBytes size old)] }

/-- A line is claimed: a free register, or the least recently used one that is clean and has no pending access; then its
acquiring read enters the home queue. Nothing happens while no register can be had. -/
def Dev.claim (d : Dev) (n : Fin 32) (l : Nat) : Dev :=
  let x := d.delud n
  let idle (h : HeldLine) : Bool := h.data.isSome && !h.dirty && !h.back && !(x.adm.any fun m => accLine m == h.line)
  let add (d : Dev) : Dev := (d.onDelud n fun x => { x with held := x.held ++ [⟨l, none, false, false, []⟩] }).homeAdd n [⟨l, .fill⟩]
  if x.held.length < 256 then add d
  else
    match x.held.find? idle with
    | some v => add (d.onDelud n fun x => { x with held := x.held.filter fun h => h.line != v.line })
    | none => d

/-- A load or bulk store of lines starts in the home queue; held lines of a load are taken from their registers. -/
def Dev.startJob (d : Dev) (n : Fin 32) (m : Dmsg) : Dev :=
  let x := d.delud n
  let id := x.nextJob
  let lines := (List.range (accLines m)).map fun k => accLine m + k
  let held := if m.op = 1 then lines.filterMap fun l => match d.heldLine n l with
      | some h => h.data.map fun b => (l, b)
      | none => none
    else []
  let rest := lines.filter fun l => !held.any fun h => h.1 == l
  let acc := rest.map fun l => HomeAcc.mk l
    (if m.op = 1 then .jobRead id else .jobWrite id ((m.data.drop (64 * (l - accLine m))).take 64))
  if rest.isEmpty ∧ m.op = 1 then
    d.respondLoad n m (((held.flatMap Prod.snd).drop (gaOff m.addr % 64)).take m.rlen)
  else (d.onDelud n fun x => { x with jobs := x.jobs ++ [⟨id, m, rest.length, held, false⟩], nextJob := id + 1 }).homeAdd n acc

/-- HOME_LINE_ACCESS (R374, R378). -/
def execHomeLineAccess (n : Fin 32) (s : State) : Host.Outcome State Fault Refusal :=
  onRun (fun d =>
    if ¬ d.memRuns n then d
    else
      match d.nextAccess n with
      | none => d
      | some m =>
        let gone (d : Dev) : Dev := d.onDelud n fun x => { x with adm := x.adm.erase m }
        match d.homeRefuse n m with
        | some e => gone e
        | none =>
          if m.op = 1 ∧ 1 < accLines m then (gone d).startJob n m
          else
            match d.heldLine n (accLine m) with
            | none => d.claim n (accLine m)
            | some h =>
              match h.data with
              | some b => (gone d).heldAccess n m h b
              | none => d) s

/-- HOME_LINE_WRITEBACK (R379): a dirty held line enters the home queue. -/
def execHomeLineWriteback (n : Fin 32) (line : Nat) (s : State) : Host.Outcome State Fault Refusal :=
  onRun (fun d =>
    match d.heldLine n line with
    | some h =>
      if h.dirty ∧ ¬ h.back ∧ d.memRuns n then
        (d.onDelud n fun x => { x with held := x.held.map fun y => if y.line = line then { y with back := true } else y }).homeAdd n
          [⟨line, .back⟩]
      else d
    | none => d) s

/-- HOME_LINE_IDLE_RELEASE (R379): a clean line with no pending access leaves its register. -/
def execHomeLineIdleRelease (n : Fin 32) (line : Nat) (s : State) : Host.Outcome State Fault Refusal :=
  onRun (fun d =>
    d.onDelud n fun x => { x with held := x.held.filter fun h =>
      ¬ (h.line = line ∧ h.data.isSome ∧ !h.dirty ∧ !h.back ∧ !(x.adm.any fun m => accLine m == line)) }) s

/-- LOAD_REQ (R371, R378): on the request VC it enters the admission buffer, on the bulk VC the home queue. -/
def execLoadReq (n : Fin 32) (m : Dmsg) (bulk : Bool) (s : State) : Host.Outcome State Fault Refusal :=
  onRun (fun d =>
    let m := { m with op := 1 }
    if ¬ bulk then d.onDelud n fun x => { x with adm := x.adm ++ [m] }
    else
      match d.homeRefuse n m with
      | some e => e
      | none => d.startJob n m) s

/-- STORE (R371, R378). -/
def execStore (n : Fin 32) (m : Dmsg) (s : State) : Host.Outcome State Fault Refusal :=
  onRun (fun d => d.onDelud n fun x => { x with adm := x.adm ++ [{ m with op := 2 }] }) s

/-- BULK_STORE (R371, R373). -/
def execBulkStore (n : Fin 32) (m : Dmsg) (s : State) : Host.Outcome State Fault Refusal :=
  onRun (fun d =>
    let m := { m with op := 3 }
    match d.homeRefuse n m with
    | some e => e
    | none => d.startJob n m) s

/-- ATOMIC (R371, R378). -/
def execAtomic (n : Fin 32) (m : Dmsg) (s : State) : Host.Outcome State Fault Refusal :=
  onRun (fun d => d.onDelud n fun x => { x with adm := x.adm ++ [{ m with op := 4 }] }) s

/-! The home queue (R175). -/

/-- A home job has accessed its last line: its response. -/
def Dev.jobCheck (d : Dev) (n : Fin 32) (id : Nat) : Dev :=
  match (d.delud n).jobs.find? fun j => j.id == id with
  | none => d
  | some j =>
    if j.left ≠ 0 then d
    else
      let d : Dev := d.onDelud n fun x => { x with jobs := x.jobs.filter fun k => k.id != id }
      if j.ue then d.respondErr n j.msg 4
      else if j.msg.op = 1 then
        let bytes := (List.range (accLines j.msg)).flatMap fun k =>
          ((j.got.find? fun g => g.1 == accLine j.msg + k).map Prod.snd).getD []
        d.respondLoad n j.msg ((bytes.drop (gaOff j.msg.addr % 64)).take j.msg.rlen)
      else d.respond n j.msg 9 0 0 j.msg.addr []

def Dev.onJob (d : Dev) (n : Fin 32) (id : Nat) (f : HomeJob → HomeJob) : Dev :=
  d.onDelud n fun x => { x with jobs := x.jobs.map fun j => if j.id = id then f j else j }

/-- The acquiring read of a held line has come: an uncorrectable line leaves its register, and the oldest access that waits for
it is answered UE. -/
def Dev.fillDone (d : Dev) (n : Fin 32) (l : Nat) (b : List Byte) (ue : Bool) : Dev :=
  if ue then
    let d : Dev := d.onDelud n fun x => { x with held := x.held.filter fun h => h.line != l }
    match ((d.delud n).adm.filter fun m => accLine m == l).foldl (fun best m =>
        match best with
        | none => some m
        | some c => if accOlder c m then some c else some m) (none : Option Dmsg) with
    | some m => (d.onDelud n fun x => { x with adm := x.adm.erase m }).respondErr n m 4
    | none => d
  else d.onDelud n fun x => { x with held := x.held.map fun h => if h.line = l then { h with data := some b } else h }

/-- The write-back of a held line issues: the updates it carries are answered (R372, R379). -/
def Dev.backDone (d : Dev) (n : Fin 32) (l : Nat) (linkUe : Bool) : Dev :=
  match d.heldLine n l with
  | none => d
  | some h =>
    let d := d.dramWrite n l (h.data.getD []) linkUe
    let d : Dev := d.onDelud n fun x => { x with held := x.held.map fun y =>
      if y.line = l then { y with dirty := false, back := false, resps := [] } else y }
    h.resps.foldl (fun d r => d.release n r) d

/-- An access of the home queue issues; `rep` is what the codes report of the line. -/
def Dev.homeIssue (d : Dev) (n : Fin 32) (a : HomeAcc) (rep : EccRep) : Dev :=
  match a.use with
  | .fill =>
    let r := d.dramRead n a.line 1 rep
    r.2.2.fillDone n a.line r.1 r.2.1
  | .back => d.backDone n a.line rep.linkUe
  | .jobRead id =>
    let r := d.dramRead n a.line 1 rep
    (r.2.2.onJob n id fun j => { j with left := j.left - 1, got := j.got ++ [(a.line, r.1)], ue := j.ue || r.2.1 }).jobCheck n id
  | .jobWrite id b =>
    (((d.dramWrite n a.line b rep.linkUe).heldApply n a.line b).onJob n id fun j => { j with left := j.left - 1 }).jobCheck n id
  | .land _ b => (d.dramWrite n a.line b rep.linkUe).heldApply n a.line b
  | .read o =>
    let r := d.dramRead n a.line 1 rep
    let d : Dev := r.2.2.onTile n fun t => { t with bufs := t.bufs ++ [(o, 64 * a.line, r.1)] }
    if r.2.1 then d.onSource (some n) fun x => { x with errs := x.errs ++ [⟨o, 4, d.nodeOf (some n)⟩] } else d

/-- HOME_QUEUE_ISSUE (R163, R164, R168, R175): the head of a channel's queue. -/
def execHomeQueueIssue (n : Fin 32) (ch : Fin 48) (rep : EccRep) (now : Nat) (s : State) : Host.Outcome State Fault Refusal :=
  onRun (fun d =>
    let d := d.at_ now
    if ¬ d.memRuns n then d
    else
      let q := (d.delud n).hq
      match q.findIdx? fun a => lineCh a.line == ch.val with
      | none => d
      | some i =>
        match q[i]? with
        | none => d
        | some a =>
          ((((d.onDelud n fun x => { x with hq := x.hq.eraseIdx i }).homeIssue n a rep).count (.tile n) 0x11 1)).revokeCheck) s

/-! Gateways (R384, R385). -/

/-- A message of another stage has reached the hub from a tile: it waits at the egress gateway. -/
def Dev.gwArrive (d : Dev) (origin : Nat) (vc : Vc) (m : Dmsg) : Dev := (d.gwPut origin vc m).gwAsks

/-- GATEWAY_SLOT_ASK (R385). -/
def execGatewaySlotAsk (pkg slots : Nat) (s : State) : Host.Outcome State Fault Refusal :=
  onRun (fun d =>
    let d : Dev := { d with gw := { d.gw with asks := d.gw.asks ++ [⟨pkg, slots⟩] } }
    d.gwGrants d.gw.asks.length) s

/-- GATEWAY_EGRESS (R384, R385): the slots of a waiting message have been granted; it leaves wrapped, after every earlier one
to its package. -/
def execGatewayEgress (id : Nat) (s : State) : Host.Outcome State Fault Refusal :=
  onRun (fun d =>
    match d.gw.queue.find? fun i => i.id == id with
    | none => d
    | some i =>
      if ¬ i.asked ∨ (d.gw.queue.takeWhile fun j => j.id != id).any (fun j => j.msg.dst.pkg == i.msg.dst.pkg) then d
      else
        let k : Fin 33 := Fin.ofNat 33 i.origin
        let d : Dev := { d with gw := { d.gw with
          queue := d.gw.queue.filter fun j => j.id != id
          egress := d.gw.egress.set k (min 128 (d.gw.egress[k] + gwSlots (48 + i.msg.data.length))) } }
        let w : Dmsg := ⟨0x0C, 1, 0, 0, d.nodeOf none, ⟨i.msg.dst.pkg, 0, true⟩, 0, 0, 0, 0, 0, msgBytes i.msg⟩
        let d : Dev := match d.sendOut .bulk w with
          | some e => (e.satInc DLD_GW_OUT_COUNT).count .hub 0x0C 1
          | none => (d.satInc FAB_UNREACH_COUNT).gwBack i.msg
        if h : i.origin < 32 then d.pump (some ⟨i.origin, h⟩) else d.pump none) s

/-- What the inner operation of a wrapped request is at the ingress hub. -/
def innerUse (m : Dmsg) : TxUse := if m.op = 1 then .toBuf m.addr else .write

/-- GATEWAY (R384): a request is issued as the hub's own operation, a response is delivered on the response VC. -/
def execGateway (m : Dmsg) (s : State) : Host.Outcome State Fault Refusal :=
  onRun (fun d =>
    let d := (d.satInc DLD_GW_IN_COUNT).count .hub 0x0D 1
    match msgOfBytes m.data with
    | none => d.satInc DLD_ERR_RESP_COUNT
    | some i =>
      if 8 ≤ i.op ∧ i.op ≤ 0x0B then
        (if i.dst.hub then d.emit (.arrive .hub i) else d.netSend .hub (nodeEndpt i.dst) .resp i 0).gwFree 1
      else if i.op = 5 then (d.sendMsg .req { i with src := d.nodeOf none }).gwFree (gwSlots (48 + m.data.length))
      else if i.op = 1 ∨ i.op = 2 ∨ i.op = 3 ∨ i.op = 6 then
        (d.sendOp none (.gateway m i) (innerUse i) (if i.op = 2 then .req else .bulk) i).gwFree (gwSlots (48 + m.data.length))
      else (d.satInc DLD_ERR_RESP_COUNT).gwFree (gwSlots (48 + m.data.length))) s

end Sys2Proof.Machine
end

