-- ==== Sys2Proof/Machine/Vector.lean ====
section
/-! DEFINITION. The vector engine, the special-function unit and the vector memory instructions (R103 to R108). -/

namespace Sys2Proof.Machine

open Reg

/-- A vector register of the tile. -/
def Dev.vlanes (d : Dev) (n : Fin 32) (r : Fin 64) : Lanes := (d.tile n).vreg[r]
/-- A mask register of the tile. -/
def Dev.vmask (d : Dev) (n : Fin 32) (k : Fin 8) : BitVec 512 := (d.tile n).mreg[k]

/-- Write a register whole. -/
def Dev.setLanes (d : Dev) (n : Fin 32) (r : Fin 64) (v : Lanes) : Dev :=
  d.onTile n fun t => { t with vreg := t.vreg.set r v }

/-- The lanes of `new` where the mask bit is 1 and of `old` elsewhere (R103). -/
def maskLanes (m : BitVec 512) (new old : Lanes) : Lanes := Vector.ofFn fun i => if m.getLsbD i then new[i] else old[i]

/-- The second source: the register, or the immediate in every lane (BIMM). -/
def Dev.vsrc (d : Dev) (n : Fin 32) (r : Fin 64) (bimm : Bool) (imm : Word) : Lanes :=
  if bimm then Vector.replicate 512 imm else d.vlanes n r

/-- Latch VEC_EVENT.OVERFLOW and INVALID where the lanes that the mask writes produced ±infinity from finite inputs or NaN
from non-NaN inputs, each only while enabled (R125). -/
def Dev.vecEvents (d : Dev) (n : Fin 32) (m : BitVec 512) (r : Lanes) (ins : Fin 512 → List Word) : Dev :=
  let lanes : List (Fin 512) := (List.finRange 512).filter fun i => m.getLsbD i.val
  let ovf := lanes.any fun i => isInf r[i] && (ins i).all isFinite
  let inv := lanes.any fun i => isNan r[i] && (ins i).all fun w => !isNan w
  let d : Dev := if inv && d.flag (VEC_EVENT_EN_INVALID_EN n) then d.latch (egVec n) 0 else d
  if ovf && d.flag (VEC_EVENT_EN_OVERFLOW_EN n) then d.latch (egVec n) 1 else d

/-- A result under the write mask, with its events. -/
def Dev.vecWrite (d : Dev) (n : Fin 32) (vd : Fin 64) (k : Fin 8) (r : Lanes) (ins : Fin 512 → List Word) : Dev :=
  let m := d.vmask n k
  (((d.setLanes n vd (maskLanes m r (d.vlanes n vd))).vecEvents n m r ins).count (.tile n) 0x0C 1)

/-- Lane-wise arithmetic on two sources. -/
def vecBin (op : Word → Word → Word) (p : Issue) (vd va vb : Fin 64) (k : Fin 8) (bimm : Bool) (imm : Word)
    (d : Dev) : Dev :=
  d.issue p 2 false fun d =>
    let a := d.vlanes p.tile va
    let b := d.vsrc p.tile vb bimm imm
    d.vecWrite p.tile vd k (Vector.ofFn fun i => op a[i] b[i]) fun i => [a[i], b[i]]

/-- VFMA (R104). -/
def execVfma (p : Issue) (vd va vb vc : Fin 64) (k : Fin 8) (bimm : Bool) (imm : Word) (s : State) :
    Host.Outcome State Fault Refusal :=
  onRun (fun d => d.issue p 2 false fun d =>
    let a := d.vlanes p.tile va
    let b := d.vsrc p.tile vb bimm imm
    let w := d.vlanes p.tile vc
    d.vecWrite p.tile vd k (Vector.ofFn fun i => fFma vNan a[i] b[i] w[i]) fun i => [a[i], b[i], w[i]]) s

/-- VADD (R104). -/
def execVadd (p : Issue) (vd va vb : Fin 64) (k : Fin 8) (bimm : Bool) (imm : Word) (s : State) :
    Host.Outcome State Fault Refusal := onRun (vecBin (fAdd vNan) p vd va vb k bimm imm) s

/-- VSUB (R104). -/
def execVsub (p : Issue) (vd va vb : Fin 64) (k : Fin 8) (bimm : Bool) (imm : Word) (s : State) :
    Host.Outcome State Fault Refusal := onRun (vecBin (fSub vNan) p vd va vb k bimm imm) s

/-- VMUL (R104). -/
def execVmul (p : Issue) (vd va vb : Fin 64) (k : Fin 8) (bimm : Bool) (imm : Word) (s : State) :
    Host.Outcome State Fault Refusal := onRun (vecBin (fMul vNan) p vd va vb k bimm imm) s

/-- VMAX (R104). -/
def execVmax (p : Issue) (vd va vb : Fin 64) (k : Fin 8) (bimm : Bool) (imm : Word) (s : State) :
    Host.Outcome State Fault Refusal := onRun (vecBin fMax p vd va vb k bimm imm) s

/-- VMIN (R104). -/
def execVmin (p : Issue) (vd va vb : Fin 64) (k : Fin 8) (bimm : Bool) (imm : Word) (s : State) :
    Host.Outcome State Fault Refusal := onRun (vecBin fMin p vd va vb k bimm imm) s

/-- The predicates of VCMP (R104, R119): 0 EQ, 1 NE, 2 LT, 3 LE, 4 GT, 5 GE, 6 UNORD. -/
def vcmpHolds (fn : Nat) (a b : Word) : Bool :=
  match fn with
  | 0 => fEq a b
  | 1 => !fEq a b
  | 2 => fLt a b
  | 3 => fLe a b
  | 4 => fLt b a
  | 5 => fLe b a
  | _ => isNan a || isNan b

/-- VCMP (R103, R104, R119): M(MD) takes the predicate in the lanes that the write mask names. M0 cannot be written, and
FN 7 to 15 are not defined. -/
def execVcmp (p : Issue) (md : Fin 8) (va vb : Fin 64) (k : Fin 8) (fn : Fin 16) (bimm : Bool) (imm : Word) (s : State) :
    Host.Outcome State Fault Refusal :=
  onRun (fun d => d.issue p 2 (md == 0 || decide (6 < fn.val)) fun d =>
    let a := d.vlanes p.tile va
    let b := d.vsrc p.tile vb bimm imm
    let r := BitVec.ofBoolListLE ((List.finRange 512).map fun i => vcmpHolds fn a[i] b[i])
    let m := d.vmask p.tile k
    let d : Dev := d.onTile p.tile fun t =>
      { t with mreg := t.mreg.set md ((r.setWidth 512 &&& m) ||| (t.mreg[md] &&& ~~~ m)) }
    d.count (.tile p.tile) 0x0C 1) s

/-- VSEL (R103): every lane is written, and the mask selects. -/
def execVsel (p : Issue) (vd va vb : Fin 64) (k : Fin 8) (bimm : Bool) (imm : Word) (s : State) :
    Host.Outcome State Fault Refusal :=
  onRun (fun d => d.issue p 2 false fun d =>
    (d.setLanes p.tile vd (maskLanes (d.vmask p.tile k) (d.vlanes p.tile va) (d.vsrc p.tile vb bimm imm))).count
      (.tile p.tile) 0x0C 1) s

/-- VIMM (R114, R103). -/
def execVimm (p : Issue) (vd : Fin 64) (k : Fin 8) (imm : Word) (s : State) : Host.Outcome State Fault Refusal :=
  onRun (fun d => d.issue p 2 false fun d =>
    (d.setLanes p.tile vd (maskLanes (d.vmask p.tile k) (Vector.replicate 512 imm) (d.vlanes p.tile vd))).count
      (.tile p.tile) 0x0C 1) s

/-- One level of the reduction tree of R106: pair 2i with 2i + 1. -/
def pairUp (op : Word → Word → Word) : List Word → List Word
  | a :: b :: t => op a b :: pairUp op t
  | l => l

/-- The tree of R106 over a group of 2^g values. -/
def treeRed (op : Word → Word → Word) : Nat → List Word → Word
  | 0, l => l.headD 0
  | g + 1, l => treeRed op g (pairUp op l)

/-- The operation of VRED: 0 SUM, 1 MAX, 2 MIN. -/
def vredOp (fn : Nat) : Word → Word → Word := if fn = 0 then fAdd vNan else if fn = 1 then fMax else fMin

/-- The values of the group of 2^g lanes that holds lane `i`. -/
def groupOf (a : Lanes) (g i : Nat) : List Word :=
  (List.range (2 ^ g)).map fun j => a.toList.getD (i / 2 ^ g * 2 ^ g + j) 0

/-- VRED (R106): the group's result in every lane of the group. -/
def execVred (p : Issue) (vd va : Fin 64) (k : Fin 8) (fn grp : Fin 16) (s : State) : Host.Outcome State Fault Refusal :=
  onRun (fun d => d.issue p 2 (decide (2 < fn.val) || decide (9 < grp.val)) fun d =>
    let a := d.vlanes p.tile va
    let res := (List.range (512 / 2 ^ grp.val)).map fun j => treeRed (vredOp fn) grp (groupOf a grp (j * 2 ^ grp.val))
    d.vecWrite p.tile vd k (Vector.ofFn fun i => res.getD (i.val / 2 ^ grp.val) 0) fun i => groupOf a grp i) s

/-- VBCAST (R106): the lowest lane of each group in every lane of the group. -/
def execVbcast (p : Issue) (vd va : Fin 64) (k : Fin 8) (grp : Fin 16) (s : State) : Host.Outcome State Fault Refusal :=
  onRun (fun d => d.issue p 2 (decide (9 < grp.val)) fun d =>
    let a := d.vlanes p.tile va
    d.vecWrite p.tile vd k (Vector.ofFn fun i => a.toList.getD (i.val / 2 ^ grp.val * 2 ^ grp.val) 0) fun _ => []) s

/-- A special-function instruction (R105). -/
def sfu (op : Word → Word) (p : Issue) (vd va : Fin 64) (k : Fin 8) (d : Dev) : Dev :=
  d.issue p 2 false fun d =>
    let a := d.vlanes p.tile va
    (d.vecWrite p.tile vd k (Vector.ofFn fun i => op a[i]) fun i => [a[i]]).count (.tile p.tile) 0x0D 1

/-- VEXP2 (R105). -/
def execVexp2 (p : Issue) (vd va : Fin 64) (k : Fin 8) (s : State) : Host.Outcome State Fault Refusal :=
  onRun (sfu (fExp2 vNan) p vd va k) s

/-- VEXP (R105). -/
def execVexp (p : Issue) (vd va : Fin 64) (k : Fin 8) (s : State) : Host.Outcome State Fault Refusal :=
  onRun (sfu (fExpE vNan) p vd va k) s

/-- VRCP (R105). -/
def execVrcp (p : Issue) (vd va : Fin 64) (k : Fin 8) (s : State) : Host.Outcome State Fault Refusal :=
  onRun (sfu (fRcp vNan) p vd va k) s

/-- VRSQRT (R105). -/
def execVrsqrt (p : Issue) (vd va : Fin 64) (k : Fin 8) (s : State) : Host.Outcome State Fault Refusal :=
  onRun (sfu (fRsqrt vNan) p vd va k) s

/-- VLOG2 (R105). -/
def execVlog2 (p : Issue) (vd va : Fin 64) (k : Fin 8) (s : State) : Host.Outcome State Fault Refusal :=
  onRun (sfu (fLog2 vNan) p vd va k) s

/-! Vector memory (R107, R120). -/

/-- The address of segment `s`. -/
def segAddr (addr stride size s : Nat) : Nat := if stride = 0 then addr + s * size else addr + s * 32 * stride

/-- The address of segment `s`'s two block scales. -/
def segScale (saddr stride s : Nat) : Nat := if stride = 0 then saddr + 2 * s else saddr + s * 2 * stride

/-- Segment sizes by FMT of VLD (R107); 0 for an FMT that is not defined. -/
def vldSize : Nat → Nat
  | 0 => 256
  | 1 => 128
  | 2 => 64
  | 3 => 64
  | 4 => 32
  | _ => 0

/-- Every byte of eight segments lies inside tile store, and the first is aligned to the segment size (R107, R113). -/
def segsOk (addr stride slot size : Nat) : Bool :=
  decide (size ≠ 0) && addr % size == 0 && (List.range 8).all fun s => decide (segAddr addr stride slot s + size ≤ tsBytes)

/-- The block scales lie inside tile store at an even address. -/
def scalesOk (saddr stride : Nat) : Bool :=
  saddr % 2 == 0 && (List.range 8).all fun s => decide (segScale saddr stride s + 2 ≤ tsBytes)

/-- The 64 lane values of a segment as VLD converts them; `sc` holds the two block-scale codes of K4F data (R107). -/
def segLanes (fmt : Nat) (bytes : List Byte) (sc : List Byte) : List Word :=
  (List.range 64).map fun i =>
    match fmt with
    | 0 => BitVec.ofNat 32 (leVal ((bytes.drop (4 * i)).take 4))
    | 1 => ofBf16 (BitVec.ofNat 16 (leVal ((bytes.drop (2 * i)).take 2)))
    | 2 => fp8Word .e4m3 (bytes.getD i 0).toNat
    | 3 => let w := fp8Word .e5m2 (bytes.getD i 0).toNat
      if isInf w then (if fNeg w then 0xC7600000 else 0x47600000) else w
    | _ =>
      let sb := ue5m3 (sc.getD (i / 32) 0).toNat
      if isNan sb then vNan
      else fOfDyadic false (kyozenHalves .k4f (codeAt 4 bytes i) * fMant sb) (fE sb - 1)

/-- VLD (R107). -/
def execVld (p : Issue) (vd : Fin 64) (fmt : Fin 16) (addr : BitVec 26) (stride : BitVec 16) (saddr : BitVec 26)
    (s : State) : Host.Outcome State Fault Refusal :=
  onRun (fun d =>
    let size := vldSize fmt
    d.issue p 2 (!segsOk addr.toNat stride.toNat size size || (fmt == 4 && !scalesOk saddr.toNat stride.toNat)) fun d =>
      let l := (List.range 8).flatMap fun g =>
        segLanes fmt (d.tsRead p.tile (segAddr addr.toNat stride.toNat size g) size)
          (d.tsRead p.tile (segScale saddr.toNat stride.toNat g) 2)
      (d.setLanes p.tile vd (Vector.ofFn fun i => l.getD i 0)).count (.tile p.tile) 0x0C 1) s

/-- VST (R107): FP32 or BF16. -/
def execVst (p : Issue) (v : Fin 64) (fmt : Fin 16) (addr : BitVec 26) (stride : BitVec 16) (s : State) :
    Host.Outcome State Fault Refusal :=
  onRun (fun d =>
    let size := if fmt.val < 2 then vldSize fmt else 0
    d.issue p 2 (!segsOk addr.toNat stride.toNat size size) fun d =>
      let l := (d.vlanes p.tile v).toList
      let d : Dev := (List.range 8).foldl (fun d g =>
        let seg := (l.drop (64 * g)).take 64
        d.tsWrite p.tile (segAddr addr.toNat stride.toNat size g)
          (if fmt = 0 then wordBytes seg else seg.flatMap fun w => leBytes 2 (toBf16 w).toNat)) d
      d.count (.tile p.tile) 0x0C 1) s

/-- Formats of VQST by FMT (R107). -/
def vqstFmt : Nat → Option NFmt
  | 0 => some .k4f
  | 5 => some .e4m3
  | 6 => some .e5m2
  | _ => none

/-- The format in which a fallback-timed instruction runs: a K4F tensor under FALLBACK in E4M3, an FP8 tensor in its own
(R74, R98, R108; notes/assumptions/23.md). -/
def fallbackFmt (f : NFmt) (ft fb : Bool) : NFmt := if ft && fb && f = .k4f then .e4m3 else f

/-- VQST (R59, R60, R107, R108): the register passes through the quantiser as 16 blocks. With FT the segments lie in the
slots of an E4M3 layout (notes/assumptions/23.md). -/
def execVqst (p : Issue) (v : Fin 64) (fmt : Fin 16) (ft : Bool) (tid : BitVec 12) (addr : BitVec 26)
    (stride : BitVec 16) (saddr : BitVec 26) (s : State) : Host.Outcome State Fault Refusal :=
  onRun (fun d =>
    let n := p.tile
    let own := (vqstFmt fmt).getD .k4f
    let f := fallbackFmt own ft ((d.tile n).seq.fbMap.getLsbD tid.toNat)
    let size := 8 * f.bits
    let slot := if ft then 64 else size
    d.issue p 2 ((vqstFmt fmt).isNone || !segsOk addr.toNat stride.toNat slot size
        || (own = .k4f && !scalesOk saddr.toNat stride.toNat)) fun d =>
      let t := tid.toNat
      let xs := (d.vlanes n v).toList
      let stoch := d.flag (QNT_CTRL_STOCH_EN n) && d.statFlag n t 3
      let rs := lfsrValues 512 (d.getR (QNT_LFSR_STATE n))
      let d : Dev := if stoch then d.setR (QNT_LFSR_STATE n) rs.2 else d
      let d : Dev := (List.range 16).foldl (fun d b =>
        let r := d.quantInto n t f ((xs.drop (32 * b)).take 32)
          (if stoch then some ((rs.1.drop (32 * b)).take 32) else none)
        let d : Dev := r.2.tsWrite n (segAddr addr.toNat stride.toNat slot (b / 2) + (b % 2) * (4 * f.bits))
          (packCodes f.bits r.1.codes)
        if f.isFp8 then d
        else d.tsPutLe n (segScale saddr.toNat stride.toNat (b / 2) + b % 2) 1 r.1.scale) d
      d.count (.tile n) 0x0C 1) s

end Sys2Proof.Machine
end

