-- ==== Sys2Proof/Machine/Mangle.lean ====
section
/-! DEFINITION. The Mangles: panel images and their header check (R89 to R93), the arithmetic of a product (R94 to R98), and
MMA and DRAIN (R100 to R102, R116 to R118). -/

namespace Sys2Proof.Machine

open Reg

/-! Panel images (R89, R90, R91). -/

def imgLe (l : List Byte) (off size : Nat) : Nat := leVal ((l.drop off).take size)
def imgFormat (l : List Byte) : Option NFmt := nfmtOf (imgLe l 0 1)
def imgSparse (l : List Byte) : Nat := imgLe l 1 1
def imgWtid (l : List Byte) : Nat := imgLe l 2 2 % 4096
def imgWscale (l : List Byte) : Word := BitVec.ofNat 32 (imgLe l 4 4)

/-- NSPARSE values that a format allows. -/
def sparseOk (f : NFmt) (n : Nat) : Bool := n == 32 || ((f == .k4f || f == .k4i) && (n == 4 || n == 8 || n == 16))

/-- Dense K positions that a panel covers (R87). -/
def denseK (f : NFmt) (ns : Nat) : Nat :=
  match f with
  | .k4f => 4096 / ns
  | .k4i => 4096 / ns
  | .k3i => 128
  | .k2l => 256
  | .k2t => 256
  | .e4m3 => 64
  | .e5m2 => 64

/-- Blocks of a column, element bytes of a block, and the sizes of the arrays (R90, R91). -/
def colBlocks (f : NFmt) (ns : Nat) : Nat := denseK f ns / 32
def elemBytes (f : NFmt) (ns : Nat) : Nat := if ns = 32 then f.blockBytes else ns / 2
def elemSize (f : NFmt) (ns : Nat) : Nat := 64 * colBlocks f ns * elemBytes f ns
def maskSize (f : NFmt) (ns : Nat) : Nat := if ns = 32 then 0 else 64 * colBlocks f ns * 4
def scaleSize (f : NFmt) (ns : Nat) : Nat := if f.isFp8 then 0 else 64 * colBlocks f ns

/-- The size of the whole image (R91). -/
def panelBytes (f : NFmt) (ns : Nat) : Nat := 64 + elemSize f ns + maskSize f ns + scaleSize f ns

/-- The header check of R93: the CAUSE of the first check that fails. -/
def headerCause (l : List Byte) : Option Nat :=
  match imgFormat l with
  | none => some 1
  | some f =>
    if !sparseOk f (imgSparse l) then some 1
    else if imgLe l 8 4 ≠ panelBytes f (imgSparse l) then some 3
    else if !tscaleValid (imgWscale l) then some 2
    else if imgLe l 2 2 / 4096 ≠ 0 ∨ imgLe l 12 52 ≠ 0 then some 1
    else none

/-- The mask of block `b` of column `c` (all ones where the panel is dense). -/
def blockMask (l : List Byte) (f : NFmt) (ns c b : Nat) : Word :=
  if ns = 32 then 0xFFFFFFFF
  else BitVec.ofNat 32 (imgLe l (64 + elemSize f ns + 4 * (c * colBlocks f ns + b)) 4)

/-- A sparse block whose mask does not have exactly N bits set (R93). -/
def maskBad (l : List Byte) (f : NFmt) (ns c b : Nat) : Bool := ns != 32 && popCount (blockMask l f ns c b) != ns

def anyMaskBad (l : List Byte) : Bool :=
  match imgFormat l with
  | none => false
  | some f => (List.range 64).any fun c => (List.range (colBlocks f (imgSparse l))).any fun b => maskBad l f (imgSparse l) c b

/-- A panel's block scale as an FP32 factor: 1 without block scales, NaN for a bad mask (R90, R93, R94). -/
def panelScale (l : List Byte) (f : NFmt) (ns c b : Nat) : Word :=
  if f.isFp8 then 0x3F800000
  else if maskBad l f ns c b then vNan
  else ue5m3 (imgLe l (64 + elemSize f ns + maskSize f ns + c * colBlocks f ns + b) 1)

/-- The present elements of a block in ascending position: their positions and values in units of 2^−16 (R90). -/
def panelElems (l : List Byte) (f : NFmt) (ns c b : Nat) : List (Nat × Option Int) :=
  let bytes := (l.drop (64 + (c * colBlocks f ns + b) * elemBytes f ns)).take (elemBytes f ns)
  let pos := (List.range 32).filter fun i => (blockMask l f ns c b).getLsbD i
  pos.zipIdx.map fun e => (e.1, mangleVal f (codeAt f.bits bytes e.2))

/-! The arithmetic (R94, R95). -/

/-- The exact sum of a block's element products in units of 2^−32; NaN is none. -/
def blockSum (acts : List (Option Int)) (ws : List (Nat × Option Int)) : Option Int :=
  ws.foldl (fun s w =>
    match s, w.2, acts.getD w.1 (some 0) with
    | some a, some x, some y => some (a + x * y)
    | _, _, _ => none) (some 0)

/-- A Mangle's NaN: some NaN word (notes/assumptions/21.md). -/
def mangleNan (a b : Word) : Word := if isNan (Config.mangleNan a b) then Config.mangleNan a b else vNan

/-- One block's contribution added into the accumulator (R94). -/
def accBlock (acc : Word) (p : Option Int) (sa sw : Word) : Word :=
  let pf := match p with
    | none => vNan
    | some v => fOfDyadic false v (-32)
  let c := fMul vNan pf (fMul vNan sa sw)
  fAdd (mangleNan acc c) acc c

/-- The activation row as blocks of 32 values in units of 2^−16. -/
def actBlock (f : NFmt) (row : List Byte) (b : Nat) : List (Option Int) :=
  (List.range 32).map fun i => mangleVal f (codeAt f.bits row (32 * b + i))

/-- One row against one column of the panel (R94). -/
def mmaCell (l : List Byte) (f : NFmt) (ns : Nat) (af : NFmt) (row scales : List Byte) (c : Nat) (acc : Word) : Word :=
  (List.range (colBlocks f ns)).foldl (fun a b =>
    accBlock a (blockSum (actBlock af row b) (panelElems l f ns c b))
      (if af.isFp8 then 0x3F800000 else ue5m3 (scales.getD b 0).toNat) (panelScale l f ns c b)) acc

/-! MMA. -/

/-- Activation formats by AFMT (R116). -/
def actFmt (a : Nat) : NFmt := if a = 0 then .k4f else if a = 1 then .e4m3 else .e5m2

/-- Mangle `i` of the tile. -/
def Dev.mangle (d : Dev) (n : Fin 32) (i : Fin 4) : Mangle := (d.tile n).mangle[i]
def Dev.setMangle (d : Dev) (n : Fin 32) (i : Fin 4) (m : Mangle) : Dev :=
  let d : Dev := d.onTile n fun t => { t with mangle := t.mangle.set i m }
  (d.setBit (MGL_STATUS n) (8 + i) m.shadow.isSome).setBit (MGL_STATUS n) (4 + i) m.active.isSome

/-- The swap of R117: the shadow becomes active, and the old active panel's register an invalid shadow. -/
def Mangle.swap (m : Mangle) : Mangle := { m with active := m.shadow, shadow := none }

/-- A panel load arrives (R92, R93): the header check, and the mask check of an accepted sparse panel. -/
def Dev.loadPanel (d : Dev) (n : Fin 32) (i : Fin 4) (image : List Byte) : Dev :=
  let bad := headerCause image
  let d : Dev := d.setMangle n i { d.mangle n i with shadow := some ⟨image, bad.isSome⟩ }
  let info (d : Dev) (cause : Nat) : Dev :=
    ((d.setF (MGL_ERR_INFO_MANGLE n) i).setF (MGL_ERR_INFO_CAUSE n) cause).setF (MGL_ERR_INFO_WTID n) (imgWtid image)
  match bad with
  | some c => (info d c).latch (egMgl n) 1
  | none => if anyMaskBad image then (info d 0).latch (egMgl n) 0 else d

/-- The Mangles that MSEL names in the pair of stream `half` (R86, R116). -/
def mselSet (half : Fin 2) (msel : Nat) : List (Fin 4) :=
  (if msel % 2 = 1 then [⟨2 * half.val, by omega⟩] else []) ++
    (if msel / 2 % 2 = 1 then [⟨2 * half.val + 1, by omega⟩] else [])

/-- The panel that multiplies: the active one after the swap. -/
def Mangle.panel (m : Mangle) (sw : Bool) : Option PanelReg := if sw then m.shadow else m.active

/-- Bytes of a row's slice for a panel (R87). -/
def sliceBytes (p : Option PanelReg) (af : NFmt) : Nat :=
  match p with
  | none => 64
  | some q =>
    match imgFormat q.image with
    | none => 64
    | some f => if sparseOk f (imgSparse q.image) then denseK f (imgSparse q.image) * af.bits / 8 else 64

/-- One accumulator row after an MMA row (R93 to R97). -/
def mmaRow (k : Nat) (m : Mangle) (clr : Bool) (af : NFmt) (r : Nat) (row scales : List Byte) : AccRow :=
  let old : AccRow := m.acc.toList.getD r ⟨0, Vector.replicate 64 0⟩
  match m.active with
  | none => { old with vals := Vector.ofFn fun c => Config.noPanel k r c }
  | some q =>
    let tag := if clr then imgWscale q.image else old.tag
    let start : Vector Word 64 := if clr then Vector.replicate 64 0 else old.vals
    match q.err, imgFormat q.image with
    | false, some f => ⟨tag, Vector.ofFn fun c => mmaCell q.image f (imgSparse q.image) af row scales c start[c]⟩
    | _, _ => ⟨tag, Vector.ofFn fun c => mangleNan start[c] vNan⟩

/-- MMA on one Mangle: the swap, then every row in order. -/
def Dev.mmaOne (d : Dev) (n : Fin 32) (i : Fin 4) (sw clr : Bool) (af : NFmt) (rows acc aaddr astride saddr : Nat) : Dev :=
  let m0 := d.mangle n i
  let m : Mangle := if sw then m0.swap else m0
  let mix := !clr && (List.range rows).any fun j =>
    match m.active with
    | some q => imgWscale q.image != (m.acc.toList.getD (acc + j) ⟨0, Vector.replicate 64 0⟩).tag
    | none => false
  let len := sliceBytes m.active af
  let acc' : Vector AccRow 256 := Vector.ofFn fun r =>
    if acc ≤ r.val ∧ r.val < acc + rows then
      let j := r.val - acc
      mmaRow d.free m clr af r (d.tsRead n (64 * (aaddr + j * astride)) len) (d.tsRead n (saddr + 4 * j * astride) 32)
    else m.acc[r]
  let d : Dev := d.setMangle n i { m with acc := acc' }
  let d : Dev := if m.active.isNone then d.drawFree else d
  let d : Dev := if mix then d.latch (egMgl n) 3 else d
  (d.count (.tile n) (7 + i) rows).count (.tile n) 0x0B rows

/-- MMA (R86, R87, R94 to R98, R116, R117). An invalid shadow with SW raises SHADOW (R152). -/
def execMma (p : Issue) (half : Fin 2) (msel : BitVec 2) (sw clr ft : Bool) (afmt : BitVec 2) (atid : BitVec 12)
    (rows acc : Fin 256) (aaddr : BitVec 20) (astride : BitVec 16) (saddr : BitVec 26) (s : State) :
    Host.Outcome State Fault Refusal :=
  onRun (fun d =>
    let n := p.tile
    let af := fallbackFmt (actFmt afmt.toNat) ft
      (d.getF (QNT_STEP_STATUS_PASS n) == 2 && (d.tile n).seq.fbMap.getLsbD atid.toNat)
    let sel := mselSet half msel.toNat
    let bad := msel == 0 || afmt == 3 || decide (256 < acc.val + rows.val + 1) ||
      sel.any fun i => decide (tsBytes < 64 * (aaddr.toNat + rows.val * astride.toNat) + sliceBytes ((d.mangle n i).panel sw) af)
    d.issue p half bad fun d =>
      if sw && sel.any (fun i => (d.mangle n i).shadow.isNone) then d.sfault n 8 half p.idx p.cyc 0
      else sel.foldl (fun d i => d.mmaOne n i sw clr af (rows.val + 1) acc aaddr.toNat astride.toNat saddr.toNat) d) s

/-! DRAIN. -/

/-- A drained row: each value scaled by the row's tag and TSCALE, or as it stands (R101). -/
def drainRow (r : AccRow) (ts : Option Word) : Vector Word 64 :=
  match ts with
  | none => r.vals
  | some t =>
    let k := fMul vNan r.tag t
    Vector.ofFn fun c => fMul (mangleNan r.vals[c] k) r.vals[c] k

/-- DRAIN (R100 to R102, R118). -/
def execDrain (p : Issue) (half : Fin 2) (odd : Bool) (dkind : BitVec 2) (scl zero : Bool) (atid : BitVec 12)
    (acc rows : Fin 256) (vd : Fin 64) (daddr : BitVec 20) (dstride : BitVec 16) (s : State) :
    Host.Outcome State Fault Refusal :=
  onRun (fun d =>
    let n := p.tile
    let i : Fin 4 := ⟨2 * half.val + (if odd then 1 else 0), by split <;> omega⟩
    let k := rows.val + 1
    let dk := dkind.toNat
    let rowLen := if dk = 1 then 256 else 128
    let bad := dk == 3 || decide (256 < acc.val + k) ||
      (if dk = 0 then k % 8 != 0 || decide (64 < vd.val + k / 8)
       else decide (tsBytes < 64 * (daddr.toNat + rows.val * dstride.toNat) + rowLen))
    d.issue p half bad fun d =>
      let ts := d.tscale n atid.toNat
      let d : Dev := if scl && !tscaleValid ts then (d.tscaleBad n atid.toNat).latch (egMgl n) 2 else d
      let m := d.mangle n i
      let out : List (Vector Word 64) := (List.range k).map fun j =>
        drainRow (m.acc.toList.getD (acc.val + j) ⟨0, Vector.replicate 64 0⟩) (if scl then some (tscaleUsed ts) else none)
      let row (j : Nat) : Vector Word 64 := out.getD j (Vector.replicate 64 0)
      let reg (r : Nat) : Lanes := Vector.ofFn fun l => (row (8 * (r - vd.val) + l.val / 64)).toList.getD (l.val % 64) 0
      let d : Dev := if zero then
          d.setMangle n i { m with acc := Vector.ofFn fun r =>
            if acc.val ≤ r.val ∧ r.val < acc.val + k then { m.acc[r] with vals := Vector.replicate 64 0 } else m.acc[r] }
        else d
      if dk = 0 then
        d.onTile n fun t => { t with vreg := Vector.ofFn fun r =>
          if vd.val ≤ r.val ∧ r.val < vd.val + k / 8 then (reg r) else t.vreg[r] }
      else
        (List.range k).foldl (fun d j =>
          d.tsWrite n (64 * (daddr.toNat + j * dstride.toNat))
            (if dk = 1 then wordBytes (row j).toList else (row j).toList.flatMap fun w => leBytes 2 (toBf16 w).toNat)) d) s

end Sys2Proof.Machine
end

