-- ==== Sys2Proof/Machine/Streams.lean ====
section
/-! DEFINITION. The instructions that every stream has, waits, tokens, loop groups and schedule faults (R111, R115, R123, R139 to
R147, R152 to R154). -/

namespace Sys2Proof.Machine

open Reg

def Dev.seq (d : Dev) (n : Fin 32) : Seq := (d.tile n).seq
def Dev.onSeq (d : Dev) (n : Fin 32) (f : Seq → Seq) : Dev := d.onTile n fun t => { t with seq := f t.seq }

/-- The tile's pass sequence and the EPOCH of its group (R141, R289). -/
def Dev.passSeq (d : Dev) (n : Fin 32) : Nat := d.getF (TCTL_PASS_STATUS_PASS_SEQ n)
def Dev.epoch (d : Dev) (n : Fin 32) : Nat := d.getF (XPT_CTRL_EPOCH n)

/-- Some stream of the tile has not issued END, no wait runs, and a pass runs: the streams issue together. -/
def Dev.issuesAll (d : Dev) (n : Fin 32) : Bool := d.running n && (d.seq n).ended != 31#5 && (d.seq n).wait.isNone

/-- An instruction that all unended streams issue in one cycle; a malformed one faults with stream 7, no single stream. -/
def Dev.issueAll (d : Dev) (p : Issue) (bad : Bool) (f : Dev → Dev) : Dev :=
  if !d.issuesAll p.tile then d
  else if bad then d.sfault p.tile 1 7 p.idx p.cyc 0
  else f d

/-- NOP (R114). -/
def execNop (p : Issue) (st : Fin 5) (s : State) : Host.Outcome State Fault Refusal :=
  onRun (fun d => d.issue p st false fun d => d) s

/-! Tokens (R139, R141). -/

def tokReserved (t : Nat) : Bool := decide (4032 ≤ t) && decide (t ≤ 4093)
def tokQuiet (t : Nat) : Bool := t == 4094 || t == 4095
def tokTier (t : Nat) : Bool := decide (3072 ≤ t) && decide (t < 4032)

/-- A token's counts in the two banks. -/
def Dev.tokCur (d : Dev) (n : Fin 32) (t : Nat) : Nat := smGet (fun _ => 0) (d.seq n).cur t
def Dev.tokNext (d : Dev) (n : Fin 32) (t : Nat) : Nat := smGet (fun _ => 0) (d.seq n).next t
def Dev.setTokCur (d : Dev) (n : Fin 32) (t v : Nat) : Dev := d.onSeq n fun q => { q with cur := smPut (fun _ => 0) q.cur t v }
def Dev.setTokNext (d : Dev) (n : Fin 32) (t v : Nat) : Dev := d.onSeq n fun q => { q with next := smPut (fun _ => 0) q.next t v }

/-- A token message is discarded (R141). -/
def Dev.staleToken (d : Dev) (n : Fin 32) : Dev := (d.satInc (TCTL_STALE_COUNT n)).latch (egTctl n) 3

/-- A tier token arrived with ERR set (R143). -/
def Dev.tierErr (d : Dev) (n : Fin 32) (t : Nat) : Dev :=
  (d.setBit (TCTL_TIER_ERR n ((t - 3072) / 32)) (t % 32) true).latch (egTctl n) 2

/-- A token is counted in the current bank in pass cycle `cyc`. -/
def Dev.countCur (d : Dev) (n : Fin 32) (t : Nat) (err : Bool) (cyc : Nat) : Dev :=
  let full := decide (255 ≤ d.tokCur n t)
  if full ∧ ¬ d.running n then d.staleToken n
  else
    let d : Dev := if err ∧ tokTier t then d.tierErr n t else d
    let d : Dev := d.count (.tile n) 0x17 1
    if full then d.sfault n 0x0E 7 0 cyc t else d.setTokCur n t (d.tokCur n t + 1)

/-- A token is counted in the next bank. -/
def Dev.countNext (d : Dev) (n : Fin 32) (t : Nat) (err : Bool) : Dev :=
  let d : Dev := d.count (.tile n) 0x17 1
  let d : Dev := if err ∧ tokTier t then d.onSeq n fun q => { q with nextErr := q.nextErr ++ [t] } else d
  if 255 ≤ d.tokNext n t then d.onSeq n fun q => { q with nextOver := q.nextOver ++ [t] }
  else d.setTokNext n t (d.tokNext n t + 1)

/-- TOKEN_MESSAGE (R141), arriving in pass cycle `cyc`. -/
def execTokenMessage (n : Fin 32) (tok : BitVec 12) (seq epoch : BitVec 16) (err : Bool) (cyc : Nat) (s : State) :
    Host.Outcome State Fault Refusal :=
  onRun (fun d =>
    if epoch.toNat ≠ d.epoch n then d.staleToken n
    else if seq.toNat = d.passSeq n then d.countCur n tok.toNat err cyc
    else if seq.toNat = (d.passSeq n + 1) % 65536 then d.countNext n tok.toNat err
    else d.staleToken n) s

/-! SIGNAL (R139, R140). -/

/-- The token message of a SIGNAL. -/
def Dev.tokenMsg (d : Dev) (n : Fin 32) (tok pkg tile : Nat) : Dmsg :=
  ⟨5, 0, 0, 0, d.nodeOf (some n), ⟨pkg, tile, false⟩, 0, d.passSeq n, 0, 0, tok + d.epoch n * 2 ^ 16, []⟩

/-- A token message that crosses stages needs one of the tile's egress slots (R385). -/
def Dev.tokReady (d : Dev) (n : Fin 32) (m : Dmsg) : Bool := !d.crosses m || decide (0 < d.gw.egress[Fin.ofNat 33 n.val])

/-- A token message ends in an error at its source. -/
def Dev.signalErr (d : Dev) (n : Fin 32) (m : Dmsg) (code : Nat) : Dev :=
  (d.opError (some n) .mover code m.dst).latch (egTctl n) 4

/-- A token message leaves. -/
def Dev.tokSend (d : Dev) (n : Fin 32) (m : Dmsg) : Dev :=
  if d.crosses m ∧ ¬ d.flag DLD_CTRL_GW_EN then d.signalErr n m 9
  else
    let k := Fin.ofNat 33 n.val
    let d : Dev := if d.crosses m then { d with gw := { d.gw with egress := d.gw.egress.set k (d.gw.egress[k] - 1) } } else d
    match d.sendOut .req m with
    | some e => e
    | none => (d.satInc FAB_UNREACH_COUNT).signalErr n m 6

/-- SIGNAL (R140): held while earlier global writes and atomics are not acknowledged, or an earlier token is held. -/
def execSignal (p : Issue) (st : Fin 5) (tok : BitVec 12) (pkg : BitVec 17) (tile : Fin 32) (loc : Bool) (s : State) :
    Host.Outcome State Fault Refusal :=
  onRun (fun d => d.issue p st (decide (4032 ≤ tok.toNat)) fun d =>
    let n := p.tile
    let m := d.tokenMsg n tok.toNat (if loc then d.self else pkg.toNat) tile
    let w := d.moverWrites n
    if w.isEmpty ∧ (d.seq n).held.isEmpty ∧ d.tokReady n m then d.tokSend n m
    else d.onSeq n fun q => { q with held := q.held ++ [⟨m, w⟩] }) s

/-- SIGNAL_TOKEN_SEND (R140): the oldest held token message leaves once nothing that it waits for is outstanding. -/
def execSignalTokenSend (n : Fin 32) (s : State) : Host.Outcome State Fault Refusal :=
  onRun (fun d =>
    match (d.seq n).held with
    | [] => d
    | h :: t =>
      if ((d.moverWrites n).any fun i => h.waits.contains i) ∨ ¬ d.tokReady n h.msg then d
      else (d.onSeq n fun q => { q with held := t }).tokSend n h.msg) s

/-! Waits (R142 to R145). -/

/-- The wait's condition holds. -/
def Dev.waitMet (d : Dev) (n : Fin 32) (t : Nat) : Bool :=
  if t = 4095 then d.moverQuiet n else if t = 4094 then d.helperQuiet n else decide (1 ≤ d.tokCur n t)

/-- The wait releases in pass cycle `cyc`, having lasted `beats` beats. -/
def Dev.waitEnd (d : Dev) (n : Fin 32) (cyc beats : Nat) : Dev :=
  d.onSeq n fun q => { q with wait := none, resumeAt := cyc, waitBeats := q.waitBeats + beats }

/-- The wait's token is consumed, or its quiet condition used. -/
def Dev.waitTake (d : Dev) (n : Fin 32) (t : Nat) : Dev :=
  if t = 4095 then d.onDelud n fun x => { x with sendBytes := 0 }
  else if t = 4094 then d
  else d.setTokCur n t (d.tokCur n t - 1)

/-- Beats of a bound, and the cycle in which a wait expires (R143). -/
def waitBeatsOf (w : WaitRec) : Nat := (w.bound + 255) / 256
def waitEndsAt (w : WaitRec) : Nat := w.cyc + 256 * waitBeatsOf w

/-- A wait expires. `lost`: the fabric has reported lost the package that was to send the token or acknowledge the operation
(R145), and the pass stops with no schedule fault. -/
def Dev.waitExpire (d : Dev) (n : Fin 32) (w : WaitRec) (lost : Bool) : Dev :=
  if tokTier w.tok then
    ((d.setBit (TCTL_TIER_LATE n ((w.tok - 3072) / 32)) (w.tok % 32) true).latch (egTctl n) 1).waitEnd n (waitEndsAt w)
      (waitBeatsOf w)
  else if lost then (d.setF (TCTL_PASS_STATUS_STATE n) 2).emit (.signal "PEER_LOST_STOP" [n, w.tok])
  else d.sfault n 0x0B 7 w.idx (waitEndsAt w) w.tok

/-- WAIT (R142), issued by every unended stream. A wait inside a loop body is a LOOP_MISMATCH (R146, R152). -/
def execWait (p : Issue) (tok : BitVec 12) (bound : BitVec 32) (s : State) : Host.Outcome State Fault Refusal :=
  onRun (fun d => d.issueAll p (tokReserved tok.toNat) fun d =>
    let n := p.tile
    let w : WaitRec := ⟨tok.toNat, bound.toNat, p.cyc, p.idx⟩
    if (d.seq n).loops ≠ [] then d.sfault n 0x0C 7 p.idx p.cyc 0
    else if d.waitMet n w.tok then (d.waitTake n w.tok).waitEnd n p.cyc 0
    else if w.bound = 0 then (d.onSeq n fun q => { q with wait := some w }).waitExpire n w false
    else d.onSeq n fun q => { q with wait := some w }) s

/-- WAIT_RELEASE (R142): pass cycle `cyc` is a whole number of beats after the wait's issue. -/
def execWaitRelease (n : Fin 32) (cyc : Nat) (s : State) : Host.Outcome State Fault Refusal :=
  onRun (fun d =>
    match (d.seq n).wait with
    | none => d
    | some w =>
      if d.running n ∧ w.cyc ≤ cyc ∧ (cyc - w.cyc) % 256 = 0 ∧ cyc ≤ waitEndsAt w ∧ d.waitMet n w.tok then
        (d.waitTake n w.tok).waitEnd n cyc ((cyc - w.cyc) / 256)
      else d) s

/-- WAIT_EXPIRY (R143, R145): the wait's last cycle, with its condition not met. -/
def execWaitExpiry (n : Fin 32) (lost : Bool) (s : State) : Host.Outcome State Fault Refusal :=
  onRun (fun d =>
    match (d.seq n).wait with
    | none => d
    | some w => if d.running n ∧ ¬ d.waitMet n w.tok then d.waitExpire n w lost else d) s

/-! Loop groups (R146, R147). -/

/-- LOOP. With a trip count of 0 the body does not run and the group ends at once. -/
def execLoop (p : Issue) (group : Fin 16) (slot : Fin 64) (maxtrip : BitVec 16) (s : State) : Host.Outcome State Fault Refusal :=
  onRun (fun d => d.issueAll p false fun d =>
    let n := p.tile
    let l := (d.seq n).loops
    let k := (d.seq n).trips[slot]
    if 4 ≤ l.length ∨ (l.any fun r => r.group == group.val) then d.sfault n 0x0C 7 p.idx p.cyc 0
    else if maxtrip.toNat < k then d.sfault n 0x0D 7 p.idx p.cyc (slot.val * 2 ^ 16 + k)
    else if k = 0 then d.onSeq n fun q => { q with resumeAt := p.cyc }
    else d.onSeq n fun q => { q with loops := ⟨group, p.cyc, k, 0, 0⟩ :: l }) s

/-- LEND: it ends an iteration; the first sets the period, and each later one must fall a period after it. After the last
iteration the group ends at a whole beat. -/
def execLend (p : Issue) (group : Fin 16) (s : State) : Host.Outcome State Fault Refusal :=
  onRun (fun d => d.issueAll p false fun d =>
    let n := p.tile
    match (d.seq n).loops with
    | [] => d.sfault n 0x0C 7 p.idx p.cyc 0
    | r :: t =>
      let per := if r.iter = 0 then p.cyc - r.start else r.period
      if r.group ≠ group.val ∨ p.cyc ≠ r.start + (r.iter + 1) * per then d.sfault n 0x0C 7 p.idx p.cyc 0
      else if r.iter + 1 < r.trips then
        d.onSeq n fun q => { q with loops := { r with period := per, iter := r.iter + 1 } :: t }
      else
        d.onSeq n fun q => { q with loops := t, resumeAt := r.start + 256 * ((r.trips * per + 255) / 256) }) s

/-! The end of a pass (R77, R123). -/

/-- The last stream has ended in pass cycle `e`: the pass ends, the quantiser closes its counts, the vote record is due. -/
def Dev.passEnd (d : Dev) (n : Fin 32) (e : Nat) : Dev :=
  let d := ((d.setF (TCTL_PASS_STATUS_STATE n) 0).setN (TCTL_PASS_LEN n) e).setN (TCTL_WAIT_BEATS n) (d.seq n).waitBeats
  let d : Dev := d.onTile n fun t => { t with voteDue := true, seq := { t.seq with wait := none, loops := [] } }
  if (d.tile n).troubled ≠ [] then d.latch (egQnt n) 0 else d

/-- END. -/
def execEnd (p : Issue) (st : Fin 5) (s : State) : Host.Outcome State Fault Refusal :=
  onRun (fun d => d.issue p st false fun d =>
    let d : Dev := d.onSeq p.tile fun q => { q with ended := q.ended ||| BitVec.ofNat 5 (2 ^ st.val) }
    if (d.seq p.tile).ended = 31#5 then d.passEnd p.tile p.cyc else d) s

/-- MARK (R115, R468): a snapshot of the tile's counters with the marker and the pass cycle. -/
def execMark (p : Issue) (st : Fin 5) (marker : BitVec 16) (now : Nat) (s : State) : Host.Outcome State Fault Refusal :=
  onRun (fun d => d.issue p st false fun d =>
    let a := tilePmc p.tile
    let d := ((d.at_ now).snapshot (.tile p.tile) 2).setF (PMC_SH_INFO_MARKER a) marker.toNat
    (d.setN (PMC_SH_CYCLE a) p.cyc).count (.tile p.tile) 0x18 1) s

/-! Schedule faults (R152, R154). -/

/-- The first byte of the half of the instruction store in use: 0, or 4 MiB for the fallback half (R128). -/
def Dev.halfBase (d : Dev) (n : Fin 32) : Nat := if d.flag (TCTL_PASS_STATUS_FB_HALF n) then 0x400000 else 0

/-- PASS_OVERRUN (R129, R152): PASS_BOUND tile cycles after pass cycle 0 the pass still runs. -/
def execPassOverrun (n : Fin 32) (s : State) : Host.Outcome State Fault Refusal :=
  onRun (fun d =>
    if d.running n then d.sfault n 0x0F 7 0 (memLe (d.tile n).imem (d.halfBase n + 0x0C) 4) 0 else d) s

/-- SCHEDULE_FAULT (R152, R154): the scoreboard finds a violation that depends on cycles, with its cause, stream, index, pass
cycle and argument. -/
def execScheduleFault (n : Fin 32) (cause : Fin 18) (stream : Fin 8) (idx cyc arg : Nat) (s : State) :
    Host.Outcome State Fault Refusal :=
  onRun (fun d => if d.running n then d.sfault n cause stream idx cyc arg else d) s

end Sys2Proof.Machine
end

