-- ==== Sys2Proof/Machine/Mover.lean ====
section
/-! DEFINITION. The mover: MCOPY, MATOM, Peg copies and the Peg queues (R121, R132, R244 to R249, R363, R370, R375). -/

namespace Sys2Proof.Machine

open Reg

/-! Pegs. -/

/-- The Peg that 16 bytes spell (R244). -/
def pegOf (b : BitVec 128) : Peg :=
  ⟨b.toNat % 2 ^ 64, b.toNat / 2 ^ 64 % 256, b.toNat / 2 ^ 72 % 256, b.toNat / 2 ^ 80 % 65536, b.toNat / 2 ^ 96⟩

/-- An invalid Peg (R244) of tile `n`; the dump region is units 15,360 to 16,383 of T0. -/
def Peg.bad (k : Peg) (n : Fin 32) : Bool :=
  decide (1 < k.kind) || decide (1 < k.queue) || k.addr % 32768 != 0 || (k.queue == 1 && k.kind == 1) ||
    if k.kind = 0 then
      decide (k.addr < 2 ^ 21) || decide (2 ^ 35 ≤ k.addr) || (n == 0 && decide (0x780000000 ≤ k.addr))
    else decide (tsBytes ≤ k.addr)

/-- HMP_PEGQ follows the queues. -/
def Dev.pegDepth (d : Dev) (n : Fin 32) : Dev :=
  (d.setF (HMP_PEGQ_PQ0_DEPTH n) (d.tile n).pq[0].length).setF (HMP_PEGQ_PQ1_DEPTH n) (d.tile n).pq[1].length

/-- PEG_PUSH (R246): a Peg joins its queue; the push stalls while 1,024 Pegs wait. -/
def execPegPush (n : Fin 32) (q : Fin 2) (peg : BitVec 128) (s : State) : Host.Outcome State Fault Refusal :=
  onRun (fun d =>
    if 1024 ≤ (d.tile n).pq[q].length then d
    else (d.onTile n fun t => { t with pq := t.pq.set q (t.pq[q] ++ [pegOf peg]) }).pegDepth n) s

/-- An event of R249: the bit of HMP_EVENT, and the step's sequences end INTERNAL at the boundary. -/
def Dev.hmpEvent (d : Dev) (n : Fin 32) (b : Nat) : Dev :=
  (d.onTile n fun t => { t with hmpFault := true }).latch (egHmp n) b

/-- A Peg copy takes the next Peg of its queue: none where the queue is empty or the Peg invalid. -/
def Dev.pegTake (d : Dev) (n : Fin 32) (q : Fin 2) : Option Peg × Dev :=
  match (d.tile n).pq[q] with
  | [] => (none, d.hmpEvent n 1)
  | k :: t =>
    let d : Dev := (d.onTile n fun x => { x with pq := x.pq.set q t }).pegDepth n
    let d : Dev := d.setPair (HMP_PEG_LO n) (HMP_PEG_HI n) (d.getPair (HMP_PEG_LO n) (HMP_PEG_HI n) + 1)
    let d : Dev := if q = 0 ∧ k.page = 0xFFFFFFFF then d.satInc (HMP_NULL_COUNT n) else d
    if k.bad n then (none, d.hmpEvent n 2) else (some k, d)

/-! Transfers in groups. -/

/-- A transfer of `count` groups: a group is read, and `lag` groups later its write is seen, so a read of the same transfer sees
the groups at least `lag` before it. -/
def Dev.grouped {α : Type} (d : Dev) (count lag : Nat) (rd : Dev → Nat → α × Dev) (wr : Dev → Nat → α → Dev) : Dev :=
  ((List.range (count + lag)).foldl (fun (x : Dev × List α) k =>
    let x : Dev × List α :=
      if lag ≤ k then
        match x.2 with
        | a :: t => (wr x.1 (k - lag) a, t)
        | [] => x
      else x
    if k < count then
      let r := rd x.1 k
      (r.2, x.2 ++ [r.1])
    else x) (d, [])).1

/-- The lines of a transfer's group: foreground reads of own DRAM, with whether each was uncorrectable. -/
def Dev.fgRead (d : Dev) (n : Fin 32) (reps : List (Nat × EccRep)) (line k : Nat) : List (List Byte × Bool) × Dev :=
  (List.range k).foldl (fun (x : List (List Byte × Bool) × Dev) i =>
    let r := x.2.dramRead n (line + i) 0 (repOf reps (line + i))
    (x.1 ++ [(r.1, r.2.1)], r.2.2.count (.tile n) 0x10 1)) ([], d)

/-- Foreground writes of own DRAM; a line that was uncorrectable at its source is stored poisoned (R164). -/
def Dev.fgWrite (d : Dev) (n : Fin 32) (wues : List Nat) (line : Nat) (l : List (List Byte × Bool)) : Dev :=
  (l.zipIdx).foldl (fun d x =>
    let d : Dev := (d.dramWrite n (line + x.2) x.1.1 (wues.contains (line + x.2))).heldApply n (line + x.2) x.1.1
    (if x.1.2 then d.setPoison n (line + x.2) true else d).count (.tile n) 0x10 1) d

/-- Bytes as lines that were read without error. -/
def asLines (l : List Byte) : List (List Byte × Bool) :=
  (List.range ((l.length + 63) / 64)).map fun i => ((l.drop (64 * i)).take 64, false)

def lineData (l : List (List Byte × Bool)) : List Byte := l.flatMap Prod.fst

/-- Units of 64 bytes in group `g` of a transfer of `units` with groups of `size`. -/
def groupUnits (units size g : Nat) : Nat := min size (units - size * g)
def groupsOf (units size : Nat) : Nat := (units + size - 1) / size

/-- Tile store to tile store, from byte `a` to byte `b`, in groups of `size` units. -/
def Dev.copyStore (d : Dev) (n : Fin 32) (a b units size : Nat) : Dev :=
  d.grouped (groupsOf units size) 7 (fun d g => (d.tsRead n (a + 64 * size * g) (64 * groupUnits units size g), d))
    fun d g l => d.tsWrite n (b + 64 * size * g) l

/-- Own DRAM to tile store. -/
def Dev.copyLoad (d : Dev) (n : Fin 32) (reps : List (Nat × EccRep)) (line b units : Nat) : Dev :=
  let r := d.fgRead n reps line units
  r.2.tsWrite n b (lineData r.1)

/-- Tile store to own DRAM. -/
def Dev.copySave (d : Dev) (n : Fin 32) (wues : List Nat) (a line units : Nat) : Dev :=
  d.fgWrite n wues line (asLines (d.tsRead n a (64 * units)))

/-- Own DRAM to own DRAM, whose reads see writes of the transfer from 48 groups on. -/
def Dev.copyDram (d : Dev) (n : Fin 32) (reps : List (Nat × EccRep)) (wues : List Nat) (a b units : Nat) : Dev :=
  d.grouped (groupsOf units 48) 48 (fun d g => d.fgRead n reps (a + 48 * g) (groupUnits units 48 g))
    fun d g l => d.fgWrite n wues (b + 48 * g) l

/-! Global operations. -/

/-- A transfer from global address `g` as messages of at most `size` bytes, each within one 2 MiB unit (R363). -/
def splits : Nat → Nat → Nat → Nat → List (Nat × Nat)
  | 0, _, _, _ => []
  | fuel + 1, g, len, size =>
    if len = 0 then []
    else
      let k := min (min size len) (2 ^ 21 - g % 2 ^ 21)
      (g, k) :: splits fuel (g + k) (len - k) size

/-- One message of the mover, with the key that the grant table gives (R375). -/
def Dev.moverOp (d : Dev) (n : Fin 32) (use : TxUse) (vc : Vc) (m : Dmsg) : Dev :=
  match d.grantFor n m.addr with
  | none => d.opError (some n) .mover 2 (gaNode m.addr)
  | some g => d.sendOp (some n) .mover use vc { m with key := g.key }

/-- Data leaves for global memory from the send buffer: STOREs of one line, or BULK_STOREs (R367). -/
def Dev.storeGlobal (d : Dev) (n : Fin 32) (g : Nat) (bulk : Bool) (l : List Byte) : Dev :=
  (splits 65536 g l.length (if bulk then 1024 else 64)).foldl (fun d x =>
    d.moverOp n .write (if bulk then .bulk else .req)
      { reqMsg (if bulk then 3 else 2) 0 x.1 with data := (l.drop (x.1 - g)).take x.2 }) d

/-- Global memory is read: one LOAD_REQ for each unit that the transfer covers (R367). -/
def Dev.loadGlobal (d : Dev) (n : Fin 32) (g len : Nat) (bulk : Bool) (use : Nat → TxUse) : Dev :=
  (splits 4 g len (2 ^ 21)).foldl (fun d x =>
    d.moverOp n (use x.1) (if bulk then .bulk else .req) { reqMsg 1 0 x.1 with rlen := x.2 }) d

/-- Bytes enter the send buffer; past 4 MiB the instruction is a violation, code 0x11 (R370). -/
def Dev.sendBuffer (d : Dev) (p : Issue) (k : Nat) (f : Dev → Dev) : Dev :=
  let b := (d.delud p.tile).sendBytes + k
  if 0x400000 < b then d.sfault p.tile 0x11 3 p.idx p.cyc 0
  else f (d.onDelud p.tile fun x => { x with sendBytes := b })

/-! MCOPY. -/

/-- The sizes of panels in units of 64 bytes: R91's sizes are multiples of 64 or rounded up to one. -/
def isPanelUnits (u : Nat) : Bool :=
  [(NFmt.k4f, 32), (.k4f, 16), (.k4f, 8), (.k4f, 4), (.k3i, 32), (.k2l, 32), (.e4m3, 32)].any fun x =>
    u == (panelBytes x.1 x.2 + 63) / 64

/-- The read Peg copy and the write Peg copy of R247, for `units` units. -/
def pegRead (sk dk saddr units : Nat) : Bool := sk == 1 && dk == 0 && decide (saddr < 512) && decide (saddr + units ≤ 512)
def pegWrite (sk dk daddr units : Nat) : Bool :=
  sk == 0 && dk == 1 && decide (512 ≤ daddr) && decide (daddr < 1024) && decide (daddr + units ≤ 1024)

/-- An end of kind `k` at unit address `a` whose range leaves its memory. -/
def endBad (k a units : Nat) : Bool :=
  (k == 0 && decide (2 ^ 20 < a + units)) || ((k == 1 || k == 2) && decide (2 ^ 29 < a + units))

/-- A malformed MCOPY (R113, R121, R247). -/
def mcopyBad (sk dk saddr daddr units : Nat) : Bool :=
  decide (2 < sk) || decide (3 < dk) || (sk == 2 && dk == 2) ||
    (dk == 3 && (sk == 2 || decide (4 ≤ daddr) || !isPanelUnits units)) ||
    endBad sk saddr units || endBad dk daddr units ||
    (sk == 1 && decide (saddr < 2 ^ 15) && !pegRead sk dk saddr units) ||
    (dk == 1 && decide (daddr < 2 ^ 15) && !pegWrite sk dk daddr units)

/-- A read Peg copy to tile-store byte `b`, of `units` units from unit `off` of the page (R247, R249). -/
def Dev.pegLoad (d : Dev) (n : Fin 32) (reps : List (Nat × EccRep)) (off b units : Nat) : Dev :=
  let x := d.pegTake n 0
  match x.1 with
  | none => x.2.tsWrite n b (List.replicate (64 * units) 0)
  | some k =>
    if k.kind = 0 then x.2.copyLoad n reps (k.addr / 64 + off) b units
    else x.2.copyStore n (k.addr + 64 * off) b units 48

/-- A write Peg copy from tile-store byte `a` (R247, R249). -/
def Dev.pegSave (d : Dev) (n : Fin 32) (wues : List Nat) (a off units : Nat) : Dev :=
  let x := d.pegTake n 1
  match x.1 with
  | none => x.2
  | some k => x.2.copySave n wues a (k.addr / 64 + off) units

/-- MCOPY (R121, R132, R247, R370). `reps` lists the lines that the codes did not find clean, `wues` the lines whose write met a
link UE. -/
def execMcopy (p : Issue) (sk dk : BitVec 3) (len : BitVec 16) (saddr daddr : BitVec 29) (pkg : BitVec 17) (tile : Fin 32)
    (bulk : Bool) (reps : List (Nat × EccRep)) (wues : List Nat) (s : State) : Host.Outcome State Fault Refusal :=
  onRun (fun d =>
    let n := p.tile
    let u := len.toNat + 1
    let a := saddr.toNat
    let b := daddr.toNat
    d.issue p 3 (mcopyBad sk.toNat dk.toNat a b u) fun d =>
      match sk.toNat, dk.toNat with
      | 0, 0 => d.copyStore n (64 * a) (64 * b) u 16
      | 0, 1 => if b < 2 ^ 15 then d.pegSave n wues (64 * a) (b - 512) u else d.copySave n wues (64 * a) b u
      | 0, 2 => d.sendBuffer p (64 * u) fun d => d.storeGlobal n (gaddr pkg.toNat tile (64 * b)) bulk (d.tsRead n (64 * a) (64 * u))
      | 0, _ => d.loadPanel n (Fin.ofNat 4 b) (d.tsRead n (64 * a) (64 * u))
      | 1, 0 => if a < 2 ^ 15 then d.pegLoad n reps a (64 * b) u else d.copyLoad n reps a (64 * b) u
      | 1, 1 => d.copyDram n reps wues a b u
      | 1, 2 => d.sendBuffer p (64 * u) fun d =>
          let r := d.fgRead n reps a u
          r.2.storeGlobal n (gaddr pkg.toNat tile (64 * b)) bulk (lineData r.1)
      | 1, _ =>
          let r := d.fgRead n reps a u
          r.2.loadPanel n (Fin.ofNat 4 b) (lineData r.1)
      | _, 0 => d.loadGlobal n (gaddr pkg.toNat tile (64 * a)) (64 * u) bulk fun g =>
          .toStore g (64 * b + (g - gaddr pkg.toNat tile (64 * a)))
      | _, _ => d.loadGlobal n (gaddr pkg.toNat tile (64 * a)) (64 * u) bulk fun g =>
          .toDram g (64 * b + (g - gaddr pkg.toNat tile (64 * a)))) s

/-- A malformed MATOM (R113, R121): an undefined AOP, or a swap value beyond tile store. -/
def matomBad (aop opaddr : Nat) : Bool := decide (4 < aop) || (aop == 4 && opaddr == 2 ^ 23 - 1)

/-- MATOM (R121): the operand is read from tile store and a Delud atomic is sent; its old value lands over the operand. -/
def execMatom (p : Issue) (aop : BitVec 4) (sz : Bool) (gaddr : BitVec 57) (opaddr : BitVec 23) (s : State) :
    Host.Outcome State Fault Refusal :=
  onRun (fun d =>
    let n := p.tile
    let size := if sz then 8 else 4
    let a := 8 * opaddr.toNat
    d.issue p 3 (matomBad aop.toNat opaddr.toNat) fun d => d.sendBuffer p 64 fun d =>
      let data := d.tsRead n a size ++ (if aop = 4 then d.tsRead n (a + 8) size else [])
      d.moverOp n (.atomic a size) .req
        { reqMsg 4 0 gaddr.toNat with aop := aop.toNat + (if sz then 16 else 0), data := data }) s

end Sys2Proof.Machine
end

