-- ==== Sys2Proof/Machine/Hamper.lean ====
section
/-! DEFINITION. The Hamper: HAPPEND and HFLUSH over the bins of the Hamper area (R234, R236, R238, R241, R242, R249). -/

namespace Sys2Proof.Machine

open Reg

/-! The page image (R234). -/

def kpAt (k : Nat) : Nat := 0x1140 * k
def vpAt (k : Nat) : Nat := 0x2280 + 0x1040 * k
def trailerAt : Nat := 0x6380
/-- Bytes of a page that carry data. -/
def pageData : Nat := 25536

/-- Bin `b` of the Hamper area (R236). -/
def Dev.binAt (d : Dev) (n : Fin 32) (b : Nat) : Nat := 32768 * d.getF (HMP_AREA_BASE n) + 32768 * b
def Dev.bins (d : Dev) (n : Fin 32) : Nat := d.getF (HMP_AREA_BINS n)

/-- VALID of a page image in tile store. -/
def Dev.pageValid (d : Dev) (n : Fin 32) (a : Nat) : Nat := d.tsLe n (a + trailerAt) 2

/-- The Hamper's part of a record (R65, R238): TOUCHED and AMAX alone. -/
def Dev.hmpAmax (d : Dev) (n : Fin 32) (t : Nat) (amax : Word) : Dev :=
  let d : Dev := if d.statFlag n t 0 then d else (d.tsPutLe n (d.statAt n t + 4) 4 0).setStatFlag n t 0
  if d.tsLe n (d.statAt n t + 4) 4 < amax.toNat then d.tsPutLe n (d.statAt n t + 4) 4 amax.toNat else d

/-- Counts of a quantised block, and its record. -/
def Dev.hmpBlock (d : Dev) (n : Fin 32) (t : Nat) (b : QBlock) : Dev :=
  let d : Dev := (d.satAdd (HMP_SAT_COUNT n) b.sat).satAdd (HMP_ZERO_COUNT n) b.zero
  let d : Dev := if b.sat ≠ 0 then d.latch (egHmp n) 0 else d
  let d : Dev := d.count (.tile n) 0x0E 1
  let d : Dev := if b.troubled then d.count (.tile n) 0x0F 1 else d
  d.hmpAmax n t b.amax

/-- Words of tile store. -/
def Dev.tsWords (d : Dev) (n : Fin 32) (a k : Nat) : List Word :=
  (List.range k).map fun i => BitVec.ofNat 32 (d.tsLe n (a + 4 * i) 4)

/-- Block `b` of 32 keys of a token (R238). -/
def Dev.appendKeys (d : Dev) (n : Fin 32) (t bin pos b : Nat) (xs : List Word) : Dev :=
  let st := BitVec.ofNat 32 (d.tsLe n (bin + 4) 4)
  let q := quantise .k4f (tscaleUsed st) (d.zeroLimit n) xs none
  let kp := bin + kpAt (b / 4)
  let d := d.tsWrite n (kp + 64 + 64 * pos + 16 * (b % 4)) (packCodes 4 q.codes)
  (d.tsPutLe n (kp + 4160 + 4 * pos + b % 4) 1 q.scale).hmpBlock n t q

/-- Group `b` of 32 values of a token (R238). -/
def Dev.appendValues (d : Dev) (n : Fin 32) (t bin pos b : Nat) (xs : List Word) : Dev :=
  let st := BitVec.ofNat 32 (d.tsLe n (bin + vpAt 0 + 4) 4)
  let q := quantise .e4m3 (tscaleUsed st) (d.zeroLimit n) xs none
  let d := q.codes.zipIdx.foldl (fun d x =>
    d.tsPutLe n (bin + vpAt (b / 2) + 64 + 64 * (32 * (b % 2) + x.2) + pos) 1 x.1) d
  d.hmpBlock n t q

/-- One row that SKIP does not exclude. -/
def Dev.appendRow (d : Dev) (n : Fin 32) (row kt vt bin pos : Nat) : Dev :=
  let d := (List.range 8).foldl (fun d b => d.appendKeys n kt bin pos b (d.tsWords n (row + 128 * b) 32)) d
  let d := (List.range 8).foldl (fun d b => d.appendValues n vt bin pos b (d.tsWords n (row + 1024 + 128 * b) 32)) d
  d.tsPutLe n (bin + trailerAt) 2 (max (d.pageValid n bin) (pos + 1))

/-- A malformed HAPPEND (R113, R238). -/
def happendBad (arg0 arg1 arg2 count param : Nat) : Bool :=
  arg0 % 2048 != 0 || arg1 % 4 != 0 || decide (2 ^ 24 ≤ arg2) || count == 0 || count % 16 != 0 || param != 0 ||
    decide (tsBytes < arg0 + 128 * count) || decide (tsBytes < arg1 + count / 4)

/-- HAPPEND (R238). -/
def execHappend (p : Issue) (arg0 arg1 arg2 : BitVec 26) (count : BitVec 16) (param : BitVec 10) (s : State) :
    Host.Outcome State Fault Refusal :=
  onRun (fun d =>
    let n := p.tile
    d.helperIssue p (happendBad arg0.toNat arg1.toNat arg2.toNat count.toNat param.toNat) fun d =>
      (List.range (count.toNat / 16)).foldl (fun d k =>
        let e := d.tsLe n (arg1.toNat + 4 * k) 4
        let bin := e / 64 % 1024
        if e.testBit 31 then d
        else if d.bins n ≤ bin then d.hmpEvent n 4
        else d.appendRow n (arg0.toNat + 2048 * k) (arg2.toNat % 4096) (arg2.toNat / 4096 % 4096) (d.binAt n bin) (e % 64)) d) s

/-- A malformed HFLUSH (R113, R242). -/
def hflushBad (arg0 arg1 arg2 count param : Nat) : Bool :=
  arg1 % 32768 != 0 || arg2 != 0 || param != 0 || decide (tsBytes < arg0 + 4 * count) || decide (tsBytes < arg1 + 32768 * count)

/-- One flush-list entry: the bin's data reaches slot address `slot`, FULL set where it holds 64 tokens (R242). -/
def Dev.flushBin (d : Dev) (n : Fin 32) (bin slot : Nat) : Dev :=
  let full := d.pageValid n bin == 64
  let d := (d.tsWrite n slot (d.tsRead n bin pageData)).satInc (HMP_FLUSH_COUNT n)
  let fl := d.tsLe n (slot + trailerAt + 3) 1
  let d := d.tsPutLe n (slot + trailerAt + 3) 1 (fl - fl % 2 + if full then 1 else 0)
  if full then d else d.latch (egHmp n) 3

/-- HFLUSH (R242). -/
def execHflush (p : Issue) (arg0 arg1 arg2 : BitVec 26) (count : BitVec 16) (param : BitVec 10) (s : State) :
    Host.Outcome State Fault Refusal :=
  onRun (fun d =>
    let n := p.tile
    d.helperIssue p (hflushBad arg0.toNat arg1.toNat arg2.toNat count.toNat param.toNat) fun d =>
      (List.range count.toNat).foldl (fun d k =>
        let bin := d.tsLe n (arg0.toNat + 4 * k) 4 % 1024
        if d.bins n ≤ bin then d.hmpEvent n 4 else d.flushBin n (d.binAt n bin) (arg1.toNat + 32768 * k)) d) s

end Sys2Proof.Machine
end

