-- ==== Sys2Proof/Machine/Router.lean ====
section
/-! DEFINITION. The expert router's helper instructions: XTOPK, XDISPATCH and XCOMBINE (R260 to R273, R283, R286 to R288). -/

namespace Sys2Proof.Machine

open Reg

def Dev.router (d : Dev) (n : Fin 32) : Router := (d.tile n).router
def Dev.onRouter (d : Dev) (n : Fin 32) (f : Router → Router) : Dev := d.onTile n fun t => { t with router := f t.router }
def Dev.intake (d : Dev) (n : Fin 32) (i : Fin 64) : Intake := (d.router n).intakes[i]
def Dev.onIntake (d : Dev) (n : Fin 32) (i : Fin 64) (f : Intake → Intake) : Dev :=
  d.onRouter n fun r => { r with intakes := r.intakes.set i (f r.intakes[i]) }

/-- An enabled intake (R263). -/
def Intake.on (x : Intake) : Bool := x.flags.testBit 0
/-- Rows per overflow pass. -/
def Intake.rows (x : Intake) : Nat := x.c + 1

/-- XPT_STATUS follows the intakes. -/
def Dev.routerStat (d : Dev) (n : Fin 32) : Dev :=
  let l := (d.router n).intakes.toList
  (d.setF (XPT_STATUS_INTAKES n) (l.filter fun x => x.on && !x.closed).length).setF (XPT_STATUS_HELD n)
    (l.map fun x => x.held.length).sum

/-- The generation tag of a tile (R289). -/
def Dev.tag (d : Dev) (n : Fin 32) : Nat := d.epoch n * 65536 + d.passSeq n

/-! XTOPK (R264 to R266). -/

/-- The expert of largest selection value that is not NaN and not taken; the lower number on a tie. -/
def topOf (vs : List Word) (taken : List Nat) : Option Nat :=
  (List.range vs.length).foldl (fun b e =>
    if taken.contains e || isNan (vs.getD e 0) then b
    else match b with
      | none => some e
      | some c => if fLt (vs.getD c 0) (vs.getD e 0) then some e else b) none

/-- The first K experts of the ranking. -/
def topK (vs : List Word) : Nat → List Nat → List Nat
  | 0, taken => taken
  | k + 1, taken =>
    match topOf vs taken with
    | none => taken
    | some e => topK vs k (taken ++ [e])

/-- The FP32 sum of the weights in choice order. -/
def weightSum : List Word → Word
  | [] => 0
  | w :: t => t.foldl (fun a x => fAdd vNan a x) w

/-- A positive finite number. -/
def posFinite (w : Word) : Bool := isFinite w && fLt 0 w

/-- The route record of a row and whether its renormalisation sum was refused (R265, R266). -/
def routeRecord (k : Nat) (renorm : Bool) (bias : Option (List Word)) (scores : List Word) : List Byte × Bool :=
  let vs := match bias with
    | none => scores
    | some b => List.zipWith (fun s x => fAdd vNan s x) scores b
  let es := topK vs k []
  let ws := es.map fun e => scores.getD e 0
  let sum := weightSum ws
  let ok := posFinite sum
  let ws := if renorm && ok then ws.map fun w => fDiv vNan w sum else ws
  ((List.zip es ws).flatMap (fun x => leBytes 2 (0x8000 + x.1) ++ [0, 0] ++ leBytes 4 x.2.toNat) ++
    List.replicate (64 - 8 * es.length) 0, renorm && !ok)

/-- A malformed XTOPK (R113, R264). -/
def xtopkBad (arg0 arg1 arg2 count param : Nat) : Bool :=
  let eb := param % 32 + 1
  let r := count / eb
  count % eb != 0 || arg0 % 512 != 0 || arg1 % 64 != 0 || decide (tsBytes < arg0 + 512 * count) || decide (tsBytes < arg1 + 64 * r) ||
    (param.testBit 5 && (arg2 % 512 != 0 || decide (tsBytes < arg2 + 512 * eb)))

/-- XTOPK (R264 to R267). -/
def execXtopk (p : Issue) (arg0 arg1 arg2 : BitVec 26) (count : BitVec 16) (param : BitVec 10) (s : State) :
    Host.Outcome State Fault Refusal :=
  onRun (fun d =>
    let n := p.tile
    d.helperIssue p (xtopkBad arg0.toNat arg1.toNat arg2.toNat count.toNat param.toNat) fun d =>
      let e := 128 * (param.toNat % 32 + 1)
      (List.range (128 * count.toNat / e)).foldl (fun d r =>
        let bias := if param.toNat.testBit 5 then some (d.tsWords n arg2.toNat e) else none
        let x := routeRecord (param.toNat / 128 + 1) (param.toNat.testBit 6) bias (d.tsWords n (arg0.toNat + 4 * e * r) e)
        let d : Dev := if x.2 then d.latch (egXpt n) 1 else d
        d.tsWrite n (arg1.toNat + 64 * r) x.1) d) s

/-! The dispatch descriptor (R268). -/

/-- A field of a descriptor. -/
def Dev.ddF (d : Dev) (n : Fin 32) (a off size : Nat) : Nat := d.tsLe n (a + off) size

/-- An invalid descriptor at `a`. -/
def Dev.ddBad (d : Dev) (n : Fin 32) (a : Nat) : Bool :=
  let f := d.ddF n a
  let k := f 1 1
  k == 0 || decide (8 < k) || f 0x30 16 != 0 || f 0x14 4 % 64 != 0 || f 0x1C 4 % 4 != 0 || f 0x20 4 % 64 != 0 ||
    f 0x24 4 % 64 != 0 || f 0x28 4 % 64 != 0 || decide (tsBytes ≤ f 0x18 4) || decide (tsBytes ≤ f 0x1C 4) ||
    decide (tsBytes ≤ f 0x20 4) || decide (tsBytes ≤ f 0x24 4)

/-- An entry of a route or kept record. -/
structure Choice where
  valid : Bool
  expert : Nat
  weight : Word
  deriving DecidableEq, Repr

/-- Entry `j` of the record at `a`. -/
def Dev.choice (d : Dev) (n : Fin 32) (a j : Nat) : Choice :=
  let w := d.tsLe n (a + 8 * j) 2
  ⟨w.testBit 15, w % 4096, BitVec.ofNat 32 (d.tsLe n (a + 8 * j + 4) 4)⟩

/-- The record that a row uses (R272, R288): the kept one when its entry 0 is valid; with whether it is kept. -/
def Dev.recordOf (d : Dev) (n : Fin 32) (kept route : Nat) : Bool × Nat :=
  if (d.choice n kept 0).valid then (true, kept) else (false, route)

/-- The valid choices of a record below K. -/
def Dev.choices (d : Dev) (n : Fin 32) (a k : Nat) : List (Nat × Choice) :=
  ((List.range k).map fun j => (j, d.choice n a j)).filter fun x => x.2.valid

/-! Messages (R273). -/

/-- The 64-byte header of a dispatch message. -/
structure XHdr where
  tag : Nat
  kind : Nat
  flags : Nat
  age : Nat
  disp : Nat
  src : Nat
  srow : Nat
  retAddr : Nat
  rslot : Nat
  elem : Nat
  payload : Nat
  /-- tile, intake and choice of each target -/
  targets : List (Nat × Nat × Nat)
  deriving DecidableEq, Repr

def targetWord (x : Nat × Nat × Nat) : Nat := x.1 % 32 + x.2.1 % 64 * 32 + x.2.2 % 8 * 2048

def XHdr.bytes (h : XHdr) : List Byte :=
  leBytes 4 h.tag ++ leBytes 1 h.kind ++ leBytes 1 h.flags ++ leBytes 1 h.age ++ leBytes 1 h.disp ++ leBytes 4 h.src ++
    leBytes 2 h.srow ++ leBytes 1 h.targets.length ++ [0] ++ leBytes 4 h.retAddr ++ leBytes 4 h.rslot ++ leBytes 4 h.elem ++
    leBytes 4 h.payload ++ (h.targets.flatMap fun t => leBytes 4 (targetWord t)) ++
    List.replicate (32 - 4 * h.targets.length) 0

def bytesLe (l : List Byte) (off size : Nat) : Nat := leVal ((l.drop off).take size)

def xhdrOf (l : List Byte) : XHdr :=
  ⟨bytesLe l 0 4, bytesLe l 4 1, bytesLe l 5 1, bytesLe l 6 1, bytesLe l 7 1, bytesLe l 8 4, bytesLe l 0xC 2, bytesLe l 0x10 4,
    bytesLe l 0x14 4, bytesLe l 0x18 4, bytesLe l 0x1C 4,
    (List.range (min 8 (bytesLe l 0xE 1))).map fun i =>
      let w := bytesLe l (0x20 + 4 * i) 4
      (w % 32, w / 32 % 64, w / 2048 % 8)⟩

def nodeOfXsrc (w : Nat) : Node := ⟨w % 2 ^ 17, w / 2 ^ 17 % 32, false⟩

/-- A router message leaves the tile (R272, R274, R277, R283). -/
def Dev.routerSend (d : Dev) (n : Fin 32) (dst : Node) (h : XHdr) (payload : List Byte) : Dev :=
  d.sendOp (some n) .helper .write .bulk ⟨6, 0, 0, 0, d.nodeOf (some n), dst, 0, 0, 0, 0, 0, h.bytes ++ payload⟩

/-- Router messages of a tile that are not yet acknowledged, by header. -/
def Dev.routerLive (d : Dev) (n : Fin 32) : List XHdr :=
  let x := (d.delud n).src
  (((x.queue.filter fun i => i.owner == .helper).map fun i => xhdrOf i.msg.data) ++
    ((x.txns.filter fun t => t.owner == .helper).map fun t => xhdrOf t.msg.data))

/-! XDISPATCH forward (R270 to R272). -/

/-- A placement entry (R262): package, tile, intake. -/
def Dev.placed (d : Dev) (n : Fin 32) (table e : Nat) : Nat × Nat × Nat :=
  let w := smGet (fun _ => 0) (d.router n).place (table + e)
  (w % 2 ^ 17, w / 2 ^ 17 % 32, w / 2 ^ 22 % 64)

/-- The forward dispatch of a descriptor has ended; it takes part in the barriers (R268, R279). -/
def Dev.dispEnded (d : Dev) (n : Fin 32) (a : Nat) : Dev :=
  let x := d.ddF n a 0 1
  d.onRouter n fun r => { r with runs := r.runs.filter (fun y => y.disp != x) ++
    [⟨x, d.ddF n a 2 2 % 4096, d.ddF n a 4 2 % 4096, true, false, false⟩] }

/-- The payload of a row (R271): its element bytes and, outside the FP8 fallback, its block scales. -/
def Dev.rowPayload (d : Dev) (n : Fin 32) (a src r : Nat) (fb : Bool) : List Byte :=
  let f := d.ddF n a
  let es := f 0x14 4
  if fb then d.tsRead n (src + r * es) (f 0xC 4)
  else d.tsRead n (src + r * es) (f 8 4) ++ d.tsRead n (f 0x18 4 + r * es / 16) (f 0x10 4)

/-- The distinct packages of a list of targets, in order. -/
def distinctPkgs (l : List (Nat × Nat × Nat × Nat)) : List Nat :=
  l.foldl (fun a x => if a.contains x.1 then a else a ++ [x.1]) []

/-- One row of a forward dispatch. -/
def Dev.dispatchRow (d : Dev) (n : Fin 32) (coalesced ft : Bool) (a route src r : Nat) : Dev :=
  let f := d.ddF n a
  let k := f 1 1
  let st := d.tsLe n (f 0x1C 4 + 4 * r) 4
  let rec_ := d.recordOf n (f 0x20 4 + 64 * r) (route + 64 * r)
  if st.testBit 0 || st.testBit 1 then d
  else
    let fb := ft && (d.seq n).fbMap.getLsbD (f 6 2 % 4096)
    let pay := d.rowPayload n a src r fb
    let ts := (d.choices n rec_.2 k).map fun x =>
      let q := d.placed n (f 0x2C 4) x.2.expert
      (q.1, q.2.1, q.2.2, x.1)
    let h : XHdr := ⟨d.tag n, if coalesced then 1 else 0, (if rec_.1 then 1 else 0) + (if fb then 2 else 0), st / 256 % 256,
      f 0 1, d.self + n.val * 2 ^ 17, r, f 0x24 4 + k * r * f 0x28 4, f 0x28 4, if fb then f 0xC 4 else f 8 4, pay.length, []⟩
    let send (d : Dev) (pkg tile : Nat) (l : List (Nat × Nat × Nat × Nat)) : Dev :=
      (d.routerSend n ⟨pkg, tile, false⟩ { h with targets := l.map fun x => x.2 } pay).satInc (XPT_FWD_COUNT n)
    if coalesced then
      (distinctPkgs ts).foldl (fun d p =>
        let l := ts.filter fun x => x.1 == p
        send d p ((l.map fun x => x.2.1).foldl min 31) l) d
    else ts.foldl (fun d x => send d x.1 x.2.1 [x]) d

/-- A malformed forward XDISPATCH (R113, R270). -/
def forwardBad (arg0 arg2 count param : Nat) : Bool :=
  let b := param % 128
  b == 0 || count % (1 + b) != 0 || arg0 % 64 != 0 || arg2 % 512 != 0

/-- A forward XDISPATCH. -/
def Dev.forward (d : Dev) (p : Issue) (coalesced : Bool) (arg0 arg1 arg2 count param : Nat) : Dev :=
  d.helperIssue p (forwardBad arg0 arg2 count param) fun d =>
    let n := p.tile
    if d.ddBad n arg0 then (d.latch (egXpt n) 3).dispEnded n arg0
    else
      ((List.range (count / (1 + param % 128))).foldl (fun d r =>
        d.dispatchRow n coalesced (param.testBit 7) arg0 arg1 arg2 r) d).dispEnded n arg0

/-- XDISPATCH, FORWARD_EAGER. -/
def execXdispatchForwardEager (p : Issue) (arg0 arg1 arg2 : BitVec 26) (count : BitVec 16) (param : BitVec 8) (s : State) :
    Host.Outcome State Fault Refusal :=
  onRun (fun d => d.forward p false arg0.toNat arg1.toNat arg2.toNat count.toNat param.toNat) s

/-- XDISPATCH, FORWARD_COALESCED. -/
def execXdispatchForwardCoalesced (p : Issue) (arg0 arg1 arg2 : BitVec 26) (count : BitVec 16) (param : BitVec 8) (s : State) :
    Host.Outcome State Fault Refusal :=
  onRun (fun d => d.forward p true arg0.toNat arg1.toNat arg2.toNat count.toNat param.toNat) s

/-! XDISPATCH return (R283). -/

/-- A malformed RETURN (R113, R283). -/
def returnBad (arg0 arg1 arg2 count param : Nat) : Bool :=
  let bo := param % 128
  bo == 0 || param.testBit 7 || count % bo != 0 || arg0 % 512 != 0 || arg1 % 512 != 0 || arg2 / 64 % 64 != 0 ||
    decide (tsBytes < arg0 + (count / bo - 1) * arg1 + 512 * bo)

/-- The answer of a held row. -/
def Dev.returnSlot (d : Dev) (n : Fin 32) (i : Fin 64) (slot addr bo : Nat) : Dev :=
  match (d.intake n i).held[slot]? with
  | none => d
  | some m =>
    let h := xhdrOf m.data
    let pay := d.tsRead n addr (512 * bo)
    (d.routerSend n (nodeOfXsrc h.src) { h with tag := d.tag n, kind := 2, elem := pay.length, payload := pay.length } pay).satInc
      (XPT_RET_COUNT n)

/-- XDISPATCH, RETURN. -/
def execXdispatchReturn (p : Issue) (arg0 arg1 arg2 : BitVec 26) (count : BitVec 16) (param : BitVec 8) (s : State) :
    Host.Outcome State Fault Refusal :=
  onRun (fun d =>
    d.helperIssue p (returnBad arg0.toNat arg1.toNat arg2.toNat count.toNat param.toNat) fun d =>
      let n := p.tile
      let bo := param.toNat % 128
      let i := Fin.ofNat 64 arg2.toNat
      let s0 := arg2.toNat / 4096
      let k := count.toNat / bo
      let d := (List.range k).foldl (fun d m => d.returnSlot n i (s0 + m) (arg0.toNat + m * arg1.toNat) bo) d
      let x := d.intake n i
      let last := x.rows * (1 + (d.seq n).trips[Fin.ofNat 64 x.slot]) - 1
      if s0 ≤ last ∧ last < s0 + k then d.onIntake n i fun y => { y with retClosed := true } else d) s

/-! XCOMBINE (R286 to R288). -/

/-- The row becomes MISSING or DEFERRED: its flag and DLAYER are written. -/
def Dev.markRow (d : Dev) (n : Fin 32) (at_ bit disp : Nat) : Dev :=
  if tsBytes ≤ at_ + 3 then d
  else (d.tsPutLe n at_ 1 (d.tsLe n at_ 1 ||| 2 ^ bit)).tsPutLe n (at_ + 2) 1 disp

/-- Combine one element: the base value and the answers' weights and values in choice order. -/
def combineAcc (base : Word) (l : List (Word × Word)) : Word := l.foldl (fun acc x => fFma vNan x.1 x.2 acc) base

/-- One row of XCOMBINE. -/
def Dev.combineRow (d : Dev) (n : Fin 32) (a route base h r : Nat) : Dev :=
  let f := d.ddF n a
  let k := f 1 1
  let disp := f 0 1
  let at_ := f 0x1C 4 + 4 * r
  let st := d.tsLe n at_ 1
  if st.testBit 0 || st.testBit 1 || st.testBit 2 then d
  else
    let rec_ := d.recordOf n (f 0x20 4 + 64 * r) (route + 64 * r)
    let cs := d.choices n rec_.2 k
    let slotAt (j : Nat) : Nat := f 0x24 4 + (k * r + j) * f 0x28 4
    let hdr (j : Nat) : XHdr := xhdrOf (d.tsRead n (slotAt j) 64)
    let good (x : Nat × Choice) : Bool :=
      let g := hdr x.1
      g.tag == d.tag n && g.srow == r && (match g.targets.head? with
        | some t => t.2.2 == x.1
        | none => false)
    if !cs.all good then (d.markRow n at_ 2 disp).latch (egXpt n) 2
    else if cs.any fun x => (hdr x.1).kind == 3 then (d.markRow n at_ 1 disp).satInc (XPT_DEFER_COUNT n)
    else
      let y (j e : Nat) : Word := ofBf16 (BitVec.ofNat 16 (d.tsLe n (slotAt j + 64 + 2 * e) 2))
      let out := (List.range h).map fun e =>
        combineAcc (BitVec.ofNat 32 (d.tsLe n (base + 4 * h * r + 4 * e) 4)) (cs.map fun x => (x.2.weight, y x.1 e))
      d.tsWrite n (base + 4 * h * r) (wordBytes out)

/-- A malformed XCOMBINE (R113, R286). -/
def xcombineBad (arg2 count param : Nat) : Bool :=
  let b := param % 128 + 1
  decide (128 ≤ param) || count % (1 + b) != 0 || arg2 % 512 != 0 || decide (tsBytes < arg2 + 512 * b * (count / (1 + b)))

/-- XCOMBINE (R286 to R288). -/
def execXcombine (p : Issue) (arg0 arg1 arg2 : BitVec 26) (count : BitVec 16) (param : BitVec 10) (s : State) :
    Host.Outcome State Fault Refusal :=
  onRun (fun d =>
    d.helperIssue p (xcombineBad arg2.toNat count.toNat param.toNat) fun d =>
      let n := p.tile
      let b := param.toNat % 128 + 1
      let rows := List.range (count.toNat / (1 + b))
      if d.ddBad n arg0.toNat then
        rows.foldl (fun d r => (d.markRow n (d.ddF n arg0.toNat 0x1C 4 + 4 * r) 2 (d.ddF n arg0.toNat 0 1)).latch (egXpt n) 2)
          (d.latch (egXpt n) 3)
      else rows.foldl (fun d r => d.combineRow n arg0.toNat arg1.toNat arg2.toNat (128 * b) r) d) s

end Sys2Proof.Machine
end

