-- ==== Sys2Proof/Machine/Intakes.lean ====
section
/-! DEFINITION. Intakes, the arrival of dispatch messages, generation tags, and the two barriers of a dispatch (R274 to R283,
R289). -/

namespace Sys2Proof.Machine

open Reg

/-! Serving groups as the router and the sequencer see them. -/

def Dev.group (d : Dev) (g : Fin 4) : Group := d.srv.groups[g]
def Dev.onGroup (d : Dev) (g : Fin 4) (f : Group → Group) : Dev :=
  { d with srv := { d.srv with groups := d.srv.groups.set g (f d.srv.groups[g]) } }

/-- The state code of a group (R299). -/
def Dev.gstate (d : Dev) (g : Nat) : Nat := d.getF (SRV_GROUP_STATE_STATE g)

def Group.tileSet (x : Group) : Word := match x.cfg with
  | some c => c.tiles
  | none => 0
def Group.memberList (x : Group) : List Nat := match x.cfg with
  | some c => c.members
  | none => []
def Group.leadPkg (x : Group) : Nat := match x.cfg with
  | some c => c.lead
  | none => 0

/-- The group that uses a tile. -/
def Dev.groupOf (d : Dev) (n : Fin 32) : Option (Fin 4) :=
  (List.finRange 4).find? fun g => d.gstate g != 0 && (d.group g).tileSet.getLsbD n

/-- The in-service tiles of a group on this package. -/
def Dev.groupTiles (d : Dev) (g : Fin 4) : List (Fin 32) :=
  (List.finRange 32).filter fun n => (d.group g).tileSet.getLsbD n && d.inService n

/-- The pass sequence that the hub keeps for a group (R289). -/
def Dev.groupSeq (d : Dev) (g : Fin 4) : Nat := match d.groupTiles g with
  | n :: _ => d.passSeq n
  | [] => 0
def Dev.groupEpoch (d : Dev) (g : Nat) : Nat := d.getF (SRV_GROUP_STATE_EPOCH g)

/-! Generation tags (R289). -/

inductive TagAge where
  | stale | current | next
  deriving DecidableEq, Repr

def tagAge (epoch c e q : Nat) : TagAge :=
  if e ≠ epoch then .stale else if q = c then .current else if q = (c + 1) % 65536 then .next else .stale

def Dev.tagAgeAt (d : Dev) (n : Fin 32) (h : XHdr) : TagAge := tagAge (d.epoch n) (d.passSeq n) (h.tag / 65536) (h.tag % 65536)

/-- The acknowledgement of a router message, or an error. -/
def Dev.routerAck (d : Dev) (n : Fin 32) (m : Dmsg) (err : Nat) : Dev :=
  if err = 0 then d.respond n m 0x09 0 0 m.addr [] else d.respondErr n m err

/-- A stale message (R289). -/
def Dev.routerStale (d : Dev) (n : Fin 32) (m : Dmsg) : Dev :=
  ((d.satInc (XPT_STALE_COUNT n)).latch (egXpt n) 0).routerAck n m 0

/-! Ranking (R275). -/

/-- Row `a` ranks ahead of row `b`. -/
def ranksAhead (a b : XHdr) : Bool :=
  let pa := a.src % 2 ^ 17
  let pb := b.src % 2 ^ 17
  let ta := a.src / 2 ^ 17 % 32
  let tb := b.src / 2 ^ 17 % 32
  decide (b.age < a.age) || (a.age == b.age && (decide (pa < pb) || (pa == pb && (decide (ta < tb) ||
    (ta == tb && decide (a.srow < b.srow))))))

/-- The slot of the held row that every other held row ranks ahead of. -/
def worstSlot (l : List Dmsg) : Nat :=
  (l.zipIdx.foldl (fun (b : Option (Dmsg × Nat)) x =>
    match b with
    | none => some x
    | some y => if ranksAhead (xhdrOf y.1.data) (xhdrOf x.1.data) then some x else b) none).elim 0 fun x => x.2

/-! Arrival (R277, R278). -/

/-- The owner under which a dispatch's arrivals and zero fills wait at the elastic port. -/
def dispOwner (disp : Nat) : Owner := .job (2 ^ 32 + disp)

/-- Place a row in a slot (R277). -/
def Dev.placeRow (d : Dev) (n : Fin 32) (i : Fin 64) (m : Dmsg) (slot : Nat) : Dev :=
  let x := d.intake n i
  let h := xhdrOf m.data
  let pay := m.data.drop 64
  (d.elasticPut n (dispOwner h.disp) (x.base + slot * x.slotBytes) (pay.take h.elem)).elasticPut n (dispOwner h.disp)
    (x.sbase + slot * x.slotBytes / 16) (pay.drop h.elem)

/-- Send a DEFER for a row at an intake (R277). -/
def Dev.sendDefer (d : Dev) (n : Fin 32) (m : Dmsg) : Dev :=
  let h := xhdrOf m.data
  d.routerSend n (nodeOfXsrc h.src) { h with tag := d.tag n, kind := 3, elem := 0, payload := 0 } []

/-- A FORWARD of the running pass, with the one target it has here: the ERR code of its acknowledgement, 0 for none. -/
def Dev.forwardTake (d : Dev) (n : Fin 32) (m : Dmsg) : Nat × Dev :=
  let h := xhdrOf m.data
  match h.targets.head? with
  | none => (Config.noIntakeErr, d.latch (egXpt n) 5)
  | some t =>
    let i := Fin.ofNat 64 t.2.1
    let x := d.intake n i
    let key := (h.src, h.srow)
    if ¬ x.on ∨ x.disp ≠ h.disp then (Config.noIntakeErr, d.latch (egXpt n) 5)
    else if x.seen.contains key then (0, d.latch (egXpt n) 6)
    else
      let d : Dev := d.onIntake n i fun y => { y with seen := y.seen ++ [key] }
      if x.closed then (0, (d.latch (egXpt n) 7).sendDefer n m)
      else
        let d := d.satInc (XPT_INTAKE_DEMAND n i)
        let keep : Dmsg := { m with data := m.data.take 64 }
        if x.held.length < x.cap then
          (0, ((d.placeRow n i m x.held.length).onIntake n i fun y => { y with held := y.held ++ [keep] }).routerStat n)
        else
          let k := worstSlot x.held
          match x.held[k]? with
          | none => (0, (d.satInc (XPT_REFUSE_COUNT n)).sendDefer n m)
          | some w =>
            if ranksAhead h (xhdrOf w.data) then
              (0, (((d.sendDefer n w).satInc (XPT_EVICT_COUNT n)).placeRow n i m k).onIntake n i fun y =>
                { y with held := y.held.set k keep })
            else (0, (d.satInc (XPT_REFUSE_COUNT n)).sendDefer n m)

/-- A message with one target. -/
def retarget (m : Dmsg) (t : Nat × Nat × Nat) : Dmsg :=
  { m with data := XHdr.bytes { xhdrOf m.data with kind := 0, targets := [t] } ++ m.data.drop 64 }

/-- A COALESCED message of the running pass (R274): this tile's entries are taken, a copy goes to every other target, and the
acknowledgement waits for the copies. -/
def Dev.coalescedTake (d : Dev) (n : Fin 32) (m : Dmsg) : Dev :=
  let h := xhdrOf m.data
  let own := h.targets.filter fun t => t.1 == n.val
  let rest := h.targets.filter fun t => t.1 != n.val
  let x := own.foldl (fun (x : Nat × Dev) t =>
    let y := x.2.forwardTake n (retarget m t)
    (if x.1 = 0 then y.1 else x.1, y.2)) (0, d)
  let y := rest.foldl (fun (y : List Nat × Dev) t =>
    let id := (y.2.delud n).src.nextId
    let c := retarget m t
    (y.1 ++ [id], (y.2.routerSend n ⟨d.self, t.1, false⟩ (xhdrOf c.data) (c.data.drop 64)).satInc (XPT_FWD_COUNT n))) ([], x.2)
  (y.2.onSource (some n) fun s => { s with holds := s.holds ++ [({ m with err := x.1 }, y.1)] }).holdsCheck (some n)

/-- A RETURN or DEFER of the running pass: the message is written to its return slot (R277, R283). -/
def Dev.returnTake (d : Dev) (n : Fin 32) (m : Dmsg) : Dev :=
  let h := xhdrOf m.data
  let j := match h.targets.head? with
    | some t => t.2.2
    | none => 0
  let a := h.retAddr + j * h.rslot
  let d : Dev := if tsBytes < a + m.data.length then d else d.elasticPut n (dispOwner h.disp) a m.data
  d.routerAck n m 0

/-- A message of the running pass. -/
def Dev.routerTake (d : Dev) (n : Fin 32) (m : Dmsg) : Dev :=
  match (xhdrOf m.data).kind with
  | 0 => let x := d.forwardTake n m; x.2.routerAck n m x.1
  | 1 => d.coalescedTake n m
  | _ => d.returnTake n m

/-- A router message arrives (R289). -/
def Dev.routerArrive (d : Dev) (n : Fin 32) (m : Dmsg) (kinds : List Nat) : Dev :=
  if m.op ≠ 6 ∨ ¬ kinds.contains (xhdrOf m.data).kind then d
  else match d.tagAgeAt n (xhdrOf m.data) with
    | .stale => d.routerStale n m
    | .next => d.onRouter n fun r => { r with early := r.early ++ [m] }
    | .current => d.routerTake n m

/-- FORWARD_ARRIVAL (R277, R278, R289). -/
def execForwardArrival (n : Fin 32) (m : Dmsg) (s : State) : Host.Outcome State Fault Refusal :=
  onRun (fun d => d.routerArrive n m [0]) s

/-- COALESCED_ARRIVAL (R274, R289). -/
def execCoalescedArrival (n : Fin 32) (m : Dmsg) (s : State) : Host.Outcome State Fault Refusal :=
  onRun (fun d => d.routerArrive n m [1]) s

/-- RETURN_ARRIVAL (R283, R289): a RETURN or a DEFER. -/
def execReturnArrival (n : Fin 32) (m : Dmsg) (s : State) : Host.Outcome State Fault Refusal :=
  onRun (fun d => d.routerArrive n m [2, 3]) s

/-! Pass start (R276, R289). -/

/-- The router at a pass start: intakes reset with their capacities, and the withheld messages of the new pass are handled. -/
def Dev.routerStart (d : Dev) (n : Fin 32) : Dev :=
  let t := (d.seq n).trips
  let cap (x : Intake) : Nat := x.rows * (1 + t[Fin.ofNat 64 x.slot])
  let sum := (((d.router n).intakes.toList.filter Intake.on).map cap).sum
  let d : Dev := if 4096 < sum then d.latch (egXpt n) 3 else d
  let early := (d.router n).early
  let d := d.onRouter n fun r => { r with
    intakes := r.intakes.map fun x => { x with
      cap := if 4096 < sum then x.rows else cap x
      held := [], seen := [], closed := !x.on, retClosed := !x.on }
    runs := [], early := [], closes := [] }
  let d := (List.range 64).foldl (fun d i => d.setN (XPT_INTAKE_DEMAND n i) 0) d
  early.foldl (fun d m => d.routerArrive n m [0, 1, 2, 3]) (d.routerStat n)

/-! Barriers (R279, R280). -/

/-- Unacknowledged messages of a dispatch with a KIND of a list. -/
def Dev.dispLive (d : Dev) (n : Fin 32) (disp : Nat) (kinds : List Nat) : Bool :=
  (d.routerLive n).any fun h => h.disp == disp && kinds.contains h.kind

/-- The intakes of a dispatch on a tile. -/
def Dev.dispIntakes (d : Dev) (n : Fin 32) (disp : Nat) : List (Fin 64) :=
  (List.finRange 64).filter fun i => (d.intake n i).on && (d.intake n i).disp == disp

/-- Change the barrier of a kind, dispatch and pass of a group, made where it does not yet stand. -/
def Dev.onBarrier (d : Dev) (g : Fin 4) (ret : Bool) (disp seq tok : Nat) (f : Barrier → Barrier) : Dev :=
  d.onGroup g fun x =>
    let is (b : Barrier) : Bool := b.ret == ret && b.disp == disp && b.seq == seq
    if x.barriers.any is then { x with barriers := x.barriers.map fun b => if is b then f b else b }
    else { x with barriers := x.barriers ++ [f ⟨ret, disp, seq, tok, [], false, []⟩] }

def Dev.barrier (d : Dev) (g : Fin 4) (ret : Bool) (disp seq : Nat) : Option Barrier :=
  (d.group g).barriers.find? fun b => b.ret == ret && b.disp == disp && b.seq == seq

/-- A done report reaches the hub; with one from every in-service tile of the group, END goes to every member (R280). -/
def Dev.doneReport (d : Dev) (n : Fin 32) (ret : Bool) (disp tok : Nat) : Dev :=
  match d.groupOf n with
  | none => d
  | some g =>
    let q := d.passSeq n
    let d := d.onBarrier g ret disp q tok fun b => { b with tok := tok, tiles := b.tiles ++ [n.val] }
    match d.barrier g ret disp q with
    | none => d
    | some b =>
      if b.sent ∨ ¬ (d.groupTiles g).all fun m => b.tiles.contains m.val then d
      else
        let d := d.onBarrier g ret disp q tok fun b => { b with sent := true }
        d.emits ((d.group g).memberList.map fun p =>
          .mgmt p "END" [g.val, if ret then 1 else 0, disp, tok, d.groupEpoch g, q])

/-- Change the run of a dispatch on a tile. -/
def Dev.onRun (d : Dev) (n : Fin 32) (disp : Nat) (f : DispRun → DispRun) : Dev :=
  d.onRouter n fun r => { r with runs := r.runs.map fun x => if x.disp = disp then f x else x }
def Dev.dispRun (d : Dev) (n : Fin 32) (disp : Nat) : Option DispRun := (d.router n).runs.find? fun x => x.disp == disp

/-- The return report, where its conditions hold (R279). -/
def Dev.returnDone (d : Dev) (n : Fin 32) (disp : Nat) : Dev :=
  match d.dispRun n disp with
  | none => d
  | some r =>
    if r.retDone ∨ d.dispLive n disp [2, 3] ∨ ¬ (d.dispIntakes n disp).all fun i => (d.intake n i).retClosed then d
    else (d.onRun n disp fun x => { x with retDone := true }).doneReport n true disp r.tokR

/-- FORWARD_DONE (R279): the forward report, and with it the return report of a tile that holds no intake of the dispatch. -/
def execForwardDone (n : Fin 32) (disp : BitVec 8) (s : State) : Host.Outcome State Fault Refusal :=
  onRun (fun d =>
    match d.dispRun n disp.toNat with
    | none => d
    | some r =>
      if ¬ r.ended ∨ r.fwdDone ∨ d.dispLive n disp.toNat [0, 1] then d
      else
        let d := (d.onRun n disp.toNat fun x => { x with fwdDone := true }).doneReport n false disp.toNat r.tokF
        if (d.dispIntakes n disp.toNat).isEmpty then d.returnDone n disp.toNat else d) s

/-- RETURN_DONE (R279). -/
def execReturnDone (n : Fin 32) (disp : BitVec 8) (s : State) : Host.Outcome State Fault Refusal :=
  onRun (fun d => if (d.dispIntakes n disp.toNat).isEmpty then d else d.returnDone n disp.toNat) s

/-- A barrier of the running pass is complete: intakes are told to close, or TOKEN_R is counted (R280). -/
def Dev.barrierEnd (d : Dev) (g : Fin 4) (b : Barrier) (cyc : Nat) : Dev :=
  let d := d.onGroup g fun x => { x with barriers := x.barriers.filter fun y => y != b }
  (d.groupTiles g).foldl (fun d n =>
    if b.ret then d.countCur n b.tok false cyc
    else (d.onRouter n fun r => { r with closes := r.closes ++ [(b.disp, b.tok)] }).emit (.signal "CLOSE" [n, b.disp])) d

/-- BARRIER_END (R280, R289): an END message of a member arrives. -/
def execBarrierEnd (g : Fin 4) (ret : Bool) (disp : BitVec 8) (tok : BitVec 12) (epoch seq : BitVec 16) (pkg : BitVec 17)
    (cyc : Nat) (s : State) : Host.Outcome State Fault Refusal :=
  onRun (fun d =>
    match tagAge (d.groupEpoch g) (d.groupSeq g) epoch.toNat seq.toNat with
    | .stale => d
    | .next => d.onBarrier g ret disp.toNat seq.toNat tok.toNat fun b => { b with ends := b.ends ++ [pkg.toNat] }
    | .current =>
      let d := d.onBarrier g ret disp.toNat seq.toNat tok.toNat fun b => { b with ends := b.ends ++ [pkg.toNat] }
      match d.barrier g ret disp.toNat seq.toNat with
      | none => d
      | some b => if (d.group g).memberList.all fun p => b.ends.contains p then d.barrierEnd g b cyc else d) s

/-- Close an intake: zero elements and scale codes for the slots held to capacity − 1 (R280). -/
def Dev.closeIntake (d : Dev) (n : Fin 32) (i : Fin 64) : Dev :=
  let x := d.intake n i
  if x.closed then d
  else
    let d := d.onIntake n i fun y => { y with closed := true }
    (List.range (x.cap - x.held.length)).foldl (fun d k =>
      let slot := x.held.length + k
      (d.elasticPut n (dispOwner x.disp) (x.base + slot * x.slotBytes) (List.replicate x.slotBytes 0)).elasticPut n
        (dispOwner x.disp) (x.sbase + slot * x.slotBytes / 16) (List.replicate (x.slotBytes / 16) 0)) d

/-- INTAKE_CLOSE (R280): the router closes the dispatch's intakes and zero-fills them; once nothing of the dispatch waits at the
elastic port, it counts TOKEN_F. -/
def execIntakeClose (n : Fin 32) (disp : BitVec 8) (cyc : Nat) (s : State) : Host.Outcome State Fault Refusal :=
  onRun (fun d =>
    match (d.router n).closes.find? fun x => x.1 == disp.toNat with
    | none => d
    | some x =>
      let d := ((d.dispIntakes n disp.toNat).foldl (fun d i => d.closeIntake n i) d).routerStat n
      if (d.tile n).elastic.any fun e => e.owner == dispOwner disp.toNat then d
      else (d.onRouter n fun r => { r with closes := r.closes.filter fun y => y != x }).countCur n x.2 false cyc) s

end Sys2Proof.Machine
end

