-- ==== Sys2Proof/Machine/Rwb.lean ====
section
/-! DEFINITION. The boundaries at which buffered writes apply (R13, R137, R451 to R453). -/

namespace Sys2Proof.Machine

open Reg

/-- The boundary of the field that a pending value is for. -/
def RwbVal.bnd (e : RwbVal) : Bnd :=
  match regDesc e.off with
  | none => .none
  | some r => match r.fields.find? fun f => f.hi == e.hi && f.lo == e.lo with
    | some f => f.bnd
    | none => .none

/-- The pending value lies in the block of tile `n`. -/
def RwbVal.ofTile (e : RwbVal) (n : Fin 32) : Bool := decide (tileBase n ≤ e.off) && decide (e.off < tileBase n + 0x100000)
/-- In the SRV_GROUPg_ registers of group `g`. -/
def RwbVal.ofGroup (e : RwbVal) (g : Fin 4) : Bool :=
  decide (SRV_GROUP_STATE g ≤ e.off) && decide (e.off < SRV_GROUP_STATE g + 64)
/-- SRV_CTRL or a budget record (R321). -/
def RwbVal.ofCtrl (e : RwbVal) : Bool :=
  e.off == SRV_CTRL || (decide (0x240000 ≤ e.off) && decide (e.off < 0x280000))

/-- What a value is applied as: HEADROOM at most 8 (R82); HMP_AREA.BINS at most 1,024 bins that end in tile store (R250). -/
def Dev.asApplied (d : Dev) (e : RwbVal) : Nat :=
  if (List.finRange 32).any fun n => e.off == QNT_CTRL n && e.hi == 11 then min 8 e.val
  else match (List.finRange 32).find? fun n => e.off == HMP_AREA n && e.hi == 10 with
    | some n => min (min 1024 e.val) (2048 - d.getF (HMP_AREA_BASE n))
    | none => e.val

/-- One pending value takes effect. An applied QNT_LFSR_SEED loads the generator, 1 in place of 0 (R82). -/
def Dev.applyVal (d : Dev) (e : RwbVal) : Dev :=
  let v := d.asApplied e
  let d := d.setF ⟨e.off, e.hi, e.lo⟩ v
  match (List.finRange 32).find? fun n => e.off == QNT_LFSR_SEED n with
  | some n => if v = 0 then (d.setN (QNT_LFSR_SEED n) 1).setN (QNT_LFSR_STATE n) 1 else d.setN (QNT_LFSR_STATE n) v
  | none => d

/-- Every pending value that `p` takes applies in one cycle (R13): bases before the counts that they bound. -/
def Dev.applyRwb (d : Dev) (p : RwbVal → Bool) : Dev :=
  let es := d.rwb.filter p
  let late (e : RwbVal) : Bool := e.hi == 10
  let d : Dev := { d with rwb := d.rwb.filter fun e => !p e }
  ((es.filter fun e => !late e) ++ es.filter late).foldl Dev.applyVal d

/-- This package leads a RUNNING group. -/
def Dev.leadsRunning (d : Dev) (g : Fin 4) : Bool := d.gstate g == 2 && d.flag (SRV_GROUP_STATE_LEAD g)

/-- Step 3 of R314 of group `g`: its own fields, SRV_CTRL and the budget records. -/
def Dev.applySrv (d : Dev) (g : Fin 4) : Dev := d.applyRwb fun e => e.ofGroup g || e.ofCtrl

/-- The step-boundary values of a tile. -/
def Dev.applyStep (d : Dev) (n : Fin 32) : Dev := d.applyRwb fun e => e.ofTile n && e.bnd == .step

/-- The apply step of a group (R453). -/
def Dev.applyFrom (d : Dev) (g : Nat) : Nat := d.getPair (HUB_RWB_STEP_LO g) (HUB_RWB_STEP_HI g)

/-- A set of R451 waits for its 1 ms: no running boundary serves it. -/
def Dev.setTimed (d : Dev) : SrvSet → Bool
  | .group g => !d.leadsRunning g
  | .ctrl => !(List.finRange 4).any fun g => d.leadsRunning g

def SrvSet.takes : SrvSet → RwbVal → Bool
  | .group g, e => e.ofGroup g
  | .ctrl, e => e.ofCtrl

/-- RWB_TIMER_BOUNDARY (R451): 1 ms after the earliest pending write of the set. -/
def execRwbTimerBoundary (set : SrvSet) (now : Nat) (s : State) : Host.Outcome State Fault Refusal :=
  onRun (fun d =>
    let d := d.at_ now
    if d.setTimed set ∧ (d.rwb.filter (SrvSet.takes set)).any fun e => decide (e.since + 1000000 ≤ d.now) then
      d.applyRwb (SrvSet.takes set)
    else d) s

/-- ROTA_BOUNDARY (R35, R137, R451): beat phase 0 of beat 0 of a tile's rota. Rota-boundary values apply, step-boundary values of a
tile in no RUNNING group, HOME_W while no pass runs, and the throttle step that the hub last published; the Darner's count of
link errors starts anew (R163). -/
def execRotaBoundary (n : Fin 32) (s : State) : Host.Outcome State Fault Refusal :=
  onRun (fun d =>
    let inGroup := (List.finRange 4).any fun g => d.gstate g == 2 && (d.group g).tileSet.getLsbD n
    let idle := !d.running n
    let d := d.applyRwb fun e => e.ofTile n &&
      (e.bnd == .rota || (e.bnd == .step && !inGroup) || (e.bnd == .rotaIdle && idle))
    d.onTile n fun t => { t with tstep := d.getF PWR_STATUS_STEP, darner := { t.darner with linkUes := Vector.replicate 48 0 } }) s

end Sys2Proof.Machine
end

