-- ==== Sys2Proof/Machine/Pack.lean ====
section
/-! DEFINITION. The Wringer's lossless packing of pages, and WPACK and WUNPACK (R192, R193). -/

namespace Sys2Proof.Machine

open Reg

/-- The 32-byte segments of a chunk or page. -/
def segsOf (l : List Byte) : List (List Byte) := (List.range ((l.length + 31) / 32)).map fun i => (l.drop (32 * i)).take 32

def xorBytes (a b : List Byte) : List Byte := List.zipWith (· ^^^ ·) a b

/-- Pairs of nibbles as bytes, the even one low. -/
def nibPack : List Byte → List Byte
  | a :: b :: t => (a &&& 0xF ||| b <<< 4) :: nibPack t
  | [a] => [a &&& 0xF]
  | [] => []

def nibUnpack (l : List Byte) : List Byte := l.flatMap fun b => [b &&& 0xF, b >>> 4]

/-- Tag and payload of a segment after segment `prev` (R192). -/
def segTag (prev seg : List Byte) : Nat × List Byte :=
  if seg.all (· == 0) then (0, [])
  else if seg = prev then (1, [])
  else if (xorBytes seg prev).all fun b => b < 16 then (2, nibPack (xorBytes seg prev))
  else (3, seg)

def zeroSeg : List Byte := List.replicate 32 0

/-- Tags and payload of a chunk's segments. -/
def packSegs (prev : List Byte) : List (List Byte) → List (Nat × List Byte)
  | [] => []
  | g :: t => segTag prev g :: packSegs g t

/-- A packed chunk: its tags and its payload. -/
def packChunk (l : List Byte) : List Nat × List Byte :=
  let x := packSegs zeroSeg (segsOf l)
  (x.map Prod.fst, x.flatMap Prod.snd)

/-- Payload bytes that a tag stands for. -/
def tagBytes (t : Nat) : Nat := if t = 2 then 16 else if t = 3 then 32 else 0

/-- Unpack segments by their tags. -/
def unpackSegs (prev : List Byte) : List Nat → List Byte → List Byte
  | [], _ => []
  | t :: ts, pay =>
    let k := tagBytes t
    let seg := if t = 0 then zeroSeg else if t = 1 then prev
      else if t = 2 then xorBytes (nibUnpack (pay.take 16)) prev else pay.take 32
    seg ++ unpackSegs seg ts (pay.drop k)

def tagsOf (w : Nat) : List Nat := (List.range 32).map fun k => w / 4 ^ k % 4
def tagWord (ts : List Nat) : Nat := (ts.zipIdx.map fun x => x.1 * 4 ^ x.2).sum

/-- A stored length (R192). -/
def storedLen (k : Nat) : Nat := (k + 63) / 64 * 64

def padTo (k : Nat) (l : List Byte) : List Byte := l ++ List.replicate (k - l.length) 0

/-- The chunks of a page. -/
def pageChunks (page : List Byte) : List (List Byte) := (List.range 32).map fun j => (page.drop (1024 * j)).take 1024

/-- The pack header of a page (R192) with flags. -/
def packHeader (page : List Byte) (flags : Nat) : List Byte :=
  let cs := (pageChunks page).map packChunk
  let len := (cs.map fun c => storedLen c.2.length).sum
  cs.flatMap (fun c => leBytes 8 (tagWord c.1)) ++ cs.flatMap (fun c => leBytes 2 c.2.length) ++
    leBytes 4 (crc32c page) ++ leBytes 4 len ++ leBytes 1 (max 1 ((len + 4095) / 4096)) ++ leBytes 1 flags ++
    List.replicate 54 0

/-- The page's payload as stored (R192). -/
def packPayload (page : List Byte) : List Byte :=
  (pageChunks page).flatMap fun c => let x := (packChunk c).2; padTo (storedLen x.length) x

/-- CLEN of chunk `j` in a pack header. -/
def hdrClen (h : List Byte) (j : Nat) : Nat := leVal ((h.drop (0x100 + 2 * j)).take 2)
def hdrTags (h : List Byte) (j : Nat) : List Nat := tagsOf (leVal ((h.drop (8 * j)).take 8))
def hdrCrc (h : List Byte) : Nat := leVal ((h.drop 0x140).take 4)
def hdrFlag (h : List Byte) (b : Nat) : Bool := (leVal ((h.drop 0x149).take 1)).testBit b

/-- The page that a header and 32 slots give, and RESULT (R193). -/
def unpackPage (h : List Byte) (slots : List (List Byte)) : List Byte × Nat :=
  if !hdrFlag h 0 then (List.replicate 32768 0, 2)
  else
    let cs := (List.range 32).map fun j =>
      let ts := hdrTags h j
      if (ts.map tagBytes).sum = hdrClen h j then (unpackSegs zeroSeg ts (slots.getD j []), false)
      else (List.replicate 1024 0, true)
    let page := cs.flatMap Prod.fst
    (page, if cs.any Prod.snd then 3 else if !hdrFlag h 1 && crc32c page != hdrCrc h then 1 else 0)

/-- A malformed WPACK or WUNPACK with page arrays at `a`, `b`, headers at `c` (R113, R193). -/
def packBad (a b c count param : Nat) : Bool :=
  a % 32768 != 0 || b % 32768 != 0 || c % 128 != 0 || param != 0 ||
    decide (tsBytes < a + 32768 * count) || decide (tsBytes < b + 32768 * count) || decide (tsBytes < c + 384 * count)

/-- Pack one page. -/
def Dev.wpackPage (d : Dev) (n : Fin 32) (a b c : Nat) : Dev :=
  let page := d.tsRead n a 32768
  let d := d.tsWrite n b ((pageChunks page).flatMap fun k => padTo 1024 (packChunk k).2)
  d.tsWrite n c (packHeader page 1)

/-- WPACK (R193). -/
def execWpack (p : Issue) (arg0 arg1 arg2 : BitVec 26) (count : BitVec 16) (param : BitVec 10) (s : State) :
    Host.Outcome State Fault Refusal :=
  onRun (fun d =>
    d.helperIssue p (packBad arg0.toNat arg1.toNat arg2.toNat count.toNat param.toNat) fun d =>
      (List.range count.toNat).foldl (fun d k =>
        d.wpackPage p.tile (arg0.toNat + 32768 * k) (arg1.toNat + 32768 * k) (arg2.toNat + 384 * k)) d) s

/-- Unpack one page from slots at `a` with header at `b` to page `c`. -/
def Dev.wunpackPage (d : Dev) (n : Fin 32) (a b c : Nat) : Dev :=
  let r := unpackPage (d.tsRead n b 384) ((List.range 32).map fun j => d.tsRead n (a + 1024 * j) 1024)
  (d.tsWrite n c r.1).tsPutLe n (b + 0x14C) 1 r.2

/-- WUNPACK (R193). -/
def execWunpack (p : Issue) (arg0 arg1 arg2 : BitVec 26) (count : BitVec 16) (param : BitVec 10) (s : State) :
    Host.Outcome State Fault Refusal :=
  onRun (fun d =>
    d.helperIssue p (packBad arg0.toNat arg2.toNat arg1.toNat count.toNat param.toNat) fun d =>
      (List.range count.toNat).foldl (fun d k =>
        d.wunpackPage p.tile (arg0.toNat + 32768 * k) (arg1.toNat + 384 * k) (arg2.toNat + 32768 * k)) d) s

end Sys2Proof.Machine
end

