-- ==== Sys2Proof/Machine/Mailbox.lean ====
section
/-! DEFINITION. The mailbox (R440 to R442), its commands for the flash and the root of trust (R443), appends to the record
areas (R427), the tile retirement write (R44) and the flash operations behind them. -/

namespace Sys2Proof.Machine

open Reg

/-- The parameter words P0 to P7 as they stand. -/
def Dev.mbxParams (d : Dev) : List Nat := (List.range 8).map fun j => d.getN (HUB_MBX_P j)

/-- Parameter word `j` of the running command. -/
def Dev.param (d : Dev) (j : Nat) : Nat :=
  match d.mbx.run with
  | none => 0
  | some r => r.params.getD j 0

/-- The running command ends: STATUS leaves BUSY and source 0 raises an edge (R441, R458). Status codes are R18's. -/
def Dev.mbxEnd (d : Dev) (st detail : Nat) : Dev :=
  (({ d with mbx := { d.mbx with run := none } }.setF HUB_MBX_STATUS_STATUS st).setF HUB_MBX_STATUS_DETAIL detail).edge 0

def Dev.mbxDone (d : Dev) : Dev := d.mbxEnd 2 0
def Dev.mbxAborted (d : Dev) : Dev := d.mbxEnd 3 0
def Dev.mbxFail (d : Dev) (detail : Nat) : Dev := d.mbxEnd 5 detail

/-- A command ends DONE, or ABORTED when an abort was accepted (R442). -/
def Dev.mbxFinish (d : Dev) : Dev :=
  match d.mbx.run with
  | some r => if r.abort then d.mbxAborted else d.mbxDone
  | none => d

/-- A command is BUSY. -/
def Dev.mbxBusy (d : Dev) : Bool := d.mbx.run.isSome

/-- GO with a code while no command is BUSY: CODE and P0 to P7 are latched and STATUS becomes BUSY (R441). -/
def Dev.mbxStart (d : Dev) (code : Nat) : Dev :=
  let d : Dev := { d with mbx := { d.mbx with run := some ⟨code, d.mbxParams, false, .owner⟩, rejected := false } }
  let d : Dev := (d.setF HUB_MBX_CMD_CODE code).setF HUB_MBX_STATUS_CODE code
  (((d.setF HUB_MBX_STATUS_STATUS 1).setF HUB_MBX_STATUS_DETAIL 0).setF HUB_MBX_STATUS_ABORT_RESULT 0).count .hub 0x0F 1

/-- A boot error of R432 after which the mailbox refuses every command. -/
def Dev.mbxRefusesAll (d : Dev) : Bool := d.getF HUB_BOOT_STATUS_ERROR == 1 || d.getF HUB_BOOT_STATUS_ERROR == 2

/-- GO is written with a code (R441): discarded while a command is BUSY, and shown as REJECT_BUSY; otherwise the command
starts, fails when it needs the grant and the host does not hold it (except in recovery mode where `recoveryOk`), and
runs its body. In a WARM reset and after a fatal error no command starts (notes/assumptions/52.md). -/
def mbxIssue (code : Nat) (grant recoveryOk : Bool) (body : Flash × Dev → Flash × Dev) (x : Flash × Dev) : Flash × Dev :=
  let d := x.2
  if d.rst.warm.isSome ∨ d.rst.fatal.isSome then x
  else if d.mbxBusy then (x.1, { d with mbx := { d.mbx with rejected := true } })
  else
    let d := d.mbxStart code
    if d.mbxRefusesAll then (x.1, d.mbxFail 0xF0)
    else if grant ∧ ¬ d.flag SEC_GRANT_HELD ∧ ¬ (recoveryOk ∧ d.recovery) then (x.1, d.mbxFail 0x50)
    else body (x.1, d)

/-- A command that leaves the flash alone. -/
def mbxIssueDev (code : Nat) (grant : Bool) (body : Flash → Dev → Dev) (f : Flash) (d : Dev) : Dev :=
  (mbxIssue code grant false (fun x => (x.1, body x.1 x.2)) (f, d)).2

/-- The codes that a chapter defines. -/
def mbxDefined (c : Nat) : Bool :=
  [0x0101, 0x0102, 0x0103, 0x0104, 0x0201, 0x0202, 0x0301, 0x0401, 0x0402, 0x0403, 0x0404, 0x0405].contains c

/-- UNKNOWN_COMMAND (R441). -/
def execUnknownCommand (code : BitVec 16) (s : State) : Host.Outcome State Fault Refusal :=
  onDevF (mbxIssueDev code.toNat false fun _ d => if mbxDefined code.toNat then d else d.mbxFail 0xF0) s

/-- The commands whose chapter states how they stop: MODEL_LOAD, REGION_REWRITE, DRIVE_IMAGE (R224, R226), GROUP_START
(R298), LINK_BERT (R354) and IMAGE_WRITE (R443). -/
def mbxStops (c : Nat) : Bool := [0x0101, 0x0103, 0x0104, 0x0201, 0x0301, 0x0402].contains c

/-- The read of HUB_MBX_STATUS: a pending REJECT_BUSY once, then the described command again (R441). -/
def Dev.mbxStatusWord (d : Dev) : Word :=
  if d.mbx.rejected then wordPut (d.getR HUB_MBX_STATUS) 31 28 4 else d.getR HUB_MBX_STATUS

/-- MBX_STATUS_READ (R441). -/
def execMbxStatusRead (s : State) : Host.Outcome State Fault Refusal :=
  onDev (fun d => { d.emit (.readData d.mbxStatusWord) with mbx := { d.mbx with rejected := false } }) s

/-- MAILBOX_CONSUME (R441): IDLE unless a command is BUSY. -/
def execMailboxConsume (s : State) : Host.Outcome State Fault Refusal :=
  onDev (fun d =>
    if d.mbxBusy then d
    else { d.setF HUB_MBX_STATUS_STATUS 0 with mbx := { d.mbx with rejected := false } }) s

/-! Record-area appends (R180, R427, R482). -/

/-- An IMAGE_WRITE that rewrites the record area of slot `k` runs. -/
def Dev.rewritesRecords (d : Dev) (k : Fin 2) : Bool :=
  match d.mbx.run with
  | some ⟨_, _, _, .imageWrite k' off n _ _⟩ => k' == k && decide (off ≤ 0x1E10000) && decide (0x1E10000 < off + n * 0x10000)
  | _ => false

/-- The other slot's area cannot take an entry (R427). -/
def Dev.otherAreaFailed (d : Dev) (v : Nat) : Dev := (d.latch egSec 2).logHub Config.otherAreaCode v 0

/-- A page-list entry is programmed into the booted slot's area and then the other's; `pA` and `pB` are the bytes
programmed, 4 when complete. The entry then goes to the tile's skip table, to apply at its next rota boundary. -/
def appendPageBoth (e pA pB : Nat) (x : Flash × Dev) : Flash × Dev :=
  let k := x.2.slotInUse
  let o := otherSlot k
  let idx := (x.1.retiredOf k (pageEntryTile e)).length
  let f := x.1.appendPage k e pA
  if pA < 4 then (f, x.2.latch egSec 2)
  else
    let d := x.2.logHub 0x0006 e 0
    let t := pageEntryTile e
    let d := (d.hold (MEM_SKIP_VALID t idx) 1 d.now).hold (MEM_SKIP_PAGE t idx) (pageEntryPage e) d.now
    if d.rewritesRecords o then (f, { d with mbx := { d.mbx with latePages := d.mbx.latePages ++ [e] } })
    else if (f.nextPage o).isNone ∨ pB < 4 then (f.appendPage o e pB, d.otherAreaFailed e)
    else (f.appendPage o e pB, d)

/-- A tile-mask entry is programmed into both slots' logs; `pA` and `pB` are the words programmed, 2 when complete. -/
def appendMaskBoth (mask pA pB : Nat) (x : Flash × Dev) : Flash × Dev :=
  let k := x.2.slotInUse
  let o := otherSlot k
  let f := x.1.appendMask k mask pA
  if pA < 2 then (f, x.2.latch egSec 2)
  else
    let d := x.2
    if d.rewritesRecords o then (f, { d with mbx := { d.mbx with lateMasks := d.mbx.lateMasks ++ [mask] } })
    else if (f.nextMask o).isNone ∨ pB < 2 then (f.appendMask o mask pB, d.otherAreaFailed mask)
    else (f.appendMask o mask pB, d)

/-- TILE_RETIRE_WRITE (R44, R426): recorded in the tile-mask log before the write is held pending for the next reset; with
the log full it is discarded and logged. -/
def execTileRetireWrite (m : Master) (mask : Word) (progA progB : Nat) (s : State) : Host.Outcome State Fault Refusal :=
  onBoth (fun x =>
    let d := x.2
    if ¬ d.privileged m then (x.1, if mask = 0 then d else d.deny HUB_TILE_RETIRE)
    else if (x.1.nextMask d.slotInUse).isNone then (x.1, d.logHub 0x0007 mask.toNat 0)
    else
      let y := appendMaskBoth mask.toNat progA progB x
      if progA < 2 then y else (y.1, y.2.hold ⟨HUB_TILE_RETIRE, 31, 0⟩ mask.toNat y.2.now)) s

/-! Commands of R443. -/

/-- The page lies in the dump region of R178: tile 0, offsets 0x7_8000_0000 and above. -/
def inDumpRegion (t p : Nat) : Bool := t == 0 && decide (0xF0000 ≤ p)

/-- Parameter words from `j` on are 0. -/
def Dev.paramsZeroFrom (d : Dev) (j : Nat) : Bool := (List.range 8).all fun i => decide (i < j) || d.param i == 0

/-- Give the running command its job. -/
def Dev.setJob (d : Dev) (j : MbxJob) : Dev :=
  { d with mbx := { d.mbx with run := d.mbx.run.map fun r => { r with job := j } } }

/-- IMAGE_WRITE (R443): checks; the sectors follow one flash operation at a time. -/
def execImageWrite (now : Nat) (s : State) : Host.Outcome State Fault Refusal :=
  onBoth (fun x => mbxIssue 0x0402 true true (fun x =>
    let d := x.2.at_ now
    let k : Fin 2 := if d.param 0 / 2 ^ 31 = 0 then 0 else 1
    let off := d.param 1
    let len := d.param 2
    if d.param 0 % 2 ^ 31 ≠ 0 ∨ off % 0x10000 ≠ 0 ∨ len % 0x10000 ≠ 0 ∨ 0x1F00000 < off + len ∨ 1 < d.param 5
        ∨ ¬ d.paramsZeroFrom 6 then (x.1, d.mbxFail 0xF1)
    else if d.bootedSlot = some k then (x.1, d.mbxFail 0x51)
    else if len = 0 then (x.1, d.mbxDone)
    else (x.1, d.setJob (.imageWrite k off (len / 0x10000) 0 (d.param 5 == 1)))) x) s

/-- IMAGE_VERIFY (R443): every check of R429, the outcome in SEC_SLOTx; `readOk` is false on a flash read error. -/
def execImageVerify (now : Nat) (readOk : Bool) (s : State) : Host.Outcome State Fault Refusal :=
  onDevF (fun f d => (mbxIssue 0x0403 false true (fun x =>
    let d := x.2.at_ now
    let k : Fin 2 := if d.param 0 / 2 ^ 31 = 0 then 0 else 1
    if d.param 0 % 2 ^ 31 ≠ 0 ∨ ¬ d.paramsZeroFrom 1 then (x.1, d.mbxFail 0xF1)
    else if ¬ readOk then (x.1, (d.setSlotOutcome k false 7 (d.getF ⟨secSlot k, 12, 0⟩)).mbxDone)
    else (x.1, (d.setSlotOutcome k (x.1.fullReason k == 0) (x.1.fullReason k) (x.1.svn k)).mbxDone)) (f, d)).2) s

/-- FLOOR_RAISE (R443). -/
def execFloorRaise (now : Nat) (s : State) : Host.Outcome State Fault Refusal :=
  onDevF (fun f d => mbxIssueDev 0x0404 true (fun f d =>
    let d := d.at_ now
    let v := d.param 0
    if 8191 < v ∨ ¬ d.paramsZeroFrom 1 then d.mbxFail 0xF1
    else if d.getF HUB_BOOT_STATUS_SVN < v then d.mbxFail 0x55
    else if v ≤ f.floor then d.mbxDone
    else d.setJob (.floor v)) f d) s

/-- KEY_REVOKE (R443). -/
def execKeyRevoke (now : Nat) (s : State) : Host.Outcome State Fault Refusal :=
  onDevF (fun f d => mbxIssueDev 0x0405 true (fun f d =>
    let d := d.at_ now
    let v := d.param 0
    if h : v < 4 then
      if ¬ d.paramsZeroFrom 1 then d.mbxFail 0xF1
      else if (match d.bootedSlot with | some k => f.keyIndex k == v | none => false) then d.mbxFail 0x56
      else d.setJob (.revoke ⟨v, h⟩)
    else d.mbxFail 0xF1) f d) s

/-- After FLOOR_RAISE or KEY_REVOKE, BOOTABLE of any slot that no longer meets R429 clears (R443). -/
def Dev.clearUnbootable (d : Dev) (f : Flash) : Dev :=
  [0, 1].foldl (fun e (k : Fin 2) =>
    if f.revoked (f.keyIndex k) ∨ f.svn k < f.floor then e.setF ⟨secSlot k, 31, 31⟩ 0 else e) d

/-- The bytes that RECORDS 0 puts into the record area: the booted slot's page list, and its tile-mask log compacted to
one entry (R427). -/
def carriedRecords (f : Flash) (k : Fin 2) : List Byte :=
  let mask := f.tileMask k
  f.read (recordBase k) 0x4000 ++ leBytes 4 mask ++ leBytes 4 (0xFFFFFFFF - mask % 2 ^ 32)

/-- A flash operation fails: FLASH_ERR, and the command ends FLASH_ERROR (R443, R444). -/
def Dev.flashFail (d : Dev) : Dev := (d.latch egSec 2).mbxFail 0x52

/-- Appends held back during the rewrite are programmed after it (R427). -/
def flushLate (k : Fin 2) (x : Flash × Dev) : Flash × Dev :=
  let f := x.2.mbx.latePages.foldl (fun f e => f.appendPage k e 4) x.1
  let f := x.2.mbx.lateMasks.foldl (fun f e => f.appendMask k e 2) f
  (f, { x.2 with mbx := { x.2.mbx with latePages := [], lateMasks := [] } })

/-- FLASH_OPERATION_DONE (R427, R443, R482): the operation in hand completes and is read back (`ok`), or fails. An
IMAGE_WRITE operation erases and programs one sector with the host's bytes (`data`, none where host memory could not
be read); a FLOOR_RAISE operation programs the next thermometer bit in ascending order. -/
def execFlashOperationDone (now : Nat) (ok : Bool) (data : Option (List Byte)) (s : State) :
    Host.Outcome State Fault Refusal :=
  onBoth (fun x =>
    let f := x.1
    let d := x.2.at_ now
    match d.mbx.run with
    | some ⟨_, _, ab, .imageWrite k off n done records⟩ =>
      match data with
      | none => (f, d.mbxFail 0x57)
      | some bytes =>
        let o := off + done * 0x10000
        let a := slotBase k + o
        let carry := decide (o = 0x1E10000) && !records
        let f := (f.eraseSector a).program a (if carry then carriedRecords f d.slotInUse else bytes.take 0x10000)
        if ¬ ok then (f, d.flashFail)
        else
          let y := if done + 1 = n ∨ ab then flushLate k (f, d) else (f, d)
          if done + 1 = n then (y.1, y.2.mbxFinish)
          else if ab then (y.1, y.2.mbxAborted)
          else (f, d.setJob (.imageWrite k off n (done + 1) records))
    | some ⟨_, _, _, .floor v⟩ =>
      if ¬ ok then (f, d.flashFail)
      else
        let f := if f.floor < v then f.burn f.floor else f
        let d := d.loadFloor f
        if v ≤ f.floor then (f, (d.clearUnbootable f).mbxFinish) else (f, d)
    | some ⟨_, _, _, .revoke k⟩ =>
      if ¬ ok then (f, d.flashFail)
      else
        let f := f.burnRevoke k
        (f, ((d.loadFloor f).clearUnbootable f).mbxFinish)
    | _ => (f, d)) s

end Sys2Proof.Machine
end

