-- ==== Sys2Proof/Machine/Wring.lean ====
section
/-! DEFINITION. The Wringer's weight transforms (R54 to R56, R207, R212 to R218), and WCONVERT. -/

namespace Sys2Proof.Machine

open Reg

/-! Sources (R54, R207, R212). -/

/-- Element width in bits of a converting source code. -/
def srcWidth (src : Nat) : Nat :=
  if src = 7 then 4 else if src = 8 ∨ src = 9 then 6 else if src = 0xD then 16 else 8

/-- The code is an MX source: it has an E8M0 scale per 32 elements. -/
def srcMx (src : Nat) : Bool := decide (7 ≤ src) && decide (src ≤ 0xC)

/-- A converting source code. -/
def srcConverts (src : Nat) : Bool := decide (5 ≤ src) && decide (src ≤ 0xD)

/-- An OCP element of sign, `e` exponent bits with bias `bias`, and `m` mantissa bits. -/
def miniWord (c e m : Nat) (bias : Int) : Word :=
  let neg := c.testBit (e + m)
  let ex := c / 2 ^ m % 2 ^ e
  let ma := c % 2 ^ m
  if ex = 0 then fRound neg ma (1 - bias - m) false else fRound neg (2 ^ m + ma) (ex - bias - m) false

/-- The value of a source element as an FP32 word. -/
def srcElem (src c : Nat) : Word :=
  if src = 7 then miniWord c 2 1 1
  else if src = 8 then miniWord c 2 3 1
  else if src = 9 then miniWord c 3 2 3
  else if src = 5 ∨ src = 0xA then fp8Word .e4m3 c
  else if src = 6 ∨ src = 0xB then fp8Word .e5m2 c
  else if src = 0xC then fRound (c.testBit 7) (if c.testBit 7 then 256 - c else c) (-6) false
  else BitVec.ofNat 32 (c * 65536)

/-- The value of an E8M0 scale code (R55). -/
def e8m0 (e : Nat) : Word := if e = 255 then vNan else fRound false 1 ((e : Int) - 127) false

/-- Length of a source panel of `kp` dense K positions (R212). -/
def srcBytes (src kp : Nat) : Nat := 8 * kp * srcWidth src + if srcMx src then 2 * kp else 0

/-- A block of a source panel: its element codes and, for an MX source, its scale code. -/
def srcBlock (src kp : Nat) (l : List Byte) (k : Nat) : List Nat × Nat :=
  ((List.range 32).map fun i => codeAt (srcWidth src) l (32 * k + i), (l.getD (8 * kp * srcWidth src + k) 0).toNat)

/-- The source values of a block (R55). -/
def srcVals (src : Nat) (x : List Nat × Nat) : List Word :=
  x.1.map fun c => if srcMx src then fMul vNan (srcElem src c) (e8m0 x.2) else srcElem src c

/-! The scale-preserving conversion (R56). -/

/-- X of R56, the exponent of the tensor scale. -/
def preserveX (emax h : Nat) : Int := max (-96) (min 96 ((emax : Int) - 127 - 16 + h))

/-- The UE5M3 code of 2^k, k from −17 to 16. -/
def ue5m3Pow (k : Int) : Nat := if -14 ≤ k then ((k + 15) * 8).toNat else 2 ^ (k + 17).toNat

/-- A block that the conversion copies, when it does. -/
def preserved (x : List Nat × Nat) (xx : Int) : Option QBlock :=
  let k : Int := (x.2 : Int) - 127 - xx
  if x.2 ≠ 255 ∧ -17 ≤ k ∧ k ≤ 16 then
    some ⟨ue5m3Pow k, x.1.map fun c => if c = 8 then 0 else c, false, false, false, 0, 0, false,
      amaxRecord (maxAbs (srcVals 7 x)), (srcVals 7 x).any isInf⟩
  else none

/-! Panels (R213, R214). -/

/-- What the Wringer converts to: target, NSPARSE, tensor ID, tensor scale, the X of R56 for SMODE 1, and the zero limit. -/
structure WringJob where
  src : Nat
  dst : NFmt
  ns : Nat
  tid : Nat
  st : Word
  keep : Option Int
  limit : Nat
  deriving DecidableEq, Repr

/-- Positions of a sparse block: those with a value, then absent ones in ascending order up to N (R214). -/
def sparsePick (ns : Nat) (xs : List Word) : List Nat :=
  let have_ := (List.range 32).filter fun i => !isZero (xs.getD i 0)
  let fill := ((List.range 32).filter fun i => isZero (xs.getD i 0)).take (ns - have_.length)
  (List.range 32).filter fun i => have_.contains i || fill.contains i

/-- A sparse block with more than N present positions. -/
def sparseOver (ns : Nat) (xs : List Word) : Bool := ns != 32 && decide (ns < (xs.filter fun x => !isZero x).length)

/-- One block: its quantised form, element bytes, mask bytes, and whether it holds more than N values. The stored elements and
mask of such a block are stated nowhere: they are free (notes/assumptions/40.md). -/
def wringBlock (k j : Nat) (w : WringJob) (x : List Nat × Nat) : QBlock × List Byte × List Byte × Bool :=
  let xs := srcVals w.src x
  let q := match w.keep.bind (preserved x) with
    | some q => q
    | none => quantise w.dst w.st w.limit xs none
  if w.ns = 32 then (q, packCodes (if w.dst.isFp8 then 8 else w.dst.bits) q.codes, [], false)
  else if sparseOver w.ns xs then
    (q, (List.range (w.ns / 2)).map fun i => Config.wringerSparse k j i, (List.range 4).map fun i => Config.wringerSparse k j (32 + i), true)
  else
    let ps := sparsePick w.ns xs
    (q, packCodes 4 (ps.map fun i => q.codes.getD i 0), leBytes 4 (ps.map fun i => 2 ^ i).sum, false)

/-- A panel image from a source panel: its bytes, its quantised blocks, and whether a block held more than N values. -/
def wringPanel (k : Nat) (w : WringJob) (l : List Byte) : List Byte × List QBlock × Bool :=
  let kp := denseK w.dst w.ns
  let bs := (List.range (64 * (kp / 32))).map fun j => wringBlock k j w (srcBlock w.src kp l j)
  let hdr := leBytes 1 w.dst.code ++ leBytes 1 w.ns ++ leBytes 2 w.tid ++ leBytes 4 w.st.toNat ++
    leBytes 4 (panelBytes w.dst w.ns) ++ List.replicate 52 0
  (hdr ++ bs.flatMap (fun b => b.2.1) ++ bs.flatMap (fun b => b.2.2.1) ++
    (if w.dst.isFp8 then [] else bs.flatMap fun b => leBytes 1 b.1.scale),
    bs.map fun b => b.1, bs.any fun b => b.2.2.2)

/-! WCONVERT (R217, R218). -/

def wcSrc (param : Nat) : Nat := param / 64 % 16
def wcDst (param : Nat) : Option NFmt := nfmtOf (param / 8 % 8)
def wcNs (param : Nat) : Nat := 32 / 2 ^ (param / 2 % 4)

/-- Beats of 512 bytes. -/
def beatsOf (k : Nat) : Nat := (k + 511) / 512

/-- S, B and P of a WCONVERT; P is 0 where COUNT − B is no positive multiple of Q. -/
def wcShape (src : Nat) (dst : NFmt) (ns count : Nat) : Nat × Nat × Nat :=
  let sb := beatsOf (srcBytes src (denseK dst ns))
  let b := beatsOf (panelBytes dst ns)
  let q := max sb b
  (sb, b, if (count - b) % q = 0 then (count - b) / q else 0)

/-- A malformed WCONVERT (R113, R217). -/
def wconvertBad (arg0 arg1 arg2 count param : Nat) : Bool :=
  match wcDst param with
  | none => true
  | some f =>
    let x := wcShape (wcSrc param) f (wcNs param) count
    !srcConverts (wcSrc param) || !sparseOk f (wcNs param) || param % 2 != 0 || arg0 % 512 != 0 || arg1 % 512 != 0 ||
      decide (4096 ≤ arg2) || x.2.2 == 0 || decide (tsBytes < arg0 + 512 * x.1 * x.2.2) || decide (tsBytes < arg1 + 512 * x.2.1 * x.2.2)

/-- One source panel at `a` becomes an image at `b`, and enters the record of its tensor as a VQST's blocks do. -/
def Dev.wconvertPanel (d : Dev) (n : Fin 32) (src : Nat) (f : NFmt) (ns tid a b : Nat) : Dev :=
  let d := d.statTouch n tid
  let st := d.tscale n tid
  let d : Dev := if tscaleValid st then d else d.tscaleBad n tid
  let r := wringPanel d.free ⟨src, f, ns, tid, tscaleUsed st, none, d.zeroLimit n⟩ (d.tsRead n a (srcBytes src (denseK f ns)))
  let d : Dev := if r.2.2 then d.drawFree.latch (egWrg n) 1 else d
  (r.2.1.foldl (fun d q => d.statBlock n tid q) d).tsWrite n b r.1

/-- WCONVERT (R217, R218). -/
def execWconvert (p : Issue) (arg0 arg1 arg2 : BitVec 26) (count : BitVec 16) (param : BitVec 10) (s : State) :
    Host.Outcome State Fault Refusal :=
  onRun (fun d =>
    d.helperIssue p (wconvertBad arg0.toNat arg1.toNat arg2.toNat count.toNat param.toNat) fun d =>
      match wcDst param.toNat with
      | none => d
      | some f =>
        let src := wcSrc param.toNat
        let ns := wcNs param.toNat
        let x := wcShape src f ns count.toNat
        (List.range x.2.2).foldl (fun d k =>
          d.wconvertPanel p.tile src f ns arg2.toNat (arg0.toNat + 512 * x.1 * k) (arg1.toNat + 512 * x.2.1 * k)) d) s

end Sys2Proof.Machine
end

