-- ==== Sys2Proof/Machine/Resid.lean ====
section
/-! DEFINITION. Weight residency: the drives (R197 to R200), units and the residency directory (R201 to R205), the manifest
(R206 to R208), loads, rewrites and evictions (R209 to R216, R219 to R229), and the load report (R230). -/

namespace Sys2Proof.Machine

open Reg

/-! Lines through the home window. -/

/-- A write of whole lines through the home window (R175, R216): each line reaches DRAM and a held copy of it. -/
def Dev.homeWrite (d : Dev) (n : Fin 32) (a : Nat) (b : List Byte) : Dev :=
  (List.range ((b.length + 63) / 64)).foldl (fun d k =>
    let l := (b.drop (64 * k)).take 64
    (d.dramWrite n (a / 64 + k) l false).heldApply n (a / 64 + k) l) d

/-- Bytes of DRAM as stored. -/
def Dev.dramBytes (d : Dev) (n : Fin 32) (a k : Nat) : List Byte := memBytes (d.tile n).dram a k

/-! Units and slots (R201 to R205, R219 to R222). -/

def unitBytes : Nat := 0x200000
def unitsPerTile : Nat := 16384
/-- Unit 0, and the dump region of T0. -/
def unitReserved (n u : Nat) : Bool := u == 0 || (n == 0 && decide (15360 ≤ u))

/-- Slot `s`'s record in the residency directory. -/
def slotRec (s : Nat) : Nat := s * 0x20000

/-- State of a slot (R219): 0 EMPTY, 1 LOADING, 2 VERIFYING, 3 READY, 4 BOUND. -/
def Dev.slotState (d : Dev) (s : Nat) : Nat := d.getF (WTR_SLOT_STATE_STATE s)

/-- The UNITS bit of a slot (R205). -/
def Dev.slotUnit (d : Dev) (s : Nat) (n : Fin 32) (u : Nat) : Bool :=
  d.regBit (WTR_SLOT_TILES s) n && (memGet (d.tile n).dram (slotRec s + 0x40 + u / 8)).getLsbD (u % 8)

/-- The slot that holds a region in unit `u`. -/
def Dev.unitSlot (d : Dev) (n : Fin 32) (u : Nat) : Option Nat :=
  (List.range 16).find? fun s => d.slotState s != 0 && d.slotUnit s n u

/-- The units of tile `n` that a slot holds. -/
def Dev.slotUnits (d : Dev) (s : Nat) (n : Fin 32) : List Nat := (List.range unitsPerTile).filter fun u => d.slotUnit s n u

/-- The latest value of an RWB field, pending or applied. -/
def Dev.latest (d : Dev) (f : Fld) : Nat :=
  match d.rwb.find? fun e => e.off == f.off && e.hi == f.hi && e.lo == f.lo with
  | some e => e.val
  | none => d.getF f

/-- The retired pages of a tile, as its skip table holds them or is about to (R180). -/
def Dev.retiredPages (d : Dev) (n : Fin 32) : List Nat :=
  (List.range 128).filterMap fun i => if d.latest (MEM_SKIP_VALID n i) = 1 then some (d.latest (MEM_SKIP_PAGE n i)) else none

/-- MEM_KV_PAGES of a tile: 64 × U − P (R203). -/
def Dev.kvPages (d : Dev) (n : Fin 32) : Dev :=
  let slots := (List.range 16).filter fun s => d.slotState s == 4
  let bound (u : Nat) : Bool := slots.any fun s => d.slotUnit s n u
  let us := (List.range unitsPerTile).filter fun u => !unitReserved n u && !bound u
  let p := ((d.retiredPages n).filter fun p => us.contains (p / 64)).length
  d.setN (MEM_KV_PAGES n) (64 * us.length - p)

def Dev.kvPagesAll (d : Dev) : Dev := (List.finRange 32).foldl (fun d n => d.kvPages n) d

/-- The tiles of a mask that are in service. -/
def Dev.maskTiles (d : Dev) (w : Word) : List (Fin 32) := (List.finRange 32).filter fun n => w.getLsbD n && d.inService n

/-- A slot becomes EMPTY (R222): its commit records and UNITS are cleared on its in-service tiles. -/
def Dev.slotEmpty (d : Dev) (s reason : Nat) : Dev :=
  let st := d.slotState s
  let d := (d.maskTiles (d.getR (WTR_SLOT_TILES s))).foldl
    (fun d n => d.homeWrite n (slotRec s) (List.replicate 0x840 0)) d
  let d := ((d.setF (WTR_SLOT_STATE_STATE s) 0).setF (WTR_SLOT_STATE_DAMAGED s) 0).setF (WTR_SLOT_STATE_RETIRED_OVERLAP s) 0
  let d := (d.setF (WTR_SLOT_STATE_REASON s) reason).setN (WTR_SLOT_TILES s) 0
  let d : Dev := { d with res := { d.res with damaged := d.res.damaged.filter fun x => x.1 != s } }
  let d : Dev := if 2 ≤ st then d.latch egWtr 2 else d
  let d := d.logHub 0x000B s reason
  if st = 4 then d.kvPagesAll else d

/-- An eviction of R225 stage 2 or of MODEL_EVICT. -/
def Dev.evict (d : Dev) (s reason : Nat) : Dev := (d.satInc WTR_EVICT_COUNT).slotEmpty s reason

/-- A group binds a slot, and a slot loses one of its groups (R220). -/
def Dev.slotBind (d : Dev) (s : Nat) : Dev :=
  ((d.setF (WTR_SLOT_STATE_STATE s) 4).setF (WTR_SLOT_STATE_GROUPS s) (d.getF (WTR_SLOT_STATE_GROUPS s) + 1)).kvPagesAll
def Dev.slotUnbind (d : Dev) (s : Nat) : Dev :=
  let k := d.getF (WTR_SLOT_STATE_GROUPS s) - 1
  let d := d.setF (WTR_SLOT_STATE_GROUPS s) k
  if k = 0 ∧ d.slotState s = 4 then (d.setF (WTR_SLOT_STATE_STATE s) 3).kvPagesAll else d

/-! The manifest (R206 to R208). -/

/-- A little-endian field of the manifest. -/
def mLe (m : List Byte) (o k : Nat) : Nat := leVal ((m.drop o).take k)
def mZero (m : List Byte) (o k : Nat) : Bool := ((m.drop o).take k).all (· == 0)

def mTileMask (m : List Byte) : Word := BitVec.ofNat 32 (mLe m 0x20 4)
def mTensors (m : List Byte) : Nat := mLe m 0x24 4
def mRegions (m : List Byte) : Nat := mLe m 0x28 4
def mChunks (m : List Byte) : Nat := mLe m 0x2C 4
def mLength (m : List Byte) : Nat := 256 + 32 * (mTensors m + mRegions m + mChunks m)

/-- Field of tensor, region and chunk entry `j`. -/
def mTen (m : List Byte) (j o k : Nat) : Nat := mLe m (256 + 32 * j + o) k
def mReg (m : List Byte) (j o k : Nat) : Nat := mLe m (256 + 32 * (mTensors m + j) + o) k
def mChk (m : List Byte) (j o k : Nat) : Nat := mLe m (256 + 32 * (mTensors m + mRegions m + j) + o) k

def rTile (m : List Byte) (r : Nat) : Fin 32 := Fin.ofNat 32 (mReg m r 0 1)
def rUnit (m : List Byte) (r : Nat) : Nat := mReg m r 4 4
def rBytes (m : List Byte) (r : Nat) : Nat := mReg m r 8 4
def rCrc (m : List Byte) (r : Nat) : Nat := mReg m r 0xC 4
def rFirst (m : List Byte) (r : Nat) : Nat := mReg m r 0x10 4
def rCount (m : List Byte) (r : Nat) : Nat := mReg m r 0x14 4
def cDrive (m : List Byte) (c : Nat) : Nat := mChk m c 0 1
def cTensor (m : List Byte) (c : Nat) : Nat := mChk m c 2 2
def cLength (m : List Byte) (c : Nat) : Nat := mChk m c 4 4
def cLba (m : List Byte) (c : Nat) : Nat := mChk m c 8 8
def cOffset (m : List Byte) (c : Nat) : Nat := mChk m c 0x10 4
def cOut (m : List Byte) (c : Nat) : Nat := mChk m c 0x14 4
def cCrc (m : List Byte) (c : Nat) : Nat := mChk m c 0x18 4
def cRegion (m : List Byte) (c : Nat) : Nat := mChk m c 0x1C 4

/-- The chunk's tile. -/
def cTile (m : List Byte) (c : Nat) : Fin 32 := rTile m (cRegion m c)

/-- The header's fields are in range. -/
def headerOk (m : List Byte) : Bool :=
  mLe m 6 2 == 0x100 && decide (1 ≤ mLe m 0x1C 4) && decide (mLe m 0x1C 4 ≤ 131072) && decide (mLe m 0x18 4 < mLe m 0x1C 4) &&
    decide (1 ≤ mTensors m) && decide (mTensors m ≤ 4096) && mZero m 0x38 196 &&
    mLe m 0x30 8 == ((List.range (mChunks m)).map (cLength m)).sum

def tensorOk (m : List Byte) (j : Nat) : Bool :=
  let f (o k : Nat) := mTen m j o k
  let src := f 2 1
  decide (f 0 2 < 4096) && decide (5 ≤ src) && decide (src ≤ 15) && decide (f 5 1 ≤ 1) && f 7 1 == 0 &&
    mZero m (256 + 32 * j + 0x14) 12 && f 0x10 4 % 64 == 0 &&
    (f 5 1 == 0 || (src == 7 && f 3 1 == 0 && f 6 1 != 255)) &&
    (if 14 ≤ src then f 3 1 == 15 && f 4 1 == 32
     else match nfmtOf (f 3 1) with
      | none => false
      | some t => sparseOk t (f 4 1) && f 0xC 4 % denseK t (f 4 1) == 0 && (f 5 1 == 1 || tscaleValid (BitVec.ofNat 32 (f 8 4))))

/-- The source's output bytes: what a converting chunk of whole source panels becomes; a copy's own length (R212, R215). -/
def chunkOut (m : List Byte) (c : Nat) : Option Nat :=
  let j := cTensor m c
  let src := mTen m j 2 1
  if 14 ≤ src then some (cLength m c)
  else match nfmtOf (mTen m j 3 1) with
    | none => none
    | some t =>
      let sb := srcBytes src (denseK t (mTen m j 4 1))
      if sb ≠ 0 ∧ cLength m c % sb = 0 then some (cLength m c / sb * panelBytes t (mTen m j 4 1)) else none

def chunkOk (m : List Byte) (c : Nat) : Bool :=
  decide (cDrive m c ≤ 1) && mChk m c 1 1 == 0 && decide (cTensor m c < mTensors m) && decide (1 ≤ cLength m c) &&
    decide (cLength m c ≤ 1048576) && cOffset m c % 64 == 0 && cOut m c % 64 == 0 && decide (cRegion m c < mRegions m) &&
    decide (rFirst m (cRegion m c) ≤ c) && decide (c < rFirst m (cRegion m c) + rCount m (cRegion m c)) &&
    chunkOut m c == some (cOut m c)

/-- The chunks of a region cover offsets 0 to BYTES exactly: from 0 on, one chunk starts where the one before it ends. -/
def regionTiled (m : List Byte) (r : Nat) : Bool :=
  let cs := (List.range (rCount m r)).map fun k => rFirst m r + k
  ((List.range (rCount m r)).foldl (fun (p : Option Nat) _ =>
    p.bind fun at_ => (cs.find? fun c => cOffset m c == at_ && cOut m c != 0).map fun c => at_ + cOut m c) (some 0)) == some (rBytes m r)

def regionOk (m : List Byte) (r : Nat) : Bool :=
  decide (mReg m r 0 1 < 32) && (mTileMask m).getLsbD (mReg m r 0 1) && mReg m r 1 3 == 0 && decide (rUnit m r < unitsPerTile) &&
    decide (64 ≤ rBytes m r) && decide (rBytes m r ≤ unitBytes) && rBytes m r % 64 == 0 && mReg m r 0x18 8 == 0 &&
    decide (rFirst m r + rCount m r ≤ mChunks m) &&
    ((List.range (rCount m r)).all fun k => cRegion m (rFirst m r + k) == r) && regionTiled m r &&
    (List.range r).all fun q => !(mReg m q 0 1 == mReg m r 0 1 && rUnit m q == rUnit m r)

/-- The manifest meets R206 to R208. -/
def manifestOk (m : List Byte) : Bool :=
  headerOk m && (List.range (mTensors m)).all (tensorOk m) && (List.range (mChunks m)).all (chunkOk m) &&
    (List.range (mRegions m)).all (regionOk m)

/-- MANIFEST_CRC over the manifest with the field as 0. -/
def manifestCrc (m : List Byte) : Nat := crc32c (m.take 0xFC ++ [0, 0, 0, 0] ++ m.drop 0x100)

/-! Checks of a load (R225 stage 1). -/

def driveReady (k : Nat) : Fld := if k = 0 then WTR_DRIVE_STATUSA_READY else WTR_DRIVE_STATUSB_READY
def Dev.driveOk (d : Dev) (k : Nat) : Bool := d.flag (driveReady k)

/-- A page-table word names a page in DRAM unit `u` of tile `n`; `t` is the table's tile (R243). -/
def wordInUnit (w : Nat) (t n : Fin 32) (u : Nat) : Bool :=
  let tier := w / 2 ^ 61
  w / 2 ^ 12 % 2 ^ 23 / 512 == u && ((tier == 2 && t == n) || (tier == 3 && w / 2 ^ 55 % 32 == n.val))

/-- The unit holds a KV page (R202), or is about to by a running transfer. -/
def Dev.kvUnit (d : Dev) (n : Fin 32) (u : Nat) : Bool :=
  (List.finRange 32).any fun t =>
    ((d.tile t).pages.any fun p => wordInUnit p.w0 t n u) || (d.tile t).tiers.any fun j => j.key.isSome && wordInUnit j.dest t n u

/-- The detail of the first placement check that a region fails. -/
def Dev.placement (d : Dev) (m : List Byte) (r : Nat) : Option Nat :=
  let n := rTile m r
  let u := rUnit m r
  if unitReserved n u then some 0x09
  else if (d.retiredPages n).any fun p => p / 64 == u && decide (p % 64 * 32768 < rBytes m r) then some 0x08
  else if (match d.unitSlot n u with | some s => d.slotState s == 4 | none => false) then some 0x07
  else if d.kvUnit n u then some 0x06
  else none

/-- The detail of the first check of R225 stage 1 that a MODEL_LOAD fails. -/
def Dev.loadCheck (d : Dev) (slot drive len shard : Nat) (man : Option (List Byte)) : Option Nat :=
  if d.slotState slot = 4 then some 0x0E
  else if ¬ d.driveOk drive then some 0x05
  else match man with
    | none => some 0x04
    | some m =>
      if len < 256 ∨ mLe m 0 4 ≠ 0x4D575A4B ∨ mLe m 4 2 ≠ 1 ∨ len ≠ mLength m then some 0x02
      else if manifestCrc m ≠ mLe m 0xFC 4 then some 0x01
      else if ¬ manifestOk m then some 0x02
      else if mLe m 0x18 4 ≠ shard then some 0x11
      else if (List.finRange 32).any fun n => (mTileMask m).getLsbD n && !d.inService n then some 0x0A
      else if (List.range (mChunks m)).any fun c => !d.driveOk (cDrive m c) then some 0x05
      else (List.range (mRegions m)).findSome? fun r => d.placement m r

/-! The running job. -/

def Dev.onLoad (d : Dev) (f : LoadJob → LoadJob) : Dev := { d with res := { d.res with job := d.res.job.map f } }
def LoadJob.chunk (j : LoadJob) (c : Nat) : ChunkSt := j.chunks.getD c ⟨0, 0, 0, []⟩
def LoadJob.setChunk (j : LoadJob) (c : Nat) (x : ChunkSt) : LoadJob := { j with chunks := j.chunks.set c x }

/-- The regions that the job writes. -/
def LoadJob.wants (j : LoadJob) (r : Nat) : Bool := match j.region with
  | none => decide (r < mRegions j.man)
  | some q => r == q

/-- Reads of a drive in flight: being read, or held in the chunk buffer (R211). -/
def LoadJob.inFlight (j : LoadJob) (k : Nat) : Nat :=
  ((List.range j.chunks.length).filter fun c => cDrive j.man c == k && ((j.chunk c).st == 1 || (j.chunk c).st == 2)).length

/-- A rewrite on a BOUND slot reads nothing while a group bound to it runs (R228). -/
def Dev.rewriteWaits (d : Dev) (j : LoadJob) : Bool :=
  j.region.isSome && (List.finRange 4).any fun g => d.gstate g == 2 && ((d.group g).cfg.any fun c => c.slot == j.slot)

/-- The hub issues the Reads it may, each drive's in chunk-table order, up to 16 in flight per drive (R211). -/
def Dev.issueReads (d : Dev) : Dev :=
  match d.res.job with
  | none => d
  | some j =>
    if j.ending.isSome ∨ d.rewriteWaits j then d
    else (List.range j.chunks.length).foldl (fun d c =>
      match d.res.job with
      | none => d
      | some j =>
        if (j.chunk c).st = 0 ∧ j.wants (cRegion j.man c) ∧ j.inFlight (cDrive j.man c) < 16 then
          (d.onLoad fun j => j.setChunk c { j.chunk c with st := 1 }).emit
            (.signal "NVME_READ" [cDrive j.man c, cLba j.man c, cLength j.man c, c])
        else d) d

/-- WRG_STATUS.LOAD of a tile: load work is in progress or waiting (R232). -/
def Dev.wrgLoad (d : Dev) (n : Fin 32) : Dev :=
  let busy := match d.res.job with
    | none => false
    | some j => j.ending.isNone && (List.range j.chunks.length).any fun c => (j.chunk c).st == 3 && cTile j.man c == n
  d.setF (WRG_STATUS_LOAD n) (if busy then 1 else 0)

def Dev.wrgLoadAll (d : Dev) : Dev := (List.finRange 32).foldl (fun d n => d.wrgLoad n) d

/-- The job ends before its completion with a status, a detail and a slot reason (R226): a load's report follows, a rewrite's
unit stays damaged. -/
def Dev.loadStop (d : Dev) (status detail reason : Nat) : Dev :=
  match d.res.job with
  | none => d
  | some j =>
    if j.ending.isSome then d
    else match j.region with
      | some _ => (({ d with res := { d.res with job := none } } : Dev).wrgLoadAll).mbxEnd status detail
      | none =>
        let d := d.slotEmpty j.slot reason
        (d.onLoad fun j => { j with ending := some (status, detail, d.now)
                                    chunks := j.chunks.map fun x => { x with data := [] } }).wrgLoadAll

/-- The job fails with a detail of R224. -/
def Dev.loadFail (d : Dev) (detail : Nat) : Dev := d.loadStop 5 detail (if detail = 0x0A then 5 else 4)

/-- A retry of R200 or R210. -/
def Dev.chunkRetry (d : Dev) : Dev := (d.satInc WTR_CHUNK_RETRY_COUNT).onLoad fun j => { j with retries := j.retries + 1 }

/-! Drives (R199, R200). -/

def driveStatus (k : Fin 2) : Nat := if k = 0 then WTR_DRIVE_STATUSA else WTR_DRIVE_STATUSB

/-- The job still needs a Read of drive `k`. -/
def LoadJob.needs (j : LoadJob) (k : Nat) : Bool :=
  j.ending.isNone && (List.range j.chunks.length).any fun c => cDrive j.man c == k && j.wants (cRegion j.man c) && decide ((j.chunk c).st < 2)

/-- DRIVE_LINK_DOWN (R198, R199). -/
def execDriveLinkDown (drive : Fin 2) (now : Nat) (s : State) : Host.Outcome State Fault Refusal :=
  onRun (fun d =>
    let d := d.at_ now
    let d := ((d.setF ⟨driveStatus drive, 31, 31⟩ 0).setF ⟨driveStatus drive, 30, 30⟩ 0).latch egWtr 0
    if d.res.job.any fun j => j.needs drive then d.loadFail 0x05 else d) s

/-- DRIVE_LINK_UP (R199): the link's speed and width; the hub initialises the drive. -/
def execDriveLinkUp (drive : Fin 2) (speed width : BitVec 4) (s : State) : Host.Outcome State Fault Refusal :=
  onRun (fun d =>
    (((d.setF ⟨driveStatus drive, 31, 31⟩ 1).setF ⟨driveStatus drive, 23, 20⟩ speed.toNat).setF ⟨driveStatus drive, 19, 16⟩
      width.toNat).emit (.signal "NVME_INIT" [drive])) s

/-- DRIVE_READY (R199): a drive whose link is up has been initialised. -/
def execDriveReady (drive : Fin 2) (maxRead : BitVec 16) (s : State) : Host.Outcome State Fault Refusal :=
  onRun (fun d =>
    if d.flag ⟨driveStatus drive, 31, 31⟩ then
      ((d.setF ⟨driveStatus drive, 30, 30⟩ 1).setF ⟨driveStatus drive, 15, 0⟩ maxRead.toNat).latch egWtr 1
    else d) s

/-- The chunk is being read by the running job. -/
def Dev.readsChunk (d : Dev) (drive c : Nat) : Bool :=
  d.res.job.any fun j => j.ending.isNone && decide (c < j.chunks.length) && (j.chunk c).st == 1 && cDrive j.man c == drive

/-- A Read fails: it is issued once more, or the job ends DRIVE_ERROR (R200). -/
def Dev.readFailed (d : Dev) (drive c : Nat) : Dev :=
  match d.res.job with
  | none => d
  | some j =>
    if (j.chunk c).errs = 0 then
      ((d.onLoad fun j => j.setChunk c { j.chunk c with errs := 1 }).chunkRetry).emit
        (.signal "NVME_READ" [drive, cLba j.man c, cLength j.man c, c])
    else d.loadFail 0x04

/-- The chunk CRC of R209. -/
def chunkCrc (c : Nat) (b : List Byte) : Nat := crc32c (leBytes 8 c ++ b)

/-- DRIVE_READ_COMPLETE (R200, R209, R210): `data` starts with the chunk's bytes. -/
def execDriveReadComplete (drive : Fin 2) (chunk : Nat) (ok : Bool) (data : List Byte) (now : Nat) (s : State) :
    Host.Outcome State Fault Refusal :=
  onRun (fun d =>
    let d := d.at_ now
    match d.res.job with
    | none => d
    | some j =>
      if ¬ d.readsChunk drive chunk then d
      else if ¬ ok then d.readFailed drive chunk
      else
        let b := data.take (cLength j.man chunk)
        let d := d.count .hub 0x0E ((data.length + 63) / 64)
        if chunkCrc chunk b = cCrc j.man chunk then
          (d.onLoad fun j => { j.setChunk chunk { j.chunk chunk with st := 2, data := b } with srcBytes := j.srcBytes + b.length }).issueReads
        else if (j.chunk chunk).crcs = 0 then
          ((d.onLoad fun j => j.setChunk chunk { j.chunk chunk with crcs := 1, errs := 0 }).chunkRetry).emit
            (.signal "NVME_READ" [drive, cLba j.man chunk, cLength j.man chunk, chunk])
        else d.loadFail 0x03) s

/-- DRIVE_CMD_TIMEOUT (R200): the Read is aborted under the NVMe Abort rules before it is issued again. -/
def execDriveCmdTimeout (drive : Fin 2) (chunk : Nat) (now : Nat) (s : State) : Host.Outcome State Fault Refusal :=
  onRun (fun d =>
    let d := d.at_ now
    if d.readsChunk drive chunk then (d.emit (.signal "NVME_ABORT" [drive, chunk])).readFailed drive chunk else d) s

/-! Forwarding and wringing (R211 to R216). -/

/-- CHUNK_FORWARD (R210, R211): the tile's next chunk in table order, checked, to a buffer with room for two. -/
def execChunkForward (chunk : Nat) (s : State) : Host.Outcome State Fault Refusal :=
  onRun (fun d =>
    match d.res.job with
    | none => d
    | some j =>
      let n := cTile j.man chunk
      let mine := (List.range j.chunks.length).filter fun c => cTile j.man c == n && j.wants (cRegion j.man c)
      if j.ending.isSome ∨ (j.chunk chunk).st ≠ 2 ∨ (mine.any fun c => decide (c < chunk) && decide ((j.chunk c).st < 3)) ∨
          2 ≤ (mine.filter fun c => (j.chunk c).st == 3).length then d
      else
        let h := min 8 (d.getF (QNT_CTRL_HEADROOM n))
        ((d.onLoad fun j => { j.setChunk chunk { j.chunk chunk with st := 3 } with
          heads := if j.heads.any fun x => x.1 == n.val then j.heads else j.heads ++ [(n.val, h)] }).wrgLoad n).issueReads) s

def WStat.clear : WStat := ⟨0, 0, 0, 0, 0, 0, 0, 0, false⟩

/-- A quantised block enters a weight tensor's counts (R64, R80). -/
def WStat.add (w : WStat) (q : QBlock) : WStat :=
  let b (x : Bool) : Nat := if x then 1 else 0
  ⟨max w.amax q.amax.toNat, w.sat + q.sat, w.zero + q.zero, w.troubled + b q.troubled, w.hi + b q.clampHi, w.lo + b q.clampLo,
    w.nan + b q.nan, w.blocks + 1, w.inf || q.inf⟩

/-- The conversion that a tensor entry asks for on a tile whose HEADROOM was `h` (R213). -/
def wringOf (m : List Byte) (j h limit : Nat) : Option WringJob :=
  match nfmtOf (mTen m j 3 1) with
  | none => none
  | some f =>
    if mTen m j 5 1 = 1 then
      let x := preserveX (mTen m j 6 1) h
      some ⟨7, f, mTen m j 4 1, mTen m j 0 2, fRound false 1 x false, some x, limit⟩
    else some ⟨mTen m j 2 1, f, mTen m j 4 1, mTen m j 0 2, BitVec.ofNat 32 (mTen m j 8 4), none, limit⟩

/-- The header check of R215 over back-to-back images; `k` bounds their number. -/
def panelsOk : Nat → List Byte → Bool
  | 0, l => l.isEmpty
  | k + 1, l =>
    l.isEmpty || (decide (64 ≤ l.length) && (headerCause l).isNone && decide (mLe l 8 4 ≤ l.length) && panelsOk k (l.drop (mLe l 8 4)))

/-- A chunk's output: its bytes, its quantised blocks, and the detail with which the load fails (R213 to R215). -/
def wringChunk (k : Nat) (m : List Byte) (c h limit : Nat) (b : List Byte) : List Byte × List QBlock × Option Nat :=
  let j := cTensor m c
  let src := mTen m j 2 1
  if src = 15 then (b, [], none)
  else if src = 14 then (b, [], if panelsOk (b.length / 64 + 1) b then none else some 0x14)
  else match wringOf m j h limit with
    | none => (b, [], none)
    | some w =>
      let sb := srcBytes w.src (denseK w.dst w.ns)
      let ps := (List.range (cLength m c / sb)).map fun p => wringPanel (k + p) w ((b.drop (sb * p)).take sb)
      (ps.flatMap fun p => p.1, ps.flatMap fun p => p.2.1, if ps.any fun p => p.2.2 then some 0x0B else none)

/-- The counts of a tensor on a tile take the chunk's blocks. -/
def LoadJob.stat (j : LoadJob) (t n : Nat) (qs : List QBlock) : LoadJob :=
  let w := ((j.stats.find? fun x => x.1 == t && x.2.1 == n).map fun x => x.2.2).getD WStat.clear
  { j with stats := j.stats.filter (fun x => ¬ (x.1 = t ∧ x.2.1 = n)) ++ [(t, n, qs.foldl WStat.add w)] }

/-- Every chunk of a region is written. -/
def LoadJob.regionWritten (j : LoadJob) (r : Nat) : Bool :=
  (List.range (rCount j.man r)).all fun k => (j.chunk (rFirst j.man r + k)).st == 4

/-- CHUNK_WRING (R212 to R216): the first chunk of the tile's input buffer is converted or copied and written through the home
window; after the last chunk of a unit, zeros from BYTES to its end. -/
def execChunkWring (n : Fin 32) (now : Nat) (s : State) : Host.Outcome State Fault Refusal :=
  onRun (fun d =>
    let d := d.at_ now
    match d.res.job with
    | none => d
    | some j =>
      match (List.range j.chunks.length).find? fun c => (j.chunk c).st == 3 && cTile j.man c == n with
      | none => d
      | some c =>
        if j.ending.isSome then d
        else
          let h := ((j.heads.find? fun x => x.1 == n.val).map Prod.snd).getD 0
          let x := wringChunk d.free j.man c h (d.zeroLimit n) (j.chunk c).data
          let d := d.onLoad fun j => j.stat (cTensor j.man c) n x.2.1
          match x.2.2 with
          | some det => (d.latch (egWrg n) (if det = 0x14 then 0 else 1)).loadFail det
          | none =>
            let r := cRegion j.man c
            let base := rUnit j.man r * unitBytes
            let d := d.homeWrite n (base + cOffset j.man c) x.1
            let d := d.setPair (WRG_LOAD_BYTES_LO n) (WRG_LOAD_BYTES_HI n) (d.getPair (WRG_LOAD_BYTES_LO n) (WRG_LOAD_BYTES_HI n) + x.1.length)
            let d := d.onLoad fun j => j.setChunk c { j.chunk c with st := 4, data := [] }
            let d := if j.region.isNone then d.setN WTR_LOAD_DONE (d.getN WTR_LOAD_DONE + 1) else d
            let d := if d.res.job.any fun j => j.regionWritten r then
                d.homeWrite n (base + rBytes j.man r) (List.replicate (unitBytes - rBytes j.man r) 0)
              else d
            d.wrgLoad n) s

/-! Verify, commit and report (R225, R230). -/

/-- A read of whole lines through the home window: the bytes, and whether any line was uncorrectable. -/
def Dev.homeRead (d : Dev) (n : Fin 32) (a k : Nat) (reps : List (Nat × EccRep)) : List Byte × Bool × Dev :=
  (List.range ((k + 63) / 64)).foldl (fun (x : List Byte × Bool × Dev) i =>
    let r := x.2.2.dramRead n (a / 64 + i) 1 (repOf reps (a / 64 + i))
    (x.1 ++ r.1, x.2.1 || r.2.1, r.2.2)) ([], false, d)

/-- The resident CRC of R209. -/
def residentCrc (n u : Nat) (b : List Byte) : Nat := crc32c (leBytes 8 (n * 2 ^ 32 + u) ++ b)

/-- Write RCRC of a unit. -/
def Dev.putRcrc (d : Dev) (s : Nat) (n : Fin 32) (u v : Nat) : Dev :=
  let a := slotRec s + 0x840 + 4 * u
  let l := a / 64
  let b := splice (d.dramLine n l) (a % 64) (leBytes 4 v)
  (d.dramWrite n l b false).heldApply n l b

/-- REGION_VERIFY (R209, R225 stage 6): `reps` lists the lines that the codes did not find clean. -/
def execRegionVerify (region : Nat) (reps : List (Nat × EccRep)) (now : Nat) (s : State) : Host.Outcome State Fault Refusal :=
  onRun (fun d =>
    let d := d.at_ now
    match d.res.job with
    | none => d
    | some j =>
      if j.ending.isSome ∨ ¬ j.wants region ∨ ¬ j.regionWritten region ∨ (j.regions.getD region (0, 0)).1 ≠ 3 then d
      else
        let n := rTile j.man region
        let u := rUnit j.man region
        let x := d.homeRead n (u * unitBytes) (rBytes j.man region) reps
        let c := residentCrc n u x.1
        let e := rCrc j.man region
        let res := if x.2.1 then 2 else if e = 0 then 4 else if c = e then 0 else 1
        let d := (x.2.2.putRcrc j.slot n u c).onLoad fun j =>
          { j with regions := j.regions.set region (res, c), resBytes := j.resBytes + rBytes j.man region }
        if res = 1 ∨ res = 2 then (d.latch (egWrg n) 2).loadFail 0x0C
        else if j.region.isSome then
          let d : Dev := { d with res := ⟨none, d.res.damaged.filter fun y => ¬ (y = (j.slot, n.val, u))⟩ }
          let d := if d.res.damaged.any fun y => y.1 == j.slot then d
            else (d.setF (WTR_SLOT_STATE_DAMAGED j.slot) 0).emit (.signal "DAMAGED_CLEAR" [j.slot])
          d.mbxDone
        else d) s

/-- A commit record (R205). -/
def commitRecord (j : LoadJob) (n : Fin 32) (seq headroom : Nat) : List Byte :=
  let m := j.man
  let regions := ((List.range (mRegions m)).filter fun r => rTile m r == n).length
  let b := leBytes 4 0x52435A4B ++ leBytes 4 (mTileMask m).toNat ++ leBytes 8 (mLe m 8 8) ++ leBytes 8 (mLe m 0x10 8) ++
    leBytes 4 seq ++ leBytes 1 j.slot ++ leBytes 1 j.ctx ++ leBytes 1 j.drive ++ [0] ++ leBytes 8 j.lba ++ leBytes 4 m.length ++
    leBytes 4 (mLe m 0xFC 4) ++ leBytes 4 regions ++ leBytes 4 headroom
  b ++ leBytes 4 (crc32c b) ++ [0, 0, 0, 0]

/-- H taken on a tile: at its first chunk, or as it stands on a tile that none reached. -/
def Dev.headOf (d : Dev) (j : LoadJob) (n : Fin 32) : Nat :=
  ((j.heads.find? fun x => x.1 == n.val).map Prod.snd).getD (min 8 (d.getF (QNT_CTRL_HEADROOM n)))

/-- LOAD_COMMIT (R225 stage 7), once every region is verified: the commit records, and in one hub cycle READY, LAST_USE and the
count; that cycle is the load's completion. -/
def execLoadCommit (now : Nat) (s : State) : Host.Outcome State Fault Refusal :=
  onRun (fun d =>
    let d := d.at_ now
    match d.res.job with
    | none => d
    | some j =>
      if j.ending.isSome ∨ j.region.isSome ∨ ¬ (List.range (mRegions j.man)).all fun r =>
          (j.regions.getD r (3, 0)).1 == 0 || (j.regions.getD r (3, 0)).1 == 4 then d
      else
        let d := (d.maskTiles (mTileMask j.man)).foldl
          (fun d n => d.homeWrite n (slotRec j.slot) (commitRecord j n (d.getN WTR_LOAD_SEQ) (d.headOf j n))) d
        let d := (d.setF (WTR_SLOT_STATE_STATE j.slot) 3).setPair (WTR_SLOT_USE_LO j.slot) (WTR_SLOT_USE_HI j.slot) d.now
        (d.satInc WTR_LOAD_COUNT).onLoad fun j => { j with ending := some (2, 0, d.now) }) s

/-- A tensor's statistics record in the report, combined over the tiles that wrote it (R230). -/
def Dev.reportStat (d : Dev) (j : LoadJob) (t : Nat) : List Byte × Bool :=
  let ws := j.stats.filter fun x => x.1 == t
  match ws with
  | [] => (List.replicate 32 0, false)
  | w0 :: _ =>
    let src := mTen j.man t 2 1
    if 14 ≤ src then (List.replicate 26 0 ++ leBytes 2 1 ++ List.replicate 4 0, false)
    else
      let sum (f : WStat → Nat) : Nat := (ws.map fun x => f x.2.2).sum
      let tr := ws.any fun x => decide (d.troubleLimit (Fin.ofNat 32 x.2.1) < x.2.2.troubled)
      let inf := ws.any fun x => x.2.2.inf
      let h := ((j.heads.find? fun x => x.1 == w0.2.1).map Prod.snd).getD 0
      let ts := ((wringOf j.man t h 0).map fun w => w.st.toNat).getD 0
      (leBytes 4 ts ++ leBytes 4 ((ws.map fun x => x.2.2.amax).foldl max 0) ++ leBytes 4 (min (sum (·.sat)) 0xFFFFFFFF) ++
        leBytes 4 (min (sum (·.zero)) 0xFFFFFFFF) ++ leBytes 4 (min (sum (·.troubled)) 0xFFFFFFFF) ++
        leBytes 2 (min (sum (·.hi)) 0xFFFF) ++ leBytes 2 (min (sum (·.lo)) 0xFFFF) ++ leBytes 2 (min (sum (·.nan)) 0xFFFF) ++
        leBytes 2 (1 + (if tr then 2 else 0) + (if inf then 32 else 0)) ++ leBytes 4 (min (sum (·.blocks)) 0xFFFFFFFF), tr)

/-- The load report (R230). -/
def Dev.loadReport (d : Dev) (j : LoadJob) (st det end_ : Nat) : List Byte :=
  let m := j.man
  let ts := (List.range (mTensors m)).map fun t => (t, d.reportStat j t)
  let low : Option (Fin 32) := (List.finRange 32).find? fun n => (mTileMask m).getLsbD n
  leBytes 8 (mLe m 8 8) ++ leBytes 8 (mLe m 0x10 8) ++ leBytes 4 (d.getN WTR_LOAD_SEQ) ++ leBytes 1 j.slot ++ leBytes 1 j.ctx ++
    leBytes 1 st ++ leBytes 1 det ++ leBytes 8 j.start ++ leBytes 8 end_ ++ leBytes 8 j.srcBytes ++ leBytes 8 j.resBytes ++
    leBytes 4 j.retries ++ leBytes 2 j.evicted ++ leBytes 2 (ts.filter fun x => x.2.2).length ++
    leBytes 4 ((low.map fun n => d.headOf j n).getD 0) ++ leBytes 4 (mTensors m) ++ leBytes 4 (mRegions m) ++ List.replicate 52 0 ++
    (ts.flatMap fun x => leBytes 2 (mTen m x.1 0 2) ++ List.replicate 6 0 ++ x.2.1) ++
    (List.range (mRegions m)).flatMap fun r =>
      leBytes 4 (j.regions.getD r (3, 0)).2 ++ leBytes 1 (j.regions.getD r (3, 0)).1 ++ leBytes 1 (mReg m r 0 1) ++ [0, 0]

/-- LOAD_REPORT (R225 stage 8, R226, R230): the first P6 bytes of the report reach host memory; a load that completed ends
REPORT_DMA when they cannot. -/
def execLoadReport (dmaOk : Bool) (s : State) : Host.Outcome State Fault Refusal :=
  onRun (fun d =>
    match d.res.job with
    | none => d
    | some j =>
      match j.ending with
      | none => d
      | some (st, det, e) =>
        let rep := (d.loadReport j st det e).take j.repLen
        let d : Dev := { d with res := { d.res with job := none } }
        if dmaOk then (d.emit (.hostWrite j.repAddr rep)).mbxEnd st det
        else if st = 2 then d.mbxFail 0x12
        else d.mbxEnd st det) s

/-! Mailbox commands (R223). -/

/-- Stage 3 of R225 on one tile: zeros to the commit record, then UNITS, RCRC and RLEN. -/
def Dev.claimTile (d : Dev) (m : List Byte) (slot : Nat) (n : Fin 32) : Dev :=
  let mine := (List.range (mRegions m)).filter fun r => rTile m r == n
  let at_ (u : Nat) : Option Nat := mine.find? fun r => rUnit m r == u
  let units := (List.range 2048).map fun k =>
    BitVec.ofNat 8 ((List.range 8).map fun b => if (at_ (8 * k + b)).isSome then 2 ^ b else 0).sum
  let rcrc := (List.range unitsPerTile).flatMap fun u => leBytes 4 (match at_ u with | some r => rCrc m r | none => 0)
  let rlen := (List.range unitsPerTile).flatMap fun u => leBytes 2 (match at_ u with | some r => rBytes m r / 64 | none => 0)
  (d.homeWrite n (slotRec slot) (List.replicate 64 0)).homeWrite n (slotRec slot + 0x40) (units ++ rcrc ++ rlen)

/-- Stages 2 and 3 of R225. -/
def Dev.loadClaim (d : Dev) (m : List Byte) (slot ctx : Nat) : Nat × Dev :=
  let x : Nat × Dev := if 2 ≤ d.slotState slot then (2 ^ slot, d.evict slot 1) else (0, d)
  let x := (List.range 16).foldl (fun (x : Nat × Dev) s =>
    if s ≠ slot ∧ x.2.slotState s ≠ 0 ∧ (List.range (mRegions m)).any fun r => x.2.slotUnit s (rTile m r) (rUnit m r) then
      (x.1 + 2 ^ s, x.2.evict s 2)
    else x) x
  let d := (x.2.maskTiles (mTileMask m)).foldl (fun d n => d.claimTile m slot n) x.2
  let d := ((d.setF (WTR_SLOT_STATE_STATE slot) 1).setF (WTR_SLOT_STATE_CONTEXT slot) ctx).setR (WTR_SLOT_TILES slot) (mTileMask m)
  let d := d.setPair (WTR_SLOT_MODEL_LO slot) (WTR_SLOT_MODEL_HI slot) (mLe m 8 8)
  (x.1, ((d.setN WTR_LOAD_SEQ (d.getN WTR_LOAD_SEQ + 1)).setN WTR_LOAD_CHUNKS (mChunks m)).setN WTR_LOAD_DONE 0)

/-- A job over a manifest, with nothing read. -/
def newJob (slot ctx drive lba : Nat) (m : List Byte) (addr len now : Nat) (region : Option Nat) (retries evicted : Nat) : LoadJob :=
  ⟨slot, ctx, drive, lba, m, addr, len, now, region, none, 0, 0, retries, evicted, [], List.replicate (mChunks m) ⟨0, 0, 0, []⟩,
    List.replicate (mRegions m) (3, 0), []⟩

/-- MODEL_LOAD (R223, R225 stages 1 to 3): `man` is the manifest as read, none where its Read failed twice; `retried` says that a
Read of it was repeated. -/
def execModelLoad (now : Nat) (man : Option (List Byte)) (retried : Bool) (s : State) : Host.Outcome State Fault Refusal :=
  onDevF (mbxIssueDev 0x0101 false fun _ d =>
    let d := d.at_ now
    let p0 := d.param 0
    let slot := p0 / 2 ^ 28
    let drive := p0 / 2 ^ 19 % 2
    if p0 % 2 ^ 19 ≠ 0 then d.mbxFail 0xF1
    else
      let d := if retried ∧ d.slotState slot ≠ 4 ∧ d.driveOk drive then d.satInc WTR_CHUNK_RETRY_COUNT else d
      let man := man.map fun m => m.take (d.param 3)
      match d.loadCheck slot drive (d.param 3) (d.param 7) man, man with
      | some det, _ => d.mbxFail det
      | none, none => d.mbxFail 0x04
      | none, some m =>
        let x := d.loadClaim m slot (p0 / 2 ^ 20 % 256)
        let j := newJob slot (p0 / 2 ^ 20 % 256) drive (d.param 1 + d.param 2 * 2 ^ 32) m (d.param 4 + d.param 5 * 2 ^ 32) (d.param 6)
          d.now none (if retried then 1 else 0) x.1
        ({ x.2 with res := { x.2.res with job := some j } } : Dev).issueReads) s

/-- MODEL_EVICT (R229). -/
def execModelEvict (now : Nat) (s : State) : Host.Outcome State Fault Refusal :=
  onDevF (mbxIssueDev 0x0102 false fun _ d =>
    let d := d.at_ now
    let slot := d.param 0 / 2 ^ 28
    if d.param 0 % 2 ^ 28 ≠ 0 ∨ ¬ d.paramsZeroFrom 1 then d.mbxFail 0xF1
    else if d.slotState slot = 0 then d.mbxDone
    else if d.slotState slot = 4 then d.mbxFail 0x0E
    else (d.evict slot 1).mbxDone) s

/-- The commit record of a slot: the one on the lowest-numbered tile of its mask. -/
def Dev.slotCommit (d : Dev) (s : Nat) : List Byte :=
  match d.maskTiles (d.getR (WTR_SLOT_TILES s)) with
  | [] => []
  | n :: _ => d.dramBytes n (slotRec s) 64

/-- The detail of the first check that a REGION_REWRITE fails, or the region entry it names (R224, R228). -/
def Dev.rewriteCheck (d : Dev) (slot : Nat) (n : Fin 32) (u : Nat) (man : Option (List Byte)) : Nat ⊕ List Byte × Nat :=
  let c := d.slotCommit slot
  if d.slotState slot < 3 ∨ ¬ d.slotUnit slot n u then .inl 0x0F
  else if d.slotState slot = 4 ∧ (slot, n.val, u) ∉ d.res.damaged then .inl 0x0E
  else if ¬ d.driveOk (mLe c 0x1E 1) then .inl 0x05
  else match man with
    | none => .inl 0x04
    | some m =>
      let m := m.take (mLe c 0x28 4)
      if manifestCrc m ≠ mLe c 0x2C 4 then .inl 0x13
      else match (List.range (mRegions m)).find? fun r => rTile m r == n && rUnit m r == u with
        | none => .inl 0x0F
        | some r =>
          if (List.range (rCount m r)).any fun k => !d.driveOk (cDrive m (rFirst m r + k)) then .inl 0x05 else .inr (m, r)

/-- REGION_REWRITE (R223, R228): the manifest of the slot's commit record is read again; its Reads start when no group bound to
the slot runs. -/
def execRegionRewrite (now : Nat) (man : Option (List Byte)) (retried : Bool) (s : State) : Host.Outcome State Fault Refusal :=
  onDevF (mbxIssueDev 0x0103 false fun _ d =>
    let d := d.at_ now
    let p0 := d.param 0
    let slot := p0 / 2 ^ 28
    let n : Fin 32 := Fin.ofNat 32 (p0 / 2 ^ 23)
    if p0 % 2 ^ 9 ≠ 0 ∨ ¬ d.paramsZeroFrom 1 then d.mbxFail 0xF1
    else
      let c := d.slotCommit slot
      match d.rewriteCheck slot n (p0 / 2 ^ 9 % 2 ^ 14) man with
      | .inl det => (if retried ∧ det ≠ 0x0E ∧ det ≠ 0x0F then d.satInc WTR_CHUNK_RETRY_COUNT else d).mbxFail det
      | .inr (m, r) =>
        let d := if retried then d.satInc WTR_CHUNK_RETRY_COUNT else d
        let j := newJob slot (mLe c 0x1D 1) (mLe c 0x1E 1) (mLe c 0x20 8) m 0 0 d.now (some r) 0 0
        ({ d with res := { d.res with job := some j } } : Dev).issueReads) s

/-- DRIVE_IMAGE (R198, R223, R229): `data` is what the hub reads from host memory, none where it cannot; `ok` is false when a Write
or the Flush fails; `abortAfter` is the number of bytes written when a latched abort stops it at a command boundary. -/
def execDriveImage (now : Nat) (data : Option (List Byte)) (ok : Bool) (abortAfter : Option Nat) (s : State) :
    Host.Outcome State Fault Refusal :=
  onDevF (mbxIssueDev 0x0104 false fun _ d =>
    let d := d.at_ now
    let k := d.param 0 / 2 ^ 31
    let lba := d.param 1 + d.param 2 * 2 ^ 32
    let len := d.param 3
    if d.param 0 % 2 ^ 31 ≠ 0 ∨ ¬ d.paramsZeroFrom 6 ∨ 0x4000000 < len ∨ len % 512 ≠ 0 then d.mbxFail 0xF1
    else if ¬ d.flag (if k = 0 then WTR_DRIVE_CTRL_WRITE_EN_A else WTR_DRIVE_CTRL_WRITE_EN_B) then d.mbxFail 0x10
    else if ¬ d.driveOk k then d.mbxFail 0x05
    else match data with
      | none => d.mbxFail 0x57
      | some _ =>
        match abortAfter with
        | some b =>
          ((d.emit (.signal "NVME_WRITE" [k, lba, min b len])).setF HUB_MBX_STATUS_ABORT_RESULT 1).mbxAborted
        | none =>
          let d := d.emits [.signal "NVME_WRITE" [k, lba, len], .signal "NVME_FLUSH" [k]]
          if ok then d.mbxDone else d.mbxFail 0x04) s

/-- SLOT_REVERIFY (R227): every unit of a VERIFYING slot is read back and compared with RCRC; `reps` lists the lines that were not
clean, by tile. -/
def execSlotReverify (slot : Fin 16) (reps : List (Fin 32 × Nat × EccRep)) (now : Nat) (s : State) :
    Host.Outcome State Fault Refusal :=
  onRun (fun d =>
    let d := d.at_ now
    if d.slotState slot ≠ 2 then d
    else
      let x := (d.maskTiles (d.getR (WTR_SLOT_TILES slot))).foldl (fun (x : Bool × Dev) n =>
        (x.2.slotUnits slot n).foldl (fun (x : Bool × Dev) u =>
          let k := 64 * memLe (x.2.tile n).dram (slotRec slot + 0x10840 + 2 * u) 2
          let r := x.2.homeRead n (u * unitBytes) k ((reps.filter fun y => y.1 == n).map fun y => y.2)
          (x.1 && !r.2.1 && residentCrc n u r.1 == memLe (x.2.tile n).dram (slotRec slot + 0x840 + 4 * u) 4, r.2.2)) x) (true, d)
      if x.1 then
        (x.2.setF (WTR_SLOT_STATE_STATE slot) 3).setPair (WTR_SLOT_USE_LO slot) (WTR_SLOT_USE_HI slot) x.2.now
      else x.2.slotEmpty slot 7) s

/-! Losses from outside the mailbox. -/

/-- A tile leaves service (R43 step 5, R222, R226): a load that needs it fails, and every slot with a shard on it is lost. -/
def Dev.slotsTileLost (d : Dev) (n : Fin 32) : Dev :=
  let d := if d.res.job.any fun j => (mTileMask j.man).getLsbD n && (j.region.isNone || rTile j.man (j.region.getD 0) == n) then d.loadFail 0x0A
    else d
  (List.range 16).foldl (fun d s => if 2 ≤ d.slotState s ∧ d.regBit (WTR_SLOT_TILES s) n then d.slotEmpty s 5 else d) d

/-- The least-used slot (R204): VERIFYING or READY with the oldest LAST_USE, the lower number on a tie. -/
def Dev.leastUsed (d : Dev) : Option Nat :=
  let use_ (s : Nat) : Nat := d.getPair (WTR_SLOT_USE_LO s) (WTR_SLOT_USE_HI s)
  ((List.range 16).filter fun s => d.slotState s == 2 || d.slotState s == 3).foldl (fun b s =>
    match b with
    | none => some s
    | some t => if use_ s < use_ t then some s else some t) none

/-- A page takes unit `u` (R204): a cached slot that holds it is dropped whole, a load that holds it fails. -/
def Dev.takeUnit (d : Dev) (n : Fin 32) (u : Nat) : Dev :=
  match d.unitSlot n u with
  | none => d
  | some s =>
    if d.slotState s = 1 then (d.satInc WTR_DROP_COUNT).loadFail 0x0D
    else if d.slotState s = 4 then d
    else (d.satInc WTR_DROP_COUNT).slotEmpty s 3

/-- A page that retires inside a region's bytes sets RETIRED_OVERLAP (R229). -/
def Dev.retireOverlap (d : Dev) (n : Fin 32) (p : Nat) : Dev :=
  (List.range 16).foldl (fun d s =>
    if 2 ≤ d.slotState s ∧ d.slotUnit s n (p / 64) ∧
        p % 64 * 32768 < 64 * memLe (d.tile n).dram (slotRec s + 0x10840 + 2 * (p / 64)) 2 then
      d.setF (WTR_SLOT_STATE_RETIRED_OVERLAP s) 1
    else d) d

end Sys2Proof.Machine
end

