-- ==== Sys2Proof/Machine/Tiers.lean ====
section
/-! DEFINITION. Page retirement and uncorrectable lines (R165, R180, R229), the neighbour pool (R187 to R189), tier transfers
(R190, R191) and tier fetches (R194, R195). -/

namespace Sys2Proof.Machine

open Reg

/-! Page-table words (R243). -/

def wTier (w : Nat) : Nat := w / 2 ^ 61
def wTile (w : Nat) : Fin 32 := Fin.ofNat 32 (w / 2 ^ 55)
def wPkg (w : Nat) : Nat := w / 2 ^ 38 % 2 ^ 17
/-- Run length in granules. -/
def wGran (w : Nat) : Nat := w / 2 ^ 35 % 8 + 1
/-- Byte offset of the page or of the run's first granule. -/
def wOff (w : Nat) : Nat := w / 2 ^ 12 % 2 ^ 23 * 4096
def wMoving (w : Nat) : Bool := w.testBit 60
def wSetMoving (w : Nat) : Nat := w ||| 2 ^ 60
def wClearMoving (w : Nat) : Nat := if wMoving w then w - 2 ^ 60 else w

/-- The page homed on tile `n`'s DRAM that holds line `l`: its owner tile and its sequence. -/
def Dev.pageOfLine (d : Dev) (n : Fin 32) (l : Nat) : Option (Fin 32 × Nat) :=
  (List.finRange 32).findSome? fun t =>
    ((d.tile t).pages.find? fun p => wOff p.w0 / 32768 == l / 512 &&
      ((wTier p.w0 == 2 && t == n) || (wTier p.w0 == 3 && wTile p.w0 == n))).map fun p => (t, p.seq)

/-! Retirement. -/

/-- A page retires: its entry is appended to both lists, and MEM_KV_PAGES and RETIRED_OVERLAP follow (R180, R203, R229). -/
def retirePage (e pA pB : Nat) (x : Flash × Dev) : Flash × Dev :=
  let y := appendPageBoth e pA pB x
  if pA < 4 then y
  else
    let n := Fin.ofNat 32 (pageEntryTile e)
    (y.1, (y.2.retireOverlap n (pageEntryPage e)).kvPages n)

/-- PAGE_RETIRE (R180, R443), with the bytes programmed in the booted and in the other slot's list. -/
def execPageRetire (now progA progB : Nat) (s : State) : Host.Outcome State Fault Refusal :=
  onBoth (fun x => mbxIssue 0x0401 true false (fun x =>
    let d := x.2.at_ now
    let k := d.slotInUse
    let p0 := d.param 0
    let t := p0 / 2 ^ 27
    let p := p0 / 2 ^ 7 % 2 ^ 20
    if p0 % 128 ≠ 0 ∨ ¬ d.paramsZeroFrom 1 ∨ inDumpRegion t p then (x.1, d.mbxFail 0xF1)
    else if (x.1.retiredOf k t).contains p then (x.1, d.mbxDone)
    else if 128 ≤ (x.1.retiredOf k t).length then (x.1, d.mbxFail 0x53)
    else if (x.1.nextPage k).isNone then (x.1, d.mbxFail 0x54)
    else
      let y := retirePage (mkPageEntry t p 0) progA progB (x.1, d)
      if progA < 4 then (y.1, y.2.mbxFail 0x52) else (y.1, y.2.mbxDone)) (x.1, x.2)) s

/-- The management core retires the page of an uncorrectable line, where the list and the tile's limit allow it (R180). -/
def retireLine (n : Fin 32) (l pA pB : Nat) (x : Flash × Dev) : Flash × Dev :=
  let k := x.2.slotInUse
  let p := l / 512
  if inDumpRegion n p ∨ (x.1.retiredOf k n).contains p ∨ 128 ≤ (x.1.retiredOf k n).length ∨ (x.1.nextPage k).isNone then x
  else retirePage (mkPageEntry n p 1) pA pB x

/-- A record of R313 waits at a tile for the step report. -/
def Dev.addRec (d : Dev) (n : Fin 32) (kind seq : Nat) : Dev := d.onTile n fun t => { t with recs := t.recs ++ [(kind, seq)] }

/-- A unit of a committed slot is damaged (R229); a BOUND slot's groups pause (R512). -/
def Dev.unitDamaged (d : Dev) (n : Fin 32) (s u : Nat) : Dev :=
  let d : Dev := if (s, n.val, u) ∈ d.res.damaged then d
    else { d with res := { d.res with damaged := d.res.damaged ++ [(s, n.val, u)] } }
  let d : Dev := (d.setF (WTR_SLOT_STATE_DAMAGED s) 1).latch egWtr 3
  if d.slotState s = 4 then d.addRec n 12 0 else d

/-- The outcome of an uncorrectable line by the object that holds it (R165). Sources as in R196: 0 the step, 2 and 3 the Darner. A
remote master's read is answered at the home; a link UE on a write leaves a poisoned line that a later read meets. -/
def Dev.ueOutcome (d : Dev) (n : Fin 32) (l source : Nat) (buffer : Bool) : Dev :=
  let u := l / 32768
  match d.pageOfLine n l with
  | some (t, q) => if source = 0 ∨ source = 2 ∨ source = 3 then d.addRec t 6 q else d
  | none =>
    match d.unitSlot n u with
    | some s =>
      if d.slotState s < 2 then d
      else
        let d := d.unitDamaged n s u
        if source = 0 then d.addRec n 10 0 else d
    | none => if buffer ∧ source = 0 then d.addRec n 10 0 else d

/-- UE_REPORT (R165, R180, R229): the tile controller's placement table says whether another buffer of the step program holds the
line; `progA` and `progB` are the bytes programmed in the two page lists. -/
def execUeReport (n : Fin 32) (line : BitVec 29) (source : Fin 5) (buffer : Bool) (progA progB : Nat) (now : Nat) (s : State) :
    Host.Outcome State Fault Refusal :=
  onBoth (fun x =>
    let y := retireLine n line.toNat progA progB (x.1, x.2.at_ now)
    (y.1, y.2.ueOutcome n line.toNat source buffer)) s

/-! The neighbour pool (R187 to R189). -/

def granules : Nat := 8388608
/-- A granule of a lent tile that can hold a run: outside unit 0, the dump region, retired pages and units of model slots. -/
def Dev.granOk (d : Dev) (n : Fin 32) (g : Nat) : Bool :=
  !unitReserved n (g / 512) && !(d.retiredPages n).contains (g / 8) && (d.unitSlot n (g / 512)).isNone &&
    !((d.tile n).pool.any fun r => decide (r.first ≤ g) && decide (g < r.first + r.len))

/-- A run of `len` granules is free: it does not cross a 2 MiB boundary. -/
def Dev.runFree (d : Dev) (n : Fin 32) (first len : Nat) : Bool :=
  decide (1 ≤ len) && decide (len ≤ 8) && decide (first + len ≤ granules) && first / 512 == (first + len - 1) / 512 &&
    (List.range len).all fun i => d.granOk n (first + i)

/-- MEM_POOL_FREE follows the directory. -/
def Dev.poolCount (d : Dev) (n : Fin 32) : Dev :=
  let us := (List.range unitsPerTile).filter fun u => !unitReserved n u && (d.unitSlot n u).isNone
  let gone := ((d.retiredPages n).filter fun p => us.contains (p / 64)).length
  d.setN (MEM_POOL_FREE n) (512 * us.length - 8 * gone - ((d.tile n).pool.map fun r => r.len).sum)

/-- The tile lends its DRAM (R187). -/
def Dev.lends (d : Dev) (n : Fin 32) : Bool := d.getF (MEM_STATUS_MODE n) == 1

/-- A lent tile whose LEND is 0 leaves the pool once its directory is empty. -/
def Dev.poolCheck (d : Dev) (n : Fin 32) : Dev :=
  if d.lends n ∧ ¬ d.flag (MEM_LEND_LEND n) ∧ (d.tile n).pool = [] then (d.setF (MEM_STATUS_MODE n) 0).setN (MEM_POOL_FREE n) 0
  else d

def Dev.onPool (d : Dev) (n : Fin 32) (f : List PoolRun → List PoolRun) : Dev :=
  ((d.onTile n fun t => { t with pool := f t.pool }).poolCount n).poolCheck n

/-- Power is gone from what R176 gates: the compute island and tile store keep nothing. -/
def Tile.gated (t : Tile) : Tile :=
  { Tile.reset with dram := t.dram, darner := t.darner, delud := t.delud, tstep := t.tstep, pool := t.pool }

/-- LEND_START (R176, R187): a tile in service that no serving group uses; the hub gates its compute island. -/
def execLendStart (m : Master) (n : Fin 32) (s : State) : Host.Outcome State Fault Refusal :=
  onRun (fun d =>
    if ¬ d.privileged m then d.deny (MEM_LEND n)
    else
      let d := d.setF (MEM_LEND_LEND n) 1
      if d.inService n ∧ (d.groupOf n).isNone ∧ d.getF (MEM_STATUS_MODE n) = 0 then
        ((d.onTile n Tile.gated).setF (MEM_STATUS_MODE n) 1).poolCount n
      else d) s

/-- A run's notice goes to its owner. -/
def Dev.notice (d : Dev) (n : Fin 32) (r : PoolRun) : Dev :=
  let d : Dev := d.onTile n fun t => { t with pool := t.pool.map fun x => if x.first = r.first then { x with notice := some d.now } else x }
  (d.satInc (MEM_POOL_EVICT_COUNT n)).emit (.mgmt r.pkg "EVICTION_NOTICE" [r.tile, r.page, n, r.first, r.len])

/-- The run with the oldest TOUCH that is under no notice. -/
def oldestRun (l : List PoolRun) : Option PoolRun :=
  (l.filter fun r => r.notice.isNone).foldl (fun b r =>
    match b with
    | none => some r
    | some c => if r.touch < c.touch then some r else some c) none

/-- Notices, oldest TOUCH first, until the free granules and those under notice reach `goal`; `k` bounds their number. -/
def Dev.notices (d : Dev) (n : Fin 32) (goal : Nat) : Nat → Dev
  | 0 => d
  | k + 1 =>
    let p := (d.tile n).pool
    if goal ≤ d.getN (MEM_POOL_FREE n) + ((p.filter fun r => r.notice.isSome).map fun r => r.len).sum then d
    else match oldestRun p with
      | some r => (d.notice n r).notices n goal k
      | none => d

/-- EVICTION_NOTICE (R189). -/
def execEvictionNotice (n : Fin 32) (now : Nat) (s : State) : Host.Outcome State Fault Refusal :=
  onRun (fun d =>
    let d := d.at_ now
    let low := d.getF ⟨MEM_LEND n, 15, 1⟩ * 256
    if d.lends n ∧ d.getN (MEM_POOL_FREE n) < low then d.notices n (2 * low) (d.tile n).pool.length else d) s

/-- A tile stops lending: notices for every page (R189). -/
def Dev.reclaim (d : Dev) (n : Fin 32) : Dev :=
  let d := d.setF (MEM_LEND_LEND n) 0
  if d.lends n then (d.notices n (granules + 1) (d.tile n).pool.length).poolCheck n else d

/-- LEND_RECLAIM (R189). -/
def execLendReclaim (m : Master) (n : Fin 32) (now : Nat) (s : State) : Host.Outcome State Fault Refusal :=
  onRun (fun d => if d.privileged m then (d.at_ now).reclaim n else d) s

/-- RUN_REQUEST (R187, R188, R377): a run of `len` granules for a page of `tile` of package `pkg`. `first` is the free run that the
lender picks; it refuses when no run of that length is free. The pool key is installed on the run's unit. -/
def execRunRequest (n : Fin 32) (pkg : BitVec 17) (tile : Fin 32) (page : Nat) (len : Fin 9) (first : Option Nat) (now : Nat)
    (s : State) : Host.Outcome State Fault Refusal :=
  onRun (fun d =>
    let d := d.at_ now
    let ok := d.lends n && d.flag (MEM_LEND_LEND n)
    match first with
    | some f =>
      if ok ∧ d.runFree n f len then
        let d := d.setKey n (f / 512) ⟨d.getN DLD_POOL_KEY, true, true, true, (d.keyEnt n (f / 512)).at_⟩
        let d := d.onPool n fun p => p ++ [⟨pkg.toNat, tile, page, f, len, d.now, none⟩]
        d.emit (.mgmt pkg.toNat "RUN_GRANT" [tile, page, n, f, len])
      else d
    | none =>
      if ok ∧ (List.range granules).any fun f => d.runFree n f len then d
      else d.emit (.mgmt pkg.toNat "RUN_REFUSE" [tile, page, n, len])) s

/-- RUN_RENEWAL (R188). -/
def execRunRenewal (n : Fin 32) (pkg : BitVec 17) (first : Nat) (now : Nat) (s : State) : Host.Outcome State Fault Refusal :=
  onRun (fun d =>
    let d := d.at_ now
    d.onTile n fun t => { t with pool := t.pool.map fun r =>
      if r.first = first ∧ r.pkg = pkg.toNat then { r with touch := d.now } else r }) s

/-- RUN_RELEASE (R191). -/
def execRunRelease (n : Fin 32) (pkg : BitVec 17) (first : Nat) (s : State) : Host.Outcome State Fault Refusal :=
  onRun (fun d => if d.lends n then d.onPool n fun p => p.filter fun r => ¬ (r.first = first ∧ r.pkg = pkg.toNat) else d) s

/-- EVICTION_GRACE_EXPIRY (R189): GRACE ms after the notice the run is freed and counted. -/
def execEvictionGraceExpiry (n : Fin 32) (first : Nat) (now : Nat) (s : State) : Host.Outcome State Fault Refusal :=
  onRun (fun d =>
    let d := d.at_ now
    match (d.tile n).pool.find? fun r => r.first == first with
    | none => d
    | some r =>
      if r.notice.any fun t => decide (t + d.getF (MEM_LEND_GRACE n) * 1000000 ≤ d.now) then
        (d.satInc (MEM_POOL_LOST_COUNT n)).onPool n fun p => p.filter fun x => x.first != first
      else d) s

/-- A package is lost: its runs are freed at once (R189). -/
def Dev.poolLost (d : Dev) (pkg : Nat → Bool) : Dev :=
  (List.finRange 32).foldl (fun d n => if d.lends n then d.onPool n fun p => p.filter fun r => !pkg r.pkg else d) d

/-! Operations of the tile controller and the Darner. -/

/-- One message of job `id`, with the key that the grant table gives (R375). -/
def Dev.jobOp (d : Dev) (n : Fin 32) (id : Nat) (use : TxUse) (vc : Vc) (m : Dmsg) : Dev :=
  match d.grantFor n m.addr with
  | none => d.opError (some n) (.job id) 2 (gaNode m.addr)
  | some g => d.sendOp (some n) (.job id) use vc { m with key := g.key }

def Dev.jobLoad (d : Dev) (n : Fin 32) (id g len : Nat) (use : Nat → TxUse) : Dev :=
  (splits 4 g len (2 ^ 21)).foldl (fun d x => d.jobOp n id (use x.1) .bulk { reqMsg 1 0 x.1 with rlen := x.2 }) d

def Dev.jobStore (d : Dev) (n : Fin 32) (id g : Nat) (l : List Byte) : Dev :=
  (splits 65536 g l.length 1024).foldl (fun d x =>
    d.jobOp n id .write .bulk { reqMsg 3 0 x.1 with data := (l.drop (x.1 - g)).take x.2 }) d

/-- Reads of own DRAM for a job through the home window. -/
def Dev.jobRead (d : Dev) (n : Fin 32) (id a len : Nat) : Dev :=
  d.homeAdd n ((List.range ((len + 63) / 64)).map fun k => ⟨a / 64 + k, .read (.job id)⟩)

/-- Everything that a job has asked for has come. -/
def Dev.jobIdle (d : Dev) (n : Fin 32) (id : Nat) : Bool := !d.busyOps n (.job id) && !d.busyLandings n (.job id)

/-- An operation of the job ended in an error. -/
def Dev.jobErr (d : Dev) (n : Fin 32) (id : Nat) : Option Nat := ((d.delud n).src.errs.find? fun e => e.owner == .job id).map fun e => e.code

/-- The bytes that a job has read, from offset `base` on. -/
def Dev.jobBytes (d : Dev) (n : Fin 32) (id base len : Nat) : List Byte :=
  let m := (d.tile n).bufs.foldl (fun (m : Mem) x => if x.1 = .job id ∧ base ≤ x.2.1 then memPutBytes m (x.2.1 - base) x.2.2 else m) []
  memBytes m 0 len

/-- A job is over: its buffer and its errors go. -/
def Dev.jobClear (d : Dev) (n : Fin 32) (id : Nat) : Dev :=
  (d.onTile n fun t => { t with bufs := t.bufs.filter fun x => x.1 ≠ .job id }).onSource (some n) fun x =>
    { x with errs := x.errs.filter fun e => e.owner ≠ .job id }

/-! Tier transfers (R190, R191). -/

def Dev.pageEnt (d : Dev) (n : Fin 32) (key : Nat × Nat × Nat) : Option PageEnt :=
  (d.tile n).pages.find? fun p => p.seq == key.1 && p.stream == key.2.1 && p.page == key.2.2
def Dev.onPage (d : Dev) (n : Fin 32) (key : Nat × Nat × Nat) (f : PageEnt → PageEnt) : Dev :=
  d.onTile n fun t => { t with pages := t.pages.map fun p =>
    if p.seq = key.1 ∧ p.stream = key.2.1 ∧ p.page = key.2.2 then f p else p }

/-- The global address of the place that a word 0 names. -/
def Dev.wordGa (d : Dev) (n : Fin 32) (w : Nat) : Nat :=
  match wTier w with
  | 4 => gaddr (wPkg w) (wTile w) (wOff w)
  | 3 => gaddr d.self (wTile w) (wOff w)
  | _ => gaddr d.self n (wOff w)

def hdrLength (h : List Byte) : Nat := leVal ((h.drop 0x144).take 4)
def hdrGranules (h : List Byte) : Nat := leVal ((h.drop 0x148).take 1)
/-- Byte offset of chunk `j`'s payload in a packed page. -/
def chunkAt (h : List Byte) (j : Nat) : Nat := ((List.range j).map fun i => storedLen (hdrClen h i)).sum

/-- WRG_STATUS.TIER: a transfer is in progress or waiting (R232). -/
def Dev.wrgTier (d : Dev) (n : Fin 32) : Dev :=
  d.setF (WRG_STATUS_TIER n) (if (d.tile n).tiers.any fun j => !j.done then 1 else 0)

/-- Bytes that a transfer reads. -/
def Dev.tierLen (d : Dev) (n : Fin 32) (j : TierJob) : Nat :=
  match j.key with
  | none => unitBytes
  | some k => if wTier j.src = 4 then ((d.pageEnt n k).map fun p => hdrLength p.hdr).getD 0 else 32768

/-- The global address that a transfer reads from, or writes to. -/
def Dev.tierGa (d : Dev) (n : Fin 32) (j : TierJob) (w : Nat) : Nat := if j.key.isSome then d.wordGa n w else w

/-- A place in the tile's own DRAM. -/
def Dev.ownGa (d : Dev) (n : Fin 32) (g : Nat) : Bool := gaPkg g == d.self && gaTile g == n.val

/-- The transfer starts reading its source. -/
def Dev.tierStart (d : Dev) (n : Fin 32) (key : Option (Nat × Nat × Nat)) (src dest : Nat) : Dev :=
  let id := (d.tile n).nextTier
  let j : TierJob := ⟨id, key, src, dest, [], false, false, false, false⟩
  let len := d.tierLen n j
  let g := d.tierGa n j src
  let d : Dev := (d.onTile n fun t => { t with tiers := t.tiers ++ [j], nextTier := id + 1 }).wrgTier n
  if d.ownGa n g then d.jobRead n id (gaOff g) len else d.jobLoad n id g len fun _ => .toBuf g

/-- TIER_TRANSFER (R183, R190, R191): a page goes from its home to the destination that the tile controller has obtained, with
MOVING set; its source stays the home. A droppable object in a destination slot of this tile is dropped first (R186, R204). -/
def execTierTransfer (n : Fin 32) (obj : TierObj) (s : State) : Host.Outcome State Fault Refusal :=
  onRun (fun d =>
    match obj with
    | .region src dst =>
      if d.ownGa n src ∨ d.ownGa n dst then d.tierStart n none src dst else d
    | .page q st p dest =>
      match d.pageEnt n (q, st, p) with
      | none => d
      | some e =>
        let ok (w : Nat) : Bool := decide (2 ≤ wTier w) && decide (wTier w ≤ 4)
        if ¬ ok e.w0 ∨ ¬ ok dest ∨ wMoving e.w0 ∨ wTier e.w0 = wTier dest then d
        else
          let d : Dev := if wTier dest = 2 then d.takeUnit n (wOff dest / unitBytes) else d
          (d.onPage n (q, st, p) fun e => { e with w0 := wSetMoving e.w0 }).tierStart n (some (q, st, p)) e.w0 (wClearMoving dest)) s

def Dev.onTier (d : Dev) (n : Fin 32) (id : Nat) (f : TierJob → TierJob) : Dev :=
  d.onTile n fun t => { t with tiers := t.tiers.map fun j => if j.id = id then f j else j }

/-- The run that a word names is released at its lender; a slot of a tile is vacant without a message. -/
def Dev.releaseWord (d : Dev) (w : Nat) : Dev :=
  if wTier w = 4 then d.emit (.mgmt (wPkg w) "RUN_RELEASE" [wTile w, wOff w / 4096]) else d

/-- What a transfer writes, from what it has read: packed for a spill, unpacked for a return; none where it fails. -/
def Dev.tierOut (d : Dev) (n : Fin 32) (j : TierJob) : Option (List Byte × List Byte) :=
  let g := d.tierGa n j j.src
  let base := if d.ownGa n g then gaOff g else 0
  let b := d.jobBytes n j.id base (d.tierLen n j)
  match j.key with
  | none => some (b, [])
  | some k =>
    if wTier j.dest = 4 then
      let h := packHeader b 1
      if wGran j.dest < hdrGranules h then none else some (packPayload b, h)
    else if wTier j.src = 4 then
      match d.pageEnt n k with
      | none => none
      | some e =>
        let r := unpackPage e.hdr ((List.range 32).map fun c => (b.drop (chunkAt e.hdr c)).take (storedLen (hdrClen e.hdr c)))
        if r.2 = 0 then some (r.1, []) else none
    else some (b, [])

/-- The transfer ends. One of a sequence that has ended releases its destination now (R191). -/
def Dev.tierEnd (d : Dev) (n : Fin 32) (j : TierJob) (failed : Bool) : Dev :=
  let d := d.jobClear n j.id
  if j.stopped ∨ j.key.isNone then
    let d := if j.stopped then d.releaseWord j.dest else d
    (d.onTile n fun t => { t with tiers := t.tiers.filter fun x => x.id != j.id }).wrgTier n
  else (d.onTier n j.id fun x => { x with done := true, failed := failed }).wrgTier n

/-- TIER_TRANSFER_DONE (R190, R191): nothing of the transfer is outstanding. What it read is packed or unpacked and written; once
every write is acknowledged, or an operation has ended in an error, or its sequence has ended, the transfer ends. -/
def execTierTransferDone (n : Fin 32) (id : Nat) (s : State) : Host.Outcome State Fault Refusal :=
  onRun (fun d =>
    match (d.tile n).tiers.find? fun j => j.id == id && !j.done with
    | none => d
    | some j =>
      if ¬ d.jobIdle n id then d
      else if j.stopped then d.tierEnd n j false
      else if (d.jobErr n id).isSome then d.tierEnd n j true
      else if j.writing then d.tierEnd n j false
      else
        match d.tierOut n j with
        | none => d.tierEnd n j true
        | some (b, h) =>
          let g := d.tierGa n j j.dest
          let d := d.onTier n id fun x => { x with writing := true, header := h }
          if d.ownGa n g then d.homeLand n (.job id) (gaOff g) b else d.jobStore n id g b) s

/-- MEM_KV_OCCUPIED and MEM_KV_SPILLED follow the page tables (R196). -/
def Dev.kvCounts (d : Dev) (n : Fin 32) : Dev :=
  let k (t : Nat) : Nat := ((d.tile n).pages.filter fun p => wTier p.w0 == t).length
  (d.setN (MEM_KV_OCCUPIED n) (k 2)).setN (MEM_KV_SPILLED n) (k 4)

/-- Step 1 of R255: every transfer that has ended commits, or leaves its page at its source (R191). -/
def Dev.tierCommit (d : Dev) (n : Fin 32) : Dev :=
  let js := (d.tile n).tiers.filter fun j => j.done
  let d := js.foldl (fun d j =>
    match j.key with
    | none => d
    | some k =>
      if j.failed then (d.onPage n k fun e => { e with w0 := wClearMoving e.w0 }).releaseWord j.dest
      else
        let d := (d.onPage n k fun e => { e with w0 := j.dest, hdr := j.header }).releaseWord j.src
        if wTier j.dest = 4 then d.satInc (MEM_SPILL_COUNT n)
        else if wTier j.src = 4 then d.satInc (MEM_RETURN_COUNT n) else d) d
  ((d.onTile n fun t => { t with tiers := t.tiers.filter fun j => !j.done }).kvCounts n).wrgTier n

/-- Step 3 of R255 on one tile: the pages, bins and running transfers of an ended sequence. -/
def Dev.tileFreeSeq (d : Dev) (n : Fin 32) (q : Nat) : Dev :=
  let d := ((d.tile n).pages.filter fun p => p.seq == q).foldl (fun d p => d.releaseWord p.w0) d
  let d : Dev := d.onTile n fun t => { t with
    pages := t.pages.filter fun p => p.seq != q
    binTab := t.binTab.filter fun b => b.seq != q
    tiers := t.tiers.map fun j => if j.key.any fun k => k.1 == q then { j with stopped := true } else j }
  (d.kvCounts n).setF (HMP_STATUS_BINS_OPEN n) (d.tile n).binTab.length

/-! Tier fetches (R194, R195). -/

/-- The wait on a fetch's tier token has expired in an earlier pass of the step, or in the pass that the fetch serves. -/
def Dev.fetchLate (d : Dev) (n : Fin 32) (f : Fetch) : Bool :=
  let t := f.tok
  (d.tile n).lateToks.contains t ||
    (tokTier t && f.pass == d.passSeq n && d.regBit (TCTL_TIER_LATE n ((t - 3072) / 32)) (t % 32))

/-- The staging header of a T-package page: every tag RAW, every CLEN 1,024, VALID and NOCRC (R194). -/
def rawHeader : List Byte :=
  List.replicate 256 0xFF ++ (List.replicate 32 (leBytes 2 1024)).flatten ++ leBytes 4 0 ++ leBytes 4 32768 ++ leBytes 1 8 ++
    leBytes 1 3 ++ List.replicate 54 0

/-- TIER_FETCH (R194, R195): VALID of the staging header clears and the page is read into the slot array; a fetch that was late in
an earlier pass of the step leaves it so. -/
def execTierFetch (n : Fin 32) (tok : BitVec 12) (seq stream page slots hdr : Nat) (s : State) : Host.Outcome State Fault Refusal :=
  onRun (fun d =>
    match d.pageEnt n (seq, stream, page) with
    | none => d
    | some e =>
      let w := wClearMoving e.w0
      if ¬ tokTier tok.toNat ∨ ¬ (wTier w = 3 ∨ wTier w = 4) then d
      else
        let d := d.tsPutLe n (hdr + 0x149) 1 (d.tsLe n (hdr + 0x149) 1 / 2 * 2)
        if (d.tile n).lateToks.contains tok.toNat then d
        else
          let id := (d.tile n).nextTier
          let g := d.wordGa n w
          let ps := if d.running n then d.passSeq n else (d.passSeq n + 1) % 65536
          let f : Fetch := ⟨id, tok.toNat, seq, ps, slots, hdr, w, if wTier w = 4 then e.hdr else rawHeader, false⟩
          let d : Dev := d.onTile n fun t => { t with fetches := t.fetches ++ [f], nextTier := id + 1 }
          if wTier w = 3 then d.jobLoad n id g 32768 fun x => .toStore x (slots + (x - g))
          else (List.range 32).foldl (fun d j =>
            if hdrClen e.hdr j = 0 then d
            else d.jobLoad n id (g + chunkAt e.hdr j) (storedLen (hdrClen e.hdr j)) fun x =>
              .toStore x (slots + 1024 * j + (x - (g + chunkAt e.hdr j)))) d) s

/-- The tier token of a fetch is signalled (R141, R194): it counts in the bank of the pass that the fetch serves. -/
def Dev.tierSignal (d : Dev) (n : Fin 32) (f : Fetch) (err : Bool) (cyc : Nat) : Dev :=
  if f.pass = d.passSeq n then d.countCur n f.tok err cyc
  else if f.pass = (d.passSeq n + 1) % 65536 then d.countNext n f.tok err
  else d.staleToken n

/-- TIER_FETCH_DONE (R143, R194, R195), in pass cycle `cyc`. An error ends the sequence TIER_FAILED, or PEER_LOST where the fabric
reports the page's package lost. -/
def execTierFetchDone (n : Fin 32) (id : Nat) (cyc : Nat) (s : State) : Host.Outcome State Fault Refusal :=
  onRun (fun d =>
    match (d.tile n).fetches.find? fun f => f.id == id && !f.done with
    | none => d
    | some f =>
      if ¬ d.jobIdle n id then d
      else
        let err := d.jobErr n id
        let d : Dev := (d.jobClear n id).onTile n fun t => { t with fetches := t.fetches.map fun x => if x.id = id then { x with done := true } else x }
        if d.fetchLate n f then d
        else match err with
          | some _ =>
            let lost := wTier f.home == 4 && d.pkgLost (wPkg f.home)
            (d.addRec n (if lost then 9 else 6) f.seq).tierSignal n f true cyc
          | none => (d.tsWrite n f.hdr f.header).tierSignal n f false cyc) s

end Sys2Proof.Machine
end

