-- ==== Sys2Proof/Machine/Queues.lean ====
section
/-! DEFINITION. Submission and completion queues, the admission list and the sequence table (R300 to R306, R318, R324). -/

namespace Sys2Proof.Machine

open Reg

/-! Submission entries (R301). -/

def SubEnt.le (e : SubEnt) (o k : Nat) : Nat := leVal ((e.raw.drop o).take k)
def SubEnt.op (e : SubEnt) : Nat := e.le 0 1
def SubEnt.lc (e : SubEnt) : Bool := (e.le 1 1).testBit 0
def SubEnt.cust (e : SubEnt) : Nat := e.le 2 2 % 4096
def SubEnt.slot (e : SubEnt) : Nat := e.le 4 1 % 16
def SubEnt.group (e : SubEnt) : Fin 4 := Fin.ofNat 4 (e.le 5 1)
def SubEnt.cq (e : SubEnt) : Fin 64 := Fin.ofNat 64 (e.le 6 2)
def SubEnt.req (e : SubEnt) : Nat := e.le 8 8 % 2 ^ 48
def SubEnt.plen (e : SubEnt) : Nat := e.le 0x18 4
def SubEnt.maxLen (e : SubEnt) : Nat := e.le 0x1C 4
def SubEnt.deadline (e : SubEnt) : Nat := e.le 0x20 8
def SubEnt.stopTok (e : SubEnt) : Nat := e.le 0x28 4

/-- Every field meets R301 (test 1 of R307). -/
def SubEnt.fieldsOk (e : SubEnt) : Bool :=
  decide (e.le 1 1 < 2) && decide (e.le 2 2 < 4096) && decide (e.le 4 1 < 16) && decide (e.le 5 1 < 4) && decide (e.le 6 2 < 64) &&
    decide (e.le 8 8 < 2 ^ 48) && decide (1 ≤ e.plen) && decide (e.plen < e.maxLen) && ((e.raw.drop 0x36).take 10).all (· == 0)

/-- The position of a sequence (R308). -/
def SeqEnt.pos (q : SeqEnt) : Nat := q.prompt + q.tokens
def SeqEnt.group (q : SeqEnt) : Fin 4 := q.sub.group
def SeqEnt.cq (q : SeqEnt) : Fin 64 := q.sub.cq

/-! Queues (R300, R303). -/

def Dev.sqOn (d : Dev) (q : Fin 64) : Bool := d.flag (SRV_SQ_CFG_ENABLE q)
def Dev.cqOn (d : Dev) (q : Fin 64) : Bool := d.flag (SRV_CQ_CFG_ENABLE q)
def Dev.sqSize (d : Dev) (q : Fin 64) : Nat := 64 * 2 ^ min 6 (d.getF (SRV_SQ_CFG_SIZE q))
def Dev.cqSize (d : Dev) (q : Fin 64) : Nat := 64 * 2 ^ min 10 (d.getF (SRV_CQ_CFG_SIZE q))
def Dev.cqTail (d : Dev) (q : Fin 64) : Nat := d.getF (SRV_CQ_TAIL_TAIL q)

/-- Entries that the host has not consumed. -/
def Dev.cqUsed (d : Dev) (q : Fin 64) : Nat := (d.cqTail q + d.cqSize q - d.srv.cqHead[q]) % d.cqSize q
/-- Entries reserved for the sequences that take part in a step (R303). -/
def Dev.cqHeld (d : Dev) (q : Fin 64) : Nat := (d.srv.seqs.filter fun x => x.cq == q && x.run.isSome).length
/-- The queue is enabled and host memory can be reached (R421, notes/assumptions/53.md). -/
def Dev.cqReach (d : Dev) (q : Fin 64) : Bool := d.cqOn q && !d.rst.hostDown
/-- Entries of a queue that are free and not reserved; a disabled or unreachable queue has none (R421). -/
def Dev.cqRoom (d : Dev) (q : Fin 64) : Nat := if d.cqReach q then d.cqSize q - 1 - d.cqUsed q - d.cqHeld q else 0
/-- The queue can take an entry, reserved or not. -/
def Dev.cqFree (d : Dev) (q : Fin 64) : Bool := d.cqReach q && decide (d.cqUsed q < d.cqSize q - 1)

def Dev.onSrv (d : Dev) (f : Serve → Serve) : Dev := { d with srv := f d.srv }
def Dev.onSeqEnt (d : Dev) (i : Nat) (f : SeqEnt → SeqEnt) : Dev :=
  d.onSrv fun x => { x with seqs := x.seqs.map fun q => if q.idx = i then f q else q }
def Dev.seqEnt (d : Dev) (i : Nat) : Option SeqEnt := d.srv.seqs.find? fun q => q.idx == i

/-- The budget record of a customer (R321). -/
def custAt (c : Nat) : Nat := 0x240000 + 64 * c

/-- SRV_SEQ_LIVE and SRV_CQq_HELD follow the sequence table (R324). -/
def Dev.srvCounts (d : Dev) : Dev :=
  let d := d.setN SRV_SEQ_LIVE d.srv.seqs.length
  (List.finRange 64).foldl (fun d (q : Fin 64) =>
    d.setN (SRV_CQ_HELD q) (d.srv.seqs.filter fun x => x.cq == q && (x.state == 4 || x.hold == 5)).length) d

/-- The sequence-table entry is freed: its request is live no longer (R305, R321). -/
def Dev.freeSeq (d : Dev) (i : Nat) : Dev :=
  match d.seqEnt i with
  | none => d
  | some q =>
    let a := custAt q.sub.cust + 0x28
    (d.setN a (d.getN a - 1)).onSrv fun x => { x with seqs := x.seqs.filter fun y => y.idx != i }

/-! Completions (R302, R303). -/

/-- The bytes of a completion entry. -/
def Comp.bytes (c : Comp) (phase : Nat) (now : Nat) : List Byte :=
  let flags := phase + (if c.final then 2 else 0) + (if c.tokenValid then 4 else 0) + (if c.late then 8 else 0) + (if c.first then 16 else 0)
  leBytes 6 c.req ++ leBytes 1 (if c.final then c.status else 0) ++ leBytes 1 flags ++
    leBytes 4 (if c.tokenValid then c.token else 0xFFFFFFFF) ++ leBytes 4 c.pos ++ leBytes 8 (if c.posting then now else c.time) ++
    leBytes 4 c.step ++ leBytes 2 c.sqHead ++ leBytes 1 c.sq ++ leBytes 1 c.detail

/-- One 32-byte write to the ring; PHASE inverts on each wrap. -/
def Dev.post (d : Dev) (c : Comp) : Dev :=
  let q := Fin.ofNat 64 c.cq
  let t := d.cqTail q
  let ph := d.getF (SRV_CQ_TAIL_PHASE q)
  let base := d.getPair (SRV_CQ_BASE_LO q) (SRV_CQ_BASE_HI q)
  let d := d.emit (.hostWrite (base + 32 * t) (c.bytes ph d.now))
  let d : Dev := if t + 1 = d.cqSize q then (d.setF (SRV_CQ_TAIL_TAIL q) 0).setF (SRV_CQ_TAIL_PHASE q) (1 - ph)
    else d.setF (SRV_CQ_TAIL_TAIL q) (t + 1)
  let d : Dev := if c.tokenValid then d.setPair SRV_TOKENS_LO SRV_TOKENS_HI (d.getPair SRV_TOKENS_LO SRV_TOKENS_HI + 1) else d
  d.freeSeq c.seq

/-- An entry becomes due. -/
def Dev.addDue (d : Dev) (c : Comp) : Dev := d.onSrv fun x => { x with due := x.due ++ [c] }

/-- Due entries are posted while their queues have room, in the order in which they became due; the queues posted to. -/
def flushLoop : List Comp → Dev → List Comp → List Nat → List Nat → Dev × List Comp × List Nat
  | [], d, left, _, posted => (d, left, posted)
  | c :: t, d, left, blocked, posted =>
    if blocked.contains c.cq ∨ d.cqRoom (Fin.ofNat 64 c.cq) = 0 then flushLoop t d (left ++ [c]) (c.cq :: blocked) posted
    else flushLoop t (d.post c) left blocked (c.cq :: posted)

def Dev.flushDue (d : Dev) : Dev × List Nat :=
  let r := flushLoop d.srv.due d [] [] []
  (r.1.onSrv fun x => { x with due := r.2.1 }, r.2.2)

/-- The vectors of the queues posted to are raised, once each (R302, R458). -/
def Dev.raiseCqs (d : Dev) (l : List Nat) : Dev :=
  (List.range 64).foldl (fun d q => if l.contains q then d.edge (64 + q) else d) d.srvCounts

/-- Post what has room, and raise the vectors. -/
def Dev.flushRaise (d : Dev) : Dev :=
  let r := d.flushDue
  r.1.raiseCqs r.2

/-- A FINAL completion with no token for a submission (R304, R307). -/
def SubEnt.refusal (e : SubEnt) (status detail time step : Nat) (posting : Bool) : Comp :=
  ⟨e.cq, e.req, status, true, false, false, false, 0, 0, time, step, e.sqHead, e.sq, detail, 16384, posting⟩

/-! BAR2 (R300). -/

/-- The submission doorbell. -/
def Dev.sqTail (d : Dev) (q : Fin 64) (v : Nat) : Dev :=
  if ¬ d.sqOn q then d
  else if d.sqSize q ≤ v then d.latch egSrv 0
  else d.onSrv fun x => { x with sqTail := x.sqTail.set q v }

/-- SQ_TAIL_DOORBELL. -/
def execSqTailDoorbell (q : Fin 64) (v : Word) (s : State) : Host.Outcome State Fault Refusal :=
  onRun (fun d => d.sqTail q (wordField v 11 0)) s

/-- The completion doorbell: entries are consumed, waiting final entries post, the vector is raised (R303). -/
def Dev.cqHeadWrite (d : Dev) (q : Fin 64) (v : Nat) : Dev :=
  let E := d.cqSize q
  if ¬ d.cqOn q then d
  else if E ≤ v ∨ d.cqUsed q < (v + E - d.srv.cqHead[q]) % E then d.latch egSrv 0
  else (d.onSrv fun x => { x with cqHead := x.cqHead.set q v }).flushRaise

/-- CQ_HEAD_DOORBELL. -/
def execCqHeadDoorbell (q : Fin 64) (v : Word) (now : Nat) (s : State) : Host.Outcome State Fault Refusal :=
  onRun (fun d => (d.at_ now).cqHeadWrite q (wordField v 15 0)) s

/-- BAR2_WRITE: to a submission ring, a doorbell page, or the reserved range. -/
def execBar2Write (off : BitVec 25) (data : List Byte) (now : Nat) (s : State) : Host.Outcome State Fault Refusal :=
  onRun (fun d =>
    let d := d.at_ now
    let o := off.toNat
    let n := data.length
    if o < 0x1000000 then
      if [4, 8, 16, 32, 64].contains n ∧ o % n = 0 then d.onSrv fun x => { x with ring := memPutBytes x.ring o data }
      else d.emit .unsupported
    else if o < 0x1040000 then
      let q := Fin.ofNat 64 ((o - 0x1000000) / 0x1000)
      if n = 4 ∧ o % 0x1000 = 0 then d.sqTail q (leVal data % 4096)
      else if n = 4 ∧ o % 0x1000 = 4 then d.cqHeadWrite q (leVal data % 65536)
      else d.emit .unsupported
    else d) s

/-- SQ_CFG_WRITE (R324). -/
def execSqCfgWrite (q : Fin 64) (v : Word) (s : State) : Host.Outcome State Fault Refusal :=
  onRun (fun d =>
    let on := v.getLsbD 31
    if d.sqOn q then d.setF (SRV_SQ_CFG_ENABLE q) (if on then 1 else 0)
    else
      let d := d.setF (SRV_SQ_CFG_SIZE q) (wordField v 2 0)
      if on then
        ((d.setF (SRV_SQ_CFG_ENABLE q) 1).setN (SRV_SQ_HEAD q) 0).onSrv fun x => { x with sqTail := x.sqTail.set q 0 }
      else d) s

/-- CQ_CFG_WRITE (R324): an enabled queue has room for final entries that wait. -/
def execCqCfgWrite (q : Fin 64) (v : Word) (now : Nat) (s : State) : Host.Outcome State Fault Refusal :=
  onRun (fun d =>
    let d := d.at_ now
    let on := v.getLsbD 31
    let was := d.cqOn q
    let d := d.setF (SRV_CQ_CFG_VECTOR q) (wordField v 26 16)
    if was then d.setF (SRV_CQ_CFG_ENABLE q) (if on then 1 else 0)
    else
      let d := d.setF (SRV_CQ_CFG_SIZE q) (wordField v 3 0)
      if on then
        let d := (d.setF (SRV_CQ_CFG_ENABLE q) 1).setN (SRV_CQ_TAIL q) 0x80000000
        (d.onSrv fun x => { x with cqHead := x.cqHead.set q 0 }).flushRaise
      else d) s

/-! The dispatcher cores read submission entries (R304). -/

def admissionMax : Nat := 16384

/-- The entry at the head of a queue, where the cores may read it. -/
def Dev.nextSub (d : Dev) (q : Fin 64) : Option SubEnt :=
  let h := d.getF (SRV_SQ_HEAD_HEAD q)
  if ¬ d.sqOn q ∨ h = d.srv.sqTail[q] ∨ admissionMax ≤ d.srv.adm.length then none
  else some ⟨q, (h + 1) % d.sqSize q, d.now, memBytes d.srv.ring (0x40000 * q.val + 64 * h) 64, none⟩

/-- The cores read an entry with an OPCODE that `is` takes. -/
def Dev.takeSub (d : Dev) (q : Fin 64) (is : Nat → Bool) (f : SubEnt → Dev → Dev) : Dev :=
  match d.nextSub q with
  | none => d
  | some e => if is e.op then f e (d.setF (SRV_SQ_HEAD_HEAD q) e.sqHead) else d

/-- SUBMIT. -/
def execSubmit (q : Fin 64) (now : Nat) (s : State) : Host.Outcome State Fault Refusal :=
  onRun (fun d => (d.at_ now).takeSub q (· == 1) fun e d =>
    if ¬ d.cqOn e.cq then d.latch egSrv 1
    else if ¬ d.flag (SRV_GROUP_STATE_LEAD e.group) then
      ((d.satInc SRV_REFUSE_COUNT).addDue (e.refusal 0x21 8 0 0 true)).flushRaise
    else d.onSrv fun x => { x with adm := x.adm ++ [e] }) s

/-- BAD_SUBMISSION_OPCODE. -/
def execBadSubmissionOpcode (q : Fin 64) (now : Nat) (s : State) : Host.Outcome State Fault Refusal :=
  onRun (fun d => (d.at_ now).takeSub q (fun o => o != 1 && o != 2) fun e d =>
    if ¬ d.cqOn e.cq then d.latch egSrv 1 else (d.addDue (e.refusal 0x21 1 0 0 true)).flushRaise) s

/-- The first latch of a CANCEL stands (R318). -/
def latchAt (t : Nat) : Option Nat → Option Nat
  | some u => some u
  | none => some t

/-- CANCEL: every live request with the REQ_ID, in the table or in the admission list, is marked (R318). -/
def execCancel (q : Fin 64) (now : Nat) (s : State) : Host.Outcome State Fault Refusal :=
  onRun (fun d => (d.at_ now).takeSub q (· == 2) fun e d =>
    if d.srv.seqs.any (fun x => x.sub.req == e.req) ∨ d.srv.adm.any (fun x => x.req == e.req) then
      d.onSrv fun x => { x with
        seqs := x.seqs.map fun y => if y.sub.req = e.req then { y with cancel := latchAt d.now y.cancel } else y
        adm := x.adm.map fun y => if y.req = e.req then { y with cancel := latchAt d.now y.cancel } else y }
    else (d.satInc SRV_CANCEL_UNKNOWN_COUNT).latch egSrv 3) s

/-- CQ_STALL (R303): a sequence has been held for CQ_FULL for longer than SRV_CQ_BOUND ms. -/
def execCqStall (seq : Nat) (now : Nat) (s : State) : Host.Outcome State Fault Refusal :=
  onRun (fun d =>
    let d := d.at_ now
    match d.seqEnt seq with
    | none => d
    | some q =>
      if q.hold = 5 ∧ ¬ q.stalled ∧ q.cqSince.any fun t => decide (t + d.getF SRV_CQ_BOUND_MS * 1000000 < d.now) then
        (d.onSeqEnt seq fun q => { q with stalled := true }).latch egSrv 2
      else d) s

end Sys2Proof.Machine
end

