-- ==== Sys2Proof/Machine/StepTile.lean ====
section
/-! DEFINITION. What tile firmware does with a tile before a pass: tensor scales, fallback flags, trip counts, the step state, bins
and page tables (R67, R68, R70, R99, R235 to R243, R253, R255, R284). -/

namespace Sys2Proof.Machine

open Reg

/-! The step program in the instruction store (R111, R128, R129). -/

/-- Byte address of instruction `i` of a half. -/
def instrAt (half i : Nat) : Nat := half + 64 + 16 * i
def Dev.imemLe (d : Dev) (n : Fin 32) (a k : Nat) : Nat := memLe (d.tile n).imem a k

/-- Bits `[hi:lo]` of an instruction. -/
def iField (w hi lo : Nat) : Nat := w / 2 ^ lo % 2 ^ (hi + 1 - lo)
def iOp (w : Nat) : Nat := iField w 111 104

/-- The instructions of stream `st` of a half, as 128-bit words. -/
def Dev.streamInstrs (d : Dev) (n : Fin 32) (half st : Nat) : List Nat :=
  (List.range (d.imemLe n (half + 0x24 + 4 * st) 4)).map fun i =>
    d.imemLe n (instrAt half (d.imemLe n (half + 0x10 + 4 * st) 4 + i)) 16

/-- The tensors that the program of a half quantises on the tile, each with its own format and whether a fallback layout is kept for
it: the targets of VQST, and the key and value tensors of HAPPEND. -/
def Dev.progTensors (d : Dev) (n : Fin 32) (half : Nat) : List (Nat × NFmt × Bool) :=
  ((d.streamInstrs n half 2).filter fun w => iOp w == 0x3A).map (fun w =>
      (iField w 92 81, (vqstFmt (iField w 97 94)).getD .k4f, iField w 93 93 == 1)) ++
    ((d.streamInstrs n half 4).filter fun w => iOp w == 0x50).flatMap fun w =>
      [(iField w 51 26 % 4096, .k4f, false), (iField w 51 26 / 4096 % 4096, .e4m3, false)]

/-- The smallest MAXTRIP of the LOOPs that read a slot, in either half. -/
def Dev.maxTrip (d : Dev) (n : Fin 32) (slot : Nat) : Nat :=
  (([0, 0x400000].flatMap fun h => (List.range 5).flatMap fun st => d.streamInstrs n h st).filter fun w =>
    iOp w == 3 && iField w 99 94 == slot).foldl (fun m w => min m (iField w 93 78)) 65535

/-! Tensor scales (R67, R68). -/

def fPow2 (e : Int) : Word := fOfDyadic false 1 e

/-- A value clamped to 2^−96 to 2^96. -/
def clampScale (w : Word) : Word := fMax (fMin w (fPow2 96)) (fPow2 (-96))

/-- TSCALE from the group maximum `a` and headroom `h`. -/
def tscaleOf (f : NFmt) (a : Word) (h : Nat) : Word :=
  clampScale (match f with
    | .e4m3 => fDiv vNan (fMul vNan a (fPow2 h)) 0x43E00000
    | .e5m2 => fDiv vNan (fMul vNan a (fPow2 h)) 0x47600000
    | f => fDiv vNan a (fMul vNan f.qmax (fPow2 (16 - h))))

/-- TSCALE of every tensor that the coming pass quantises; a tensor whose group maximum is zero, or that no tile wrote, keeps it. -/
def Dev.writeScales (d : Dev) (n : Fin 32) (half : Nat) (amax : List (Nat × Nat)) : Dev :=
  let h := min 8 (d.getF (QNT_CTRL_HEADROOM n))
  (d.progTensors n half).foldl (fun d x =>
    match amax.find? fun e => e.1 == x.1 with
    | none => d
    | some e =>
      if e.2 = 0 then d
      else d.tsPutLe n (d.statAt n x.1) 4
        (tscaleOf (fallbackFmt x.2.1 x.2.2 (d.statFlag n x.1 2)) (BitVec.ofNat 32 e.2) h).toNat) d

/-- Statistics records whose flag `b` is set, in ascending order. -/
def Dev.flagged (d : Dev) (n : Fin 32) (b : Nat) : List Nat :=
  let t := d.getN (QNT_TABLE_BASE n)
  (d.tile n).store.filterMap fun e =>
    if t ≤ e.1 ∧ e.1 < t + 0x20000 ∧ (e.1 - t) % 32 = 0x1A ∧ e.2.getLsbD b then some ((e.1 - t) / 32) else none

/-- FALLBACK is set for the tensors of a list and clear for all others, and the fallback map follows (R73, R99). -/
def Dev.writeFallback (d : Dev) (n : Fin 32) (l : List Nat) : Dev :=
  let d := (d.flagged n 2).foldl (fun d t => d.clearStatFlag n t 2) d
  let d := l.foldl (fun d t => d.setStatFlag n t 2) d
  let d := (List.range 128).foldl (fun d i => d.setN (MGL_FB_MAP n i) 0) d
  l.foldl (fun d t => d.setBit (MGL_FB_MAP n (t / 32)) (t % 32) true) d

/-! Bins and page tables (R234 to R243, R255). -/

def Dev.headerPut (d : Dev) (n : Fin 32) (a fmt tid bytes : Nat) (scale : Word) : Dev :=
  d.tsWrite n a (leBytes 1 fmt ++ leBytes 1 32 ++ leBytes 2 tid ++ leBytes 4 scale.toNat ++ leBytes 4 bytes ++ List.replicate 52 0)

/-- The six panel headers of a page image. -/
def Dev.pageHeaders (d : Dev) (n : Fin 32) (a ktid vtid : Nat) (ks vs : Word) : Dev :=
  let d := (List.range 2).foldl (fun d k => d.headerPut n (a + kpAt k) 0 ktid 4416 ks) d
  (List.range 4).foldl (fun d k => d.headerPut n (a + vpAt k) 5 vtid 4160 vs) d

/-- The scales of a page that a pass fills (R237). -/
def Dev.keyScale (d : Dev) (n : Fin 32) (t : Nat) : Word :=
  clampScale (fMul vNan (d.tscale n t) (fPow2 (d.getF (HMP_CTRL_KHEAD n))))
def Dev.valueScale (d : Dev) (n : Fin 32) (t : Nat) : Word :=
  clampScale (fMul vNan (d.tscale n t) (fPow2 (d.getF (HMP_CTRL_VHEAD n))))

/-- A range of tile store becomes zero. -/
def Dev.tsZero (d : Dev) (n : Fin 32) (a len : Nat) : Dev :=
  d.onTile n fun t => { t with store := t.store.filter fun e => !(decide (a ≤ e.1) && decide (e.1 < a + len)) }

/-- The null page (R236): bin BINS − 1. -/
def Dev.nullPage (d : Dev) (n : Fin 32) : Dev :=
  if d.bins n = 0 then d
  else
    let a := d.binAt n (d.bins n - 1)
    ((d.tsZero n a 32768).pageHeaders n a 0 0 0x3F800000 0x3F800000).tsWrite n (a + trailerAt)
      (leBytes 2 0 ++ leBytes 1 (d.getF (HMP_CTRL_GEOM n)) ++ leBytes 1 2)

/-- The page-table words of an open page with a reserved slot. -/
def binWord (bin : Nat) : Nat := 2 ^ 61 + bin * 4096
def slotWord (page : Nat) : Nat := 2 * 2 ^ 61 + page * 32768
def reservedWord (n page : Nat) : Nat := 2 ^ 63 + n * 2 ^ 35 + page * 32768

/-- Tile firmware opens a bin (R237) and takes the page's reserved slot (R186, R204). -/
def Dev.openBin (d : Dev) (o : BinOpen) : Dev :=
  let n := o.tile
  let a := d.binAt n o.bin
  let d := (d.tsZero n a 32768).pageHeaders n a o.ktid o.vtid (d.keyScale n o.ktid) (d.valueScale n o.vtid)
  let d := d.tsWrite n (a + trailerAt)
    (leBytes 2 0 ++ leBytes 1 (d.getF (HMP_CTRL_GEOM n)) ++ leBytes 1 0 ++ leBytes 4 o.page ++ leBytes 8 (o.req % 2 ^ 48))
  let d := d.takeUnit n (o.slot / 64)
  d.onTile n fun t => { t with
    binTab := t.binTab.filter (fun b => b.bin != o.bin) ++ [⟨o.bin, o.seq, o.stream, o.page, o.ktid, o.vtid, true, false⟩]
    pages := t.pages.filter (fun p => !(p.seq == o.seq && p.stream == o.stream && p.page == o.page)) ++
      [⟨o.seq, o.stream, o.page, binWord o.bin, reservedWord n o.slot, []⟩] }

/-- A bin's page is on the step's flush list: VALID 64, and its sequence does not repeat the step. -/
def Dev.flushes (d : Dev) (n : Fin 32) (b : BinEnt) : Bool := d.pageValid n (d.binAt n b.bin) == 64 && !b.again

/-- Step 2 of R255: each flushed page moves to its reserved slot and its bin is released. -/
def Dev.flushPages (d : Dev) (n : Fin 32) : Dev :=
  let l := (d.tile n).binTab.filter fun b => d.flushes n b
  let d := l.foldl (fun d b => d.onPage n (b.seq, b.stream, b.page) fun p => { p with w0 := slotWord (p.w1 / 2 ^ 15 % 2 ^ 20) }) d
  d.onTile n fun t => { t with binTab := t.binTab.filter fun b => !l.any fun x => x.bin == b.bin }

def Dev.binCounts (d : Dev) (n : Fin 32) : Dev := d.setF (HMP_STATUS_BINS_OPEN n) (d.tile n).binTab.length

/-- The headers of the bins opened for this step are written again with the pass's scales (R237). -/
def Dev.freshHeaders (d : Dev) (n : Fin 32) : Dev :=
  ((d.tile n).binTab.filter BinEnt.fresh).foldl (fun d b =>
    d.pageHeaders n (d.binAt n b.bin) b.ktid b.vtid (d.keyScale n b.ktid) (d.valueScale n b.vtid)) d

/-! Step state (R70, R240). -/

def Dev.saveStep (d : Dev) (n : Fin 32) : Dev :=
  d.onTile n fun t => { t with saved :=
    ⟨d.getR (QNT_LFSR_STATE n), (List.range 64).map fun i => d.getN (TCTL_TRIP n i),
      t.binTab.map fun b => (b.bin, d.tsRead n (d.binAt n b.bin + trailerAt) 64)⟩ }

def Dev.restoreStep (d : Dev) (n : Fin 32) : Dev :=
  let v := (d.tile n).saved
  let d := d.setR (QNT_LFSR_STATE n) v.lfsr
  let d := v.trips.zipIdx.foldl (fun d x => d.setN (TCTL_TRIP n x.2) x.1) d
  v.bins.foldl (fun d x => d.tsWrite n (d.binAt n x.1 + trailerAt) x.2) d

/-! Trip counts. -/

/-- Page count of a sequence after the step's appends (R253). -/
def ordPages (e : OrderEnt) : Nat := (e.pos + e.rows + 63) / 64
def ordRuns (e : OrderEnt) : Bool := e.kind == 0 || e.kind == 1

/-- The slots of the baskets (R253) and of the dispatches (R284). -/
def Dev.writeTrips (d : Dev) (n : Fin 32) (c : GroupCfg) (o : StepOrder) : Dev :=
  let d : Dev := c.baskets.zipIdx.foldl (fun d x =>
    let m := ((o.entries.filter fun e => ordRuns e && e.basket == x.2).map ordPages).foldl max 0
    d.setF (TCTL_TRIP_TRIP n (x.1.slot % 64)) m) d
  let old (x : Intake) : Nat := d.getF (TCTL_TRIP_TRIP n (x.slot % 64))
  ((d.router n).intakes.toList.filter Intake.on).foldl (fun d x =>
    d.setF (TCTL_TRIP_TRIP n (x.slot % 64)) (min (d.maxTrip n x.slot) (max (o.dvals.getD x.disp 0) (old x - 1)))) d

/-! Firmware writes and the release. -/

def Dev.fwWrites (d : Dev) (n : Fin 32) (l : List FwWrite) : Dev :=
  (l.filter fun w => w.tile == n).foldl (fun d w => d.tsWrite n w.addr w.data) d

/-- The tile controller releases the sequencer for a pass. -/
def Dev.releaseSeq (d : Dev) (n : Fin 32) (fallback rerun : Bool) : Dev :=
  d.onSeq n fun q => { q with released := some ⟨fallback, rerun⟩ }

/-- Every tile of a group. -/
def Dev.onTiles (d : Dev) (g : Fin 4) (f : Dev → Fin 32 → Dev) : Dev := (d.groupTiles g).foldl f d

end Sys2Proof.Machine
end

