-- ==== Sys2Proof/Machine/Boundary.lean ====
section
/-! DEFINITION. The step boundary at the lead: outcomes, budgets, completions, admission and composition (R305 to R323). -/

namespace Sys2Proof.Machine

open Reg

/-- The configuration of a running group. -/
def Dev.gcfg (d : Dev) (g : Fin 4) : GroupCfg :=
  ((d.group g).cfg).getD ⟨0, [], 0, 0, 0, 0, 0, 0, [], Vector.replicate 32 0⟩

/-- The number of the last step started. -/
def Dev.gstep (d : Dev) (g : Nat) : Nat := d.getPair (SRV_GROUP_STEP_LO g) (SRV_GROUP_STEP_HI g)

/-- The bytes of a step order (R312). -/
def orderEntBytes (e : OrderEnt) : List Byte :=
  leBytes 2 e.seq ++ leBytes 1 e.kind ++ leBytes 1 e.flags ++ leBytes 1 e.basket ++ leBytes 1 e.seat ++ leBytes 2 e.sampleK ++
    leBytes 4 e.first ++ leBytes 4 e.rows ++ leBytes 4 e.pos ++ leBytes 4 e.input ++ leBytes 4 e.temp ++ leBytes 4 e.seed
def orderBytes (o : StepOrder) : List Byte :=
  leBytes 8 (o.step % 2 ^ 48) ++ leBytes 2 o.epoch ++ leBytes 1 o.group ++ leBytes 1 o.flags ++ leBytes 4 o.entries.length ++
    leBytes 8 o.time ++ leBytes 4 o.prompt.length ++ List.replicate 36 0 ++
    (List.range 256).map (fun i => BitVec.ofNat 8 (o.dvals.getD i 0)) ++ o.entries.flatMap orderEntBytes ++ o.prompt.flatMap (leBytes 4)
def orderArgs (o : StepOrder) : List Nat := (orderBytes o).map BitVec.toNat

/-- An END or DEFERRED entry. -/
def plainEnt (kind seq : Nat) : OrderEnt := ⟨seq, kind, 0, 0, 0, 0, 0, 0, 0, 0, 0, 0⟩

/-- The members other than this package. -/
def Dev.followers (d : Dev) (g : Fin 4) : List Nat := (d.group g).memberList.filter fun p => p != d.self
def Dev.broadcast (d : Dev) (l : List Nat) (name : String) (args : List Nat) : Dev := d.emits (l.map fun p => .mgmt p name args)

/-! Leaving RUNNING (R299, R320). -/

/-- Every page and bin of the group on this package is freed, and its reservations with them. -/
def Dev.groupFree (d : Dev) (g : Fin 4) : Dev :=
  d.onTiles g fun d n =>
    let d := (((d.tile n).pages.map PageEnt.seq) ++ (d.tile n).binTab.map BinEnt.seq).foldl (fun d q => d.tileFreeSeq n q) d
    (d.setN (MEM_KV_RESERVED n) 0).setF (HMP_STATUS_BINS_RESERVED n) 0

/-- The group leaves RUNNING or PAUSED for STOPPED (3) or HALTED (4); its tiles hold or stop. -/
def Dev.leaveRunning (d : Dev) (g : Fin 4) (st : Nat) : Dev :=
  let d := d.groupFree g
  let d := d.onTiles g fun d n => (d.setF (TCTL_PASS_STATUS_STATE n) (if st = 4 then 3 else 0)).onSeq n fun q => { q with released := none }
  let d := (d.setF (SRV_GROUP_STATE_STATE g) st).setF (SRV_GROUP_STATE_GEN_FIRST g) 0
  let d := d.onGroup g fun x => { Group.reset with cfg := x.cfg, lastOrder := x.lastOrder }
  d.issueReads

/-- The group becomes IDLE and its slot is unbound. -/
def Dev.groupIdle (d : Dev) (g : Fin 4) : Dev :=
  let d := d.slotUnbind (d.gcfg g).slot
  let d := ((d.setF (SRV_GROUP_STATE_STATE g) 0).setF (SRV_GROUP_STATE_LEAD g) 0).setF (SRV_GROUP_STATE_GEN_FIRST g) 0
  d.onGroup g fun _ => Group.reset

/-- A GROUP_STOP of the group waits in the mailbox (R299). -/
def Dev.stopPending (d : Dev) (g : Fin 4) : Bool := d.mbx.run.any fun r => r.code == 0x0202 && r.params.getD 0 0 / 2 ^ 30 == g.val

/-! Outcomes (R316, R317). -/

/-- The outcome of rank 1 to 8 that meets a sequence, as rank and status: `stop` is the rank of a group stop, `recs` the records of
the step reports. -/
def SeqEnt.outcome (q : SeqEnt) (stop : Option Nat) (recs : List (Nat × Nat × Nat)) (tb : Nat) : Option (Nat × Nat) :=
  let k (l : List Nat) : Bool := recs.any fun r => l.contains r.1 && r.2.1 == q.idx
  let all (c : Nat) : Bool := q.run.isSome && recs.any fun r => r.1 == c
  let is (r : Nat) : Bool := stop == some r
  (([(is 1, 1, 0x14), (is 2 || k [9], 2, 0x13), (is 3 || k [6] || all 10, 3, 0x11), (k [5], 4, 0x10), (k [8], 5, 0x12),
    (k [2, 4, 7] || all 11, 6, 0xFF), (is 7 || q.cancel.any (fun c => decide (c < tb)), 7, 1), (k [3], 8, 0)] :
      List (Bool × Nat × Nat)).find? fun c => c.1).map fun c => c.2

/-- The token that the step sampled for a sequence. -/
def tokenOf (recs : List (Nat × Nat × Nat)) (i : Nat) : Option Nat := (recs.find? fun r => r.1 == 1 && r.2.1 == i).map fun r => r.2.2

/-- A sequence at a boundary that no outcome of rank 1 to 8 meets: its rows and its token count (R308). -/
def SeqEnt.advance (q : SeqEnt) (tok : Option Nat) (tb : Nat) : SeqEnt :=
  match q.run with
  | none => q
  | some r =>
    let q : SeqEnt := { q with deferred := false, age := 0, run := none, fresh := false, prompt := q.prompt + (if r.prefill then r.rows else 0) }
    match tok with
    | some t => { q with tokens := q.tokens + 1, last := t, lastAt := tb, state := 3 }
    | none => { q with state := if q.tokens ≠ 0 then 3 else if q.prompt ≠ 0 then 2 else 1 }

/-- A deferred sequence keeps its state and position (R290, R291). -/
def SeqEnt.defer (q : SeqEnt) : SeqEnt := { q with deferred := true, age := min 255 (q.age + 1), run := none, fresh := false }

/-! Budgets (R321 to R323). -/

def toSigned (bits v : Nat) : Int := if v < 2 ^ (bits - 1) then v else (v : Int) - 2 ^ bits
def Dev.balance (d : Dev) (c : Nat) : Int := toSigned 64 (d.getPair (custAt c) (custAt c + 4))
def Dev.custEn (d : Dev) (c : Nat) : Bool := d.regBit (custAt c + 0x24) 0
def Dev.custHard (d : Dev) (c : Nat) : Bool := d.regBit (custAt c + 0x24) 1
def Dev.exhausted (d : Dev) (c : Nat) : Bool := d.custEn c && decide (d.balance c < 0)

/-- Refill and debit of one customer: `tokens` delivered at this boundary, `rows` prompt rows of the accepted step (R322). -/
def Dev.settle (d : Dev) (c tb tokens rows : Nat) : Dev :=
  let a := custAt c
  let dt := min (tb - d.getPair (a + 8) (a + 12)) 0xFFFFFFFF
  let x := d.getN (a + 0x10) * dt + d.getN (a + 0x1C)
  let debit := wordField (d.getR (a + 0x18)) 15 0 * tokens + wordField (d.getR (a + 0x18)) 31 16 * rows
  let b := min (d.getN (a + 0x14) : Int) (d.balance c + (x / 1000000000 : Nat) + toSigned 32 (d.getN (a + 0x20))) - debit
  let d := (d.setPair a (a + 4) (BitVec.ofInt 64 b).toNat).setN (a + 0x1C) (x % 1000000000)
  let d := (d.setPair (a + 8) (a + 12) tb).setN (a + 0x20) 0
  d.setPair (a + 0x30) (a + 0x34) ((d.getPair (a + 0x30) (a + 0x34) + debit) % 2 ^ 64)

/-- Every customer with EN set. -/
def Dev.customers (d : Dev) : List Nat :=
  d.regs.filterMap fun e =>
    if 0x240000 ≤ e.1 ∧ e.1 < 0x280000 ∧ e.1 % 64 = 0x24 ∧ e.2.getLsbD 0 then some ((e.1 - 0x240000) / 64) else none

/-! Steps 3 to 7 of R314. -/

/-- One sequence at the boundary: its entry afterwards, the status of its end, its token, whether it took part, and whether it is
debited. -/
structure SeqBnd where
  q : SeqEnt
  status : Option Nat
  tok : Option Nat
  part : Bool
  debit : Bool
  rows : Nat
  deriving DecidableEq, Repr

/-- Ranks 1 to 8, before the budgets. -/
def SeqEnt.bound (q : SeqEnt) (stop : Option Nat) (recs : List (Nat × Nat × Nat)) (tb : Nat) (fb : Bool) : SeqBnd :=
  let part := q.run.isSome
  let q : SeqEnt := { q with mark := q.mark || (fb && part) }
  match q.outcome stop recs tb with
  | some (8, _) => ⟨q.defer, none, none, part, false, 0⟩
  | some (_, st) => ⟨{ q with run := none }, some st, none, part, false, 0⟩
  | none =>
    let tok := if part then tokenOf recs q.idx else none
    ⟨q.advance tok tb, none, tok, part, part, match q.run with | some r => if r.prefill then r.rows else 0 | none => 0⟩

/-- Ranks 9 to 13, after the budgets. A deferred sequence ends with none of them (R316). -/
def Dev.lateEnd (d : Dev) (b : SeqBnd) (tb : Nat) (deferred : Bool) : SeqBnd :=
  let q := b.q
  if b.status.isSome ∨ deferred then b
  else if q.sub.deadline ≠ 0 ∧ q.sub.deadline ≤ tb then { b with status := some 2 }
  else if d.exhausted q.sub.cust ∧ d.custHard q.sub.cust then { b with status := some 3 }
  else match b.tok with
    | none => b
    | some t =>
      if q.pos = q.sub.maxLen then { b with status := some 4 }
      else if t = q.sub.stopTok ∧ t ≠ 0xFFFFFFFF then { b with status := some (if q.mark then 8 else 0) }
      else b

/-- The completion of a sequence at a boundary, if it has one. -/
def SeqBnd.comp (b : SeqBnd) (tb step : Nat) : Option Comp :=
  if b.status.isNone ∧ b.tok.isNone then none
  else some ⟨b.q.cq, b.q.sub.req, b.status.getD 0, b.status.isSome, b.tok.isSome, b.status == some 2 && b.tok.isSome,
    b.tok.isSome && b.q.tokens == 1, b.tok.getD 0, b.q.pos, tb, step % 2 ^ 32, b.q.sub.sqHead, b.q.sub.sq, 0,
    if b.status.isSome then b.q.idx else 16384, false⟩

/-- Entries of sequences that took part use the room reserved for them; the rest wait their turn (R303). -/
def Dev.postBnd (d : Dev) (l : List (Comp × Bool)) : Dev × List Nat :=
  let r := (l.filter fun x => x.2).foldl (fun (r : Dev × List Nat) x =>
    if r.1.cqFree (Fin.ofNat 64 x.1.cq) then (r.1.post x.1, x.1.cq :: r.2) else (r.1.addDue x.1, r.2)) (d, [])
  let d := (l.filter fun x => !x.2).foldl (fun d x => d.addDue x.1) r.1
  let f := d.flushDue
  (f.1, r.2 ++ f.2)

/-- Live sequences of a group that have not ended, by table index. -/
def Dev.groupSeqs (d : Dev) (g : Fin 4) : List SeqEnt :=
  (d.srv.seqs.filter fun q => q.group == g && q.state != 4).mergeSort fun a b => decide (a.idx ≤ b.idx)

structure BndRes where
  d : Dev
  posted : List Nat
  ended : List Nat
  deferred : List Nat

/-- Steps 3 to 7 of R314, at T_b = now: `reps` are the step reports where a step has run, `stop` the rank of a group stop. -/
def Dev.boundaryEnds (d : Dev) (g : Fin 4) (reps : Option (List StepRep)) (stop : Option Nat) : BndRes :=
  let tb := d.now
  let d := d.applySrv g
  let recs := (reps.getD []).flatMap StepRep.recs
  let fb := reps.isSome && (d.group g).pass == 2
  let d : Dev := if reps.isSome then
      (d.onGroup g fun x => { x with gf := x.gf + 1 }).setPair (WTR_SLOT_USE_LO (d.gcfg g).slot) (WTR_SLOT_USE_HI (d.gcfg g).slot) tb
    else d
  let bs := (d.groupSeqs g).map fun q => (q, q.bound stop recs tb fb)
  let deferred := (bs.filter fun x => (x.1.outcome stop recs tb).any fun o => o.1 == 8).map fun x => x.1.idx
  let use (c : Nat) : Nat × Nat :=
    let l := bs.filter fun x => x.2.debit && x.1.sub.cust == c
    ((l.filter fun x => x.2.tok.isSome).length, (l.map fun x => x.2.rows).sum)
  let d := d.customers.foldl (fun d c => d.settle c tb (use c).1 (use c).2) d
  let es := bs.map fun x => d.lateEnd x.2 tb (deferred.contains x.1.idx)
  let d := es.foldl (fun d b => d.onSeqEnt b.q.idx fun _ => if b.status.isSome then { b.q with state := 4, hold := 0 } else b.q) d
  let r := d.postBnd (es.filterMap fun b => (b.comp tb (d.gstep g)).map fun c => (c, b.part))
  ⟨r.1, r.2, (es.filter fun b => b.status.isSome).map fun b => b.q.idx, deferred⟩

/-! Admission (R307). -/

def ceil64 (n : Nat) : Nat := (n + 63) / 64

/-- Pages and bins that the live sequences of a group have reserved on a tile (R185, R236). -/
def Dev.ledger (d : Dev) (g : Fin 4) (n : Fin 32) : Nat × Nat :=
  let f := (d.gcfg g).streams[n]
  let l := d.srv.seqs.filter fun q => q.group == g && q.state != 4
  ((l.map fun q => ceil64 q.sub.maxLen * f).sum, l.length * f)

/-- Test 9 on the tiles of this package; `noRoom` names the requests that a tile of another member has no room for. -/
def Dev.hasRoom (d : Dev) (e : SubEnt) (noRoom : List Nat) : Bool :=
  let g := e.group
  !noRoom.contains e.req && (d.groupTiles g).all fun n =>
    let f := (d.gcfg g).streams[n]
    let l := d.ledger g n
    decide (ceil64 e.maxLen * f ≤ d.getN (MEM_KV_PAGES n) - l.1) && decide (f ≤ d.bins n - 1 - l.2)

/-- The first test that a SUBMIT fails: status and DETAIL. -/
def Dev.admissionTest (d : Dev) (e : SubEnt) (noRoom : List Nat) : Option (Nat × Nat) :=
  let g := e.group
  let c := d.gcfg g
  let live := d.srv.seqs.length
  let largest := (c.baskets.map Basket.maxPages).foldl max 0
  if ¬ e.fieldsOk then some (0x21, 1)
  else if d.srv.seqs.any fun q => q.sub.req == e.req then some (0x21, 7)
  else if d.gstate g ≠ 2 then some (0x21, 5)
  else if e.slot ≠ c.slot ∨ d.slotState e.slot < 3 ∨ d.getF (WTR_SLOT_STATE_CONTEXT e.slot) ≠ c.ctx then some (0x20, 0)
  else if 1048576 < e.maxLen ∨ (c.baskets ≠ [] ∧ 64 * largest < e.maxLen) then some (0x21, 6)
  else if d.exhausted e.cust ∧ d.custHard e.cust then some (0x03, 0)
  else if admissionMax ≤ live then some (0x21, 3)
  else if ¬ e.lc ∧ admissionMax - live ≤ d.getF (SRV_GROUP_BE_FLOOR_ENTRIES g) then some (0x21, 4)
  else if ¬ d.hasRoom e noRoom then some (0x21, 2)
  else none

/-- A request becomes QUEUED in the lowest free entry. -/
def Dev.takeIn (d : Dev) (e : SubEnt) : Dev :=
  let i := freeNum (d.srv.seqs.map SeqEnt.idx)
  let a := custAt e.cust + 0x28
  let d := (d.setN a (d.getN a + 1)).satInc SRV_ADMIT_COUNT
  d.onSrv fun x => { x with
    seqs := x.seqs ++ [⟨i, 1, 0, e, x.nextOrder, 0, 0, 0, 0, 0, false, false, e.cancel, true, none, none, false⟩]
    nextOrder := x.nextOrder + 1 }

/-- An admission-list entry that a boundary may take: its group is not PAUSED (R512). -/
def Dev.mayAdmit (d : Dev) (e : SubEnt) : Bool := d.gstate e.group != 5

/-- Up to `k` entries, from the submission queues round-robin, starting after the queue last served. -/
def Dev.admitLoop (d : Dev) (noRoom : List Nat) (tb step : Nat) : Nat → Dev
  | 0 => d
  | k + 1 =>
    let l := d.srv.adm.filter d.mayAdmit
    match ((List.range 64).map fun i => (d.srv.lastSq + 1 + i) % 64).find? fun q => l.any fun e => e.sq == q with
    | none => d
    | some q =>
      match l.find? fun e => e.sq == q with
      | none => d
      | some e =>
        let d := d.onSrv fun x => { x with adm := x.adm.erase e, lastSq := q }
        let d := match d.admissionTest e noRoom with
          | none => d.takeIn e
          | some r => (d.satInc SRV_REFUSE_COUNT).addDue (e.refusal r.1 r.2 tb step false)
        d.admitLoop noRoom tb step k

/-- Entries of the admission list that `p` takes end CANCELLED (R299, R318). -/
def Dev.dropAdm (d : Dev) (p : SubEnt → Bool) (tb step : Nat) : Dev :=
  let l := d.srv.adm.filter p
  let d := d.onSrv fun x => { x with adm := x.adm.filter fun e => !p e }
  l.foldl (fun d e => d.addDue (e.refusal 1 0 tb step false)) d

/-- Step 8 of R314. -/
def Dev.admission (d : Dev) (g : Fin 4) (noRoom : List Nat) : Dev × List Nat :=
  let tb := d.now
  let step := d.gstep g % 2 ^ 32
  let d := d.dropAdm (fun e => d.mayAdmit e && e.cancel.any fun c => decide (c < tb)) tb step
  (d.admitLoop noRoom tb step (max 1 (d.getF SRV_CTRL_ADMIT_MAX))).flushDue

/-! Composition (R253, R308 to R311). -/

/-- Generation-first mode (R311). -/
def Dev.genFirst (d : Dev) (g : Fin 4) : Bool :=
  decide ((d.group g).gf < d.getF (SRV_GROUP_CTRL_GF_STEPS g)) || d.flag (SRV_GROUP_CTRL_GEN_FIRST g)

/-- Why a sequence may not take part, before rows and seats: BUDGET, NOT_READY, NO_BASKET, CQ_FULL, or 0. -/
def Dev.holdOf (d : Dev) (c : GroupCfg) (notReady : List Nat) (q : SeqEnt) : Nat :=
  if d.exhausted q.sub.cust ∧ ¬ d.custHard q.sub.cust then 4
  else if c.baskets ≠ [] ∧ notReady.contains q.idx then 2
  else if c.baskets ≠ [] ∧ q.state = 3 ∧ ¬ c.baskets.any (fun b => decide (ceil64 q.pos ≤ b.maxPages)) then 3
  else if d.cqRoom q.cq = 0 then 5
  else 0

/-- The order in which sequences are given rows (R309): smaller keys first. -/
def SeqEnt.rank (q : SeqEnt) : List Nat :=
  if q.deferred then [0, 255 - q.age, q.idx]
  else if q.state = 3 then [if q.sub.lc then 1 else 2, q.lastAt, q.idx]
  else [3, if q.sub.lc then 0 else 1, if q.state = 2 then 0 else 1, q.order]

def lexLe : List Nat → List Nat → Bool
  | [], _ => true
  | _ :: _, [] => false
  | a :: s, b :: t => decide (a < b) || (a == b && lexLe s t)

/-- The seat of a sequence of `pages` pages: the basket of smallest MAXPAGES that holds it and has a free seat, and its lowest free
seat; otherwise the hold reason. -/
def seatFor (c : GroupCfg) (used : List (Nat × Nat)) (pages : Nat) : Nat ⊕ (Nat × Nat) :=
  if c.baskets = [] then .inr (0, 0)
  else
    let fit := c.baskets.zipIdx.filter fun x => decide (pages ≤ x.1.maxPages)
    if fit = [] then .inl 3
    else match fit.findSome? fun x => ((List.range x.1.seats).find? fun k => !used.contains (x.2, k)).map fun k => (x.2, k) with
      | some s => .inr s
      | none => .inl 1

/-- A step under composition: rows given so far, seats taken. -/
structure Fill where
  d : Dev
  ndec : Nat
  npre : Nat
  used : List (Nat × Nat)

/-- One sequence in its turn. -/
def Fill.one (c : GroupCfg) (dec pre : Nat) (f : Fill) (q : SeqEnt) : Fill :=
  let decode := q.state == 3
  let want := if decode then 1 else min (min c.pchunk (q.sub.plen - q.prompt)) (pre - f.npre)
  let held (h : Nat) : Fill := { f with d := f.d.onSeqEnt q.idx fun q => { q with hold := h } }
  if (decode ∧ dec ≤ f.ndec) ∨ want = 0 then held 1
  else if f.d.cqRoom q.cq = 0 then held 5
  else match seatFor c f.used (ceil64 (if decode then q.pos else q.pos + want)) with
    | .inl h => held h
    | .inr (b, k) =>
      let r : SeatRun := ⟨!decode, want, if decode then f.ndec else f.npre, b, k, !decode && q.prompt + want == q.sub.plen⟩
      { d := f.d.onSeqEnt q.idx fun q => { q with hold := 0, run := some r }
        ndec := if decode then f.ndec + 1 else f.ndec
        npre := if decode then f.npre else f.npre + want
        used := if c.baskets = [] then f.used else f.used ++ [(b, k)] }

/-- The entry of a sequence that takes part; `ndec` decode rows come first. -/
def SeqEnt.entry (q : SeqEnt) (ndec : Nat) : Option OrderEnt :=
  q.run.map fun r =>
    ⟨q.idx, if r.prefill then 1 else 0, (if q.fresh then 1 else 0) + (if r.last then 2 else 0), r.basket, r.seat, q.sub.le 0x34 2,
      if r.prefill then ndec + r.first else r.first, r.rows, if r.prefill then q.prompt else q.pos - 1,
      if r.prefill then r.first else q.last, q.sub.le 0x2C 4, q.sub.le 0x30 4⟩

/-- The new prefill share (R310). -/
def Dev.newShare (d : Dev) (g : Fin 4) (short : Bool) (wait : Nat) : Nat :=
  let lo := d.getF (SRV_GROUP_SHARE_S_MIN g)
  let hi := max lo (d.getF (SRV_GROUP_SHARE_S_MAX g))
  let s := d.getF (SRV_GROUP_SHARE_S g)
  if short then max lo (s - d.getF (SRV_GROUP_SHARE_DOWN g))
  else if d.getN (SRV_GROUP_PTARGET g) * 1000 < wait then min hi (s + d.getF (SRV_GROUP_SHARE_UP g))
  else s

/-- A held sequence's CQ_FULL timer follows its hold reason (R303). -/
def SeqEnt.cqTimer (q : SeqEnt) (tb : Nat) : SeqEnt :=
  if q.hold ≠ 5 then { q with cqSince := none, stalled := false }
  else if q.cqSince.isNone then { q with cqSince := some tb } else q

/-- Step 9 of R314: S is updated and the next step composed. `ended` and `deferred` are this boundary's; where nothing can be
composed, their entries wait for a boundary that composes a step (R315). -/
def Dev.compose (d : Dev) (g : Fin 4) (reps : Option (List StepRep)) (ended deferred notReady prompt : List Nat) : Dev :=
  let tb := d.now
  let c := d.gcfg g
  let gf := d.genFirst g
  let seqs := d.groupSeqs g
  let d := seqs.foldl (fun e q => e.onSeqEnt q.idx fun q => { q with hold := d.holdOf c notReady q }) d
  let ready := (seqs.filter fun q => d.holdOf c notReady q == 0).mergeSort fun a b => lexLe a.rank b.rank
  let decReady := (ready.filter fun q => q.state == 3).length
  let demand := ((ready.filter fun q => q.state != 3).map fun q => min c.pchunk (q.sub.plen - q.prompt)).sum
  let pmin := if gf then 0 else d.getF (SRV_GROUP_SHARE_S g) * c.rowCap / 256
  let dec := min decReady (c.rowCap - min pmin demand)
  let pre := min demand (c.rowCap - dec)
  let f := ready.foldl (Fill.one c dec pre) ⟨d, 0, 0, []⟩
  let d := seqs.foldl (fun e q => e.onSeqEnt q.idx fun q => q.cqTimer tb) f.d
  let wait := (seqs.filter fun q => q.sub.lc && q.state != 3).foldl (fun m q => max m (tb - q.sub.at_)) 0
  let d : Dev := if gf then d else d.setF (SRV_GROUP_SHARE_S g) (d.newShare g (decide (dec < decReady)) wait)
  let d := d.setF (SRV_GROUP_STATE_GEN_FIRST g) (if gf then 1 else 0)
  let old := (d.group g).order
  let carry := (old.map StepOrder.entries).getD []
  let run := (d.groupSeqs g).filterMap fun q => (q.entry f.ndec).map fun e => e
  let byRow := run.mergeSort fun a b => decide (a.first ≤ b.first)
  let dvals := match reps with
    | some l => (List.range 256).map fun k => ((l.flatMap StepRep.dvals).filter fun x => x.1 == k).foldl (fun m x => max m x.2) 0
    | none => (old.map StepOrder.dvals).getD []
  let o : StepOrder := ⟨d.gstep g + 1, d.groupEpoch g, g, if gf then 1 else 0, tb, dvals,
    carry ++ ended.map (plainEnt 2) ++ deferred.map (plainEnt 3) ++ byRow, prompt⟩
  d.onGroup g fun x => { x with order := some o, retryAt := if run = [] then some tb else none }

/-! Whole boundaries. -/

/-- The lead stops the group: every request ends with an outcome of rank `rank`, the stop order goes to the followers, and the group
enters STOPPED (3) or HALTED (4), or IDLE where a GROUP_STOP waits (R299, R320). -/
def Dev.leadStop (d : Dev) (g : Fin 4) (reps : Option (List StepRep)) (rank st : Nat) (noRoom : List Nat) : Dev :=
  let paused := d.gstate g == 5
  let b := d.boundaryEnds g reps (some rank)
  let d := b.d
  let ents := (((d.group g).order.map StepOrder.entries).getD []).filter fun e => e.kind == 2
  let o : StepOrder := ⟨d.gstep g, d.groupEpoch g, g, 2, d.now, [], ents ++ b.ended.map (plainEnt 2), []⟩
  let d := d.broadcast (d.followers g) "STOP_ORDER" (orderArgs o)
  let d : Dev := if st = 4 then d.satInc HUB_SHALT_COUNT else d
  let d := (d.leaveRunning g st).logEntry 0x000A 0 g st (d.gstep g % 2 ^ 32)
  let d : Dev := if d.stopPending g then ((d.dropAdm (fun e => e.group == g) d.now (d.gstep g % 2 ^ 32)).groupIdle g).mbxDone else d
  let r := if paused then d.flushDue else d.admission g noRoom
  r.1.raiseCqs (b.posted ++ r.2)

/-- The lead pauses the group (R512): only the sequences that R165 ends do so. The others are to repeat their step. -/
def Dev.leadPause (d : Dev) (g : Fin 4) (reps : List StepRep) : Dev :=
  let recs := (reps.flatMap StepRep.recs).filter fun r => r.1 == 6 || r.1 == 10
  let tb := d.now
  let d : Dev := (d.onGroup g fun x => { x with gf := x.gf + 1 }).setPair (WTR_SLOT_USE_LO (d.gcfg g).slot)
    (WTR_SLOT_USE_HI (d.gcfg g).slot) tb
  let es := (d.groupSeqs g).filter fun q => (q.outcome none recs 0).isSome
  let d := (d.groupSeqs g).foldl (fun d q => d.onSeqEnt q.idx fun q =>
    if es.any fun x => x.idx == q.idx then { q with state := 4, hold := 0, run := none } else { q with run := none, fresh := false }) d
  let r := d.postBnd (es.filterMap fun q =>
    (SeqBnd.comp ⟨{ q with run := none }, some 0x11, none, q.run.isSome, false, 0⟩ tb (d.gstep g)).map fun c => (c, q.run.isSome))
  let d := r.1
  let o : StepOrder := ⟨d.gstep g, d.groupEpoch g, g, 8, tb, [], es.map fun q => plainEnt 2 q.idx, []⟩
  let d := d.broadcast (d.followers g) "PAUSE_ORDER" (orderArgs o)
  (d.onGroup g fun x => { x with order := none, retryAt := none }).raiseCqs r.2

/-- A member enters PAUSED (R512): it applies the END entries, releases no sequencer, and keeps the pages that the repeated step will
fill again. -/
def Dev.enterPaused (d : Dev) (g : Fin 4) (ended : List Nat) : Dev :=
  let d := d.onTiles g fun d n =>
    let d := ended.foldl (fun d q => d.tileFreeSeq n q) d
    d.onTile n fun t => { t with binTab := t.binTab.map fun b => { b with again := true } }
  let d := d.onGroup g fun x => { x with report := none, cleared := [], waitFrom := none }
  let slot := (d.gcfg g).slot
  let d : Dev := if d.flag (WTR_SLOT_STATE_DAMAGED slot) then d else d.emit (.signal "DAMAGED_CLEAR" [slot])
  (d.setF (SRV_GROUP_STATE_STATE g) 5).issueReads

/-- Steps 3 to 9 of R314 at T_b = now. -/
def Dev.leadBoundary (d : Dev) (g : Fin 4) (reps : Option (List StepRep)) (exit : Bool) (noRoom notReady prompt : List Nat) : Dev :=
  if exit ∨ (d.group g).stop = some .tileExit then d.leadStop g reps 3 3 noRoom
  else if d.stopPending g then d.leadStop g reps 7 3 noRoom
  else if (reps.getD []).any fun r => r.recs.any fun x => x.1 == 12 then
    let before := (d.groupSeqs g).map SeqEnt.idx
    let d := d.leadPause g (reps.getD [])
    d.enterPaused g (before.filter fun i => !(d.groupSeqs g).any fun q => q.idx == i)
  else
    let b := d.boundaryEnds g reps none
    let a := b.d.admission g noRoom
    (a.1.compose g reps b.ended b.deferred notReady prompt).raiseCqs (b.posted ++ a.2)

/-- STEP_BOUNDARY (R314): this package leads the group and holds its own step report and those of every other member. `noRoom`
names the requests that a tile of another member cannot take, `notReady` the sequences that tiles report not ready (R253), `prompt`
the prompt tokens of the coming step, `exit` a tile exit that another member's hub has reported. -/
def execStepBoundary (g : Fin 4) (reps : List StepRep) (exit : Bool) (noRoom notReady prompt : List Nat) (now : Nat) (s : State) :
    Host.Outcome State Fault Refusal :=
  onRun (fun d =>
    let d := d.at_ now
    match (d.group g).report with
    | none => d
    | some r =>
      if d.leadsRunning g ∧ (d.followers g).all fun p => reps.any fun x => x.pkg == p then
        let d := d.onGroup g fun x => { x with report := none }
        d.leadBoundary g (some (r :: reps)) exit noRoom notReady prompt
      else d) s

/-- BOUNDARY_RETRY (R315): 100 µs after a boundary that composed no sequence. A tile exit reported while the group is PAUSED stops it
(R320, R512). -/
def execBoundaryRetry (g : Fin 4) (exit : Bool) (noRoom notReady prompt : List Nat) (now : Nat) (s : State) :
    Host.Outcome State Fault Refusal :=
  onRun (fun d =>
    let d := d.at_ now
    if d.leadsRunning g ∧ (d.group g).retryAt.any fun t => decide (t + 100000 ≤ d.now) then
      d.leadBoundary g none exit noRoom notReady prompt
    else if exit ∧ d.gstate g = 5 ∧ d.flag (SRV_GROUP_STATE_LEAD g) then d.leadStop g none 3 3 noRoom
    else d) s

/-- STEP_ORDER_SEND (R314 step 10, R315): no earlier than MINPERIOD, at least 1,000 µs, after the previous one. -/
def execStepOrderSend (g : Fin 4) (now : Nat) (s : State) : Host.Outcome State Fault Refusal :=
  onRun (fun d =>
    let d := d.at_ now
    let x := d.group g
    match x.order with
    | none => d
    | some o =>
      if d.leadsRunning g ∧ x.retryAt.isNone ∧ x.lastOrder + max 1000 (d.getN (SRV_GROUP_MINPERIOD g)) * 1000 ≤ d.now then
        let d := d.setN (SRV_GROUP_STEP_NS g) (min 0xFFFFFFFF (d.now - x.lastOrder))
        let d := d.onGroup g fun x => { x with order := none, lastOrder := d.now }
        d.broadcast (d.group g).memberList "STEP_ORDER" (orderArgs o)
      else d) s

end Sys2Proof.Machine
end

