-- ==== Sys2Proof/Machine/Vote.lean ====
section
/-! DEFINITION. The start of a pass, the step check point with its replays, and the schedule rerun (R65, R70 to R79, R83, R127,
R129, R137, R141, R154, R155). -/

namespace Sys2Proof.Machine

open Reg

/-! Pass start. -/

/-- STREAM_LEN of stream `st` in the half at `half`. -/
def Dev.streamLen (d : Dev) (n : Fin 32) (half st : Nat) : Nat := d.imemLe n (half + 0x24 + 4 * st) 4

/-- The schedule header of a half fails the check of R129. -/
def Dev.headerBad (d : Dev) (n : Fin 32) (half : Nat) : Bool :=
  let f := d.imemLe n
  let off (st : Nat) : Nat := f (half + 0x10 + 4 * st) 4
  f (half + 8) 1 != 1 || decide (2 ≤ f (half + 9) 1) || f (half + 0x0A) 1 != d.getF (TCTL_ROTA_HOME_W n) ||
    f (half + 0x0B) 1 != 0 || f (half + 0x38) 8 != 0 ||
    (List.range 5).any fun st =>
      let k := d.streamLen n half st
      k != 0 && (decide (0x400000 < instrAt 0 (off st + k)) || iOp (f (instrAt half (off st + k - 1)) 16) != 5)

/-- TIER_LATE and TIER_ERR clear at pass start; in a later pass of a step the tokens that were late stay so (R143, R195). -/
def Dev.tierBits (d : Dev) (n : Fin 32) (later : Bool) : Dev :=
  let late := (List.range 960).filter fun k => d.regBit (TCTL_TIER_LATE n (k / 32)) (k % 32)
  let d := d.onTile n fun t => { t with lateToks := if later then t.lateToks ++ late.map fun k => 3072 + k else [] }
  (List.range 30).foldl (fun d i => (d.setN (TCTL_TIER_LATE n i) 0).setN (TCTL_TIER_ERR n i) 0) d

/-- The next token bank becomes the current one (R141). -/
def Dev.tokenShift (d : Dev) (n : Fin 32) : Dev :=
  let q := d.seq n
  let d := d.onSeq n fun q => { q with cur := q.next, next := [], nextOver := [], nextErr := [] }
  let d := q.nextErr.foldl (fun d t => d.tierErr n t) d
  match q.nextOver with
  | t :: _ => if d.running n then d.sfault n 0x0E 7 0 0 t else d
  | [] => d

/-- The quantiser at a pass start (R65, R82). -/
def Dev.quantStart (d : Dev) (n : Fin 32) : Dev :=
  let d := (d.flagged n 0).foldl (fun d t => d.clearStatFlag n t 0) d
  let d := d.onTile n fun t => { t with troubled := [], voteDue := false, voteReady := false }
  (((d.setF (QNT_STEP_STATUS_TROUBLE n) 0).setF (QNT_STEP_STATUS_NAN_SEEN n) 0).setF (QNT_STEP_STATUS_TSCALE_BAD n) 0).setF
    (QNT_STEP_STATUS_TROUBLED_TENSORS n) 0

/-- The fallback map as the Mangle block's registers hold it (R99). -/
def Dev.fbMapWord (d : Dev) (n : Fin 32) : BitVec 4096 :=
  BitVec.ofNat 4096 ((List.range 128).foldr (fun i a => d.getN (MGL_FB_MAP n i) + 2 ^ 32 * a) 0)

/-- The sequencer latches the slots and the map; streams of no instruction have ended (R99, R110, R123). -/
def Dev.seqStart (d : Dev) (n : Fin 32) (half : Nat) : Dev :=
  let e := ((List.range 5).filter fun st => d.streamLen n half st == 0).foldl (fun (b : BitVec 5) st => b ||| BitVec.ofNat 5 (2 ^ st)) 0#5
  let trips := Vector.ofFn fun i : Fin 64 => d.getF (TCTL_TRIP_TRIP n i)
  let fb := d.fbMapWord n
  d.onSeq n fun q => { q with
    released := none, trips := trips, fbMap := fb, ended := e, wait := none, loops := [], resumeAt := 0, waitBeats := 0 }

/-- END messages of passes that are over are forgotten (R289). -/
def Dev.dropBarriers (d : Dev) (n : Fin 32) : Dev :=
  match d.groupOf n with
  | none => d
  | some g =>
    let c := d.groupSeq g
    d.onGroup g fun x => { x with barriers := x.barriers.filter fun b => b.seq == c || b.seq == (c + 1) % 65536 }

/-- A pass starts on a tile in the half that its release names. -/
def Dev.passStart (d : Dev) (n : Fin 32) (r : Release) : Dev :=
  let half := if r.fallback then 0x400000 else 0
  let d : Dev := if d.rwb.any fun e => e.ofTile n && e.bnd == .rotaIdle then
      d.applyRwb fun e => e.ofTile n && (e.bnd == .rotaIdle || e.bnd == .rota)
    else d
  let d := (((d.setF (TCTL_PASS_STATUS_PASS_SEQ n) (d.passSeq n + 1)).setF (TCTL_PASS_STATUS_STATE n) 1).setF
    (TCTL_PASS_STATUS_RERUN n) (if r.rerun then 1 else 0)).setF (TCTL_PASS_STATUS_FB_HALF n) (if r.fallback then 1 else 0)
  let d := (d.tierBits n (r.rerun || d.getF (QNT_STEP_STATUS_PASS n) != 0)).seqStart n half
  let d := d.onSource (some n) fun x => { x with errs := x.errs.filter fun e => e.owner != .mover && e.owner != .helper }
  let d : Dev := if d.headerBad n half then d.sfault n 0x10 7 0 0 0 else d
  let d := ((d.tokenShift n).quantStart n).onDelud n fun x => { x with sendBytes := 0 }
  let d := ((d.routerStart n).dropBarriers n).count (.tile n) 5 1
  if d.running n ∧ (d.seq n).ended = 31#5 then d.passEnd n 0 else d

/-- PASS_START (R127, R137): beat phase 0 after the tile controller's release, or the rota boundary where a HOME_W value is pending. -/
def execPassStart (n : Fin 32) (s : State) : Host.Outcome State Fault Refusal :=
  onRun (fun d =>
    match (d.seq n).released with
    | none => d
    | some r => if d.running n then d else d.passStart n r) s

/-! Vote records (R77, R78). -/

def bitsByte (l : List Bool) : Byte := BitVec.ofNat 8 (l.zipIdx.foldl (fun a x => if x.1 then a + 2 ^ x.2 else a) 0)
def flagBit (b : Bool) (k : Nat) : Nat := if b then 2 ^ k else 0

/-- A record's 16,960 bytes: step, pass, the TILE byte, the DECISION of a decision record, and the vote. -/
def voteBytes (step pass tile decision : Nat) (v : Vote) : List Byte :=
  leBytes 8 (step % 2 ^ 48) ++ leBytes 1 pass ++ leBytes 1 tile ++
    leBytes 2 (flagBit v.trouble 0 + flagBit v.nan 1 + flagBit v.tsBad 2 + flagBit v.replayOff 3 + 16 * decision) ++
    leBytes 2 v.map.length ++ leBytes 2 0 ++ leBytes 4 v.pkg ++ List.replicate 44 0 ++
    (List.range 512).map (fun i => bitsByte ((List.range 8).map fun k => v.map.contains (8 * i + k))) ++
    (List.range 4096).flatMap fun t => leBytes 4 (((v.amax.find? fun e => e.1 == t).map Prod.snd).getD 0)

/-- The vote that a record of a tile or package spells. -/
def voteOfBytes (b : List Byte) : Vote :=
  let f := leVal ((b.drop 0x0A).take 2)
  let am (t : Nat) : Nat := leVal ((b.drop (0x240 + 4 * t)).take 4)
  ⟨leVal ((b.drop 0x10).take 4) % 2 ^ 17, f.testBit 0, f.testBit 1, f.testBit 2, f.testBit 3,
    (List.range 4096).filter fun t => (b.getD (0x40 + t / 8) 0).getLsbD (t % 8),
    (List.range 4096).filterMap fun t => if am t = 0 then none else some (t, am t)⟩

/-- The vote of a tile's pass. -/
def Dev.tileVote (d : Dev) (n : Fin 32) : Vote :=
  let on := d.flag (QNT_CTRL_REPLAY_EN n)
  let tr := (d.tile n).troubled
  ⟨d.self, on && tr != [], d.flag (QNT_STEP_STATUS_NAN_SEEN n), d.flag (QNT_STEP_STATUS_TSCALE_BAD n), !on,
    if on then tr else [], (d.flagged n 0).map fun t => (t, d.tsLe n (d.statAt n t + 4) 4)⟩

/-- VOTE_RECORD_WRITE (R77). -/
def execVoteRecordWrite (n : Fin 32) (s : State) : Host.Outcome State Fault Refusal :=
  onRun (fun d =>
    if (d.tile n).voteDue then
      let step := match d.groupOf n with
        | some g => d.gstep g
        | none => 0
      let d := d.tsWrite n (d.getN (QNT_VOTE_BASE n)) (voteBytes step (d.getF (QNT_STEP_STATUS_PASS n)) n 0 (d.tileVote n))
      d.onTile n fun t => { t with voteDue := false, voteReady := true }
    else d) s

/-- VOTE_RECORD_SEND (R77, R79): the record as tile store holds it reaches the hub. -/
def execVoteRecordSend (n : Fin 32) (s : State) : Host.Outcome State Fault Refusal :=
  onRun (fun d =>
    if (d.tile n).voteReady then
      let v := voteOfBytes (d.tsRead n (d.getN (QNT_VOTE_BASE n)) 16960)
      let d := d.onTile n fun t => { t with voteReady := false }
      match d.groupOf n with
      | none => d
      | some g => if d.gstate g = 2 then d.onGroup g fun x => { x with votes := x.votes ++ [(n.val, v)] } else d
    else d) s

/-- Votes combined: OR of the flags and maps, maxima of AMAX (R66, R78). -/
def voteJoin (pkg : Nat) (l : List Vote) : Vote :=
  let on (p : Vote → Bool) : Bool := l.any p
  let am (t : Nat) : Nat := ((l.flatMap Vote.amax).filter fun e => e.1 == t).foldl (fun m e => max m e.2) 0
  ⟨pkg, on Vote.trouble, on Vote.nan, on Vote.tsBad, on Vote.replayOff, ((l.flatMap Vote.map).mergeSort).dedup,
    (((l.flatMap Vote.amax).map Prod.fst).mergeSort).dedup.map fun t => (t, am t)⟩

def Dev.isLead (d : Dev) (g : Fin 4) : Bool := d.flag (SRV_GROUP_STATE_LEAD g)

/-- A message to the lead of a group. -/
def Dev.toLead (d : Dev) (g : Fin 4) (name : String) (args : List Nat) : Dev := d.emit (.mgmt (d.group g).leadPkg name args)

/-- A follower waits for the step broadcast from now on (R320). -/
def Dev.awaitLead (d : Dev) (g : Fin 4) : Dev :=
  if d.isLead g then d else d.onGroup g fun x => { x with waitFrom := some d.now }

/-- PACKAGE_VOTE (R78). -/
def execPackageVote (g : Fin 4) (now : Nat) (s : State) : Host.Outcome State Fault Refusal :=
  onRun (fun d =>
    let d := d.at_ now
    let x := d.group g
    if d.gstate g = 2 ∧ x.pkgVote.isNone ∧ x.votes ≠ [] ∧ x.abortAt.isNone ∧
        (d.groupTiles g).all (fun n => x.votes.any fun v => v.1 == n.val) then
      let v := voteJoin d.self (x.votes.map Prod.snd)
      let d := d.onGroup g fun x => { x with pkgVote := some v, voteAt := d.now }
      (d.toLead g "PACKAGE_VOTE" ((voteBytes (d.gstep g) x.pass 0xFF 0 v).map BitVec.toNat)).awaitLead g
    else d) s

/-! The decision (R73, R79, R83). -/

/-- 0 accept, 1 replay 1, 2 replay 2. -/
def decision73 (pass : Nat) (trouble : Bool) : Nat := if trouble && decide (pass < 2) then pass + 1 else 0

/-- VOTE_DECISION (R73, R78): the lead holds every package vote; `votes` are those of the other members. -/
def execVoteDecision (g : Fin 4) (votes : List Vote) (now : Nat) (s : State) : Host.Outcome State Fault Refusal :=
  onRun (fun d =>
    let d := d.at_ now
    let x := d.group g
    match x.pkgVote with
    | none => d
    | some own =>
      if d.leadsRunning g ∧ (d.followers g).all fun p => votes.any fun v => v.pkg == p then
        let v := voteJoin d.self (own :: votes)
        let k := decision73 x.pass v.trouble
        let d : Dev := if k = 1 then d.satInc HUB_REPLAY1_COUNT else if k = 2 then d.satInc HUB_REPLAY2_COUNT else d
        let d := d.onGroup g fun x => { x with pkgVote := none }
        d.broadcast x.memberList "DECISION_RECORD" ([g.val, k] ++ (voteBytes (d.gstep g) x.pass 0xFE k v).map BitVec.toNat)
      else d) s

/-- HUB_VOTE_CTRL.TIMEOUT in ns (R83). -/
def Dev.voteTimeout (d : Dev) : Nat := min 1000 (max 10 (d.getF HUB_VOTE_CTRL_TIMEOUT)) * 1000

/-- VOTE_TIMEOUT (R79): a package whose vote is missing is lost, and the lead stops the group (R320). -/
def execVoteTimeout (g : Fin 4) (missing : List Nat) (now : Nat) (s : State) : Host.Outcome State Fault Refusal :=
  onRun (fun d =>
    let d := d.at_ now
    let x := d.group g
    if d.leadsRunning g ∧ x.pkgVote.isSome ∧ x.voteAt + d.voteTimeout ≤ d.now ∧
        (missing.any fun p => (d.followers g).contains p) then
      d.leadStop g none 2 3 []
    else d) s

/-- DECISION_RECORD (R78, R83): a member receives the decision. -/
def execDecisionRecord (g : Fin 4) (decision : Fin 3) (vote : Vote) (now : Nat) (s : State) : Host.Outcome State Fault Refusal :=
  onRun (fun d =>
    let d := d.at_ now
    if d.gstate g = 2 then
      let d : Dev := if decision.val = 0 then d.setF HUB_VOTE_STAT_ACCEPTED_PASS (d.group g).pass else d
      let d := d.onGroup g fun x => { x with decision := some (decision.val, vote), votes := [], pkgVote := none, waitFrom := none }
      d.emits ((d.groupTiles g).map fun n => .signal "DECISION" [n.val, decision.val])
    else d) s

/-- The tile controllers of a group prepare pass `k` of a step (R70, R73, R237). -/
def Dev.prepareTile (d : Dev) (n : Fin 32) (k : Nat) (v : Vote) (fw : List FwWrite) : Dev :=
  let d := (d.restoreStep n).writeFallback n (if k = 2 then v.map else [])
  let d := ((d.writeScales n (if k = 2 then 0x400000 else 0) v.amax).freshHeaders n).fwWrites n fw
  (d.setF (QNT_STEP_STATUS_PASS n) k).releaseSeq n (k == 2) false

/-- PASS_PREPARE (R70, R73, R79): event 6 of the check point for a replay. -/
def execPassPrepare (g : Fin 4) (fw : List FwWrite) (s : State) : Host.Outcome State Fault Refusal :=
  onRun (fun d =>
    match (d.group g).decision with
    | none => d
    | some (k, v) =>
      if d.gstate g = 2 ∧ k ≠ 0 then
        let d := d.onTiles g fun d n => d.prepareTile n k v fw
        d.onGroup g fun x => { x with pass := k, decision := none }
      else d) s

/-! Schedule faults (R154, R155). -/

/-- A fault report at the lead: the first of the step orders a rerun, one of a pass of the rerun step halts the group. -/
def Dev.leadFault (d : Dev) (g : Fin 4) : Dev :=
  if ¬ d.leadsRunning g then d
  else if (d.group g).rerun then d.leadStop g none 1 4 []
  else
    let d := d.onGroup g fun x => { x with rerun := true, abortAt := some d.now, readyTiles := [], readyPkgs := [] }
    d.broadcast (d.group g).memberList "ABORT_ORDER" [g.val]

/-- SFAULT_REPORT (R154): from a tile controller to its hub, which counts the fault once and tells the lead; or, with no tile, from
the hub of a member to the lead. -/
def execSfaultReport (g : Fin 4) (tile : Option (Fin 32)) (pkg : BitVec 17) (now : Nat) (s : State) :
    Host.Outcome State Fault Refusal :=
  onRun (fun d =>
    let d := d.at_ now
    let x := d.group g
    if d.gstate g ≠ 2 ∨ x.abortAt.isSome then d
    else match tile with
      | none => if x.memberList.contains pkg.toNat then d.leadFault g else d
      | some n =>
        if ¬ (d.groupTiles g).contains n ∨ d.getF (TCTL_PASS_STATUS_STATE n) ≠ 2 then d
        else
          let d := d.satInc HUB_SFAULT_COUNT
          if d.isLead g then d.leadFault g
          else (d.onGroup g fun x => { x with abortAt := some d.now, readyTiles := [], readyPkgs := [] }).toLead g "SFAULT_REPORT"
            [g.val, d.self]) s

/-- ABORT_ORDER (R154): every tile of the group stops issue. -/
def execAbortOrder (g : Fin 4) (now : Nat) (s : State) : Host.Outcome State Fault Refusal :=
  onRun (fun d =>
    let d := d.at_ now
    if d.gstate g = 2 then
      let d := d.onTiles g fun d n => if d.running n then d.setF (TCTL_PASS_STATUS_STATE n) 2 else d
      let d := d.onGroup g fun x => { x with abortAt := some (x.abortAt.getD d.now), waitFrom := none }
      d.emits ((d.groupTiles g).map fun n => .signal "ABORT" [n.val])
    else d) s

/-- A package is ready; with the last one the lead releases the rerun. -/
def Dev.pkgReady (d : Dev) (g : Fin 4) (p : Nat) : Dev :=
  let d := d.onGroup g fun x => { x with readyPkgs := x.readyPkgs ++ [p] }
  if (d.group g).memberList.all fun q => (d.group g).readyPkgs.contains q then
    d.broadcast (d.group g).memberList "RERUN_RELEASE" [g.val]
  else d

/-- ABORT_READY (R154): a tile at rest reports to its hub, which reports its package once every tile has; or, with no tile, a
package's report reaches the lead. -/
def execAbortReady (g : Fin 4) (tile : Option (Fin 32)) (pkg : BitVec 17) (now : Nat) (s : State) : Host.Outcome State Fault Refusal :=
  onRun (fun d =>
    let d := d.at_ now
    let x := d.group g
    if d.gstate g ≠ 2 ∨ x.abortAt.isNone then d
    else match tile with
      | none => if d.isLead g ∧ ¬ x.readyPkgs.contains pkg.toNat then d.pkgReady g pkg.toNat else d
      | some n =>
        if ¬ (d.groupTiles g).contains n ∨ x.readyTiles.contains n.val ∨ d.running n ∨ ¬ d.moverQuiet n ∨ ¬ d.helperQuiet n then d
        else
          let d := d.onGroup g fun x => { x with readyTiles := x.readyTiles ++ [n.val] }
          if ¬ (d.groupTiles g).all fun m => (d.group g).readyTiles.contains m.val then d
          else if d.isLead g then d.pkgReady g d.self
          else d.toLead g "ABORT_READY" [g.val, d.self]) s

/-- RERUN_READY_TIMEOUT (R154): a package that has not reported ready is lost (R79, R320). -/
def execRerunReadyTimeout (g : Fin 4) (now : Nat) (s : State) : Host.Outcome State Fault Refusal :=
  onRun (fun d =>
    let d := d.at_ now
    let x := d.group g
    if d.leadsRunning g ∧ (x.abortAt.any fun t => decide (t + d.voteTimeout ≤ d.now)) ∧
        ¬ (x.memberList.all fun p => x.readyPkgs.contains p) then
      d.leadStop g none 2 3 []
    else d) s

/-- RERUN_RELEASE (R154): the tile controllers restore the step state and release the sequencers for the same pass. -/
def execRerunRelease (g : Fin 4) (fw : List FwWrite) (s : State) : Host.Outcome State Fault Refusal :=
  onRun (fun d =>
    let x := d.group g
    if d.gstate g = 2 ∧ x.abortAt.isSome then
      let d := d.onTiles g fun d n =>
        let d := ((d.restoreStep n).fwWrites n fw).onTile n fun t => { t with voteDue := false, voteReady := false }
        d.releaseSeq n (x.pass == 2) true
      d.onGroup g fun x => { x with votes := [], pkgVote := none, abortAt := none, readyTiles := [], readyPkgs := [], rerun := true }
    else d) s

end Sys2Proof.Machine
end

