-- ==== Sys2Proof/Machine/Serve.lean ====
section
/-! DEFINITION. Serving groups: their start and stop, step reports, step orders, stop and pause orders (R295 to R299, R312 to R314,
R320, R512). -/

namespace Sys2Proof.Machine

open Reg

/-! The group descriptor (R296). -/

def bLe (b : List Byte) (o k : Nat) : Nat := leVal ((b.drop o).take k)
def bZero (b : List Byte) (o k : Nat) : Bool := ((b.drop o).take k).all (· == 0)

def descMembers (b : List Byte) : List Nat := (List.range (bLe b 6 2)).map fun i => bLe b (0x40 + 4 * i) 4
def descMask (b : List Byte) : Word := BitVec.ofNat 32 (bLe b 0x0C 4)

/-- A descriptor of `len` bytes keeps every rule of R296, and this package is a member. -/
def Dev.descOk (d : Dev) (b : List Byte) (len : Nat) : Bool :=
  let m := descMembers b
  decide (0x40 ≤ len) && len == b.length && bLe b 0 4 == 0x47535A4B && decide (bLe b 4 1 < 4) && decide (bLe b 5 1 < 16) &&
    decide (1 ≤ m.length) && decide (m.length ≤ 256) && len == 0x40 + 4 * m.length && decide (bLe b 8 4 < 2 ^ 17) &&
    decide (1 ≤ bLe b 0x24 4) && decide (bLe b 0x24 4 ≤ 65536) && decide (1 ≤ bLe b 0x28 2) && decide (bLe b 0x28 2 ≤ 4096) &&
    bZero b 0x2B 21 && (m.all fun p => decide (p < 2 ^ 17)) && m.head? == some (bLe b 8 4) && m.dedup == m && m.contains d.self

/-! The step-program image (R296). -/

/-- The directory entry of a tile: offset and length of its section, where the entry keeps the rules. -/
def imageEntry (b : List Byte) (n : Fin 32) : Option (Nat × Nat) :=
  match (List.range 32).filter fun i => !bZero b (16 * i) 16 && bLe b (16 * i) 1 == n.val with
  | [i] =>
    let e := (b.drop (16 * i)).take 16
    if bZero e 1 3 ∧ bZero e 12 4 ∧ bLe e 4 4 + bLe e 8 4 ≤ b.length then some (bLe e 4 4, bLe e 8 4) else none
  | _ => none

/-- The items of a section, each after its own length. -/
def sectionItems : Nat → List Byte → Option (List (List Byte))
  | 0, _ => some []
  | k + 1, b =>
    let n := bLe b 0 4
    if b.length < 4 + n ∨ b.length < 4 then none else (sectionItems k (b.drop (4 + n))).map fun l => (b.drop 4).take n :: l

/-- The section of a tile and its five items. -/
def tileSection (b : List Byte) (n : Fin 32) : Option (List Byte × List (List Byte)) :=
  match imageEntry b n with
  | none => none
  | some (off, len) =>
    let s := (b.drop off).take len
    (sectionItems 5 s).map fun l => (s, l)

/-- A half of the schedule keeps R129 as R298 applies it: `hw` is HOME_W at the group's first pass. -/
def halfOk (h : List Byte) (fallback prog hw : Nat) : Bool :=
  let off (st : Nat) : Nat := bLe h (0x10 + 4 * st) 4
  let len (st : Nat) : Nat := bLe h (0x24 + 4 * st) 4
  decide (64 ≤ h.length) && decide (h.length ≤ 0x400000) && bLe h 0 8 == prog && bLe h 8 1 == 1 && bLe h 9 1 == fallback &&
    bLe h 0x0A 1 == hw && bLe h 0x0B 1 == 0 && bZero h 0x38 8 &&
    (List.range 5).all fun st => len st == 0 ||
      (decide (instrAt 0 (off st + len st) ≤ h.length) && iOp (bLe h (instrAt 0 (off st + len st - 1)) 16) == 5)

/-- The basket table (R252). -/
def basketsOf (b : List Byte) : List Basket :=
  (List.range (b.length / 16)).map fun i => ⟨bLe b (16 * i) 2, bLe b (16 * i + 2) 2, bLe b (16 * i + 4) 4, bLe b (16 * i + 8) 2⟩
def basketsOk (b : List Byte) : Bool :=
  let l := basketsOf b
  b.length % 16 == 0 && decide (l.length ≤ 16) &&
    (l.all fun x => decide (1 ≤ x.seats) && decide (x.seats ≤ 64) && decide (x.slot < 64) && decide (1 ≤ x.maxPages) &&
      decide (x.maxPages ≤ 16384)) &&
    ((List.range l.length).all fun i => bZero b (16 * i + 10) 6) && lexSorted (l.map Basket.maxPages)
where
  /-- Ascending. -/
  lexSorted : List Nat → Bool
    | a :: b :: t => decide (a ≤ b) && lexSorted (b :: t)
    | _ => true

/-- Item 4: placement entries, then the 64 intake descriptors. An empty item leaves the router empty. -/
def placeBytes (b : List Byte) : List Byte := b.take (b.length - 1024)
def intakeAt (b : List Byte) (i : Nat) : List Byte := (b.drop (b.length - 1024 + 16 * i)).take 16
def intakeOf (b : List Byte) : Intake :=
  { Intake.reset with
    flags := bLe b 0 1, disp := bLe b 1 1, slot := bLe b 2 1, c := bLe b 3 1, base := bLe b 4 4, slotBytes := bLe b 8 4,
    sbase := bLe b 12 4 }
def routerItemOk (b : List Byte) : Bool :=
  b == [] || (decide (1024 ≤ b.length) && decide (b.length ≤ 1024 + 524288) && b.length % 4 == 0 &&
    ((List.range (b.length / 4 - 256)).all fun e => decide (bLe b (4 * e) 4 < 2 ^ 28)) &&
    (List.range 64).all fun i =>
      let x := intakeOf (intakeAt b i)
      decide (x.flags < 2) && decide (x.slot < 64) && x.base % 512 == 0 && x.slotBytes % 64 == 0)

/-- Item 5: statistics records (R64). -/
def statsOk (b : List Byte) : Bool :=
  b.length % 32 == 0 && decide (b.length ≤ 131072) && (List.range (b.length / 32)).all fun t => decide (bLe b (32 * t + 0x1A) 2 < 64)

/-- HOME_W at a tile's next pass. -/
def Dev.nextHomeW (d : Dev) (n : Fin 32) : Nat := d.latest (TCTL_ROTA_HOME_W n)

/-- The items of a tile keep their rules. -/
def Dev.itemsOk (d : Dev) (n : Fin 32) (prog : Nat) (l : List (List Byte)) : Bool :=
  match l with
  | [a, b, c, r, s] => halfOk a 0 prog (d.nextHomeW n) && halfOk b 1 prog (d.nextHomeW n) && basketsOk c && routerItemOk r && statsOk s
  | _ => false

/-- The image keeps every rule for the tiles of a mask. -/
def Dev.imageOk (d : Dev) (b : List Byte) (len : Nat) (mask : Word) (prog : Nat) : Bool :=
  decide (512 ≤ len) && b.length == len &&
    ((List.range 32).all fun i => bZero b (16 * i) 16 || (decide (bLe b (16 * i) 1 < 32) && mask.getLsbD (bLe b (16 * i) 1))) &&
    (List.finRange 32).all fun n => !mask.getLsbD n || ((tileSection b n).any fun x => d.itemsOk n prog x.2)

/-! Loading a tile (R298). -/

/-- Bytes as a memory from address `a` on. -/
def memOf (a : Nat) (l : List Byte) : Mem := l.zipIdx.filterMap fun x => if x.1 = 0 then none else some (a + x.2, x.1)

/-- The first tensor scale of a tensor that the image does not name: 1.0. -/
def plainRecord : List Byte := leBytes 4 0x3F800000 ++ List.replicate 28 0

/-- The router as a binding leaves it. -/
def routerOf (b : List Byte) : Router :=
  let p := placeBytes b
  if b = [] then Router.reset
  else
    ⟨(List.range (p.length / 4)).filterMap fun e => if bLe p (4 * e) 4 = 0 then none else some (e, bLe p (4 * e) 4),
      Vector.ofFn fun i : Fin 64 => intakeOf (intakeAt b i), [], [], []⟩

/-- Steps 1 and 3 of R298 on a tile. Trip counts of dispatches start at 0 (R284). -/
def Dev.loadTile (d : Dev) (n : Fin 32) (l : List (List Byte)) : Dev :=
  match l with
  | [a, b, _, r, s] =>
    let d : Dev := d.onTile n fun t => { t with
      imem := memOf 0 a ++ memOf 0x400000 b
      router := routerOf r
      seq := Seq.reset
      pages := [], binTab := [], recs := [], lateToks := [], fetches := [], hmpFault := false, voteDue := false, voteReady := false }
    let d := (d.tsZero n (d.getN (QNT_TABLE_BASE n)) 131072).tsWrite n (d.getN (QNT_TABLE_BASE n))
      (s ++ (List.replicate (4096 - s.length / 32) plainRecord).flatten)
    let d := (d.setF (TCTL_PASS_STATUS_PASS_SEQ n) 0).setF (TCTL_PASS_STATUS_STATE n) 0
    let d := (d.setR (QNT_LFSR_STATE n) (d.getR (QNT_LFSR_SEED n))).nullPage n
    (((d.router n).intakes.toList.filter Intake.on).foldl (fun d x => d.setF (TCTL_TRIP_TRIP n (x.slot % 64)) 0) d).routerStat n
  | _ => d

/-! GROUP_START (R297, R298). -/

/-- The slot may be bound under R220. -/
def Dev.bindOk (d : Dev) (slot ctx : Nat) : Bool :=
  let e := d.slotBind slot
  (d.slotState slot == 3 || d.slotState slot == 4) && !d.flag (WTR_SLOT_STATE_DAMAGED slot) &&
    d.getF (WTR_SLOT_STATE_CONTEXT slot) == ctx &&
    (d.maskTiles (d.getR (WTR_SLOT_TILES slot))).all fun n => decide (d.getN (MEM_KV_RESERVED n) ≤ e.getN (MEM_KV_PAGES n))

/-- The tiles of a mask are in service and no other group has one (R295, R297). -/
def Dev.tilesOk (d : Dev) (g : Fin 4) (mask : Word) : Bool :=
  (List.finRange 32).all fun n => !mask.getLsbD n || (d.inService n && !d.lends n && match d.groupOf n with
    | some k => k == g
    | none => true)

/-- A stopped or halted group that a start does not restart becomes IDLE, and its slot is unbound. -/
def Dev.startRefused (d : Dev) (g : Fin 4) (detail : Nat) : Dev :=
  (if d.gstate g = 3 ∨ d.gstate g = 4 then d.groupIdle g else d).mbxFail detail

/-- The group runs with an EPOCH: its tiles carry it, the share is S_MIN, and the command ends DONE (R298, R310). -/
def Dev.startRun (d : Dev) (g : Fin 4) (epoch : Nat) : Dev :=
  let d := d.onTiles g fun d n => d.setF (XPT_CTRL_EPOCH n) epoch
  let d := (d.setF (SRV_GROUP_STATE_STATE g) 2).setF (SRV_GROUP_STATE_EPOCH g) epoch
  let d := d.setF (SRV_GROUP_SHARE_S g) (d.getF (SRV_GROUP_SHARE_S_MIN g))
  let lead := d.isLead g
  let d := d.onGroup g fun x => { x with joins := [], lastOrder := d.now, retryAt := if lead then some d.now else none }
  d.mbxDone

/-- The lead holds a JOIN of every member: it chooses EPOCH, sends the start order and runs (R298). -/
def Dev.tryStart (d : Dev) (g : Fin 4) : Dev :=
  let x := d.group g
  if d.gstate g = 1 ∧ d.isLead g ∧ (d.followers g).all fun p => x.joins.any fun j => j.1 == p then
    let top := (x.joins.filter fun j => (d.followers g).contains j.1).foldl (fun m j => max m j.2) (d.groupEpoch g)
    let epoch := (top + 1) % 65536
    let o : StepOrder := ⟨d.gstep g, epoch, g, 4, d.now, [], [], []⟩
    (d.broadcast (d.followers g) "STEP_ORDER" (orderArgs o)).startRun g epoch
  else d

/-- The checks of R298 that follow the descriptor's: the detail of the first that fails. -/
def Dev.startCheck (d : Dev) (g : Fin 4) (b : List Byte) (image : Option (List Byte)) : Option Nat :=
  if d.gstate g = 1 ∨ d.gstate g = 2 ∨ d.gstate g = 5 then some 0x33
  else if ¬ d.tilesOk g (descMask b) then some 0x36
  else match image with
    | none => some 0x57
    | some i => if d.imageOk i (bLe b 0x20 4) (descMask b) (bLe b 0x10 8) then none else some 0x35

/-- Steps 1 to 5 of R298, every check but the bind having passed. -/
def Dev.startGroup (d : Dev) (g : Fin 4) (b i : List Byte) : Dev :=
  let slot := bLe b 5 1
  let mask := descMask b
  let joins := (d.group g).joins
  let secs : List (Fin 32 × List Byte × List (List Byte)) := ((List.finRange 32).filter fun n : Fin 32 => mask.getLsbD n).filterMap
    fun n => (tileSection i n).map fun x => (n, x)
  let d := secs.foldl (fun d x => d.loadTile x.1 x.2.2) d
  let d : Dev := if d.gstate g = 0 then d else d.groupIdle g
  if ¬ d.bindOk slot (bLe b 0x2A 1) then d.mbxFail 0x31
  else
    let d := d.slotBind slot
    let baskets := match secs with
      | x :: _ => basketsOf (x.2.2.getD 2 [])
      | [] => []
    let streams := Vector.ofFn fun n : Fin 32 => match secs.find? fun x => x.1 == n with
      | some x => Config.kvStreams x.2.1
      | none => 0
    let cfg : GroupCfg := ⟨bLe b 8 4, descMembers b, mask, bLe b 0x2A 1, slot, bLe b 0x24 4, bLe b 0x28 2, bLe b 0x10 8, baskets, streams⟩
    let d := d.onGroup g fun _ => { Group.reset with cfg := some cfg, joins := joins, startAt := d.now }
    let lead := bLe b 8 4 == d.self
    let d := ((d.setF (SRV_GROUP_STATE_STATE g) 1).setF (SRV_GROUP_STATE_LEAD g) (if lead then 1 else 0)).setF (SRV_GROUP_STATE_GEN_FIRST g) 0
    if lead then d.tryStart g else d.emit (.mgmt (bLe b 8 4) "JOIN" [g.val, d.self, d.groupEpoch g])

/-- GROUP_START (R298): `desc` and `image` are what the reads of host memory return, or nothing where a read fails. -/
def execGroupStart (now : Nat) (desc image : Option (List Byte)) (s : State) : Host.Outcome State Fault Refusal :=
  onDevF (mbxIssueDev 0x0201 false fun _ d =>
    let d := d.at_ now
    if ¬ d.paramsZeroFrom 3 then d.mbxFail 0xF1
    else match desc with
      | none => d.mbxFail 0x57
      | some b =>
        if ¬ d.descOk b (d.param 2) then d.mbxFail 0x30
        else
          let g := Fin.ofNat 4 (bLe b 4 1)
          match d.startCheck g b image, image with
          | some 0x33, _ => d.mbxFail 0x33
          | some det, _ => d.startRefused g det
          | none, none => d
          | none, some i => d.startGroup g b i) s

/-- A start fails or is aborted after its group became STARTING (R298). -/
def Dev.startAbandon (d : Dev) (g : Fin 4) : Dev := d.groupIdle g

/-- JOIN (R298): it reaches the lead, which holds it. -/
def execJoin (g : Fin 4) (pkg : BitVec 17) (epoch : BitVec 16) (now : Nat) (s : State) : Host.Outcome State Fault Refusal :=
  onRun (fun d =>
    let d := d.at_ now
    if 2 ≤ d.gstate g ∧ d.gstate g ≠ 3 ∧ d.gstate g ≠ 4 then d
    else
      (d.onGroup g fun x => { x with joins := x.joins.filter (fun j => j.1 != pkg.toNat) ++ [(pkg.toNat, epoch.toNat)] }).tryStart g) s

/-- JOIN_TIMEOUT (R298): 1 s after GROUP_START the group is still STARTING. -/
def execJoinTimeout (g : Fin 4) (now : Nat) (s : State) : Host.Outcome State Fault Refusal :=
  onRun (fun d =>
    let d := d.at_ now
    if d.gstate g = 1 ∧ (d.group g).startAt + 1000000000 ≤ d.now then (d.startAbandon g).mbxFail 0x32 else d) s

/-! GROUP_STOP (R297, R299). -/

/-- The group holds sequences or queued submissions. -/
def Dev.groupHolds (d : Dev) (g : Fin 4) : Bool := d.srv.seqs.any (fun q => q.group == g) || d.srv.adm.any fun e => e.group == g

/-- A GROUP_STOP on a group that holds nothing to wait for. -/
def Dev.stopNow (d : Dev) (g : Fin 4) : Dev :=
  if d.isLead g then d.leadStop g none 7 3 [] else ((d.leaveRunning g 3).groupIdle g).mbxDone

/-- The state that GROUP_STOP finds; `act` is what it does to a RUNNING or PAUSED group. -/
def groupStopBody (now : Nat) (act : Dev → Fin 4 → Dev) (d : Dev) : Dev :=
  let d := d.at_ now
  let g := Fin.ofNat 4 (d.param 0 / 2 ^ 30)
  if d.param 0 % 2 ^ 29 ≠ 0 ∨ ¬ d.paramsZeroFrom 1 then d.mbxFail 0xF1
  else if d.gstate g = 3 ∨ d.gstate g = 4 then (d.groupIdle g).mbxDone
  else if d.gstate g = 2 ∨ d.gstate g = 5 then act d g
  else d.mbxDone

/-- P0 of a command about to be issued carries FORCE. -/
def Dev.wantsForce (d : Dev) : Bool := d.regBit (HUB_MBX_P 0) 29

/-- GROUP_STOP (R299), without FORCE. -/
def execGroupStop (now : Nat) (s : State) : Host.Outcome State Fault Refusal :=
  onDevF (fun f d =>
    if d.wantsForce then d
    else mbxIssueDev 0x0202 false (fun _ d => groupStopBody now (fun d g => if d.groupHolds g then d.mbxFail 0x34 else d.stopNow g) d) f d) s

/-- GROUP_STOP with FORCE (R299): at the next boundary of a group that this package leads and that runs; at once otherwise. -/
def execGroupStopForce (now : Nat) (s : State) : Host.Outcome State Fault Refusal :=
  onDevF (fun f d =>
    if d.wantsForce then
      mbxIssueDev 0x0202 false (fun _ d => groupStopBody now (fun d g => if d.leadsRunning g then d else d.stopNow g) d) f d
    else d) s

/-! Step reports (R284, R313, R382). -/

/-- ceil(demand / C) − 1, at most 255 (R284). -/
def demandPasses (x : Intake) (demand : Nat) : Nat := min 255 ((demand + x.rows - 1) / x.rows - 1)

/-- The d values of a tile, by dispatch. -/
def Dev.tileDvals (d : Dev) (n : Fin 32) : List (Nat × Nat) :=
  ((List.finRange 64).filter fun i => (d.intake n i).on).map fun i =>
    ((d.intake n i).disp, demandPasses (d.intake n i) (d.getN (XPT_INTAKE_DEMAND n i)))

/-- The largest value of each dispatch. -/
def maxByKey (l : List (Nat × Nat)) : List (Nat × Nat) :=
  (l.map Prod.fst).dedup.map fun k => (k, ((l.filter fun x => x.1 == k).map Prod.snd).foldl max 0)

/-- Records of an operation of the mover or the router that ended in an error in the accepted pass (R382). -/
def Dev.errRecs (d : Dev) (part : List Nat) (e : OpErr) : List (Nat × Nat × Nat) :=
  let each (k : Nat) : List (Nat × Nat × Nat) := part.map fun q => (k, q, 0)
  if (e.code = 6 ∨ e.code = 8) ∧ d.pkgLost e.home.pkg then each 9
  else if e.code = 1 ∨ e.code = 2 then each 8
  else if e.code = 3 ∨ e.code = 7 ∨ e.code = 9 then [(11, 0, 0)]
  else [(10, 0, 0)]

/-- Records of a tile (R143, R195, R249, R313, R382). -/
def Dev.tileRecs (d : Dev) (n : Fin 32) (part : List Nat) : List (Nat × Nat × Nat) :=
  let t := d.tile n
  t.recs.map (fun r => (r.1, r.2, 0)) ++
    (t.fetches.filter fun f => d.fetchLate n f).map (fun f => (5, f.seq, 0)) ++
    (t.fetches.filter fun f => [1, 3].contains (d.tsLe n (f.hdr + 0x14C) 1)).map (fun f => (6, f.seq, 0)) ++
    (if t.hmpFault then [(11, 0, 0)] else []) ++
    ((d.delud n).src.errs.filter fun e => e.owner == .mover || e.owner == .helper).flatMap (d.errRecs part)

/-- The bytes of a step report after its header: 256 values and the records. -/
def reportArgs (g : Fin 4) (r : StepRep) : List Nat :=
  [g.val, r.pkg] ++ (List.range 256).map (fun k => ((r.dvals.find? fun x => x.1 == k).map Prod.snd).getD 0) ++
    (r.recs.flatMap fun x => leBytes 1 x.1 ++ leBytes 1 0 ++ leBytes 2 x.2.1 ++ leBytes 4 x.2.2).map BitVec.toNat

/-- STEP_REPORT (R313, R314 step 2): `recs` are the records that tile firmware makes: tokens, NANs, DEFERRED and MISSING rows. -/
def execStepReport (g : Fin 4) (recs : List (Nat × Nat × Nat)) (now : Nat) (s : State) : Host.Outcome State Fault Refusal :=
  onRun (fun d =>
    let d := d.at_ now
    let x := d.group g
    if d.gstate g = 2 ∧ ¬ x.reported ∧ (x.decision.any fun v => v.1 == 0) then
      let tiles := d.groupTiles g
      let r : StepRep := ⟨d.self, maxByKey (tiles.flatMap d.tileDvals), recs ++ tiles.flatMap fun n => d.tileRecs n x.part⟩
      let d := d.onTiles g fun d n => d.onTile n fun t => { t with recs := [] }
      let d := d.onGroup g fun x => { x with report := some r, reported := true }
      if d.isLead g then d else (d.toLead g "STEP_REPORT" (reportArgs g r)).awaitLead g
    else d) s

/-! Step orders (R188, R255, R291, R314 step 11). -/

/-- TOUCH is renewed for every spilled page that a fetch read during the step. -/
def Dev.renewals (d : Dev) (n : Fin 32) : Dev :=
  d.emits (((d.tile n).fetches.filter fun f => f.done && wTier f.home == 4).map fun f =>
    .mgmt (wPkg f.home) "RUN_RENEWAL" [wTile f.home, d.self, wOff f.home / 4096])

/-- The pages of sequences that repeat the step stay in their bins; those of sequences that take part again may be flushed after it. -/
def Dev.setAgain (d : Dev) (n : Fin 32) (l : List Nat) (v : Bool) : Dev :=
  d.onTile n fun t => { t with binTab := t.binTab.map fun b => if l.contains b.seq then { b with again := v } else b }

def ordSeqs (o : StepOrder) (k : Nat) : List Nat := (o.entries.filter fun e => e.kind == k).map OrderEnt.seq

/-- The page actions of a tile (R255). -/
def Dev.pageActions (d : Dev) (n : Fin 32) (o : StepOrder) (opens : List BinOpen) : Dev :=
  let d := ((d.renewals n).tierCommit n).setAgain n (ordSeqs o 3) true
  let d := d.flushPages n
  let d := (ordSeqs o 2).foldl (fun d q => d.tileFreeSeq n q) d
  let d := d.onTile n fun t => { t with binTab := t.binTab.map fun b => { b with fresh := false } }
  let d := (opens.filter fun b => b.tile == n).foldl (fun d b => d.openBin b) d
  ((d.setAgain n (ordSeqs o 0 ++ ordSeqs o 1) false).kvCounts n).binCounts n

/-- The records of a step that is over are dropped. -/
def Dev.stepClear (d : Dev) (n : Fin 32) : Dev :=
  (d.onTile n fun t => { t with hmpFault := false, lateToks := [], recs := [], fetches := t.fetches.filter fun f => !f.done }).setF
    (QNT_STEP_STATUS_PASS n) 0

/-- Tensor scales, fallback flags and the headers of the bins opened now (R67, R73, R237). -/
def Dev.stepScales (d : Dev) (n : Fin 32) (v : Option (Nat × Vote)) : Dev :=
  let d := d.writeFallback n []
  let d : Dev := match v with
    | some (_, v) => d.writeScales n 0 v.amax
    | none => d
  d.freshHeaders n

/-- Step 11 and 12 of R314 on one tile. -/
def Dev.stepTile (d : Dev) (g : Fin 4) (n : Fin 32) (o : StepOrder) (opens : List BinOpen) (fw : List FwWrite) : Dev :=
  let d : Dev := if d.applyFrom g ≤ o.step then d.applyStep n else d
  let d := (d.pageActions n o opens).writeTrips n (d.gcfg g) o
  let d := ((d.stepScales n (d.group g).decision).fwWrites n fw).stepClear n
  (d.saveStep n).releaseSeq n false false

/-- Pages and bins reserved on the tiles (R185, R196, R236). -/
def Dev.reservations (d : Dev) (g : Fin 4) (ledger : List (Fin 32 × Nat × Nat)) : Dev :=
  d.onTiles g fun d n =>
    let r := if d.isLead g then d.ledger g n else ((ledger.find? fun x => x.1 == n).map Prod.snd).getD (0, 0)
    (d.setN (MEM_KV_RESERVED n) r.1).setF (HMP_STATUS_BINS_RESERVED n) r.2

/-- A follower learns from the order what the lead's registers show already. -/
def Dev.followOrder (d : Dev) (g : Fin 4) (o : StepOrder) : Dev :=
  if d.isLead g then d
  else
    let x := d.group g
    let d : Dev := if x.report.isSome then
        d.setPair (WTR_SLOT_USE_LO (d.gcfg g).slot) (WTR_SLOT_USE_HI (d.gcfg g).slot) o.time
      else d
    let d := (d.setN (SRV_GROUP_STEP_NS g) (min 0xFFFFFFFF (d.now - x.lastOrder))).setF (SRV_GROUP_STATE_GEN_FIRST g) (o.flags % 2)
    d.onGroup g fun x => { x with report := none, lastOrder := d.now }

/-- A member runs the step that an order describes (R314 steps 11 and 12). -/
def Dev.runOrder (d : Dev) (g : Fin 4) (o : StepOrder) (ledger : List (Fin 32 × Nat × Nat)) (opens : List BinOpen)
    (fw : List FwWrite) : Dev :=
  let d := (d.applyPending.followOrder g o).setPair (SRV_GROUP_STEP_LO g) (SRV_GROUP_STEP_HI g) (o.step % 2 ^ 48)
  let d := (d.onTiles g fun d n => d.stepTile g n o opens fw).reservations g ledger
  d.onGroup g fun x => { x with
    pass := 0, rerun := false, decision := none, reported := false, part := ordSeqs o 0 ++ ordSeqs o 1, abortAt := none,
    readyTiles := [], readyPkgs := [], votes := [], pkgVote := none, waitFrom := none }

/-- STEP_ORDER (R298, R312, R314): a member receives a start order or the order of a step. `ledger` is what tile firmware has reserved
on a follower, `opens` the bins it opens, `fw` its writes to tile store. -/
def execStepOrder (order : StepOrder) (ledger : List (Fin 32 × Nat × Nat)) (opens : List BinOpen) (fw : List FwWrite) (now : Nat)
    (s : State) : Host.Outcome State Fault Refusal :=
  onRun (fun d =>
    let d := d.at_ now
    if 4 ≤ order.group then d
    else
      let g := Fin.ofNat 4 order.group
      if order.flags.testBit 2 then if d.gstate g = 1 ∧ ¬ d.isLead g then d.startRun g (order.epoch % 65536) else d
      else if d.gstate g = 2 ∧ order.epoch = d.groupEpoch g ∧ ¬ order.flags.testBit 1 ∧ ¬ order.flags.testBit 3 then
        d.runOrder g order ledger opens fw
      else d) s

/-! Stop and pause orders (R320, R512). -/

/-- STOP_ORDER (R320): a follower leaves RUNNING or PAUSED; the lead has done so when it sent the order. -/
def execStopOrder (g : Fin 4) (halt : Bool) (now : Nat) (s : State) : Host.Outcome State Fault Refusal :=
  onRun (fun d =>
    let d := d.at_ now
    if ¬ d.isLead g ∧ (d.gstate g = 2 ∨ d.gstate g = 5) then d.leaveRunning g (if halt then 4 else 3) else d) s

/-- LEAD_TIMEOUT (R320). -/
def execLeadTimeout (g : Fin 4) (now : Nat) (s : State) : Host.Outcome State Fault Refusal :=
  onRun (fun d =>
    let d := d.at_ now
    if ¬ d.isLead g ∧ d.gstate g = 2 ∧
        (d.group g).waitFrom.any fun t => decide (t + max 10 (d.getF (SRV_GROUP_LEAD_TIMEOUT_MS g)) * 1000000 ≤ d.now) then
      (d.leaveRunning g 3).latch egSrv 4
    else d) s

/-- PAUSE_ORDER (R512): a follower applies the END entries and enters PAUSED; the lead has done so when it sent the order. -/
def execPauseOrder (order : StepOrder) (now : Nat) (s : State) : Host.Outcome State Fault Refusal :=
  onRun (fun d =>
    let d := d.at_ now
    if 4 ≤ order.group then d
    else
      let g := Fin.ofNat 4 order.group
      if ¬ d.isLead g ∧ d.gstate g = 2 ∧ order.epoch = d.groupEpoch g then d.enterPaused g (ordSeqs order 2) else d) s

/-- DAMAGE_CLEARED_REPORT (R512): a member's slot has DAMAGED clear; with the last one the lead resumes the group. -/
def execDamageClearedReport (g : Fin 4) (pkg : BitVec 17) (noRoom notReady prompt : List Nat) (now : Nat) (s : State) :
    Host.Outcome State Fault Refusal :=
  onRun (fun d =>
    let d := d.at_ now
    if d.gstate g ≠ 5 ∨ ¬ d.isLead g then d
    else
      let own := !d.flag (WTR_SLOT_STATE_DAMAGED (d.gcfg g).slot)
      let d := d.onGroup g fun x => { x with cleared := x.cleared ++ [pkg.toNat] }
      let x := d.group g
      if x.memberList.all fun p => if p == d.self then own else x.cleared.contains p then
        let d := (d.setF (SRV_GROUP_STATE_STATE g) 2).onGroup g fun x => { x with cleared := [] }
        d.leadBoundary g none false noRoom notReady prompt
      else d) s

end Sys2Proof.Machine
end

