-- ==== Sys2Proof/Machine/Fatal.lean ====
section
/-! DEFINITION. A fatal error and its handling up to the dump (R483, R484), as operations on the package. -/

namespace Sys2Proof.Machine

open Reg

/-- A tile stops issue: its streams, waits and tokens are gone (R484 event 2). -/
def Dev.tilesHalt (d : Dev) : Dev := { d with tiles := d.tiles.map fun t => { t with seq := Seq.reset } }

/-- Every serving group stops with no completion posted, and the running mailbox command stops with no status (R484 event 2). -/
def Dev.serviceHalt (d : Dev) : Dev :=
  let d := (List.range 4).foldl (fun d g =>
    if d.gstate g = 1 ∨ d.gstate g = 2 ∨ d.gstate g = 5 then d.setF (SRV_GROUP_STATE_STATE g) 3 else d) d
  let d : Dev := { d.onSrv fun x => { x with due := [] } with res := { d.res with job := none } }
  if d.mbxBusy then { d.setF HUB_MBX_STATUS_STATUS 0 with mbx := Mailbox.reset } else d

/-- Event 5 of R484: a WARM reset of 100 µs with FATAL_RESET at 1; otherwise the package holds its state. -/
def Dev.fatalEnd (d : Dev) : Dev :=
  if d.flag HUB_DUMP_CTRL_FATAL_RESET then d.warmReset 4 false else d.setF HUB_DUMP_STATUS_ACTIVE 0

/-- A fatal error (R483, R484): the first is latched and logged, the package halts and the dump engine starts; with T0 out of
service nothing is dumped. Any further one is ignored until the next reset. -/
def Dev.fatalRaise (d : Dev) (cause arg : Nat) : Dev :=
  if d.pw.phase ≠ .main ∨ d.rst.fatal.isSome ∨ d.rst.warm.isSome then d
  else
    let f : Fatal := ⟨d.now, d.getN HUB_TILE_INSERVICE, d.getN HUB_LOG_HEAD⟩
    let d := (d.setN HUB_FATAL_INFO (cause * 2 ^ 24 + arg % 2 ^ 24)).logHub 0x0002 cause (arg % 2 ^ 24)
    let d : Dev := { d.tilesHalt.serviceHalt.emit .transmittersOff with rst := { d.rst with fatal := some f } }
    if d.inService 0 then d.setF HUB_DUMP_STATUS_ACTIVE 1 else d.fatalEnd

/-- The last tile has left service after BOOT_DONE (R483). -/
def Dev.noTile (d : Dev) : Dev := if d.bootDone ∧ d.getN HUB_TILE_INSERVICE = 0 then d.fatalRaise 0x07 0 else d

end Sys2Proof.Machine
end

