-- ==== Sys2Proof/Machine/Links.lean ====
section
/-! DEFINITION. The optical links: bring-up, frames, failures, ports, reachability and bit-error tests (R325 to R358). -/

namespace Sys2Proof.Machine

open Reg

/-! Frames (R329). -/

def vcNum : Vc → Nat
  | .req => 0
  | .resp => 1
  | .bulk => 2
  | .mgmt => 3

def vcOf (n : Nat) : Vc :=
  match n % 4 with
  | 0 => .req
  | 1 => .resp
  | 2 => .bulk
  | _ => .mgmt

/-- Header bytes 0x00 to 0x0B. -/
def frameHead (f : Frame) : List Byte :=
  leBytes 2 (f.seq % 4096 + vcNum f.vc * 4096 + (if f.idle then 2 ^ 14 else 0) + (if f.ctrl then 2 ^ 15 else 0)) ++
  leBytes 2 (f.ack % 4096 + (if f.nak then 4096 else 0)) ++ leBytes 2 f.payload.length ++ leBytes 1 (vcNum f.credVc) ++
  leBytes 1 f.credit ++ leBytes 4 0

/-- The 256 payload bytes. -/
def framePayload (f : Frame) : List Byte := (f.payload ++ List.replicate (256 - f.payload.length) 0).take 256

def frameCrc (f : Frame) : Word := BitVec.ofNat 32 (crc32c (frameHead f ++ framePayload f))

def withCrc (f : Frame) : Frame := { f with crc := frameCrc f }

/-- A control frame with a payload (R332). -/
def ctrlFrame (payload : List Byte) : Frame := withCrc ⟨0, .req, false, true, 0, false, .req, 0, payload, 0⟩

def Dev.sendCtrl (d : Dev) (j : Fin 64) (payload : List Byte) : Dev := d.emit (.frame j (ctrlFrame payload))

/-- This package's IDENTITY frame on link `j` (R332, R345). -/
def Dev.sendIdentity (d : Dev) (j : Fin 64) : Dev :=
  d.sendCtrl j (leBytes 4 1 ++ leBytes 4 d.self ++ leBytes 1 j ++ leBytes 1 0 ++ leBytes 2 (d.getF FAB_CTRL_SLICE))

def Dev.sendQualResult (d : Dev) (j : Fin 64) (pass : Bool) : Dev := d.sendCtrl j (leBytes 4 2 ++ leBytes 1 (if pass then 1 else 0))
def Dev.sendTestReq (d : Dev) (j : Fin 64) (ms pattern : Nat) : Dev := d.sendCtrl j (leBytes 4 3 ++ leBytes 4 ms ++ leBytes 1 pattern)
def Dev.sendTestAck (d : Dev) (j : Fin 64) (ok : Bool) : Dev := d.sendCtrl j (leBytes 4 4 ++ leBytes 1 (if ok then 1 else 0))
def Dev.sendTestEnd (d : Dev) (j : Fin 64) : Dev := d.sendCtrl j (leBytes 4 5)

/-! Bring-up (R333 to R335). -/

/-- A link starts training: it exchanges IDENTITY with the far end. -/
def Dev.linkTrain (d : Dev) (j : Fin 64) : Dev :=
  ((d.onLink j fun _ => Link.reset).setLinkState j 2).sendIdentity j

/-- Signal is present on all eight wavelengths. -/
def Dev.fullSignal (d : Dev) (j : Fin 64) : Bool := d.getF (OEC_LINK_STATUS_SIGNAL (j / 8) (j % 8)) == 0xFF

/-- LINK_SIGNAL_DETECT (R334). -/
def execLinkSignalDetect (j : Fin 64) (s : State) : Host.Outcome State Fault Refusal :=
  onRun (fun d =>
    let d := d.setF (OEC_LINK_STATUS_SIGNAL (j / 8) (j % 8)) 0xFF
    if d.linkState j = 1 then d.linkTrain j else d) s

/-- A link enters MISWIRED (R335). -/
def Dev.linkMiswired (d : Dev) (j : Fin 64) : Dev := (d.setLinkState j 7).latch (egOec (j / 8)) 2

/-- The neighbour that link `j` reported. -/
def Dev.peerId (d : Dev) (j : Fin 64) : Nat := d.getN (OEC_LINK_PEER (j / 8) (j % 8))
def Dev.peerSlice (d : Dev) (j : Fin 64) : Nat := d.getF (OEC_LINK_PEER_INFO_SLICE (j / 8) (j % 8))

/-- The link's port is a PEER port whose neighbour must report this package's slice (R335, R345). -/
def Dev.wrongSlice (d : Dev) (j : Fin 64) : Bool :=
  match d.portOf j with
  | some p => d.portPeer p && d.peerSlice j != d.getF FAB_CTRL_SLICE
  | none => false

/-- IDENTITY (R332, R334): the neighbour is recorded and a link in training goes on to qualification; after a test that the
far end asked for, the link is ready again (notes/assumptions/34.md). -/
def execIdentity (j : Fin 64) (id : Word) (idx : Nat) (slice : BitVec 16) (s : State) : Host.Outcome State Fault Refusal :=
  onRun (fun d =>
    let d := ((d.setR (OEC_LINK_PEER (j / 8) (j % 8)) id).setF (OEC_LINK_PEER_INFO_SLICE (j / 8) (j % 8)) slice.toNat).setF
      (OEC_LINK_PEER_INFO_LINK (j / 8) (j % 8)) idx
    if d.linkState j = 2 then
      if d.wrongSlice j then d.linkMiswired j else d.setLinkState j 3
    else if d.linkState j = 3 ∧ (d.link j).afterFar then
      (d.onLink j fun l => { l with afterFar := false }).setLinkState j 4
    else d) s

/-- The criterion of R334 on every wavelength: errors × 2^17 ≤ bits tested. -/
def berPass (errs : List Nat) (bits : Nat) : Bool := (List.range 8).all fun w => decide (errs.getD w 0 * 2 ^ 17 ≤ bits)

/-- The BERT registers of a link take the counts and the result of a test: KIND and RESULT of R360. -/
def Dev.bertResult (d : Dev) (j : Fin 64) (errs : List Nat) (bits kind result : Nat) : Dev :=
  let k := j.val / 8
  let i := j.val % 8
  let d := (List.range 8).foldl (fun d w => d.setN (OEC_LINK_BERT_ERR k i w) (min (errs.getD w 0) 0xFFFFFFFF)) d
  ((d.setPair (OEC_LINK_BERT_BITS_LO k i) (OEC_LINK_BERT_BITS_HI k i) bits).setF (OEC_LINK_BERT_INFO_KIND k i) kind).setF
    (OEC_LINK_BERT_INFO_RESULT k i) result

/-- A test that ends without counts leaves a result only. -/
def Dev.bertMark (d : Dev) (j : Fin 64) (kind result : Nat) : Dev :=
  (d.setF (OEC_LINK_BERT_INFO_KIND (j / 8) (j % 8)) kind).setF (OEC_LINK_BERT_INFO_RESULT (j / 8) (j % 8)) result

/-- Both ends' results are known: READY when both passed, else DOWN with cause QUAL_FAIL (R334). -/
def Dev.qualJudge (d : Dev) (j : Fin 64) : Dev :=
  match (d.link j).qualOwn, (d.link j).qualFar with
  | some a, some b =>
    let d : Dev := d.onLink j fun _ => { Link.reset with goodAt := d.now, ackAt := d.now }
    if a && b then d.setLinkState j 4 else d.linkLeave j 1 6
  | _, _ => d

/-- QUALIFY_END (R334), with the errors counted on each wavelength and the bits tested. -/
def execQualifyEnd (j : Fin 64) (errs : List Nat) (bits : Nat) (s : State) : Host.Outcome State Fault Refusal :=
  onRun (fun d =>
    if d.linkState j ≠ 3 then d
    else
      let p := berPass errs bits
      let d := d.bertResult j errs bits 1 (if p then 0 else 1)
      ((d.onLink j fun l => { l with qualOwn := some p }).sendQualResult j p).qualJudge j) s

/-- QUAL_RESULT (R332, R334): the far end's result. -/
def execQualResult (j : Fin 64) (pass : Bool) (s : State) : Host.Outcome State Fault Refusal :=
  onRun (fun d =>
    if d.linkState j ≠ 3 then d
    else (d.onLink j fun l => { l with qualFar := some pass }).qualJudge j) s

/-- QUAL_RETRY_TIMER (R334): 1 s after a qualification failure, a link that still has signal starts training. -/
def execQualRetryTimer (j : Fin 64) (s : State) : Host.Outcome State Fault Refusal :=
  onRun (fun d =>
    if d.linkState j = 1 ∧ d.getF (OEC_LINK_STATUS_CAUSE (j / 8) (j % 8)) = 6 ∧ d.fullSignal j then d.linkTrain j else d) s

/-- The neighbour of a link is the one its port requires (R335). -/
def Dev.neighbourOk (d : Dev) (p : Nat) (j : Fin 64) : Bool :=
  if d.portPeer p then d.peerId j == d.getF (FAB_PORT_CFG_PEER p) && d.peerSlice j == d.getF FAB_CTRL_SLICE
  else
    let others := (List.finRange 64).filter fun i => i != j && d.portHas p i
    match (others.filter fun i => d.linkState i = 5) ++ (others.filter fun i => d.linkState i = 4 ∨ d.linkState i = 6) with
    | i :: _ => d.peerId j == d.peerId i
    | [] => decide (2 ^ 31 ≤ d.peerId j)

/-- A READY link joins its enabled port, or enters MISWIRED (R335). -/
def Dev.linkJoin (d : Dev) (j : Fin 64) : Dev :=
  match d.portOf j with
  | none => d
  | some p =>
    if d.linkState j = 4 ∧ d.flag FAB_CTRL_AUTO_JOIN ∧ d.portEn p then
      if d.neighbourOk p j then
        ((((d.onLink j fun l => { l with goodAt := d.now, ackAt := d.now }).setLinkState j 5).setN (FAB_PORT_NEIGHBOUR p)
          (d.peerId j))).linkChanged j
      else d.linkMiswired j
    else d

/-- LINK_JOIN (R335). -/
def execLinkJoin (j : Fin 64) (now : Nat) (s : State) : Host.Outcome State Fault Refusal :=
  onRun (fun d => (d.at_ now).linkJoin j) s

/-! Going down (R349, R350). -/

/-- LINK_DOWN (R350): an ACTIVE link leaves ACTIVE for DOWN with a cause of R349. -/
def execLinkDown (j : Fin 64) (cause : Fin 10) (now : Nat) (s : State) : Host.Outcome State Fault Refusal :=
  onRun (fun d => if d.linkState j = 5 then (d.at_ now).linkLeave j 1 cause else d) s

/-- A link that carries frames, READY or ACTIVE. -/
def Dev.linkUp (d : Dev) (j : Fin 64) : Bool := d.linkState j == 4 || d.linkState j == 5

/-- LINK_LOS (R334, R336, R349): the wavelengths received in limits, not all eight. A link in TEST stays in TEST (R353). -/
def execLinkLos (j : Fin 64) (signal : BitVec 8) (now : Nat) (s : State) : Host.Outcome State Fault Refusal :=
  onRun (fun d =>
    let d := (d.at_ now).setF (OEC_LINK_STATUS_SIGNAL (j / 8) (j % 8)) signal.toNat
    if signal = 0xFF then d
    else if 2 ≤ d.linkState j ∧ d.linkState j ≠ 6 then d.linkLeave j 1 1
    else d) s

/-- LINK_SILENT_TIMEOUT (R349): no frame with a correct CRC for 2 µs. -/
def execLinkSilentTimeout (j : Fin 64) (now : Nat) (s : State) : Host.Outcome State Fault Refusal :=
  onRun (fun d =>
    let d := d.at_ now
    if d.linkUp j ∧ (d.link j).goodAt + 2000 ≤ d.now then d.linkLeave j 1 4 else d) s

/-- FEC_FAILURE (R349): the codewords corrected and found uncorrectable are counted; 8 uncorrectable ones take the link
down. -/
def execFecFailure (j : Fin 64) (corr uncorr : Nat) (now : Nat) (s : State) : Host.Outcome State Fault Refusal :=
  onRun (fun d =>
    let d := ((d.at_ now).satAdd (OEC_LINK_FEC_CORR (j / 8) (j % 8)) corr).satAdd (OEC_LINK_FEC_UNCORR (j / 8) (j % 8)) uncorr
    if d.linkUp j ∧ 8 ≤ uncorr then d.linkLeave j 1 2 else d) s

/-- A link under LINK_BERT that leaves TEST for another reason ends its test STOPPED (notes/assumptions/36.md). -/
def Dev.testCut (d : Dev) (j : Fin 64) : Dev :=
  match (d.link j).test with
  | some t =>
    let d : Dev := if t.byFar then d else d.bertMark j t.kind 3
    d.onLink j fun l => { l with test := none, ackDue := false }
  | none => d

/-- Every link of LINK_BERT has its result: the command ends (R354). -/
def Dev.bertCheck (d : Dev) : Dev :=
  match d.mbx.run with
  | some r =>
    if r.code = 0x0301 ∧ !d.fab.bertWait ∧ (d.fab.links.toList.all fun l =>
        match l.test with
        | some t => t.kind != 2 || t.byFar
        | none => true) then d.mbxFinish else d
  | none => d

/-- The four links of a laser-supply fibre (R327). -/
def fibreLinks (k : Fin 8) (fibre : Fin 2) : List (Fin 64) :=
  (List.range 4).map fun i => Fin.ofNat 64 (8 * k.val + 4 * fibre.val + i)

def laserOk (k : Nat) (fibre : Fin 2) : Fld := if fibre = 0 then OEC_STATUS_LASER0_OK k else OEC_STATUS_LASER1_OK k

/-- LASER_LOSS (R328). -/
def execLaserLoss (k : Fin 8) (fibre : Fin 2) (now : Nat) (s : State) : Host.Outcome State Fault Refusal :=
  onRun (fun d =>
    let d := ((d.at_ now).setF (laserOk k fibre) 0).latch (egOec k) 1
    ((fibreLinks k fibre).foldl (fun d j =>
      if d.linkState j = 0 then d
      else if d.linkState j = 1 then d.setF (OEC_LINK_STATUS_CAUSE (j / 8) (j % 8)) 5
      else (d.testCut j).linkLeave j 1 5) d).bertCheck) s

/-- LASER_RESTORE (R328): a DOWN link that has signal starts training at once, another when it detects signal. -/
def execLaserRestore (k : Fin 8) (fibre : Fin 2) (s : State) : Host.Outcome State Fault Refusal :=
  onRun (fun d =>
    let d := d.setF (laserOk k fibre) 1
    (fibreLinks k fibre).foldl (fun d j => if d.linkState j = 1 ∧ d.fullSignal j then d.linkTrain j else d) d) s

/-- LINK_DISABLE (R333, R349). -/
def execLinkDisable (m : Master) (j : Fin 64) (now : Nat) (s : State) : Host.Outcome State Fault Refusal :=
  onRun (fun d =>
    let o := OEC_LINK_CTRL (j / 8) (j % 8)
    if ¬ d.privileged m then d.deny o
    else
      let d := (d.at_ now).setF (OEC_LINK_CTRL_DISABLE (j / 8) (j % 8)) 1
      if d.linkState j = 0 then d else ((d.testCut j).linkLeave j 0 7).bertCheck) s

/-- LINK_ENABLE (R333). A denied write carries the value 0, which R455 does not count. -/
def execLinkEnable (m : Master) (j : Fin 64) (s : State) : Host.Outcome State Fault Refusal :=
  onRun (fun d =>
    if ¬ d.privileged m then d
    else
      let d := d.setF (OEC_LINK_CTRL_DISABLE (j / 8) (j % 8)) 0
      if d.linkState j = 0 then d.setLinkState j 1 else d) s

/-! Receiving frames (R330, R331, R344, R345). -/

/-- Acknowledged frames leave the transmitter. -/
def ackFrames (ack : Nat) (l : List Frame) : List Frame :=
  if l.any fun f => f.seq == ack then (l.dropWhile fun f => f.seq != ack).drop 1 else l

def Dev.linkAck (d : Dev) (j : Fin 64) (ack : Nat) : Dev :=
  d.onLink j fun l =>
    let u := ackFrames ack l.unacked
    { l with unacked := u, resend := l.resend.filter (fun f => u.any fun g => g.seq == f.seq)
             ackAt := if u.length < l.unacked.length then d.now else l.ackAt }

/-- The transmitter resends every unacknowledged frame; more than 16 resends within 1 ms take the link down (R330, R349). -/
def Dev.linkResend (d : Dev) (j : Fin 64) : Dev :=
  let recent := (d.link j).resends.filter (fun t => d.now < t + 1000000) ++ [d.now]
  let d : Dev := d.onLink j fun l => { l with resend := l.unacked, resends := recent, ackAt := d.now }
  let d := (d.satInc (OEC_LINK_REPLAY (j / 8) (j % 8))).count .hub 0x0B 1
  if 16 < recent.length then d.linkLeave j 1 3 else d

/-- The message's age exceeds LIFETIME where both ends are synchronised (R344). -/
def Dev.expired (d : Dev) (m : Dmsg) : Bool := m.flags.testBit 3 && d.synced && decide (m.stamp + d.lifetimeUs * 1000 < d.now)

/-- A reachability notice or a time beacon from a switch (R340, R345, R387). -/
def Dev.fromSwitch (d : Dev) (j : Fin 64) (m : Dmsg) : Bool :=
  decide (2 ^ 31 ≤ d.peerId j) && m.op == 7 && (m.data.headD 0 == 1 || m.data.headD 0 == 2 || m.data.headD 0 == 3)

/-- A whole message has arrived on a link: the age test, the slice test, and its way to its endpoint over the seams. -/
def Dev.linkAccept (d : Dev) (j : Fin 64) (vc : Vc) (m : Dmsg) : Dev :=
  let e := d.entryOf m.src.pkg
  if d.expired m then (d.satInc FAB_EXPIRED_COUNT).latch egFab 4
  else if ¬ d.fromSwitch j m ∧ (¬ d.entValid e ∨ d.entLost e) then (d.satInc FAB_SLICE_DROP_COUNT).latch egFab 5
  else d.netSend (.oe (Fin.ofNat 8 (j.val / 8))) (if m.op = 7 then .hub else nodeEndpt m.dst) vc m j

/-- An accepted frame's payload joins the message of its VC. -/
def Dev.linkTake (d : Dev) (j : Fin 64) (f : Frame) : Dev :=
  let b := (d.link j).rx[vcIdx f.vc] ++ f.payload.take 256
  match msgOfBytes b with
  | some m => (d.onLink j fun l => { l with rx := l.rx.set (vcIdx f.vc) [] }).linkAccept j f.vc m
  | none => d.onLink j fun l => { l with rx := l.rx.set (vcIdx f.vc) b }

/-- FRAME_RECEIVE (R330). A control frame's content is a command of its own. -/
def execFrameReceive (j : Fin 64) (f : Frame) (now : Nat) (s : State) : Host.Outcome State Fault Refusal :=
  onRun (fun d =>
    let d := d.at_ now
    if ¬ d.linkUp j then d
    else if f.crc ≠ frameCrc f then d.onLink j fun l => { l with nakDue := true }
    else
      let d : Dev := d.onLink j fun l => { l with goodAt := d.now }
      if f.ctrl then d
      else
        let d := d.linkAck j f.ack
        let d : Dev := d.onLink j fun l =>
          { l with credit := l.credit.set (vcIdx f.credVc) (l.credit[vcIdx f.credVc] + f.credit) }
        let d : Dev :=
          if f.idle then d
          else if f.seq = ((d.link j).rxSeq + 1) % 4096 then
            let d : Dev := d.onLink j fun l =>
              { l with rxSeq := f.seq, owed := l.owed.set (vcIdx f.vc) (l.owed[vcIdx f.vc] + 1) }
            (d.count .hub 0x0A 1).linkTake j f
          else d.onLink j fun l => { l with nakDue := true }
        if f.nak then d.linkResend j else d) s

/-- NAK_RECEIVE (R330). -/
def execNakReceive (j : Fin 64) (ack : Nat) (now : Nat) (s : State) : Host.Outcome State Fault Refusal :=
  onRun (fun d => if d.linkUp j then ((d.at_ now).linkAck j ack).linkResend j else d) s

/-- REPLAY_TIMEOUT (R330): 5 µs without ACK progress while frames are unacknowledged. -/
def execReplayTimeout (j : Fin 64) (now : Nat) (s : State) : Host.Outcome State Fault Refusal :=
  onRun (fun d =>
    let d := d.at_ now
    if d.linkUp j ∧ (d.link j).unacked ≠ [] ∧ (d.link j).ackAt + 5000 ≤ d.now then d.linkResend j else d) s

/-! Transmitting frames (R329 to R331, R347). -/

/-- The acknowledgement, NAK and credit of the next frame. -/
def fillHead (l : Link) (f : Frame) : Frame :=
  let c := (List.finRange 4).find? fun i => 0 < l.owed[i]
  withCrc { f with ack := l.rxSeq, nak := l.nakDue, credVc := vcOf ((c.map Fin.val).getD 0)
                   credit := match c with
                     | some i => min 255 l.owed[i]
                     | none => 0 }

/-- The NAK and the credit have been sent. -/
def afterHead (l : Link) (f : Frame) : Link :=
  { l with nakDue := false, owed := l.owed.set (vcIdx f.credVc) (l.owed[vcIdx f.credVc] - f.credit)
           recent := (!f.idle && vcNum f.vc == 3) :: l.recent.take 7 }

/-- VC `v` has a frame waiting and a credit, and the window has room. -/
def vcReady (l : Link) (v : Fin 4) : Bool := !l.txq[v].isEmpty && decide (0 < l.credit[v]) && decide (l.unacked.length < 2048)

/-- The round robin of request, request, response, response, bulk from place `at_`: the VC and the next place. -/
def wrrPick (l : Link) (at_ : Nat) : Option (Fin 4 × Nat) :=
  ((List.range 5).map fun i => (at_ + i) % 5).findSome? fun p =>
    let v : Fin 4 := if p < 2 then 0 else if p < 4 then 1 else 2
    if vcReady l v then some (v, (p + 1) % 5) else none

/-- The VC whose frame goes next, and the next place of the round robin; none for an idle frame (R347). -/
def nextVc (l : Link) : Option (Fin 4 × Nat) :=
  if vcReady l 3 && !(l.recent.take 8).any id then some (3, l.wrr)
  else
    match wrrPick l l.wrr with
    | some x => some x
    | none => if vcReady l 3 then some (3, l.wrr) else none

/-- FRAME_TRANSMIT (R347). -/
def execFrameTransmit (j : Fin 64) (now : Nat) (s : State) : Host.Outcome State Fault Refusal :=
  onRun (fun d =>
    let d := d.at_ now
    let l := d.link j
    if ¬ d.linkUp j then d
    else
      match l.resend with
      | r :: rest =>
        let f := fillHead l r
        ((d.onLink j fun l => { afterHead l f with resend := rest }).emit (.frame j f)).count .hub 0x09 1
      | [] =>
        match if d.linkState j = 5 then nextVc l else none with
        | none =>
          let f := fillHead l ⟨0, .req, true, false, 0, false, .req, 0, [], 0⟩
          (d.onLink j fun l => afterHead l f).emit (.frame j f)
        | some (v, w) =>
          match l.txq[v] with
          | [] => d
          | t :: q =>
            let bytes := msgBytes t.msg
            let part := (bytes.drop t.sent).take 256
            let f := fillHead l ⟨l.txSeq, vcOf v, false, false, 0, false, .req, 0, part, 0⟩
            let rest := if t.sent + 256 < bytes.length then { t with sent := t.sent + 256 } :: q else q
            let d : Dev := d.onLink j fun l =>
              { afterHead l f with
                txSeq := (l.txSeq + 1) % 4096, unacked := l.unacked ++ [f], wrr := w
                credit := l.credit.set v (l.credit[v] - 1), txq := l.txq.set v rest
                ackAt := if l.unacked.isEmpty then d.now else l.ackAt }
            (d.emit (.frame j f)).count .hub 0x09 1) s

/-! Reachability, fences and routing tables (R341 to R344). -/

/-- REACHABILITY_NOTICE (R343): scope `stage`, target and KIND as the notice carries them. -/
def execReachabilityNotice (port : Fin 16) (unreach stage : Bool) (target : Nat) (now : Nat) (s : State) :
    Host.Outcome State Fault Refusal :=
  onRun (fun d =>
    let d := d.at_ now
    if d.portPeer port then d
    else if stage then (d.setBit (FAB_RROUTE1 (stageOf target)) port unreach).fenceUpdate
    else if d.sameStage target then (d.setBit (FAB_LROUTE1 (memberOf target)) port unreach).fenceUpdate
    else d) s

/-- Messages held by a fence leave, in order. -/
def Dev.relaunch (d : Dev) (l : List (Vc × Dmsg)) : Dev :=
  l.foldl (fun d x =>
    match d.fabLaunch x.1 x.2 with
    | some e => e
    | none => d.answerUnreach x.2) d

/-- The fence's hold is over: its time, and the frames of an old PEER link. -/
def Dev.fenceOver (d : Dev) (f : Fence) : Bool :=
  decide (f.until_ ≤ d.now) &&
    match f.peer with
    | some j =>
      let j := Fin.ofNat 64 j
      d.linkState j != 5 || ((d.link j).unacked.isEmpty && (d.link j).txq.toList.all List.isEmpty)
    | none => true

/-- FENCE_END (R344). -/
def execFenceEnd (src : Node) (dst : Nat) (now : Nat) (s : State) : Host.Outcome State Fault Refusal :=
  onRun (fun d =>
    let d := d.at_ now
    match d.fenceOf src dst with
    | none => d
    | some f =>
      if d.fenceOver f then
        let d : Dev := { d with fab := { d.fab with fences := d.fab.fences.filter fun g => ¬ (g.src = src ∧ g.dst = dst) } }
        d.relaunch f.held
      else d) s

/-- ROUTE_ENTRY_WRITE (R341, R351): word 0 of an entry; any write clears LOST. -/
def execRouteEntryWrite (m : Master) (e : RouteEnt) (v : Word) (now : Nat) (s : State) : Host.Outcome State Fault Refusal :=
  onRun (fun d =>
    if ¬ d.privileged m then (if v = 0 then d else d.deny (entW0 e))
    else (((d.at_ now).setR (entW0 e) (v &&& 0x8000FFFF)).setBit (entW1 e) 31 false).fenceUpdate) s

/-! Ports (R337, R338). -/

/-- PORT_ENABLE (R338). -/
def execPortEnable (m : Master) (port : Fin 16) (now : Nat) (s : State) : Host.Outcome State Fault Refusal :=
  onRun (fun d =>
    if ¬ d.privileged m then d.deny (FAB_PORT_CFG port)
    else
      let d := ((d.at_ now).setF (FAB_PORT_CFG_EN port) 1).portRefresh port
      (List.finRange 64).foldl (fun d (j : Fin 64) => if d.portHas port j then d.linkJoin j else d) d.fenceUpdate) s

/-- PORT_DISABLE (R338). -/
def execPortDisable (m : Master) (port : Fin 16) (now : Nat) (s : State) : Host.Outcome State Fault Refusal :=
  onRun (fun d =>
    if ¬ d.privileged m ∨ ¬ d.portEn port then d
    else
      ((((d.at_ now).setF (FAB_PORT_CFG_EN port) 0).setF (FAB_PORT_STATUS_STATE port) 3).setBit FAB_PORT_ACTIVE port
        false).fenceUpdate) s

/-- PORT_DRAIN_DONE (R338). -/
def execPortDrainDone (port : Fin 16) (now : Nat) (s : State) : Host.Outcome State Fault Refusal :=
  onRun (fun d =>
    let d := d.at_ now
    if d.getF (FAB_PORT_STATUS_STATE port) = 3 ∧ d.portDrained port then
      (d.activeLinks port).foldl (fun d j => d.linkLeave j 4 0) (d.setF (FAB_PORT_STATUS_STATE port) 0)
    else d) s

/-- PORT_LINKS_WRITE (R337, R338): one half of a port's links; discarded while EN is 1, and with an event-log entry when a
link would lie in two ports. -/
def execPortLinksWrite (m : Master) (port : Fin 16) (hi : Bool) (v : Word) (s : State) : Host.Outcome State Fault Refusal :=
  onRun (fun d =>
    let o := if hi then FAB_PORT_LINKS_HI port else FAB_PORT_LINKS_LO port
    let base := if hi then 32 else 0
    if ¬ d.privileged m then (if v = 0 then d else d.deny o)
    else if d.portEn port then d
    else
      match (List.range 32).find? fun b => v.getLsbD b && ((List.range 16).any fun q => q != port.val && d.portHas q (base + b)) with
      | some b => d.logHub 0x0008 port (base + b)
      | none => d.setR o v) s

/-! Bit-error tests (R353 to R356). -/

/-- A link leaves its port and enters TEST. -/
def Dev.testStart (d : Dev) (j : Fin 64) (t : LinkTest) : Dev :=
  let d := d.linkLeave j 6 0
  d.onLink j fun _ => { Link.reset with test := some t, ackDue := !t.byFar }

/-- A link requalifies (R334, R354). -/
def Dev.requalify (d : Dev) (j : Fin 64) : Dev := (d.onLink j fun _ => Link.reset).setLinkState j 3

/-- A link rejoins its port without qualification (R355): it exchanges IDENTITY. -/
def Dev.testRejoin (d : Dev) (j : Fin 64) : Dev :=
  ((d.onLink j fun _ => { Link.reset with goodAt := d.now, ackAt := d.now }).setLinkState j 4).sendIdentity j

/-- A periodic test runs on engine `k`. -/
def Dev.periodicLink (d : Dev) (k : Nat) : Option (Fin 64) :=
  (List.finRange 64).find? fun j => j.val / 8 == k &&
    match (d.link j).test with
    | some t => t.kind == 3 && !t.byFar
    | none => false

/-- The links that LINK_BERT names: P0 and P1. -/
def Dev.bertMask (d : Dev) (j : Fin 64) : Bool := (d.param 0 + d.param 1 * 2 ^ 32).testBit j

/-- LINK_BERT starts its tests on every engine once no periodic test runs there (R354, R356). -/
def Dev.bertGo (d : Dev) : Dev :=
  if d.fab.bertWait ∧ ((List.range 8).all fun k =>
      ((List.finRange 64).all fun j => j.val / 8 != k || !d.bertMask j) || (d.periodicLink k).isNone) then
    let d : Dev := { d with fab := { d.fab with bertWait := false } }
    ((List.finRange 64).foldl (fun d j =>
      if d.bertMask j ∧ d.linkState j ≠ 0 ∧ d.linkState j ≠ 7 then
        (d.testStart j ⟨2, false, d.param 2, d.param 3 == 1, d.now⟩).sendTestReq j (d.param 2) (d.param 3 % 2)
      else d) d).bertCheck
  else d

/-- LINK_BERT (R354). -/
def execLinkBert (now : Nat) (s : State) : Host.Outcome State Fault Refusal :=
  onDevF (mbxIssueDev 0x0301 false fun _ d =>
    let d := d.at_ now
    if d.param 2 = 0 ∨ 3600000 < d.param 2 then d.mbxFail 0x41
    else if 1 < d.param 3 ∨ ¬ d.paramsZeroFrom 4 then d.mbxFail 0xF1
    else if (List.finRange 64).any fun j => d.bertMask j && (d.linkState j == 0 || d.linkState j == 7) then d.mbxFail 0x40
    else { d with fab := { d.fab with bertWait := true } }.bertGo) s

/-- LINK_BERT stops (R354): each link's result reads STOPPED and the links requalify. -/
def Dev.bertAbort (d : Dev) : Dev :=
  let d : Dev := { d with fab := { d.fab with bertWait := false } }
  (List.finRange 64).foldl (fun d j =>
    match (d.link j).test with
    | some t => if t.kind = 2 ∧ !t.byFar then ((d.bertMark j 2 3).sendTestEnd j).requalify j else d
    | none => d) d

/-- TEST_REQ (R353): the far end asks for a test; a link that carries frames accepts (notes/assumptions/34.md). -/
def execTestReq (j : Fin 64) (ms : Nat) (pattern : Bool) (now : Nat) (s : State) : Host.Outcome State Fault Refusal :=
  onRun (fun d =>
    let d := d.at_ now
    if d.linkUp j then (d.testStart j ⟨2, true, ms, pattern, d.now⟩).sendTestAck j true
    else d.sendTestAck j false) s

/-- The periodic test of link `j` has ended: the next one is of the next link (R355). -/
def Dev.periodicNext (d : Dev) (j : Fin 64) : Dev := d.setF (OEC_STATUS_PBERT_NEXT (j / 8)) ((j.val + 1) % 8)

/-- A test of link `j` ends with no counts and result `result` (R353): LINK_BERT's links requalify, a periodic test's link
rejoins. -/
def Dev.testEmpty (d : Dev) (j : Fin 64) (result : Nat) : Dev :=
  match (d.link j).test with
  | some t =>
    if t.byFar then d
    else
      let d := (d.bertMark j t.kind result).sendTestEnd j
      if t.kind = 2 then (d.requalify j).bertCheck else (((d.testRejoin j).periodicNext j).bertGo)
  | none => d

/-- TEST_ACK (R353); a refused test ends STOPPED (notes/assumptions/34.md). -/
def execTestAck (j : Fin 64) (accepted : Bool) (s : State) : Host.Outcome State Fault Refusal :=
  onRun (fun d =>
    if (d.link j).ackDue then
      let d : Dev := d.onLink j fun l => { l with ackDue := false }
      if accepted then d else d.testEmpty j 3
    else d) s

/-- TEST_ACK_TIMEOUT (R353): NO_PEER. -/
def execTestAckTimeout (j : Fin 64) (s : State) : Host.Outcome State Fault Refusal :=
  onRun (fun d => if (d.link j).ackDue then d.testEmpty j 2 else d) s

/-- TEST_END (R353 to R355), with the errors counted and the bits tested: the duration of this end's test is over, or the far
end's TEST_END has arrived. -/
def execTestEnd (j : Fin 64) (errs : List Nat) (bits : Nat) (s : State) : Host.Outcome State Fault Refusal :=
  onRun (fun d =>
    match (d.link j).test with
    | none => d
    | some t =>
      let p := berPass errs bits
      let d := d.bertResult j errs bits t.kind (if p then 0 else 1)
      if t.byFar then (d.onLink j fun _ => { Link.reset with afterFar := true }).setLinkState j 3
      else
        let d := d.sendTestEnd j
        if t.kind = 2 then (d.requalify j).bertCheck
        else
          let d := (d.setF (OEC_LINK_PBERT_YIELD_RUN (j / 8) (j % 8)) 0).periodicNext j
          let d : Dev := if p then d.testRejoin j
            else ((d.onLink j fun _ => Link.reset).linkLeave j 1 8).latch (egOec (j / 8)) 3
          d.bertGo) s

/-- The port of a link keeps at least MIN_LINKS ACTIVE links without it (R355). -/
def Dev.portSpare (d : Dev) (j : Fin 64) : Bool :=
  match d.portOf j with
  | some p => d.linkState j == 5 && decide (max 1 (d.getF (FAB_PORT_CFG_MIN_LINKS p)) + 1 ≤ (d.activeLinks p).length)
  | none => false

/-- The engine takes its links in ascending order from `i`, passing over those it may not test (R355). -/
def Dev.periodicPick (d : Dev) (k : Fin 8) : Nat → Nat → Dev
  | 0, _ => d
  | n + 1, i =>
    let j := Fin.ofNat 64 (8 * k.val + i % 8)
    if d.portSpare j then
      let ms := max 1 (d.getF FAB_PBERT_MS)
      ((d.setF (OEC_STATUS_PBERT_NEXT k) (i % 8)).testStart j ⟨3, false, ms, false, d.now⟩).sendTestReq j ms 0
    else ((d.satInc (OEC_PBERT_SKIP_COUNT k)).setF (OEC_STATUS_PBERT_NEXT k) ((i + 1) % 8)).periodicPick k n (i + 1)

/-- Foreground work stands on the test controller of engine `k` (R356). -/
def Dev.foreground (d : Dev) (k : Nat) : Bool :=
  (List.finRange 64).any fun j => j.val / 8 == k &&
    (d.linkState j == 3 || (d.fab.bertWait && d.bertMask j) ||
      match (d.link j).test with
      | some t => t.kind == 2
      | none => false)

/-- PERIODIC_TEST_START (R355): the interval has passed. -/
def execPeriodicTestStart (k : Fin 8) (now : Nat) (s : State) : Host.Outcome State Fault Refusal :=
  onRun (fun d =>
    let d := d.at_ now
    if ¬ d.flag FAB_CTRL_PBERT_EN ∨ (d.periodicLink k).isSome ∨ d.foreground k then d
    else d.periodicPick k 8 (d.getF (OEC_STATUS_PBERT_NEXT k))) s

/-- PERIODIC_TEST_YIELD (R356): foreground work stops the engine's periodic test, unless the link has yielded STARVE times. -/
def execPeriodicTestYield (k : Fin 8) (s : State) : Host.Outcome State Fault Refusal :=
  onRun (fun d =>
    match d.periodicLink k with
    | none => d
    | some j =>
      let run := d.getF (OEC_LINK_PBERT_YIELD_RUN (j / 8) (j % 8))
      if ¬ d.foreground k ∨ max 1 (d.getF FAB_PBERT_STARVE) ≤ run then d
      else
        (((d.setF (OEC_LINK_PBERT_YIELD_RUN (j / 8) (j % 8)) (run + 1)).sendTestEnd j).testRejoin j).bertGo) s

end Sys2Proof.Machine
end

