-- ==== Sys2Proof/Machine/Package.lean ====
section
/-! DEFINITION. Seams that fail and return, transfers on the package network, tiles that leave service, time messages, and lost
destinations (R28 to R32, R38, R40, R42, R43, R351, R383). -/

namespace Sys2Proof.Machine

open Reg

/-! Error answers of a seam island (R31, R43). -/

/-- An operation that asks for an answer: a load, a store, an atomic, a message of the expert router (R367). -/
def asksAnswer (m : Dmsg) : Bool := (decide (1 ≤ m.op) && decide (m.op ≤ 4)) || m.op == 6

/-- The ERROR with a code that answers a message. -/
def errAnswer (m : Dmsg) (code : Nat) : Dmsg := ⟨0x0B, 0, 0, m.addr, m.dst, m.src, 0, m.txn, 0, code, 0, []⟩

/-- A message ends in an error: its source in this package gets the answer at once, another package's by a response. -/
def Dev.answerErr (d : Dev) (m : Dmsg) (code : Nat) : Dev :=
  if ¬ asksAnswer m ∧ m.op ≠ 5 then d
  else if m.src.pkg ≠ d.self then d.sendMsg .resp (errAnswer m code)
  else if m.op ≠ 5 then d.emit (.arrive (nodeEndpt m.src) (errAnswer m code))
  else if m.src.hub then d
  else d.tokenErr (Fin.ofNat 32 m.src.tile) (errAnswer m code)

/-! Transfers lost on a seam (R31). -/

/-- The port by which a transfer left its source tile. -/
def Dev.portLeft (d : Dev) (t : Transit) (n : Fin 32) : Nat :=
  match routeOf d.routeUp t.src t.dst t.yx with
  | s :: _ => (portOfSeam n s).getD 0
  | [] => 0

/-- Entry `i` is lost on seam `s`: the seam island at its source answers a lost request. -/
def Dev.seamLose (d : Dev) (i : Nat) (t : Transit) (s : Nat) : Dev :=
  let d := d.netSet i none
  if ¬ asksAnswer t.msg ∧ t.msg.op ≠ 5 then d
  else
    let d : Dev := match t.src with
      | .tile n => (d.latch (egSeam n) 1).satInc (SEAM_PORT_ERR_RESP n ((portOfSeam n s).getD (d.portLeft t n)))
      | _ => d
    d.answerErr t.msg Config.seamLostErr

/-- The seam and the place of the next hop of a transfer. -/
def Dev.hopOf (d : Dev) (t : Transit) : Option (Nat × NetAt) :=
  match t.where_ with
  | .launch => firstHop d.routeUp t.src t.dst
  | .seam n => nextHop d.routeUp n t.dst t.yx
  | .arrived => none

/-- An earlier transfer waits for the same seam on the same VC and in the same route class. -/
def Dev.hopBlocked (d : Dev) (i : Nat) (t : Transit) : Bool :=
  (d.fab.net.take i).any fun u => u.where_ == t.where_ && u.vc == t.vc && u.yx == t.yx && d.hopOf u == d.hopOf t &&
    (t.where_ != .launch || u.src == t.src)

/-- SEAM_TRANSFER (R28, R29): entry `idx` of the network goes over its next seam; over a seam that is down it is lost. -/
def execSeamTransfer (idx : Nat) (retry : Bool) (s : State) : Host.Outcome State Fault Refusal :=
  onRun (fun d =>
    match d.fab.net[idx]? with
    | none => d
    | some t =>
      match d.hopOf t with
      | none => d
      | some (sm, w) =>
        if d.hopBlocked idx t then d
        else if ¬ d.seamUp sm then d.seamLose idx t sm
        else
          let from_ : Option (Fin 32) := match t.where_ with
            | .seam n => some n
            | _ => none
          d.hop idx t from_ sm w retry) s

/-- What a message does when it has crossed to the hub or an engine: one for another stage joins the egress gateway (R384), one for a
link waits at its transmitter. -/
def Dev.reach (d : Dev) (t : Transit) : Dev :=
  match t.dst with
  | .hub =>
    if d.crosses t.msg ∧ t.msg.op ≠ 7 then d.gwArrive (t.msg.src.tile % 32) t.vc t.msg else d.deliver .hub t.msg
  | .oe _ =>
    let j := Fin.ofNat 64 t.link
    if d.linkState j = 5 then d.linkPut j t.vc t.msg else d.requeue t.vc t.msg
  | .tile n =>
    if d.inService n then d.deliver (.tile n) t.msg
    else
      let d : Dev := if asksAnswer t.msg ∨ t.msg.op = 5 then d.latch (egSeam n) 1 else d
      d.answerErr t.msg 5

/-- CROSSING_TRANSFER (R38, R43): the oldest transfer of a crossing goes over it, or waits while the queue beyond is full. A seam
island answers for a compute island that has left service. -/
def execCrossingTransfer (idx : Nat) (full : Bool) (s : State) : Host.Outcome State Fault Refusal :=
  onRun (fun d =>
    match d.fab.net[idx]? with
    | none => d
    | some t =>
      if full ∨ ¬ d.crossingHead idx t then d
      else match t.where_, t.src with
        | .launch, .tile n => d.netSet idx (some { t with where_ := .seam n })
        | .launch, _ => d
        | .seam n, _ => if t.dst = .tile n then (d.netSet idx none).reach t else d
        | .arrived, _ => (d.netSet idx none).reach t) s

/-! Seams (R31, R32). -/

/-- A seam leaves the trained state. -/
def Dev.seamFail (d : Dev) (sm : Nat) : Dev :=
  if ¬ d.seamUp sm then d
  else (seamTiles sm).foldl (fun d n => (d.latch (egSeam n) 0).satInc (SEAM_PORT_DOWN_COUNT n ((portOfSeam n sm).getD 0)))
    (d.setSeam sm false)

/-- SEAM_DOWN (R31, R32): `lost` are the network entries that were on the seam. -/
def execSeamDown (seam : Fin 72) (lost : List Nat) (now : Nat) (s : State) : Host.Outcome State Fault Refusal :=
  onRun (fun d =>
    let d := d.at_ now
    if ¬ d.seamUp seam then d
    else
      (lost.dedup.mergeSort fun a b => decide (b ≤ a)).foldl (fun d i =>
        match d.fab.net[i]? with
        | none => d
        | some t => if (d.hopOf t).any fun h => h.1 == seam.val then d.seamLose i t seam else d) (d.seamFail seam)) s

/-- The engine of an OE seam. -/
def seamEngine (sm : Nat) : Option (Fin 8) := if 56 ≤ sm then some (Fin.ofNat 8 ((sm - 56) / 2)) else none

/-- Link `i` of engine `k`. -/
def engineLinks (k : Fin 8) : List (Fin 64) := (List.range 8).map fun i => Fin.ofNat 64 (8 * k.val + i)

/-- SEAM_UP (R32): the links that the loss of an engine's seams took down start training (R334). -/
def execSeamUp (seam : Fin 72) (now : Nat) (s : State) : Host.Outcome State Fault Refusal :=
  onRun (fun d =>
    let d := (d.at_ now).setSeam seam true
    match seamEngine seam with
    | none => d
    | some k => (engineLinks k).foldl (fun d j =>
      if d.linkState j = 1 ∧ d.getF (OEC_LINK_STATUS_CAUSE (j / 8) (j % 8)) = 9 ∧ d.fullSignal j then d.linkTrain j else d) d) s

/-! A tile leaves service (R43). -/

/-- Accesses that the lost compute island holds are answered TILE_OUT (R43, R383). -/
def Dev.tileOut (d : Dev) (n : Fin 32) : Dev :=
  let u := d.delud n
  let reqs := u.adm ++ u.jobs.map HomeJob.msg ++ (d.router n).early
  let d : Dev := d.onDelud n fun _ => Delud.reset
  let d := reqs.foldl (fun d m => d.answerErr m 5) d
  (u.held.flatMap HeldLine.resps).foldl (fun d r => d.release n { r with op := 0x0B, err := 5, data := [] }) d

/-- A serving group whose tile has left stops at the end of its step, or at once where it is paused (R43, R320, R512). -/
def Dev.groupTileLost (d : Dev) (g : Fin 4) (n : Fin 32) : Dev :=
  if d.isLead g then
    if d.gstate g = 5 then d.leadStop g none 3 3 []
    else d.onGroup g fun x => { x with stop := some .tileExit }
  else d.toLead g "TILE_EXIT" [g.val, d.self, n]

/-- Tile `n` leaves service with a cause of R490. -/
def Dev.tileExit (d : Dev) (n : Fin 32) (cause : Nat) (seamOk : Bool) : Dev :=
  let g := d.groupOf n
  let d := ((d.setBit HUB_TILE_INSERVICE n false).latch egTileExit n).logHub 0x0004 n cause
  let d := d.tileOut n
  let d : Dev := (d.onTile n fun _ => Tile.reset).setF (MEM_STATUS_MODE n) 3
  let d : Dev := if seamOk then d else (List.range 4).foldl (fun d p => if seamOfPort n p < 72 then d.seamFail (seamOfPort n p) else d) d
  let d : Dev := match g with
    | some g => d.groupTileLost g n
    | none => d
  d.slotsTileLost n

/-- TILE_EXIT (R42, R43): an uncorrectable fault of the compute island, its regulator or its DRAM interface. -/
def execTileExit (n : Fin 32) (cause : Fin 3) (seamOk : Bool) (now : Nat) (s : State) : Host.Outcome State Fault Refusal :=
  onRun (fun d =>
    let d := d.at_ now
    if d.inService n then (d.tileExit n (3 + cause) seamOk).noTile else d) s

/-! Route classes (R30, R32). -/

/-- An engine that some in-service tile still reaches. -/
def Dev.engineServed (d : Dev) (k : Fin 8) : Bool :=
  (d.seamUp (oeSeam k 0) || d.seamUp (oeSeam k 1)) &&
    (List.finRange 32).any fun n => d.inService n && reachable d.seamUp (.tile n) (.oe k)

/-- A pair of `n` with another in-service tile, the hub or a served engine has no usable path. -/
def Dev.pathBlocked (d : Dev) (n : Fin 32) : Bool :=
  d.inService n && (((List.finRange 32).any fun m => d.inService m && m != n && !reachable d.seamUp (.tile n) (.tile m)) ||
    !reachable d.seamUp (.tile n) .hub || (List.finRange 8).any fun k => d.engineServed k && !reachable d.seamUp (.tile n) (.oe k))

/-- Tiles leave service, the highest-numbered of a blocked pair first, until no pair is blocked; `k` bounds their number. -/
def Dev.restorePaths : Nat → Dev → Dev
  | 0, d => d
  | k + 1, d =>
    match (List.finRange 32).reverse.find? fun n => d.pathBlocked n with
    | some n => (d.tileExit n 6 true).restorePaths k
    | none => d

/-- ROUTE_CLASS_UPDATE (R30, R32). -/
def execRouteClassUpdate (now : Nat) (s : State) : Host.Outcome State Fault Refusal :=
  onRun (fun d =>
    let d := d.at_ now
    let up : BitVec 72 := (List.range 72).foldl (fun b i => if d.seamUp i then b ||| BitVec.ofNat 72 (2 ^ i) else b) 0
    (Dev.restorePaths 32 { d with fab := { d.fab with routeSeams := up } }).noTile) s

/-- OE_SEAM_LINKS_DOWN (R32): an engine that no in-service tile reaches. -/
def execOeSeamLinksDown (k : Fin 8) (now : Nat) (s : State) : Host.Outcome State Fault Refusal :=
  onRun (fun d =>
    let d := d.at_ now
    if d.engineServed k then d
    else ((engineLinks k).foldl (fun d j => if d.linkState j < 2 then d else (d.testCut j).linkLeave j 1 9) d).bertCheck) s

/-! Time and lost destinations. -/

/-- TIME_MESSAGE (R40): every copy of global time is loaded again. -/
def execTimeMessage (now : Nat) (s : State) : Host.Outcome State Fault Refusal :=
  onRun (fun d =>
    let d := d.at_ now
    { d with fab := { d.fab with copies := Vector.replicate 40 d.now } }) s

/-- A group after the loss of packages: the lead stops it; a paused follower that loses its lead stops by itself (R320, R512). -/
def Dev.groupPeersLost (d : Dev) (g : Fin 4) (lost : Nat → Bool) : Dev :=
  if ¬ (d.gstate g = 2 ∨ d.gstate g = 5) then d
  else if d.isLead g then if (d.followers g).any lost then d.leadStop g none 2 3 [] else d
  else if d.gstate g = 5 ∧ lost (d.group g).leadPkg then (d.leaveRunning g 3).latch egSrv 4
  else d

/-- FAB_LAST_LOST of an entry. -/
def Dev.lastLost (d : Dev) (e : RouteEnt) : Nat :=
  match e with
  | .loc m => stageOf d.self * 64 + m.val
  | .rem st => 2 ^ 31 + st.val * 64

/-- DESTINATION_LOST (R351): the entry has had no eligible port for LOST_HOLD µs. -/
def execDestinationLost (e : RouteEnt) (now : Nat) (s : State) : Host.Outcome State Fault Refusal :=
  onRun (fun d =>
    let d := d.at_ now
    if ¬ d.entValid e ∨ d.entLost e ∨ d.eligible e ≠ [] then d
    else
      let lost (p : Nat) : Bool := decide (d.entryOf p = e) && p != d.self
      let w := d.lastLost e
      let d := (((d.setBit (entW1 e) 31 true).setN FAB_LAST_LOST w).latch egFab 3).logHub 0x000C w 0
      let d := (List.finRange 32).foldl (fun d n => d.txnsLost (some n) lost) (d.txnsLost none lost)
      let d := d.poolLost lost
      (List.finRange 4).foldl (fun d g => d.groupPeersLost g lost) d) s

end Sys2Proof.Machine
end

