-- ==== Sys2Proof/Machine/Boot.lean ====
section
/-! DEFINITION. Boot after the verified image: the tiles come up, and BOOT_DONE (R227, R426, R431, R438, R485, R490). -/

namespace Sys2Proof.Machine

open Reg

/-- An entry that the hub will write at BOOT_DONE. -/
def Dev.bootNote (d : Dev) (code a0 a1 : Nat) : Dev :=
  { d with boot := { d.boot with notes := d.boot.notes ++ [⟨code, 0, a0, a1⟩] } }

/-- The record area (R426): HUB_TILE_RETIRE and the skip tables take the tile mask and the page list of the booted slot; every invalid
entry is noted (R179, R482). A pending HUB_TILE_RETIRE value has taken effect with the mask that was recorded for it (R479). -/
def Dev.loadRecords (d : Dev) (f : Flash) : Dev :=
  let k := d.slotInUse
  let pages := f.pageList k
  let d : Dev := { d.setN HUB_TILE_RETIRE (f.tileMask k) with rwb := d.rwb.filter fun v => v.off != HUB_TILE_RETIRE }
  let d := (List.finRange 32).foldl (fun d (n : Fin 32) =>
    let ps := (f.retiredOf k n).take 128
    (List.range 128).foldl (fun d i => d.setN (MEM_SKIP n i) (match ps[i]? with
      | some p => 2 ^ 31 + p
      | none => 0)) d) d
  let d := (List.range pages.length).foldl (fun d j =>
    let e := pages.getD j 0
    if pageEntryValid e then d else d.bootNote 0x0005 j e) d
  (List.range 512).foldl (fun d j =>
    if f.maskErased k j ∨ f.maskValid k j then d else d.bootNote 0x0005 j (f.maskWord k j)) d

/-- Why a tile is out of service at boot (R42, R490): 1 retirement mask, 2 self-test, 5 its DRAM interface. -/
def bootCause (retire selfFail trainFail : Word) (n : Nat) : Nat :=
  if retire.getLsbD n then 1 else if selfFail.getLsbD n then 2 else if trainFail.getLsbD n then 5 else 0

/-- A tile stays out of service at boot: its compute island and its DRAM have no power. -/
def Dev.bootOut (d : Dev) (cause : Nat) (n : Fin 32) : Dev :=
  (((d.setBit HUB_TILE_INSERVICE n false).onTile n fun _ => Tile.reset).setF (MEM_STATUS_MODE n) 3).bootNote 0x0004 n cause

/-- The restoration of R30 at boot; `k` bounds the number of tiles. -/
def Dev.bootPaths : Nat → Dev → Dev
  | 0, d => d
  | k + 1, d =>
    match (List.finRange 32).reverse.find? fun n => d.pathBlocked n with
    | some n => (d.bootOut 6 n).bootPaths k
    | none => d

/-- TILE_BRINGUP (R431 events 7 to 9, R42, R44, R177): `trainFail` and `selfFail` name the tiles whose DRAM channels do not train
and whose self-test fails, and `seams` the seams that train. -/
def execTileBringup (now : Nat) (trainFail selfFail : BitVec 32) (seams : BitVec 72) (s : State) : Host.Outcome State Fault Refusal :=
  onDevF (fun f d =>
    if ¬ d.boot.running ∨ d.getF HUB_BOOT_STATUS_STAGE ≠ 3 ∨ d.boot.tilesDone then d
    else
      let d := (d.at_ now).loadRecords f
      let d := ((d.setN HUB_SEAM_UP0 (seams.toNat % 2 ^ 32)).setN HUB_SEAM_UP1 (seams.toNat / 2 ^ 32 % 2 ^ 32)).setN HUB_SEAM_UP2
        (seams.toNat / 2 ^ 64)
      let d : Dev := { d.setN HUB_TILE_INSERVICE 0xFFFFFFFF with fab := { d.fab with routeSeams := seams } }
      let retire := d.getR HUB_TILE_RETIRE
      let d := (List.finRange 32).foldl (fun d (n : Fin 32) =>
        match bootCause retire selfFail trainFail n with
        | 0 => d.setF (MEM_STATUS_MODE n) 0
        | c => d.bootOut c n) d
      let d := d.bootPaths 32
      { d with boot := { d.boot with tilesDone := true } }) s

/-! Model slots after a reset (R227). -/

/-- A commit record is valid (R205). -/
def recordValid (b : List Byte) : Bool :=
  leVal (b.take 4) == 0x52435A4B && leVal ((b.drop 0x38).take 4) == crc32c (b.take 0x38) && leVal ((b.drop 0x1F).take 1) == 0 &&
    leVal ((b.drop 0x3C).take 4) == 0

/-- The valid commit record of slot `k` on tile `n`. -/
def Dev.record (d : Dev) (k : Nat) (n : Fin 32) : Option (List Byte) :=
  let b := d.dramBytes n (slotRec k) 64
  if d.inService n ∧ recordValid b ∧ leVal ((b.drop 0x1C).take 1) = k then some b else none

/-- What the records of a slot must agree in: MODEL_ID, LAYOUT_ID, LOAD_SEQ and TILE_MASK. -/
def recordKey (b : List Byte) : List Byte := (b.drop 4).take 24

/-- Slot `k` after a WARM reset: VERIFYING when every tile of its mask holds a valid record that agrees with the others, EMPTY
otherwise; records and UNITS that belong to no such slot are cleared (R227, R481). -/
def Dev.slotBoot (d : Dev) (k : Nat) : Dev :=
  let first := (List.finRange 32).findSome? fun n => d.record k n
  let b := first.getD []
  let mask : Word := BitVec.ofNat 32 (leVal ((b.drop 4).take 4))
  let ok := first.isSome && mask != 0 && (List.finRange 32).all fun n =>
    !mask.getLsbD n || (d.record k n).any fun c => recordKey c == recordKey b
  let d := (List.finRange 32).foldl (fun d (n : Fin 32) =>
    if d.inService n ∧ ¬ (ok ∧ mask.getLsbD n) then d.homeWrite n (slotRec k) (List.replicate 0x840 0) else d) d
  if ok then
    (((d.setF (WTR_SLOT_STATE_STATE k) 2).setF (WTR_SLOT_STATE_CONTEXT k) (leVal ((b.drop 0x1D).take 1))).setR (WTR_SLOT_TILES k)
      mask).setPair (WTR_SLOT_MODEL_LO k) (WTR_SLOT_MODEL_HI k) (leVal ((b.drop 8).take 8))
  else
    let d := d.setF (WTR_SLOT_STATE_REASON k) 6
    if first.isSome then d.logHub 0x000B k 6 else d

/-! BOOT_DONE. -/

/-- Byte offset of dump slot `i` in T0 (R485). -/
def dumpSlot (i : Nat) : Nat := 0x780000000 + i * 0x10000000

/-- The first 4 KiB of a dump slot read zeros. -/
def Dev.dumpZero (d : Dev) (i : Nat) : Dev :=
  if d.inService 0 then d.homeWrite 0 (dumpSlot i) (List.replicate 4096 0) else d

/-- The running boot follows a COLD reset: LAST names a power-up or a restart after a stop. -/
def Dev.coldBoot (d : Dev) : Bool := d.getF HUB_RESET_STATUS_LAST < 2

/-- Measurement blocks 2 to 8 (R438). -/
def Dev.measure (d : Dev) (f : Flash) : List (List Byte) :=
  let k := d.slotInUse
  [Config.sha512 (f.read (slotBase k) (f.signedLen k)), leBytes 8 (f.imageVersion k), leBytes 4 (f.svn k),
    Config.sha512 (f.read 0x10000 0xDC84), Config.sha512 (f.read (slotBase k + 0x1E00000) 256), leBytes 2 f.floor ++ [f.get 0x400],
    Config.sha512 (f.read (recordBase k) 0x10000)]

/-- The entries of a boot (R490): RESET, STOP after a stop restart, then those that boot noted. -/
def Dev.bootLog (d : Dev) : Dev :=
  let d := d.logHub 0x0001 (d.getN HUB_RESET_STATUS) 0
  let d := if d.getF HUB_RESET_STATUS_LAST = 1 then d.logHub 0x0009 (d.getN PWR_STOP_CAUSE) 0 else d
  d.boot.notes.foldl (fun d e => d.logEntry e.code e.source e.arg0 e.arg1 0) d

/-- BOOT_DONE (R227, R431 events 10 and 11, R433, R485). -/
def execBootDone (now : Nat) (s : State) : Host.Outcome State Fault Refusal :=
  onDevF (fun f d =>
    if ¬ d.boot.running ∨ ¬ d.boot.tilesDone then d
    else
      let d := d.at_ now
      let d : Dev := { d with trust := { d.trust with alias_ := true, blocks := d.measure f } }
      let d := d.bootLog
      let d := if d.coldBoot then (List.range 8).foldl Dev.dumpZero d else (List.range 16).foldl Dev.slotBoot d
      let d := (d.kvPagesAll.setF HUB_BOOT_STATUS_STAGE 4).setN HUB_BOOT_MS ((d.now - d.boot.startAt) / 1000000)
      { d with boot := { d.boot with running := false } }) s

end Sys2Proof.Machine
end

