-- ==== Sys2Proof/Machine/Sideband.lean ====
section
/-! DEFINITION. The sideband's reads and its further commands (R406, R445), and the JTAG port (R510). -/

namespace Sys2Proof.Machine

open Reg

/-- The PMBus LINEAR11 encoding of the non-negative quotient `num / den`: the smallest exponent from -16 up under which
the mantissa fits 10 bits, the mantissa rounded down (DESIGN CHOICE, notes/assumptions/11.md). -/
def linear11 (num den : Nat) : Nat :=
  let mant (e : Nat) : Nat := num * 65536 / (den * 2 ^ e)
  let e := ((List.range 32).find? fun e => decide (mant e ≤ 1023)).getD 31
  (e + 16) % 32 * 2048 + mant e % 1024

/-- LINEAR11 of a signed temperature in units of 0.0625 °C, with exponent -2 (quarter degrees, exact to the mantissa's 11
bits). -/
def linear11Temp (t : Int) : Nat := 30 * 2048 + (BitVec.ofInt 11 (t / 4)).toNat

/-- Answer a read with little-endian data (R19). -/
def Dev.smbRead (d : Dev) (n v : Nat) : Dev := d.emit (.smbData (leBytes n v))

/-- OPERATION_READ (R406). -/
def execOperationRead (s : State) : Host.Outcome State Fault Refusal :=
  onDev (fun d => d.sbRun 0x01 fun d => d.smbRead 1 d.sb.operation) s

/-- STATUS_WORD (R406). -/
def execStatusWord (s : State) : Host.Outcome State Fault Refusal :=
  onDev (fun d => d.sbRun 0x79 fun d => d.smbRead 2 d.statusWord) s

/-- STATUS_INPUT (R406). -/
def execStatusInput (s : State) : Host.Outcome State Fault Refusal :=
  onDev (fun d => d.sbRun 0x7C fun d => d.smbRead 1 d.statusInput) s

/-- STATUS_TEMPERATURE (R406). -/
def execStatusTemperature (s : State) : Host.Outcome State Fault Refusal :=
  onDev (fun d => d.sbRun 0x7D fun d => d.smbRead 1 d.statusTemperature) s

/-- READ_VIN (R406): PWR_VIN, in volts. -/
def execReadVin (s : State) : Host.Outcome State Fault Refusal :=
  onDev (fun d => d.sbRun 0x88 fun d => d.smbRead 2 (linear11 (d.getF ⟨PWR_VIN, 15, 0⟩) 1000)) s

/-- READ_IIN (R406): PWR_IIN, in amperes. -/
def execReadIin (s : State) : Host.Outcome State Fault Refusal :=
  onDev (fun d => d.sbRun 0x89 fun d => d.smbRead 2 (linear11 (d.getF ⟨PWR_IIN, 15, 0⟩) 100)) s

/-- READ_PIN (R406): PWR_PIN, in watts. -/
def execReadPin (s : State) : Host.Outcome State Fault Refusal :=
  onDev (fun d => d.sbRun 0x97 fun d => d.smbRead 2 (linear11 (d.getF ⟨PWR_PIN, 15, 0⟩) 1)) s

/-- READ_TEMPERATURE_1 (R406): the hottest tile or hub sensor. -/
def execReadTemperature1 (s : State) : Host.Outcome State Fault Refusal :=
  onDev (fun d => d.sbRun 0x8D fun d =>
    d.smbRead 2 (linear11Temp (BitVec.ofNat 16 (d.getF PWR_TEMP_DIE_MAX)).toInt)) s

/-- READ_TEMPERATURE_2 (R406): the hottest DRAM die. -/
def execReadTemperature2 (s : State) : Host.Outcome State Fault Refusal :=
  onDev (fun d => d.sbRun 0x8E fun d =>
    d.smbRead 2 (linear11Temp (BitVec.ofNat 16 (d.getF PWR_TEMP_DRAM_MAX)).toInt)) s

/-- KZ_LEASE_STATUS (R406): 12 bytes. -/
def execKzLeaseStatus (now : Nat) (s : State) : Host.Outcome State Fault Refusal :=
  onDev (fun d => (d.at_ now).sbRun 0xD1 fun d =>
    let exp := d.getPair PWR_LEASE_EXP_LO PWR_LEASE_EXP_HI
    d.emit (.smbData (leBytes 2 (d.getF PWR_STATUS_BUDGET_W) ++
      leBytes 2 (if d.flag PWR_LEASE_PEND_PENDING then d.getF PWR_LEASE_PEND_BUDGET_W else 0) ++
      leBytes 4 (if d.flag PWR_STATUS_LEASE_VALID then (exp - d.now) / 1000000 else 0) ++
      leBytes 2 (d.getF PWR_LEASE_SEQ_SEQ) ++ leBytes 1 (d.getF PWR_STATUS_STEP) ++
      leBytes 1 (d.getF PWR_STATUS_FLOOR)))) s

/-- CLEAR_FAULTS (R445): the latched status bits clear and SMBALERT# is released; a warning that still holds sets again
at the power controller's next look. -/
def execClearFaults (s : State) : Host.Outcome State Fault Refusal :=
  onDev (fun d => d.sbRun 0x03 fun d =>
    ({ d with sb := { d.sb with
      alertStatus := false, uvFault := false, otFault := false, seenUv := false, seenOc := false, seenOt := false } }
      : Dev).emit .smbAck) s

/-- ALERT_RESPONSE (R445): while SMBALERT# is asserted, the package answers with its address and releases it. -/
def execAlertResponse (s : State) : Host.Outcome State Fault Refusal :=
  onDev (fun d =>
    if d.pw.phase ≠ .off ∧ (d.sb.alertStatus ∨ d.sb.alertPanel) then
      ({ d with sb := { d.sb with alertStatus := false, alertPanel := false } } : Dev).smbRead 1
        (2 * (0x40 + (d.pw.sbAddr.getD 0).toNat))
    else d.emit .smbNack) s

/-- The bytes of an ASCII string. -/
def asciiBytes (t : String) : List Byte := t.toList.map fun c => BitVec.ofNat 8 c.toNat

/-- PMBUS_REVISION (R445). -/
def execPmbusRevision (s : State) : Host.Outcome State Fault Refusal :=
  onDev (fun d => d.sbRun 0x98 fun d => d.smbRead 1 0x33) s

/-- MFR_ID (R445). -/
def execMfrId (s : State) : Host.Outcome State Fault Refusal :=
  onDev (fun d => d.sbRun 0x99 fun d => d.emit (.smbData (asciiBytes "KYOZEN"))) s

/-- MFR_MODEL (R445). -/
def execMfrModel (s : State) : Host.Outcome State Fault Refusal :=
  onDev (fun d => d.sbRun 0x9A fun d => d.emit (.smbData (asciiBytes "KZP3210-1T"))) s

/-- MFR_REVISION (R445): HUB_ID.REVISION. -/
def execMfrRevision (s : State) : Host.Outcome State Fault Refusal :=
  onDev (fun d => d.sbRun 0x9B fun d => d.smbRead 1 (d.getF HUB_ID_REVISION)) s

/-- MFR_SERIAL (R445): the UID. -/
def execMfrSerial (s : State) : Host.Outcome State Fault Refusal :=
  onDev (fun d => d.sbRun 0x9E fun d => d.smbRead 8 (d.getPair HUB_UID_LO HUB_UID_HI)) s

/-- KZ_PANEL (R445): HUB_PANEL_STATUS; the read ends the alert for panel events. -/
def execKzPanel (s : State) : Host.Outcome State Fault Refusal :=
  onDev (fun d => d.sbRun 0xD2 fun d =>
    ({ d with sb := { d.sb with alertPanel := false } } : Dev).smbRead 4 (d.getN HUB_PANEL_STATUS)) s

/-- The pattern that LOC_LED shows: the first in the list of R449 whose condition holds. -/
def Dev.ledPattern (d : Dev) : Nat :=
  if d.flag HUB_PANEL_STATUS_DRAIN_DONE then 4
  else if d.flag HUB_PANEL_STATUS_DRAIN then 3
  else if d.flag HUB_PANEL_STATUS_SVC_REQ then 2
  else if d.flag HUB_PANEL_CTRL_LOCATE ∨ d.flag HUB_PANEL_STATUS_TRAY_LOCATE then 1
  else 0

/-- LOC_LED follows the panel state (R449). -/
def Dev.updLed (d : Dev) : Dev := d.setF HUB_PANEL_STATUS_LED d.ledPattern

/-- KZ_LOCATE (R445): bit 0 sets or clears TRAY_LOCATE. -/
def execKzLocate (bits : BitVec 8) (s : State) : Host.Outcome State Fault Refusal :=
  onDev (fun d => d.sbRun 0xD3 fun d =>
    ((d.setF HUB_PANEL_STATUS_TRAY_LOCATE (bits.toNat % 2)).updLed).emit .smbAck) s

/-- KZ_LOCATE_READ (R445). -/
def execKzLocateRead (s : State) : Host.Outcome State Fault Refusal :=
  onDev (fun d => d.sbRun 0xD3 fun d => d.smbRead 1 (d.getF HUB_PANEL_STATUS_TRAY_LOCATE)) s

/-- KZ_IDENT (R445): the UID, then FAB_SELF. -/
def execKzIdent (s : State) : Host.Outcome State Fault Refusal :=
  onDev (fun d => d.sbRun 0xD4 fun d =>
    d.emit (.smbData (leBytes 8 (d.getPair HUB_UID_LO HUB_UID_HI) ++ leBytes 4 (d.getN FAB_SELF)))) s

/-- KZ_BOOT (R445): HUB_BOOT_STATUS, then PWR_STOP_CAUSE. -/
def execKzBoot (s : State) : Host.Outcome State Fault Refusal :=
  onDev (fun d => d.sbRun 0xD5 fun d =>
    d.emit (.smbData (leBytes 4 (d.getN HUB_BOOT_STATUS) ++ leBytes 4 (d.getN PWR_STOP_CAUSE)))) s

/-- SIDEBAND_UNSUPPORTED (R406): a command that is unsupported, or not allowed now, is refused. -/
def execSidebandUnsupported (code : BitVec 8) (s : State) : Host.Outcome State Fault Refusal :=
  onDev (fun d => if d.sbAllowed code.toNat then d else d.emit .smbNack) s

/-! JTAG (R510). -/

/-- IDCODE: version, part number, manufacturer code, 1. -/
def Dev.idcode (d : Dev) : Nat :=
  d.getF HUB_ID_REVISION / 16 * 2 ^ 28 + 0xA032 * 2 ^ 12 + Config.jedecCode.toNat * 2 + 1

/-- JTAG_BYPASS: the one-bit bypass register stands between TDI and TDO; it captures 0. -/
def execJtagBypass (tdi : List Bool) (s : State) : Host.Outcome State Fault Refusal :=
  onDev (fun d =>
    let sh := false :: tdi
    ({ d with jtag := { d.jtag with instr := .bypass, driving := false, bypass := sh.getLastD false } } : Dev).emit
      (.tdo (sh.take tdi.length))) s

/-- JTAG_IDCODE: the identification code is shifted out, bit 0 first. -/
def execJtagIdcode (s : State) : Host.Outcome State Fault Refusal :=
  onDev (fun d =>
    ({ d with jtag := { d.jtag with instr := .idcode, driving := false } } : Dev).emit
      (.tdo ((List.range 32).map fun b => d.idcode.testBit b))) s

/-- JTAG_SAMPLE_PRELOAD: the chain captures the lands (`pins`), shifts them out, and is loaded with `load`. -/
def execJtagSamplePreload (pins load : List Bool) (s : State) : Host.Outcome State Fault Refusal :=
  onDev (fun d =>
    ({ d with jtag := { d.jtag with instr := .sample, driving := false, chain := load } } : Dev).emit (.tdo pins)) s

/-- JTAG_EXTEST: the chain drives the lands only while BSCAN_EN is high, as sampled at the last COLD or WARM reset; a
change of the strap (`bscan`) takes effect only at the next one. -/
def execJtagExtest (load : List Bool) (bscan : Bool) (s : State) : Host.Outcome State Fault Refusal :=
  onDev (fun d =>
    let d : Dev := { d with jtag := { d.jtag with bscanPin := bscan } }
    if d.boot.bscan then
      { d with jtag := { d.jtag with instr := .extest, chain := load, driving := true } }
    else { d with jtag := { d.jtag with instr := .extest, driving := false } }) s

end Sys2Proof.Machine
end

