-- ==== Sys2Proof/Machine/Registers.lean ====
section
/-! DEFINITION. BAR0: reads of registers, plain writes, register pairs, unmapped offsets and write-backs of event groups (R8 to R16,
R432, R450 to R457, R491). -/

namespace Sys2Proof.Machine

open Reg

/-! What BAR0 reaches. -/

/-- BAR0 reaches offset `o`: not in a WARM reset, only the hub global block after a fatal error, and only the hub global and
security blocks after a boot error (R432, R484). -/
def Dev.barOpen (d : Dev) (o : Nat) : Bool :=
  if d.rst.warm.isSome then false
  else if d.rst.fatal.isSome then decide (o < 0x100000)
  else d.getF HUB_BOOT_STATUS_ERROR == 0 || decide (o < 0x100000) || o / 0x100000 == 4

/-- The tile of a tile block's offset. -/
def offTile (o : Nat) : Option (Fin 32) :=
  if 0x1000000 ≤ o ∧ o < 0x3000000 then some (Fin.ofNat 32 ((o - 0x1000000) / 0x100000)) else none

/-- The offset lies in the counter block of a tile that is out of service (R469). -/
def Dev.pmcGone (d : Dev) (o : Nat) : Bool :=
  match offTile o with
  | some n => (o % 0x100000) / 0x10000 == 9 && !d.inService n
  | none => false

/-! Registers computed on read. -/

/-- The event log in its window (R489, R491). -/
def Dev.logWord (d : Dev) (o : Nat) : Nat :=
  let e := smGet (fun _ => LogEntry.empty) d.log ((o - 0x10000) / 32)
  match (o - 0x10000) % 32 / 4 with
  | 0 => e.time
  | 1 => e.time / 2 ^ 32
  | 2 => e.logseq
  | 3 => e.code + e.source * 2 ^ 16
  | 4 => e.arg0
  | 5 => e.arg1
  | 6 => e.arg2
  | _ => e.arg3

/-- The 32 bytes of a sequence-table entry (R324). -/
def SeqEnt.window (q : SeqEnt) : List Byte :=
  let bit (c : Bool) (k : Nat) : Nat := if c then 2 ^ k else 0
  leBytes 6 q.sub.req ++ leBytes 1 (q.state % 16 + q.hold % 16 * 16) ++
    leBytes 1 (bit q.sub.lc 0 + bit q.cancel.isSome 1 + bit q.deferred 2 + bit q.mark 3) ++ leBytes 4 q.pos ++ leBytes 4 q.sub.maxLen ++
    leBytes 8 q.sub.deadline ++ leBytes 2 q.sub.cust ++ leBytes 1 (q.group.val + q.sub.slot * 16) ++ leBytes 1 q.cq.val ++
    leBytes 4 q.sub.plen

/-- The sequence-table window; a FREE entry reads 0. -/
def Dev.seqWord (d : Dev) (o : Nat) : Nat :=
  match d.seqEnt ((o - 0x280000) / 32) with
  | some q => leVal ((q.window.drop ((o - 0x280000) % 32)).take 4)
  | none => 0

/-- SEAM_STATUS.UP of a tile (R45). -/
def Dev.seamUps (d : Dev) (n : Fin 32) : Nat :=
  ((List.range 4).map fun p => if seamOfPort n p < 72 ∧ d.seamUp (seamOfPort n p) then 2 ^ p else 0).sum

/-- MAGIC, HEADER_CRC and COMPLETE of a dump slot's header (R485, R486). -/
def headerValid (b : List Byte) : Bool :=
  leVal (b.take 4) == 0x50445A4B && leVal ((b.drop 0xFFC).take 4) == crc32c (b.take 0xFFC) && ((b.drop 7).headD 0).getLsbD 0

/-- The DUMP_SEQ of each valid dump slot. -/
def Dev.dumpSeqs (d : Dev) : List (Nat × Nat) :=
  if d.inService 0 then (List.range 8).filterMap fun i =>
    let b := d.dramBytes 0 (dumpSlot i) 4096
    if headerValid b then some (i, leVal ((b.drop 0x10).take 4)) else none
  else []

/-- The valid dump slot with the largest DUMP_SEQ. -/
def newestDump (l : List (Nat × Nat)) : Option (Nat × Nat) :=
  l.foldl (fun m x => match m with
    | none => some x
    | some y => if y.2 < x.2 then some x else some y) none

/-- HUB_DUMP_STATUS (R488). -/
def Dev.dumpStatus (d : Dev) : Word :=
  let l := d.dumpSeqs
  wordPut (wordPut (d.getR HUB_DUMP_STATUS) 7 0 (l.map fun x => 2 ^ x.1).sum) 10 8 (((newestDump l).map Prod.fst).getD 0)

/-- The vector of a source: that of its completion queue for 64 to 127 (R464). -/
def Dev.srcVector (d : Dev) (n : Nat) : Nat :=
  if 64 ≤ n ∧ n < 128 then d.getF (SRV_CQ_CFG_VECTOR (n - 64)) else d.getF (INT_SRC_CFG_VECTOR n)

/-- A vector's table entry has its Mask bit set (R460). -/
def Dev.vecMasked (d : Dev) (v : Nat) : Bool := (d.getR (0x11000C + 16 * v)).getLsbD 0

/-- A source mapped to vector `v` is pending and enabled. -/
def Dev.vecWants (d : Dev) (v : Nat) : Bool :=
  (List.range 768).any fun n => d.isPending n && d.flag (INT_SRC_CFG_ENABLE n) && d.srcVector n == v

/-- Bit `v` of the pending-bit array (R460). -/
def Dev.pba (d : Dev) (v : Nat) : Bool := (!d.msix.enable || d.msix.fmask || d.vecMasked v) && d.vecWants v

/-- INT_STATUS (R464). -/
def Dev.intStatus (d : Dev) : Nat :=
  (if d.msix.enable then 2 ^ 31 else 0) + (if d.msix.fmask then 2 ^ 30 else 0) + d.pendingCount

/-- A register's value where it is not simply what the register file holds. -/
def Dev.computed (d : Dev) (o : Nat) : Word :=
  if o = HUB_MBX_STATUS then d.mbxStatusWord
  else if o = HUB_DUMP_STATUS then d.dumpStatus
  else if o = INT_STATUS then BitVec.ofNat 32 d.intStatus
  else if 0x10000 ≤ o ∧ o < 0x50000 then BitVec.ofNat 32 (d.logWord o)
  else if 0x280000 ≤ o ∧ o < 0x300000 then BitVec.ofNat 32 (d.seqWord o)
  else if 0x120000 ≤ o ∧ o < 0x120100 then
    BitVec.ofNat 32 (((List.range 32).map fun b => if d.pba (8 * (o - 0x120000) + b) then 2 ^ b else 0).sum)
  else if INT_SRC_CFG 64 ≤ o ∧ o < INT_SRC_CFG 128 then wordPut (d.getR o) 10 0 (d.srcVector ((o - INT_SRC_CFG 0) / 4))
  else if o = WTR_DRIVE_STATUSA then wordPut (d.getR o) 29 29 (d.getF WTR_DRIVE_CTRL_WRITE_EN_A)
  else if o = WTR_DRIVE_STATUSB then wordPut (d.getR o) 29 29 (d.getF WTR_DRIVE_CTRL_WRITE_EN_B)
  else match offTile o with
    | some n => if o = SEAM_STATUS n then wordPut (d.getR o) 3 0 (d.seamUps n) else if d.pmcGone o then 0 else d.getR o
    | none => d.getR o

/-- Bits that a read by a master does not show: write-only fields, and PRV- fields when the master is not privileged (R12, R15, R454). -/
def hiddenMask (r : RegDesc) (prv : Bool) : Word :=
  r.fields.foldl (fun w f => if f.acc == .wo || (f.prv && !prv) then w ||| fieldMask f.hi f.lo else w) 0

/-- A BAR0 read of a register: no side effect (R11, R15, R454). -/
def Dev.readWord (d : Dev) (m : Master) (o : Nat) : Word :=
  match regDesc o with
  | none => 0
  | some r => if d.barOpen o then d.computed o &&& ~~~ hiddenMask r (d.privileged m) else 0

/-! Accesses that are not 32-bit and aligned (R8). -/

/-- BAR0_BAD_ACCESS (R8). -/
def execBar0BadAccess (off len : Nat) (isWrite : Bool) (s : State) : Host.Outcome State Fault Refusal :=
  onDev (fun d => let _ := isWrite
    if len = 4 ∧ off % 4 = 0 then d else d.emit .unsupported) s

/-! Register pairs (R9). -/

/-- Low halves in a block: offset, how many, their stride, and the distance to the snapshot register. -/
structure PairDesc where
  base : Nat
  count : Nat
  stride : Nat
  snap : Nat
  deriving DecidableEq, Repr

def hubPairs : List PairDesc := [⟨0x4, 1, 4, 8⟩, ⟨0x10, 1, 4, 8⟩, ⟨0x600, 4, 16, 8⟩]
def srvPairs : List PairDesc := [⟨0x20, 1, 4, 8⟩, ⟨0x118, 4, 64, 8⟩, ⟨0x100C, 64, 32, 8⟩]
def pwrPairs : List PairDesc := [⟨0xC, 1, 4, 8⟩, ⟨0x100, 7, 16, 8⟩]
def fabPairs : List PairDesc := [⟨0x18, 1, 4, 8⟩, ⟨0x104, 16, 32, 8⟩]
def dldPairs : List PairDesc := [⟨0x1C, 1, 4, 8⟩]
def wtrPairs : List PairDesc := [⟨0x108, 16, 32, 16⟩, ⟨0x110, 16, 32, 12⟩]
def pmcPairs (n : Nat) : List PairDesc := [⟨0x0, n, 16, 8⟩, ⟨0x298, 1, 4, 8⟩]
def stcPairs : List PairDesc :=
  [⟨0x4, 1, 4, 8⟩, ⟨0x10, 1, 4, 8⟩, ⟨0x1C, 1, 4, 8⟩, ⟨0x28, 1, 4, 8⟩, ⟨0x44, 1, 4, 8⟩, ⟨0x50, 1, 4, 8⟩]
def memPairs : List PairDesc := [⟨0x28, 1, 4, 8⟩]
def tilePairs : List PairDesc := [⟨0x10, 1, 4, 8⟩]
def hmpPairs : List PairDesc := [⟨0x28, 1, 4, 8⟩]
def oecPairs : List PairDesc := [⟨0x1040, 8, 256, 8⟩]

def findPair (l : List PairDesc) (o : Nat) : Option Nat :=
  (l.find? fun p => p.base ≤ o && (o - p.base) % p.stride == 0 && (o - p.base) / p.stride < p.count).map fun p => p.snap

/-- A 64-bit field of a budget record, at its low half: BALANCE, LAST and DEBITED (R321). -/
def budgetLow (o : Nat) : Bool := decide (0x240000 ≤ o) && decide (o < 0x280000) && [0x0, 0x8, 0x30].contains (o % 64)

/-- The snapshot register of the pair whose low half lies at `o` (R9). -/
def snapOf (o : Nat) : Option Nat :=
  let at_ (l : List PairDesc) (w : Nat) : Option Nat := (findPair l (o % w)).map fun x => o + x
  if o < 0x1000000 then
    match o / 0x100000 with
    | 0 => at_ hubPairs 0x100000
    | 2 => if budgetLow o then some SRV_CUST_SNAP else at_ srvPairs 0x100000
    | 3 => at_ pwrPairs 0x100000
    | 5 => at_ fabPairs 0x100000
    | 6 => at_ dldPairs 0x100000
    | 7 => at_ wtrPairs 0x100000
    | 8 => at_ (pmcPairs 32) 0x100000
    | 9 => if o % 0x100000 < 0x400 then at_ stcPairs 0x100 else none
    | _ => none
  else if o < 0x3000000 then
    match o % 0x100000 / 0x10000 with
    | 4 => at_ memPairs 0x10000
    | 5 => at_ tilePairs 0x10000
    | 6 => at_ hmpPairs 0x10000
    | 8 => at_ tilePairs 0x10000
    | 9 => at_ (pmcPairs 16) 0x10000
    | 10 => at_ stcPairs 0x10000
    | 11 => at_ [⟨0x8, 1, 4, 8⟩] 0x10000
    | _ => none
  else if o < 0x3800000 then at_ oecPairs 0x100000
  else none

/-- REG_PAIR_LOW_READ (R9): the read returns the low half and copies the high half into the snapshot register. -/
def execRegPairLowRead (m : Master) (off : Nat) (s : State) : Host.Outcome State Fault Refusal :=
  onDev (fun d =>
    match snapOf off with
    | some q => if d.barOpen off then (d.setR q (d.getR (off + 4))).emit (.readData (d.readWord m off)) else d.emit (.readData 0)
    | none => d) s

/-! Unmapped offsets (R11, R491). -/

/-- UNMAPPED_WRITE (R11, R491): logged, or merged into the latest entry for the same offset when that is no older than 1 ms. -/
def execUnmappedWrite (off now : Nat) (s : State) : Host.Outcome State Fault Refusal :=
  onDev (fun d =>
    let d := d.at_ now
    if (regDesc off).isSome ∨ ¬ d.barOpen off then d
    else
      let e := d.lastLog
      if e.logseq ≠ 0 ∧ e.code = 3 ∧ e.arg0 = off ∧ d.now ≤ e.time + 1000000 then
        { d with log := smPut (fun _ => LogEntry.empty) d.log (e.logseq % 8192) { e with arg1 := min (e.arg1 + 1) 0xFFFFFFFF } }
      else d.logHub 0x0003 off 1) s

/-! Event groups (R456, R457). -/

/-- Every event group of the package. -/
def eventGroups : List EvGroup :=
  [egTileExit, egWtr, egSrv, egFab, egDld, egPwr, egSec, egPanel, egHubPmc] ++ (List.range 4).map egHubStc ++ (List.range 8).map egOec ++
    (List.range 32).flatMap fun n => [egTctl n, egMgl n, egVec n, egQnt n, egMem n, egWrg n, egHmp n, egXpt n, egTilePmc n, egTileStc n, egSeam n]

/-- EVENT_SEQ_WRITEBACK (R14, R456, R461): a write to a group's _SEQ register. -/
def execEventSeqWriteback (m : Master) (off : Nat) (w : BitVec 16) (s : State) : Host.Outcome State Fault Refusal :=
  onDev (fun d =>
    let _ := m
    match eventGroups.find? fun g => g.seq == off with
    | some g => if d.barOpen off ∧ ¬ d.pmcGone off then d.writeback g w.toNat else d
    | none => d) s

/-! Plain writes (R12, R13, R15, R455). -/

/-- The register has a row of its own for what a write of it does. -/
def ownRow (o : Nat) : Bool :=
  o == SEC_GRANT || o == HUB_TILE_RETIRE || o == HUB_RESET || o == DLD_KEY_CMD || o == DLD_GRANT_CMD ||
    (List.range 64).any (fun q => o == SRV_SQ_CFG q || o == SRV_CQ_CFG q) ||
    (List.range 16).any (fun p => o == FAB_PORT_LINKS_LO p || o == FAB_PORT_LINKS_HI p) ||
    (decide (0x501000 ≤ o) && decide (o < 0x506000) && o % 8 == 0)

/-- A field with a row of its own: MEM_LEND.LEND, FAB_PORTp_CFG.EN, OEC_LINKi_CTRL.DISABLE. -/
def ownField (o hi : Nat) : Bool :=
  (match offTile o with
    | some n => o == MEM_LEND n && hi == 0
    | none => false) ||
  ((List.range 16).any fun p => o == FAB_PORT_CFG p && hi == (FAB_PORT_CFG_EN p).hi) ||
  ((List.range 64).any fun j => o == (OEC_LINK_CTRL_DISABLE (j / 8) (j % 8)).off && hi == (OEC_LINK_CTRL_DISABLE (j / 8) (j % 8)).hi)

/-- The Stitch unit at an offset is RUNNING or WAITING (R473). -/
def Dev.stcBusy (d : Dev) (o : Nat) : Bool :=
  let b := if o < 0x1000000 then (if o / 0x100000 = 9 ∧ o % 0x100000 < 0x400 then some (o - o % 0x100) else none)
    else if o < 0x3000000 ∧ o % 0x100000 / 0x10000 = 10 then some (o - o % 0x10000) else none
  match b with
  | some b => d.getF (STC_STATUS_STATE b) == 1 || d.getF (STC_STATUS_STATE b) == 2
  | none => false

/-- A write to a register is discarded whole: a running Stitch job (R473), an enabled port (R338), an enabled completion queue (R324),
a reserved source (R458), a lost counter block (R469). -/
def Dev.writeLocked (d : Dev) (o : Nat) : Bool :=
  d.stcBusy o || d.pmcGone o ||
    ((List.range 16).any fun p => o == FAB_PORT_CFG p && d.portEn p) ||
    ((List.finRange 64).any fun q => (o == SRV_CQ_BASE_LO q || o == SRV_CQ_BASE_HI q) && d.cqOn q) ||
    (decide (INT_SRC_CFG 0 ≤ o) && decide (o < INT_SRC_CFG 768) && !sourceListed ((o - INT_SRC_CFG 0) / 4))

/-- A field that a write leaves although its code is RW: the VECTOR of sources 64 to 127 (R464), and HOME_W written 3 (R137). -/
def fieldLocked (o : Nat) (f : FieldDesc) (v : Nat) : Bool :=
  (decide (INT_SRC_CFG 64 ≤ o) && decide (o < INT_SRC_CFG 128) && f.hi == 10) ||
    (match offTile o with
      | some n => o == TCTL_ROTA n && f.acc == .rwb && v == 3
      | none => false)

/-- A write that changes whether a message may be sent opens a masking window: what was in effect is kept (R462). -/
def Dev.openWindow (d : Dev) (o : Nat) : Dev :=
  if (o = INT_CTRL ∨ (INT_SRC_CFG 0 ≤ o ∧ o < INT_SRC_CFG 768) ∨ (0x110000 ≤ o ∧ o < 0x118000 ∧ o % 16 = 12)) ∧
      (d.maskOld.all fun e => e.1 != o) then
    { d with maskOld := smIns o (d.getR o) d.maskOld }
  else d

/-- One field of a plain write. A hub counter's selection applies on arrival (R470); other buffered fields become pending. -/
def Dev.writeField (d : Dev) (o : Nat) (f : FieldDesc) (v : Nat) : Dev :=
  if ownField o f.hi ∨ fieldLocked o f v then d
  else match f.acc with
    | .rw => d.setF ⟨o, f.hi, f.lo⟩ v
    | .rwb => if o / 0x100000 = 8 then d.setF ⟨o, f.hi, f.lo⟩ v else d.hold ⟨o, f.hi, f.lo⟩ v d.now
    | _ => d

/-- A plain write of a register by a master. -/
def Dev.writeWord (d : Dev) (m : Master) (o : Nat) (v : Word) : Dev :=
  match regDesc o with
  | none => d
  | some r =>
    let ok := d.privileged m
    let d := if ¬ ok ∧ r.fields.any (fun f => f.prv && wordField v f.hi f.lo != 0) then d.deny o else d
    if d.writeLocked o then d
    else
      let d := r.fields.foldl (fun d f => if f.prv ∧ ¬ ok then d else d.writeField o f (wordField v f.hi f.lo)) (d.openWindow o)
      if o = HUB_PANEL_CTRL then d.updLed else d

/-- REGISTER_WRITE (R12, R13, R455): a write to a register whose effect has no row of its own. -/
def execRegisterWrite (m : Master) (off : Nat) (v : Word) (now : Nat) (s : State) : Host.Outcome State Fault Refusal :=
  onDev (fun d =>
    let d := d.at_ now
    if d.barOpen off ∧ ¬ ownRow off then d.writeWord m off v else d) s

end Sys2Proof.Machine
end

