-- ==== Sys2Proof/Machine/Endpoint.lean ====
section
/-! DEFINITION. The host endpoint: the DRAM window, the resets of the endpoint function, and mailbox aborts (R420, R421, R442). -/

namespace Sys2Proof.Machine

open Reg

/-! The DRAM window (R420). -/

/-- The tile that BAR4 selects. -/
def Dev.winTile (d : Dev) : Fin 32 := Fin.ofNat 32 (d.getF HUB_BAR4_SEL_TILE)
/-- The DRAM offset of BAR4 offset `x`. -/
def Dev.winAt (d : Dev) (x : Nat) : Nat := d.getF HUB_BAR4_SEL_WINDOW * 2 ^ 32 + x
/-- The selected tile is out of service or lends its DRAM. -/
def Dev.winGone (d : Dev) : Bool := !d.inService d.winTile || d.lends d.winTile

/-- BAR4_READ (R420): `reps` lists the lines that the codes did not find clean. -/
def execBar4Read (off : BitVec 32) (len : Nat) (reps : List (Nat × EccRep)) (now : Nat) (s : State) : Host.Outcome State Fault Refusal :=
  onDev (fun d =>
    let d := d.at_ now
    if ¬ d.flag SEC_GRANT_HELD then d.emit (.window (List.replicate len 0))
    else if d.winGone then d.emit (.window (List.replicate len 0xFF))
    else
      let a := d.winAt off.toNat
      let r := d.homeRead d.winTile (a / 64 * 64) (a % 64 + len) reps
      r.2.2.emit (.window ((r.1.drop (a % 64)).take len))) s

/-- One line of a window write: `b` are the bytes from `o` of line `l` on. A line written in part is read first, and stays as it is when
that read is uncorrectable (notes/assumptions/54.md). -/
def Dev.winLine (d : Dev) (n : Fin 32) (l o : Nat) (b : List Byte) (reps : List (Nat × EccRep)) : Dev :=
  if b.length = 64 then d.homeWrite n (64 * l) b
  else
    let r := d.dramRead n l 1 (repOf reps l)
    if r.2.1 then r.2.2 else r.2.2.homeWrite n (64 * l) (splice r.1 o b)

/-- BAR4_WRITE (R420). -/
def execBar4Write (off : BitVec 32) (data : List Byte) (reps : List (Nat × EccRep)) (now : Nat) (s : State) :
    Host.Outcome State Fault Refusal :=
  onDev (fun d =>
    let d := d.at_ now
    if ¬ d.flag SEC_GRANT_HELD ∨ d.winGone then d
    else
      let a := d.winAt off.toNat
      let n := d.winTile
      (List.range ((a % 64 + data.length + 63) / 64)).foldl (fun d k =>
        let o := if k = 0 then a % 64 else 0
        let b := if k = 0 then data.take (64 - o) else (data.drop (64 * k - a % 64)).take 64
        d.winLine n (a / 64 + k) o b reps) d) s

/-! Resets of the endpoint function (R421, R476, R478). -/

/-- ENDPOINT_LINK_DOWN (R421): the grant ends, and host memory is out of reach. -/
def execEndpointLinkDown (now : Nat) (s : State) : Host.Outcome State Fault Refusal :=
  onDev (fun d =>
    let d := (d.at_ now).endGrant
    { d with rst := { d.rst with hostDown := true } }) s

/-- HOT_RESET (R421, R439, R476): the endpoint function alone; the grant ends and the link retrains. -/
def execHotReset (now : Nat) (s : State) : Host.Outcome State Fault Refusal :=
  onDev (fun d =>
    let d := (d.at_ now).endGrant
    { d with rst := { d.rst with hostDown := true } }) s

/-- Every submission and completion queue is disabled. -/
def Dev.queuesOff (d : Dev) : Dev :=
  (List.finRange 64).foldl (fun d (q : Fin 64) => (d.setF (SRV_SQ_CFG_ENABLE q) 0).setF (SRV_CQ_CFG_ENABLE q) 0) d

/-- The interrupt-controller block and the MSI-X state are at their reset values (R421, R464). -/
def Dev.intReset (d : Dev) : Dev :=
  { d with regs := d.regs.filter fun e => e.1 / 0x100000 != 1, msix := ⟨false, false⟩, maskOld := [], msixOld := none }

/-- FUNCTION_LEVEL_RESET (R421). -/
def execFunctionLevelReset (now : Nat) (s : State) : Host.Outcome State Fault Refusal :=
  onDev (fun d => (((d.at_ now).endGrant).queuesOff).intReset) s

/-! Aborts (R442). -/

/-- The group whose start the mailbox runs. -/
def Dev.starting (d : Dev) : Option (Fin 4) := (List.finRange 4).find? fun g => d.gstate g == 1

/-- The running command has passed its completion: a load after stage 7 or a failure (R225, R226). -/
def Dev.pastCompletion (d : Dev) : Bool := d.res.job.any fun j => j.ending.isSome

/-- The command stops as its chapter states (R224, R226, R298, R354, R443). -/
def Dev.abortRun (d : Dev) (r : MbxRun) : Dev :=
  let d : Dev := { d.setF HUB_MBX_STATUS_ABORT_RESULT 1 with mbx := { d.mbx with run := some { r with abort := true } } }
  match r.code with
  | 0x0101 => d.loadStop 3 0 4
  | 0x0103 => d.loadStop 3 0 4
  | 0x0201 => ((d.starting).elim d fun g => d.startAbandon g).mbxAborted
  | 0x0301 => d.bertAbort.mbxAborted
  | _ => d

/-- MAILBOX_ABORT (R442): a write of HUB_MBX_ABORT. -/
def execMailboxAbort (s : State) : Host.Outcome State Fault Refusal :=
  onDev (fun d =>
    if ¬ d.barOpen HUB_MBX_ABORT then d
    else match d.mbx.run with
      | none => d.setF HUB_MBX_STATUS_ABORT_RESULT 2
      | some r =>
        if r.abort then d
        else if mbxStops r.code ∧ ¬ d.pastCompletion then d.abortRun r
        else d.setF HUB_MBX_STATUS_ABORT_RESULT 2) s

end Sys2Proof.Machine
end

