-- ==== Sys2Proof/Machine/Interrupts.lean ====
section
/-! DEFINITION. The interrupt controller: messages, forced edges, cleared pending bits and the masking window (R458 to R464). -/

namespace Sys2Proof.Machine

open Reg

/-- What the controller goes by in a masking window: each value in effect before the write that opened it (R462). -/
def Dev.beforeWindow (d : Dev) : Dev :=
  d.maskOld.foldl (fun e x => e.setR x.1 x.2) { d with msix := d.msixOld.getD d.msix }

/-- The conditions of R460 for vector `v`. -/
def Dev.mayMessage (d : Dev) (v : Nat) : Bool :=
  d.vecWants v && d.flag INT_CTRL_GEN && d.msix.enable && !d.msix.fmask && !d.vecMasked v

/-- The enabled sources that map to `v` are pending no longer. -/
def Dev.clearPend (d e : Dev) (v : Nat) : Dev :=
  (List.range 768).foldl (fun d n =>
    if e.isPending n ∧ e.flag (INT_SRC_CFG_ENABLE n) ∧ e.srcVector n = v then d.setBit (INT_PEND (n / 32)) (n % 32) false else d) d

/-- MSIX_MESSAGE (R460, R462): the memory write of table entry `vec`; `early`: in a cycle before the end of a masking window, under the
values before the write that opened it. -/
def execMsixMessage (vec : Fin 2048) (early : Bool) (s : State) : Host.Outcome State Fault Refusal :=
  onDev (fun d =>
    let e := if early then d.beforeWindow else d
    if e.mayMessage vec then
      let a := 0x110000 + 16 * vec.val
      ((d.clearPend e vec).satInc INT_SENT_COUNT).emit (.msix vec (d.getPair a (a + 4)) (d.getN (a + 8)))
    else d) s

/-- INT_FORCE (R459, R464): an edge on a source that is not reserved. -/
def execIntForce (src : Nat) (s : State) : Host.Outcome State Fault Refusal :=
  onDev (fun d => if d.barOpen INT_FORCE then d.edge src else d) s

/-- INT_PEND_CLR (R459, R464). -/
def execIntPendClr (src : Nat) (s : State) : Host.Outcome State Fault Refusal :=
  onDev (fun d =>
    if d.barOpen INT_PEND_CLR ∧ sourceListed src then d.setBit (INT_PEND (src / 32)) (src % 32) false else d) s

/-- INT_REGISTER_READ (R462): a read of an INT_ register, the MSI-X table or the pending-bit array returns after the masking window. -/
def execIntRegisterRead (m : Master) (off : Nat) (s : State) : Host.Outcome State Fault Refusal :=
  onDev (fun d =>
    if off / 0x100000 = 1 ∧ (regDesc off).isSome then
      let d : Dev := { d with maskOld := [], msixOld := none }
      d.emit (.readData (d.readWord m off))
    else d) s

end Sys2Proof.Machine
end

