-- ==== Sys2Proof/Machine/Panel.lean ====
section
/-! DEFINITION. The service panel: the button, the tray latch and drains (R446 to R449). -/

namespace Sys2Proof.Machine

open Reg

/-- A panel event latches: SMBALERT# is asserted until KZ_PANEL reads the panel (R445). The hub takes the edge while it has power. -/
def Dev.panelLatch (d : Dev) (b : Nat) : Dev :=
  let p := d.getR (INT_PEND 0)
  let d := d.latch egPanel b
  let d : Dev := { d with sb := { d.sb with alertPanel := true } }
  (if d.pw.phase = .main then d else d.setR (INT_PEND 0) p).updLed

def Dev.draining (d : Dev) : Bool := d.flag HUB_PANEL_STATUS_DRAIN

/-- A drain starts, unless one is running (R448 steps 1 and 2). -/
def Dev.drainStart (d : Dev) (byButton : Bool) : Dev :=
  if d.draining ∨ d.pw.phase ≠ .main then d
  else
    let d := (d.setF HUB_PANEL_STATUS_DRAIN 1).setF HUB_PANEL_STATUS_DRAIN_DONE 0
    let d : Dev := { d.edge 8 with sb := { d.sb with alertPanel := true }
                                   panel := { d.panel with byButton := byButton, drainAt := d.now, timedOut := false } }
    ((List.finRange 32).foldl (fun d (n : Fin 32) => if d.flag (MEM_LEND_LEND n) then d.reclaim n else d) d).updLed

/-- A drain ends: DRAIN and DRAIN_DONE clear. -/
def Dev.drainEnd (d : Dev) : Dev := ((d.setF HUB_PANEL_STATUS_DRAIN 0).setF HUB_PANEL_STATUS_DRAIN_DONE 0).updLed

/-- The panel island has power. -/
def Dev.panelOn (d : Dev) : Bool := decide (d.pw.phase ≠ .off)

/-- SVC_BUTTON_PRESS (R446): a debounced press. -/
def execSvcButtonPress (now : Nat) (s : State) : Host.Outcome State Fault Refusal :=
  onDev (fun d =>
    if ¬ d.panelOn ∨ d.panel.pressedAt.isSome then d
    else
      let d := (d.at_ now).setF HUB_PANEL_STATUS_BUTTON 1
      { d with panel := { d.panel with pressedAt := some d.now, longDone := false } }) s

/-- SVC_BUTTON_RELEASE (R447): after a hold of up to 2 s, SVC_REQ and BUTTON are set. -/
def execSvcButtonRelease (now : Nat) (s : State) : Host.Outcome State Fault Refusal :=
  onDev (fun d =>
    match d.panel.pressedAt with
    | none => d
    | some t =>
      let d := (d.at_ now).setF HUB_PANEL_STATUS_BUTTON 0
      let d : Dev := { d with panel := { d.panel with pressedAt := none } }
      if d.now ≤ t + 2000000000 then (d.setF HUB_PANEL_STATUS_SVC_REQ 1).panelLatch 0 else d) s

/-- LONG_PRESS (R447): the button has been held for 5 s. -/
def execLongPress (now : Nat) (s : State) : Host.Outcome State Fault Refusal :=
  onDev (fun d =>
    match d.panel.pressedAt with
    | none => d
    | some t =>
      if d.panel.longDone ∨ now < t + 5000000000 then d
      else
        let d : Dev := d.at_ now
        let d : Dev := { d with panel := { d.panel with longDone := true } }
        (d.panelLatch 1).drainStart true) s

/-- LATCH_OPENED (R447). -/
def execLatchOpened (now : Nat) (s : State) : Host.Outcome State Fault Refusal :=
  onDev (fun d =>
    if ¬ d.panelOn ∨ d.flag HUB_PANEL_STATUS_LATCH_OPEN then d
    else (((d.at_ now).setF HUB_PANEL_STATUS_LATCH_OPEN 1).panelLatch 2).drainStart false) s

/-- LATCH_CLOSED (R447): any drain ends. -/
def execLatchClosed (now : Nat) (s : State) : Host.Outcome State Fault Refusal :=
  onDev (fun d =>
    if ¬ d.panelOn ∨ ¬ d.flag HUB_PANEL_STATUS_LATCH_OPEN then d
    else (((d.at_ now).setF HUB_PANEL_STATUS_LATCH_OPEN 0).drainEnd).panelLatch 3) s

/-- What a drain waits for (R448 step 3). -/
def Dev.drained (d : Dev) : Bool :=
  ((List.range 4).all fun g => d.gstate g == 0 || d.gstate g == 3 || d.gstate g == 4) &&
    ((List.finRange 32).all fun n => !d.lends n || (d.tile n).pool.isEmpty) && !d.mbxBusy

/-- DRAIN_DONE (R448 step 3). -/
def execDrainDone (now : Nat) (s : State) : Host.Outcome State Fault Refusal :=
  onDev (fun d =>
    if d.draining ∧ ¬ d.flag HUB_PANEL_STATUS_DRAIN_DONE ∧ ¬ d.panel.timedOut ∧ d.drained then
      ((d.at_ now).setF HUB_PANEL_STATUS_DRAIN_DONE 1).panelLatch 4
    else d) s

/-- DRAIN_TIMEOUT (R448): the timer ends before DRAIN_DONE; nothing further is done. -/
def execDrainTimeout (now : Nat) (s : State) : Host.Outcome State Fault Refusal :=
  onDev (fun d =>
    if d.draining ∧ ¬ d.flag HUB_PANEL_STATUS_DRAIN_DONE ∧ ¬ d.panel.timedOut ∧
        d.panel.drainAt + d.getF HUB_PANEL_CTRL_DRAIN_MS * 1000000 ≤ now then
      let d : Dev := d.at_ now
      ({ d with panel := { d.panel with timedOut := true } } : Dev).panelLatch 5
    else d) s

/-- DRAIN_CANCEL (R448): ends a drain that the button started. -/
def execDrainCancel (now : Nat) (s : State) : Host.Outcome State Fault Refusal :=
  onDev (fun d => if d.draining ∧ d.panel.byButton then (d.at_ now).drainEnd else d) s

/-- SVC_ACK (R447). -/
def execSvcAck (s : State) : Host.Outcome State Fault Refusal := onDev (fun d => (d.setF HUB_PANEL_STATUS_SVC_REQ 0).updLed) s

end Sys2Proof.Machine
end

