-- ==== Sys2Proof/Machine/Resets.lean ====
section
/-! DEFINITION. WARM resets, fatal errors and the dump (R476 to R488). -/

namespace Sys2Proof.Machine

open Reg

/-! Resets (R476, R477, R488). -/

/-- PERST_ASSERT (R477): PERST# falls, and with the main stages on a WARM reset begins. -/
def execPerstAssert (now : Nat) (s : State) : Host.Outcome State Fault Refusal :=
  onDev (fun d =>
    if d.rst.perstLow then d
    else
      let d : Dev := d.at_ now
      let d : Dev := { d with rst := { d.rst with perstLow := true } }
      if d.pw.phase = .main then d.warmReset 2 true else d) s

/-- The reset ends and boot runs (R477). -/
def Dev.bootAgain (d : Dev) (flashOk pufOk : Bool) (f : Flash) : Dev :=
  bootStart d.now flashOk pufOk f { d with rst := { d.rst with warm := none } }

/-- PERST_RELEASE (R477): PERST# rises; a WARM reset that it held ends. -/
def execPerstRelease (now : Nat) (flashOk pufOk : Bool) (s : State) : Host.Outcome State Fault Refusal :=
  onDevF (fun f d =>
    let d : Dev := d.at_ now
    let d : Dev := { d with rst := { d.rst with perstLow := false } }
    if d.rst.warm = some true then d.bootAgain flashOk pufOk f else d) s

/-- WARM_RESET_END (R477): 100 µs have passed; PERST# low holds the reset on. -/
def execWarmResetEnd (now : Nat) (flashOk pufOk : Bool) (s : State) : Host.Outcome State Fault Refusal :=
  onDevF (fun f d =>
    if d.rst.warm = some false ∧ d.rst.since + 100000 ≤ now then
      let d : Dev := d.at_ now
      if d.rst.perstLow then { d with rst := { d.rst with warm := some true } } else d.bootAgain flashOk pufOk f
    else d) s

/-- HUB_RESET_WARM (R488): HUB_RESET with GO and KIND WARM. -/
def execHubResetWarm (m : Master) (now : Nat) (s : State) : Host.Outcome State Fault Refusal :=
  onDev (fun d =>
    if ¬ d.barOpen HUB_RESET then d
    else if ¬ d.privileged m then d.deny HUB_RESET
    else if d.pw.phase = .main then (d.at_ now).warmReset 3 false else d) s

/-! Fatal errors (R483, R484). -/

/-- HUB_RESET_DUMP (R488): HUB_RESET with GO and KIND DUMP is a fatal error with cause HOST. -/
def execHubResetDump (m : Master) (now : Nat) (s : State) : Host.Outcome State Fault Refusal :=
  onDev (fun d =>
    if ¬ d.barOpen HUB_RESET then d
    else if ¬ d.privileged m then d.deny HUB_RESET
    else (d.at_ now).fatalRaise 0x06 0) s

/-- MGMT_WATCHDOG_EXPIRY (R483). -/
def execMgmtWatchdogExpiry (now : Nat) (s : State) : Host.Outcome State Fault Refusal :=
  onDev (fun d => (d.at_ now).fatalRaise 0x02 0) s

/-- DISP_WATCHDOG_EXPIRY (R483): ARG is the core. -/
def execDispWatchdogExpiry (core : Fin 8) (now : Nat) (s : State) : Host.Outcome State Fault Refusal :=
  onDev (fun d => (d.at_ now).fatalRaise 0x03 core) s

/-- CAUSE of a fatal error that no other row names (R483). -/
def FatalCause.code : FatalCause → Nat
  | .hubUe => 0x01
  | .xbar => 0x04
  | .rot => 0x05

/-- FATAL_ERROR (R483, R484): ARG is a byte offset, an island number, or 0. -/
def execFatalError (cause : FatalCause) (arg : BitVec 24) (now : Nat) (s : State) : Host.Outcome State Fault Refusal :=
  onDev (fun d => (d.at_ now).fatalRaise (FatalCause.code cause) (if cause = .rot then 0 else arg.toNat)) s

/-! The dump (R485 to R487). -/

/-- A section: TYPE, INDEX, SOURCE, whether it could not be reached, and its bytes. -/
structure DumpSec where
  type : Nat
  index : Nat
  source : Nat
  lost : Bool
  bytes : List Byte
  deriving DecidableEq, Repr

/-- Exactly `n` bytes: cut, or filled with zeros. -/
def fit (n : Nat) (l : List Byte) : List Byte := l.take n ++ List.replicate (n - l.length) 0

/-- A register as the dump engine reads it: as a privileged master, with no side effect. -/
def Dev.imageWord (d : Dev) (o : Nat) : Nat :=
  match regDesc o with
  | none => 0
  | some r => (d.computed o &&& ~~~ hiddenMask r true).toNat

/-- A register image. -/
def Dev.regImage (d : Dev) (base len : Nat) : List Byte := (List.range (len / 4)).flatMap fun i => leBytes 4 (d.imageWord (base + 4 * i))

/-- The 84 sections of a dump in their order. `sram` and `fw` are the memories of the tile controllers and of the hub firmware, and
`unread` names the sections (TYPE and INDEX) that could not be read. -/
def Dev.dumpSecs (d : Dev) (sram : List (List Byte)) (fw : List Byte) (unread : List (Nat × Nat)) : List DumpSec :=
  let sec (t i src : Nat) (gone : Bool) (n : Nat) (b : List Byte) : DumpSec :=
    if gone || unread.contains (t, i) then ⟨t, i, src, true, List.replicate n 0⟩ else ⟨t, i, src, false, fit n b⟩
  ((List.range 10).map fun n => sec 1 n (n * 0x100000) false 0x100000 (d.regImage (n * 0x100000) 0x100000)) ++
    ((List.range 32).map fun n => sec 2 n (tileBase n) (!d.inService n) 0xC0000 (d.regImage (tileBase n) 0xC0000)) ++
    ((List.range 8).map fun k => sec 3 k (oeBase k) false 0x2000 (d.regImage (oeBase k) 0x2000)) ++
    [sec 4 0 0 false 0x40000 ((List.range 0x10000).flatMap fun i => leBytes 4 (d.logWord (0x10000 + 4 * i)))] ++
    ((List.range 32).map fun n => sec 5 n 0 (!d.inService n) 0x80000 (sram.getD n [])) ++
    [sec 6 0 0 false 0x2000000 fw]

/-- A section entry (R486). -/
def secEntry (x : DumpSec) (off : Nat) : List Byte :=
  leBytes 1 x.type ++ leBytes 1 (if x.lost then 1 else 0) ++ leBytes 2 x.index ++ leBytes 4 0 ++ leBytes 8 off ++ leBytes 8 x.bytes.length ++
    leBytes 8 x.source

/-- The section entries from slot offset `off` on: each section begins at the next 4 KiB boundary. -/
def secTable : List DumpSec → Nat → List Byte
  | [], _ => []
  | x :: t, off => secEntry x off ++ secTable t ((off + x.bytes.length + 4095) / 4096 * 4096)

/-- Slot bytes from 0x1000 on: the section table and the section data. -/
def dumpBody (l : List DumpSec) : List Byte :=
  fit 0x1000 (secTable l 0x2000) ++ l.flatMap fun x => fit ((x.bytes.length + 4095) / 4096 * 4096) x.bytes

/-- The dump slot that is written next, and its DUMP_SEQ (R485). -/
def Dev.nextDump (d : Dev) : Nat × Nat :=
  match newestDump d.dumpSeqs with
  | some (i, q) => ((i + 1) % 8, (q + 1) % 2 ^ 32)
  | none => (0, 1)

/-- The header (R486), HEADER_CRC included. -/
def Dev.dumpHeader (d : Dev) (f : Fatal) (seq : Nat) (err : Bool) (body : List Byte) : List Byte :=
  let b := leBytes 4 0x50445A4B ++ leBytes 2 1 ++ leBytes 1 (d.getN HUB_FATAL_INFO / 2 ^ 24) ++ leBytes 1 (if err then 3 else 1) ++
    leBytes 8 f.at_ ++ leBytes 4 seq ++ leBytes 4 (d.getN HUB_FATAL_INFO % 2 ^ 24) ++ leBytes 8 (d.getPair HUB_UID_LO HUB_UID_HI) ++
    leBytes 8 (d.getPair HUB_FW_VER_LO HUB_FW_VER_HI) ++ leBytes 4 (d.getF HUB_BOOT_STATUS_SVN) ++ leBytes 4 f.tileUp ++ leBytes 4 84 ++
    leBytes 4 f.logHead ++ leBytes 8 (0x1000 + body.length) ++ leBytes 4 (crc32c body)
  let b := fit 0xFFC b
  b ++ leBytes 4 (crc32c b)

/-- DUMP_COMPLETE (R484 events 4 and 5, R485 to R487): every section, then the header. -/
def execDumpComplete (sram : List (List Byte)) (fw : List Byte) (unread : List (Nat × Nat)) (now : Nat) (s : State) :
    Host.Outcome State Fault Refusal :=
  onDev (fun d =>
    match d.rst.fatal with
    | none => d
    | some f =>
      if ¬ d.flag HUB_DUMP_STATUS_ACTIVE then d
      else
        let d : Dev := d.at_ now
        let x := d.nextDump
        let secs := d.dumpSecs sram fw unread
        let body := dumpBody secs
        let hdr := d.dumpHeader f x.2 (secs.any fun q => unread.contains (q.type, q.index)) body
        ((d.homeWrite 0 (dumpSlot x.1 + 0x1000) body).homeWrite 0 (dumpSlot x.1) hdr).fatalEnd) s

/-- DUMP_TIMEOUT (R484): 10 ms after the fatal error the dump has not finished. `part` are the bytes that the engine had written from
slot offset 0x1000 on; the slot's header does not have COMPLETE (notes/assumptions/55.md). -/
def execDumpTimeout (part : List Byte) (now : Nat) (s : State) : Host.Outcome State Fault Refusal :=
  onDev (fun d =>
    match d.rst.fatal with
    | none => d
    | some f =>
      if ¬ d.flag HUB_DUMP_STATUS_ACTIVE ∨ now < f.at_ + 10000000 then d
      else
        let d : Dev := d.at_ now
        let a := dumpSlot d.nextDump.1
        let h := d.dramBytes 0 a 64
        let h := h.take 7 ++ [(h.getD 7 0) &&& 0xFE] ++ h.drop 8
        ((d.homeWrite 0 (a + 0x1000) (part.take 0x0FFFF000)).homeWrite 0 a h).fatalEnd) s

/-- DUMP_DISCARD (R488): HUB_DUMP_CTRL.DISCARD zeros the first 4 KiB of the named dump slots; discarded while ACTIVE is 1. -/
def execDumpDiscard (m : Master) (mask : BitVec 8) (s : State) : Host.Outcome State Fault Refusal :=
  onDev (fun d =>
    if ¬ d.barOpen HUB_DUMP_CTRL then d
    else if ¬ d.privileged m then (if mask = 0 then d else d.deny HUB_DUMP_CTRL)
    else if d.flag HUB_DUMP_STATUS_ACTIVE then d
    else (List.range 8).foldl (fun d i => if mask.getLsbD i then d.dumpZero i else d) d) s

end Sys2Proof.Machine
end

