-- ==== Sys2Proof/Machine/Stitch.lean ====
section
/-! DEFINITION. Host jobs of the Stitch units (R471 to R475). -/

namespace Sys2Proof.Machine

open Reg

def stcBase : StcUnit → Nat
  | .hub u => hubStc u
  | .tile n => tileStc n

def stcGroup : StcUnit → EvGroup
  | .hub u => egHubStc u
  | .tile n => egTileStc n

/-- W of R475. -/
def Dev.stcWidth (d : Dev) (b : Nat) : Nat := 8 * 2 ^ d.getF (STC_CFG_WIDTH b)

def Dev.stcParams (d : Dev) (b : Nat) : CrcParams :=
  let w := d.stcWidth b
  ⟨w, d.getPair (STC_POLY_LO b) (STC_POLY_HI b) % 2 ^ w, d.getPair (STC_INIT_LO b) (STC_INIT_HI b), d.flag (STC_CFG_REFIN b),
    d.flag (STC_CFG_REFOUT b), d.getPair (STC_XOROUT_LO b) (STC_XOROUT_HI b)⟩

def Dev.stcSrc (d : Dev) (b : Nat) : Nat := d.getPair (STC_SRC_LO b) (STC_SRC_HI b)

/-- FOLD in effect: 3 is applied as 0. -/
def Dev.stcFold (d : Dev) (b : Nat) : Nat := d.getF (STC_CFG_FOLD b) % 3

/-- The fold value of R472. -/
def Dev.stcFoldValue (d : Dev) (u : StcUnit) : Nat :=
  let b := stcBase u
  let sh := max 3 (d.getF (STC_CFG_FOLD_SHIFT b))
  match d.stcFold b with
  | 1 => match u with
    | .hub _ => d.stcSrc b / 2 ^ sh
    | .tile n => n.val * 2 ^ 32 + d.stcSrc b / 2 ^ sh
  | 2 => d.getN (STC_SEQ b)
  | _ => 0

/-- The result of R471 over the source bytes. -/
def Dev.stcResult (d : Dev) (u : StcUnit) (bytes : List Byte) : Nat :=
  crcRun (d.stcParams (stcBase u)) ((if d.stcFold (stcBase u) = 0 then [] else leBytes 8 (d.stcFoldValue u)) ++ bytes)

/-- STITCH_GO (R473, R474): `own` says that the package's own check uses the unit. A tile out of service keeps its unit's registers, and
the job ends ERROR. -/
def execStitchGo (u : StcUnit) (kind : BitVec 2) (own : Bool) (s : State) : Host.Outcome State Fault Refusal :=
  onDev (fun d =>
    let b := stcBase u
    if ¬ d.barOpen b ∨ d.stcBusy b ∨ 1 < kind.toNat then d
    else
      (((d.setF (STC_CMD_KIND b) kind.toNat).setF (STC_STATUS_STATE b) (if own then 2 else 1)).setF (STC_STATUS_OWN b)
        (if own then 1 else 0)).setF (STC_STATUS_ERR b) 0) s

/-- The source bytes of a job, or the ERR code with which it ends: 1 range, 2 uncorrectable line, 3 host read, 4 tile lent or out of
service. `data` is what a hub unit reads; `reps` lists the lines that the codes did not find clean. -/
def Dev.stcBytes (d : Dev) (u : StcUnit) (data : Option (List Byte)) (reps : List (Nat × EccRep)) : (Nat ⊕ List Byte) × Dev :=
  let b := stcBase u
  let src := d.stcSrc b
  let len := d.getN (STC_LEN b)
  let kind := d.getF (STC_CMD_KIND b)
  match u with
  | .hub _ =>
    if kind = 1 ∧ 0x2000000 < src + len then (.inl 1, d)
    else if kind = 0 ∧ 2 ^ 64 < src + len then (.inl 1, d)
    else match data with
      | some l => if l.length = len then (.inr l, d) else (.inl 3, d)
      | none => (.inl 3, d)
  | .tile n =>
    if ¬ d.inService n ∨ d.lends n then (.inl 4, d)
    else if kind = 1 then
      if 0x4000000 < src + len then (.inl 1, d) else (.inr (memBytes (d.tile n).store src len), d)
    else if 2 ^ 35 < src + len then (.inl 1, d)
    else
      let r := d.homeRead n (src / 64 * 64) (src % 64 + len) reps
      if len ≠ 0 ∧ r.2.1 then (.inl 2, r.2.2) else (.inr ((r.1.drop (src % 64)).take len), r.2.2)

/-- STITCH_JOB_DONE (R471 to R473). -/
def execStitchJobDone (u : StcUnit) (data : Option (List Byte)) (reps : List (Nat × EccRep)) (now : Nat) (s : State) :
    Host.Outcome State Fault Refusal :=
  onRun (fun d =>
    let d := d.at_ now
    let b := stcBase u
    if ¬ d.stcBusy b then d
    else
      let x := d.stcBytes u data reps
      let d := (x.2.setF (STC_STATUS_OWN b) 0).setPair (STC_FOLD_LO b) (STC_FOLD_HI b) (x.2.stcFoldValue u)
      match x.1 with
      | .inl e => ((d.setF (STC_STATUS_STATE b) 4).setF (STC_STATUS_ERR b) e).latch (stcGroup u) 1
      | .inr l =>
        let d := (d.setPair (STC_RESULT_LO b) (STC_RESULT_HI b) (d.stcResult u l)).setF (STC_STATUS_STATE b) 3
        (if d.stcFold b = 2 then d.setN (STC_SEQ b) (d.getN (STC_SEQ b) + 1) else d).latch (stcGroup u) 0) s

end Sys2Proof.Machine
end

