-- ==== Sys2Proof/Machine/Dispatch.lean ====
section
/-! DEFINITION. One arm per command: a direct call of its meaning. -/

namespace Sys2Proof.Machine

/-- The effect of a command on everything but the queue. -/
def exec (i : Instr) (s : State) : Host.Outcome State Fault Refusal :=
  match i with
  | .registerWrite m off v now => Sys2Proof.Machine.execRegisterWrite m off v now s
  | .bar0BadAccess off len isWrite => Sys2Proof.Machine.execBar0BadAccess off len isWrite s
  | .regPairLowRead m off => Sys2Proof.Machine.execRegPairLowRead m off s
  | .unmappedWrite off now => Sys2Proof.Machine.execUnmappedWrite off now s
  | .eventSeqWriteback m off w => Sys2Proof.Machine.execEventSeqWriteback m off w s
  | .rwbTimerBoundary set now => Sys2Proof.Machine.execRwbTimerBoundary set now s
  | .seamTransfer idx retry => Sys2Proof.Machine.execSeamTransfer idx retry s
  | .seamDown seam lost now => Sys2Proof.Machine.execSeamDown seam lost now s
  | .seamUp seam now => Sys2Proof.Machine.execSeamUp seam now s
  | .routeClassUpdate now => Sys2Proof.Machine.execRouteClassUpdate now s
  | .oeSeamLinksDown k now => Sys2Proof.Machine.execOeSeamLinksDown k now s
  | .tileExit n cause seamOk now => Sys2Proof.Machine.execTileExit n cause seamOk now s
  | .timeMessage now => Sys2Proof.Machine.execTimeMessage now s
  | .crossingTransfer idx full => Sys2Proof.Machine.execCrossingTransfer idx full s
  | .tileRetireWrite m mask progA progB => Sys2Proof.Machine.execTileRetireWrite m mask progA progB s
  | .nop p st => Sys2Proof.Machine.execNop p st s
  | .wait p tok bound => Sys2Proof.Machine.execWait p tok bound s
  | .waitRelease n cyc => Sys2Proof.Machine.execWaitRelease n cyc s
  | .waitExpiry n lost => Sys2Proof.Machine.execWaitExpiry n lost s
  | .signal p st tok pkg tile loc => Sys2Proof.Machine.execSignal p st tok pkg tile loc s
  | .signalTokenSend n => Sys2Proof.Machine.execSignalTokenSend n s
  | .tokenMessage n tok seq epoch err cyc => Sys2Proof.Machine.execTokenMessage n tok seq epoch err cyc s
  | .loop p group slot maxtrip => Sys2Proof.Machine.execLoop p group slot maxtrip s
  | .lend p group => Sys2Proof.Machine.execLend p group s
  | .endStream p st => Sys2Proof.Machine.execEnd p st s
  | .mark p st marker now => Sys2Proof.Machine.execMark p st marker now s
  | .mma p half msel sw clr ft afmt atid rows acc aaddr astride saddr => Sys2Proof.Machine.execMma p half msel sw clr ft afmt atid rows acc aaddr astride saddr s
  | .drain p half odd dkind scl zero atid acc rows vd daddr dstride => Sys2Proof.Machine.execDrain p half odd dkind scl zero atid acc rows vd daddr dstride s
  | .vfma p vd va vb vc k bimm imm => Sys2Proof.Machine.execVfma p vd va vb vc k bimm imm s
  | .vadd p vd va vb k bimm imm => Sys2Proof.Machine.execVadd p vd va vb k bimm imm s
  | .vsub p vd va vb k bimm imm => Sys2Proof.Machine.execVsub p vd va vb k bimm imm s
  | .vmul p vd va vb k bimm imm => Sys2Proof.Machine.execVmul p vd va vb k bimm imm s
  | .vmax p vd va vb k bimm imm => Sys2Proof.Machine.execVmax p vd va vb k bimm imm s
  | .vmin p vd va vb k bimm imm => Sys2Proof.Machine.execVmin p vd va vb k bimm imm s
  | .vcmp p md va vb k fn bimm imm => Sys2Proof.Machine.execVcmp p md va vb k fn bimm imm s
  | .vsel p vd va vb k bimm imm => Sys2Proof.Machine.execVsel p vd va vb k bimm imm s
  | .vimm p vd k imm => Sys2Proof.Machine.execVimm p vd k imm s
  | .vred p vd va k fn grp => Sys2Proof.Machine.execVred p vd va k fn grp s
  | .vbcast p vd va k grp => Sys2Proof.Machine.execVbcast p vd va k grp s
  | .vexp2 p vd va k => Sys2Proof.Machine.execVexp2 p vd va k s
  | .vexp p vd va k => Sys2Proof.Machine.execVexp p vd va k s
  | .vrcp p vd va k => Sys2Proof.Machine.execVrcp p vd va k s
  | .vrsqrt p vd va k => Sys2Proof.Machine.execVrsqrt p vd va k s
  | .vlog2 p vd va k => Sys2Proof.Machine.execVlog2 p vd va k s
  | .vld p vd fmt addr stride saddr => Sys2Proof.Machine.execVld p vd fmt addr stride saddr s
  | .vst p v fmt addr stride => Sys2Proof.Machine.execVst p v fmt addr stride s
  | .vqst p v fmt ft tid addr stride saddr => Sys2Proof.Machine.execVqst p v fmt ft tid addr stride saddr s
  | .mcopy p sk dk len saddr daddr pkg tile bulk reps wues => Sys2Proof.Machine.execMcopy p sk dk len saddr daddr pkg tile bulk reps wues s
  | .matom p aop sz gaddr opaddr => Sys2Proof.Machine.execMatom p aop sz gaddr opaddr s
  | .happend p arg0 arg1 arg2 count param => Sys2Proof.Machine.execHappend p arg0 arg1 arg2 count param s
  | .hflush p arg0 arg1 arg2 count param => Sys2Proof.Machine.execHflush p arg0 arg1 arg2 count param s
  | .xtopk p arg0 arg1 arg2 count param => Sys2Proof.Machine.execXtopk p arg0 arg1 arg2 count param s
  | .xdispatchForwardEager p arg0 arg1 arg2 count param => Sys2Proof.Machine.execXdispatchForwardEager p arg0 arg1 arg2 count param s
  | .xdispatchForwardCoalesced p arg0 arg1 arg2 count param => Sys2Proof.Machine.execXdispatchForwardCoalesced p arg0 arg1 arg2 count param s
  | .xdispatchReturn p arg0 arg1 arg2 count param => Sys2Proof.Machine.execXdispatchReturn p arg0 arg1 arg2 count param s
  | .xcombine p arg0 arg1 arg2 count param => Sys2Proof.Machine.execXcombine p arg0 arg1 arg2 count param s
  | .wconvert p arg0 arg1 arg2 count param => Sys2Proof.Machine.execWconvert p arg0 arg1 arg2 count param s
  | .wpack p arg0 arg1 arg2 count param => Sys2Proof.Machine.execWpack p arg0 arg1 arg2 count param s
  | .wunpack p arg0 arg1 arg2 count param => Sys2Proof.Machine.execWunpack p arg0 arg1 arg2 count param s
  | .passStart n => Sys2Proof.Machine.execPassStart n s
  | .passOverrun n => Sys2Proof.Machine.execPassOverrun n s
  | .scheduleFault n cause stream idx cyc arg => Sys2Proof.Machine.execScheduleFault n cause stream idx cyc arg s
  | .sfaultReport g tile pkg now => Sys2Proof.Machine.execSfaultReport g tile pkg now s
  | .abortOrder g now => Sys2Proof.Machine.execAbortOrder g now s
  | .abortReady g tile pkg now => Sys2Proof.Machine.execAbortReady g tile pkg now s
  | .rerunReadyTimeout g now => Sys2Proof.Machine.execRerunReadyTimeout g now s
  | .rerunRelease g fw => Sys2Proof.Machine.execRerunRelease g fw s
  | .elasticAccess n bank => Sys2Proof.Machine.execElasticAccess n bank s
  | .voteRecordWrite n => Sys2Proof.Machine.execVoteRecordWrite n s
  | .voteRecordSend n => Sys2Proof.Machine.execVoteRecordSend n s
  | .packageVote g now => Sys2Proof.Machine.execPackageVote g now s
  | .voteDecision g votes now => Sys2Proof.Machine.execVoteDecision g votes now s
  | .voteTimeout g missing now => Sys2Proof.Machine.execVoteTimeout g missing now s
  | .decisionRecord g decision vote now => Sys2Proof.Machine.execDecisionRecord g decision vote now s
  | .passPrepare g fw => Sys2Proof.Machine.execPassPrepare g fw s
  | .refresh n k => Sys2Proof.Machine.execRefresh n k s
  | .scrubRead n reps => Sys2Proof.Machine.execScrubRead n reps s
  | .darnerWriteback n ch linkUe => Sys2Proof.Machine.execDarnerWriteback n ch linkUe s
  | .telemetryRead n temps => Sys2Proof.Machine.execTelemetryRead n temps s
  | .calibrationStep n warn fail => Sys2Proof.Machine.execCalibrationStep n warn fail s
  | .rotaBoundary n => Sys2Proof.Machine.execRotaBoundary n s
  | .homeQueueIssue n ch rep now => Sys2Proof.Machine.execHomeQueueIssue n ch rep now s
  | .ueReport n line source buffer progA progB now => Sys2Proof.Machine.execUeReport n line source buffer progA progB now s
  | .lendStart m n => Sys2Proof.Machine.execLendStart m n s
  | .lendReclaim m n now => Sys2Proof.Machine.execLendReclaim m n now s
  | .runRequest n pkg tile page len first now => Sys2Proof.Machine.execRunRequest n pkg tile page len first now s
  | .runRenewal n pkg first now => Sys2Proof.Machine.execRunRenewal n pkg first now s
  | .runRelease n pkg first => Sys2Proof.Machine.execRunRelease n pkg first s
  | .evictionNotice n now => Sys2Proof.Machine.execEvictionNotice n now s
  | .evictionGraceExpiry n first now => Sys2Proof.Machine.execEvictionGraceExpiry n first now s
  | .tierTransfer n obj => Sys2Proof.Machine.execTierTransfer n obj s
  | .tierTransferDone n id => Sys2Proof.Machine.execTierTransferDone n id s
  | .tierFetch n tok seq stream page slots hdr => Sys2Proof.Machine.execTierFetch n tok seq stream page slots hdr s
  | .tierFetchDone n id cyc => Sys2Proof.Machine.execTierFetchDone n id cyc s
  | .driveLinkDown drive now => Sys2Proof.Machine.execDriveLinkDown drive now s
  | .driveLinkUp drive speed width => Sys2Proof.Machine.execDriveLinkUp drive speed width s
  | .driveReady drive maxRead => Sys2Proof.Machine.execDriveReady drive maxRead s
  | .driveReadComplete drive chunk ok data now => Sys2Proof.Machine.execDriveReadComplete drive chunk ok data now s
  | .driveCmdTimeout drive chunk now => Sys2Proof.Machine.execDriveCmdTimeout drive chunk now s
  | .chunkForward chunk => Sys2Proof.Machine.execChunkForward chunk s
  | .chunkWring n now => Sys2Proof.Machine.execChunkWring n now s
  | .regionVerify region reps now => Sys2Proof.Machine.execRegionVerify region reps now s
  | .loadCommit now => Sys2Proof.Machine.execLoadCommit now s
  | .loadReport dmaOk => Sys2Proof.Machine.execLoadReport dmaOk s
  | .slotReverify slot reps now => Sys2Proof.Machine.execSlotReverify slot reps now s
  | .modelLoad now man retried => Sys2Proof.Machine.execModelLoad now man retried s
  | .modelEvict now => Sys2Proof.Machine.execModelEvict now s
  | .regionRewrite now man retried => Sys2Proof.Machine.execRegionRewrite now man retried s
  | .driveImage now data ok abortAfter => Sys2Proof.Machine.execDriveImage now data ok abortAfter s
  | .pegPush n q peg => Sys2Proof.Machine.execPegPush n q peg s
  | .forwardArrival n m => Sys2Proof.Machine.execForwardArrival n m s
  | .coalescedArrival n m => Sys2Proof.Machine.execCoalescedArrival n m s
  | .returnArrival n m => Sys2Proof.Machine.execReturnArrival n m s
  | .forwardDone n disp => Sys2Proof.Machine.execForwardDone n disp s
  | .returnDone n disp => Sys2Proof.Machine.execReturnDone n disp s
  | .barrierEnd g ret disp tok epoch seq pkg cyc => Sys2Proof.Machine.execBarrierEnd g ret disp tok epoch seq pkg cyc s
  | .intakeClose n disp cyc => Sys2Proof.Machine.execIntakeClose n disp cyc s
  | .groupStart now desc image => Sys2Proof.Machine.execGroupStart now desc image s
  | .join g pkg epoch now => Sys2Proof.Machine.execJoin g pkg epoch now s
  | .joinTimeout g now => Sys2Proof.Machine.execJoinTimeout g now s
  | .groupStop now => Sys2Proof.Machine.execGroupStop now s
  | .groupStopForce now => Sys2Proof.Machine.execGroupStopForce now s
  | .bar2Write off data now => Sys2Proof.Machine.execBar2Write off data now s
  | .sqTailDoorbell q v => Sys2Proof.Machine.execSqTailDoorbell q v s
  | .cqHeadDoorbell q v now => Sys2Proof.Machine.execCqHeadDoorbell q v now s
  | .submit q now => Sys2Proof.Machine.execSubmit q now s
  | .cancel q now => Sys2Proof.Machine.execCancel q now s
  | .badSubmissionOpcode q now => Sys2Proof.Machine.execBadSubmissionOpcode q now s
  | .sqCfgWrite q v => Sys2Proof.Machine.execSqCfgWrite q v s
  | .cqCfgWrite q v now => Sys2Proof.Machine.execCqCfgWrite q v now s
  | .cqStall seq now => Sys2Proof.Machine.execCqStall seq now s
  | .stepReport g recs now => Sys2Proof.Machine.execStepReport g recs now s
  | .stepBoundary g reps exit noRoom notReady prompt now => Sys2Proof.Machine.execStepBoundary g reps exit noRoom notReady prompt now s
  | .stepOrderSend g now => Sys2Proof.Machine.execStepOrderSend g now s
  | .stepOrder order ledger opens fw now => Sys2Proof.Machine.execStepOrder order ledger opens fw now s
  | .boundaryRetry g exit noRoom notReady prompt now => Sys2Proof.Machine.execBoundaryRetry g exit noRoom notReady prompt now s
  | .stopOrder g halt now => Sys2Proof.Machine.execStopOrder g halt now s
  | .leadTimeout g now => Sys2Proof.Machine.execLeadTimeout g now s
  | .pauseOrder order now => Sys2Proof.Machine.execPauseOrder order now s
  | .damageClearedReport g pkg noRoom notReady prompt now => Sys2Proof.Machine.execDamageClearedReport g pkg noRoom notReady prompt now s
  | .linkSignalDetect j => Sys2Proof.Machine.execLinkSignalDetect j s
  | .identity j id idx slice => Sys2Proof.Machine.execIdentity j id idx slice s
  | .qualifyEnd j errs bits => Sys2Proof.Machine.execQualifyEnd j errs bits s
  | .qualResult j pass => Sys2Proof.Machine.execQualResult j pass s
  | .qualRetryTimer j => Sys2Proof.Machine.execQualRetryTimer j s
  | .linkJoin j now => Sys2Proof.Machine.execLinkJoin j now s
  | .linkDown j cause now => Sys2Proof.Machine.execLinkDown j cause now s
  | .fenceEnd src dst now => Sys2Proof.Machine.execFenceEnd src dst now s
  | .linkLos j signal now => Sys2Proof.Machine.execLinkLos j signal now s
  | .linkSilentTimeout j now => Sys2Proof.Machine.execLinkSilentTimeout j now s
  | .fecFailure j corr uncorr now => Sys2Proof.Machine.execFecFailure j corr uncorr now s
  | .laserLoss k fibre now => Sys2Proof.Machine.execLaserLoss k fibre now s
  | .laserRestore k fibre => Sys2Proof.Machine.execLaserRestore k fibre s
  | .frameReceive j f now => Sys2Proof.Machine.execFrameReceive j f now s
  | .nakReceive j ack now => Sys2Proof.Machine.execNakReceive j ack now s
  | .replayTimeout j now => Sys2Proof.Machine.execReplayTimeout j now s
  | .frameTransmit j now => Sys2Proof.Machine.execFrameTransmit j now s
  | .reachabilityNotice port unreach stage target now => Sys2Proof.Machine.execReachabilityNotice port unreach stage target now s
  | .destinationLost e now => Sys2Proof.Machine.execDestinationLost e now s
  | .routeEntryWrite m e v now => Sys2Proof.Machine.execRouteEntryWrite m e v now s
  | .portEnable m port now => Sys2Proof.Machine.execPortEnable m port now s
  | .portDisable m port now => Sys2Proof.Machine.execPortDisable m port now s
  | .portDrainDone port now => Sys2Proof.Machine.execPortDrainDone port now s
  | .portLinksWrite m port hi v => Sys2Proof.Machine.execPortLinksWrite m port hi v s
  | .linkDisable m j now => Sys2Proof.Machine.execLinkDisable m j now s
  | .linkEnable m j => Sys2Proof.Machine.execLinkEnable m j s
  | .linkBert now => Sys2Proof.Machine.execLinkBert now s
  | .testReq j ms pattern now => Sys2Proof.Machine.execTestReq j ms pattern now s
  | .testAck j accepted => Sys2Proof.Machine.execTestAck j accepted s
  | .testAckTimeout j => Sys2Proof.Machine.execTestAckTimeout j s
  | .testEnd j errs bits => Sys2Proof.Machine.execTestEnd j errs bits s
  | .periodicTestStart k now => Sys2Proof.Machine.execPeriodicTestStart k now s
  | .periodicTestYield k => Sys2Proof.Machine.execPeriodicTestYield k s
  | .loadReq n m bulk => Sys2Proof.Machine.execLoadReq n m bulk s
  | .store n m => Sys2Proof.Machine.execStore n m s
  | .bulkStore n m => Sys2Proof.Machine.execBulkStore n m s
  | .atomic n m => Sys2Proof.Machine.execAtomic n m s
  | .mgmt m => Sys2Proof.Machine.execMgmt m s
  | .loadData h m => Sys2Proof.Machine.execLoadData h m s
  | .ack h m => Sys2Proof.Machine.execAck h m s
  | .atomicResult h m => Sys2Proof.Machine.execAtomicResult h m s
  | .error h m => Sys2Proof.Machine.execError h m s
  | .gateway m => Sys2Proof.Machine.execGateway m s
  | .gatewayEgress id => Sys2Proof.Machine.execGatewayEgress id s
  | .gatewaySlotAsk pkg slots => Sys2Proof.Machine.execGatewaySlotAsk pkg slots s
  | .unknownDeludOp m => Sys2Proof.Machine.execUnknownDeludOp m s
  | .homeLineAccess n => Sys2Proof.Machine.execHomeLineAccess n s
  | .homeLineWriteback n line => Sys2Proof.Machine.execHomeLineWriteback n line s
  | .homeLineIdleRelease n line => Sys2Proof.Machine.execHomeLineIdleRelease n line s
  | .txnTimeout h num now => Sys2Proof.Machine.execTxnTimeout h num now s
  | .keyInstall m tile unit => Sys2Proof.Machine.execKeyInstall m tile unit s
  | .keyTableRevoke m tile unit => Sys2Proof.Machine.execKeyTableRevoke m tile unit s
  | .keyRead m tile unit => Sys2Proof.Machine.execKeyRead m tile unit s
  | .grantRead m tile idx => Sys2Proof.Machine.execGrantRead m tile idx s
  | .grantWrite m tile idx => Sys2Proof.Machine.execGrantWrite m tile idx s
  | .timeBeacon port time delay now => Sys2Proof.Machine.execTimeBeacon port time delay now s
  | .inputRise now sbAddr => Sys2Proof.Machine.execInputRise now sbAddr s
  | .mainStagesOn now epoN flow => Sys2Proof.Machine.execMainStagesOn now epoN flow s
  | .busInRegulation sysclk flashOk pufOk => Sys2Proof.Machine.execBusInRegulation sysclk flashOk pufOk s
  | .signedPartVerify now => Sys2Proof.Machine.execSignedPartVerify now s
  | .tileBringup now trainFail selfFail seams => Sys2Proof.Machine.execTileBringup now trainFail selfFail seams s
  | .bootDone now => Sys2Proof.Machine.execBootDone now s
  | .configRequest msixWrite => Sys2Proof.Machine.execConfigRequest msixWrite s
  | .powerControlTick now temps vcore => Sys2Proof.Machine.execPowerControlTick now temps vcore s
  | .converterReport v0 v1 v2 v3 i0 i1 i2 i3 => Sys2Proof.Machine.execConverterReport v0 v1 v2 v3 i0 i1 i2 i3 s
  | .stepPublish now => Sys2Proof.Machine.execStepPublish now s
  | .droopStart n => Sys2Proof.Machine.execDroopStart n s
  | .droopEnd n cycles => Sys2Proof.Machine.execDroopEnd n cycles s
  | .thermalTrip now => Sys2Proof.Machine.execThermalTrip now s
  | .kzLease now pec budget duration seq => Sys2Proof.Machine.execKzLease now pec budget duration seq s
  | .leasePendingTimeout now => Sys2Proof.Machine.execLeasePendingTimeout now s
  | .leaseExpiry now => Sys2Proof.Machine.execLeaseExpiry now s
  | .uvWarning now mv => Sys2Proof.Machine.execUvWarning now mv s
  | .uvWarningClear now => Sys2Proof.Machine.execUvWarningClear now s
  | .uvStop now => Sys2Proof.Machine.execUvStop now s
  | .inputOvervoltage => Sys2Proof.Machine.execInputOvervoltage s
  | .standbyOff => Sys2Proof.Machine.execStandbyOff s
  | .flowStop now => Sys2Proof.Machine.execFlowStop now s
  | .flowCutTimer => Sys2Proof.Machine.execFlowCutTimer s
  | .epo => Sys2Proof.Machine.execEpo s
  | .epoRelease now sbAddr => Sys2Proof.Machine.execEpoRelease now sbAddr s
  | .converterFault now => Sys2Proof.Machine.execConverterFault now s
  | .stop now => Sys2Proof.Machine.execStop now s
  | .operationOn now pec flow cool => Sys2Proof.Machine.execOperationOn now pec flow cool s
  | .operationSoftOff now pec => Sys2Proof.Machine.execOperationSoftOff now pec s
  | .operationImmediateOff now pec => Sys2Proof.Machine.execOperationImmediateOff now pec s
  | .operationRead => Sys2Proof.Machine.execOperationRead s
  | .statusWord => Sys2Proof.Machine.execStatusWord s
  | .statusInput => Sys2Proof.Machine.execStatusInput s
  | .statusTemperature => Sys2Proof.Machine.execStatusTemperature s
  | .readVin => Sys2Proof.Machine.execReadVin s
  | .readIin => Sys2Proof.Machine.execReadIin s
  | .readPin => Sys2Proof.Machine.execReadPin s
  | .readTemperature1 => Sys2Proof.Machine.execReadTemperature1 s
  | .readTemperature2 => Sys2Proof.Machine.execReadTemperature2 s
  | .kzLeaseStatus now => Sys2Proof.Machine.execKzLeaseStatus now s
  | .clearFaults => Sys2Proof.Machine.execClearFaults s
  | .alertResponse => Sys2Proof.Machine.execAlertResponse s
  | .pmbusRevision => Sys2Proof.Machine.execPmbusRevision s
  | .mfrId => Sys2Proof.Machine.execMfrId s
  | .mfrModel => Sys2Proof.Machine.execMfrModel s
  | .mfrRevision => Sys2Proof.Machine.execMfrRevision s
  | .mfrSerial => Sys2Proof.Machine.execMfrSerial s
  | .kzPanel => Sys2Proof.Machine.execKzPanel s
  | .kzLocate bits => Sys2Proof.Machine.execKzLocate bits s
  | .kzLocateRead => Sys2Proof.Machine.execKzLocateRead s
  | .kzIdent => Sys2Proof.Machine.execKzIdent s
  | .kzBoot => Sys2Proof.Machine.execKzBoot s
  | .sidebandUnsupported code => Sys2Proof.Machine.execSidebandUnsupported code s
  | .perstAssert now => Sys2Proof.Machine.execPerstAssert now s
  | .perstRelease now flashOk pufOk => Sys2Proof.Machine.execPerstRelease now flashOk pufOk s
  | .hotReset now => Sys2Proof.Machine.execHotReset now s
  | .functionLevelReset now => Sys2Proof.Machine.execFunctionLevelReset now s
  | .endpointLinkDown now => Sys2Proof.Machine.execEndpointLinkDown now s
  | .bar4Read off len reps now => Sys2Proof.Machine.execBar4Read off len reps now s
  | .bar4Write off data reps now => Sys2Proof.Machine.execBar4Write off data reps now s
  | .doeDiscovery => Sys2Proof.Machine.execDoeDiscovery s
  | .getVersion => Sys2Proof.Machine.execGetVersion s
  | .getCapabilities => Sys2Proof.Machine.execGetCapabilities s
  | .negotiateAlgorithms => Sys2Proof.Machine.execNegotiateAlgorithms s
  | .getDigests => Sys2Proof.Machine.execGetDigests s
  | .getCertificate slot off len => Sys2Proof.Machine.execGetCertificate slot off len s
  | .challenge slot nonce => Sys2Proof.Machine.execChallenge slot nonce s
  | .getMeasurements index nonce => Sys2Proof.Machine.execGetMeasurements index nonce s
  | .keyExchange now mutAuth reqKey => Sys2Proof.Machine.execKeyExchange now mutAuth reqKey s
  | .finish now sid ok => Sys2Proof.Machine.execFinish now sid ok s
  | .heartbeat now sid => Sys2Proof.Machine.execHeartbeat now sid s
  | .heartbeatExpiry now sid => Sys2Proof.Machine.execHeartbeatExpiry now sid s
  | .keyUpdate now sid => Sys2Proof.Machine.execKeyUpdate now sid s
  | .endSession sid => Sys2Proof.Machine.execEndSession sid s
  | .chunkSend data last => Sys2Proof.Machine.execChunkSend data last s
  | .chunkGet len => Sys2Proof.Machine.execChunkGet len s
  | .grantRelease m => Sys2Proof.Machine.execGrantRelease m s
  | .unknownCommand code => Sys2Proof.Machine.execUnknownCommand code s
  | .mailboxAbort => Sys2Proof.Machine.execMailboxAbort s
  | .mailboxConsume => Sys2Proof.Machine.execMailboxConsume s
  | .mbxStatusRead => Sys2Proof.Machine.execMbxStatusRead s
  | .pageRetire now progA progB => Sys2Proof.Machine.execPageRetire now progA progB s
  | .imageWrite now => Sys2Proof.Machine.execImageWrite now s
  | .imageVerify now readOk => Sys2Proof.Machine.execImageVerify now readOk s
  | .floorRaise now => Sys2Proof.Machine.execFloorRaise now s
  | .keyRevoke now => Sys2Proof.Machine.execKeyRevoke now s
  | .flashOperationDone now ok data => Sys2Proof.Machine.execFlashOperationDone now ok data s
  | .svcButtonRelease now => Sys2Proof.Machine.execSvcButtonRelease now s
  | .longPress now => Sys2Proof.Machine.execLongPress now s
  | .latchOpened now => Sys2Proof.Machine.execLatchOpened now s
  | .latchClosed now => Sys2Proof.Machine.execLatchClosed now s
  | .drainDone now => Sys2Proof.Machine.execDrainDone now s
  | .drainTimeout now => Sys2Proof.Machine.execDrainTimeout now s
  | .drainCancel now => Sys2Proof.Machine.execDrainCancel now s
  | .svcAck => Sys2Proof.Machine.execSvcAck s
  | .msixMessage vec early => Sys2Proof.Machine.execMsixMessage vec early s
  | .intForce src => Sys2Proof.Machine.execIntForce src s
  | .intPendClr src => Sys2Proof.Machine.execIntPendClr src s
  | .intRegisterRead m off => Sys2Proof.Machine.execIntRegisterRead m off s
  | .counterWrap b c add => Sys2Proof.Machine.execCounterWrap b c add s
  | .pmcSnapshot b now => Sys2Proof.Machine.execPmcSnapshot b now s
  | .stitchGo u kind own => Sys2Proof.Machine.execStitchGo u kind own s
  | .stitchJobDone u data reps now => Sys2Proof.Machine.execStitchJobDone u data reps now s
  | .hubResetWarm m now => Sys2Proof.Machine.execHubResetWarm m now s
  | .hubResetDump m now => Sys2Proof.Machine.execHubResetDump m now s
  | .warmResetEnd now flashOk pufOk => Sys2Proof.Machine.execWarmResetEnd now flashOk pufOk s
  | .mgmtWatchdogExpiry now => Sys2Proof.Machine.execMgmtWatchdogExpiry now s
  | .dispWatchdogExpiry core now => Sys2Proof.Machine.execDispWatchdogExpiry core now s
  | .fatalError cause arg now => Sys2Proof.Machine.execFatalError cause arg now s
  | .dumpComplete sram fw unread now => Sys2Proof.Machine.execDumpComplete sram fw unread now s
  | .dumpTimeout part now => Sys2Proof.Machine.execDumpTimeout part now s
  | .dumpDiscard m mask => Sys2Proof.Machine.execDumpDiscard m mask s
  | .jtagBypass tdi => Sys2Proof.Machine.execJtagBypass tdi s
  | .jtagIdcode => Sys2Proof.Machine.execJtagIdcode s
  | .jtagSamplePreload pins load => Sys2Proof.Machine.execJtagSamplePreload pins load s
  | .jtagExtest load bscan => Sys2Proof.Machine.execJtagExtest load bscan s
  | .beaconTimeout now => Sys2Proof.Machine.execBeaconTimeout now s
  | .svcButtonPress now => Sys2Proof.Machine.execSvcButtonPress now s
  | .txnQuarantineEnd h num now => Sys2Proof.Machine.execTxnQuarantineEnd h num now s

end Sys2Proof.Machine
end

