-- ==== Sys2Proof/Laws/Sparse.lean ====
section
/-! SUPPORT. The laws of sparse maps: a read after a write, every other key unchanged, and the canonical form kept by every
write. -/

namespace Sys2Proof.Machine

variable {α : Type}

theorem smGet_smDel (d : Nat → α) (m : SMap α) (k j : Nat) :
    smGet d (smDel k m) j = if j = k then d j else smGet d m j := by
  induction m with
  | nil => simp [smDel, smGet]
  | cons e t ih =>
    obtain ⟨k', v⟩ := e
    by_cases h : k' = k
    · subst h
      simp only [smDel, if_true, ih, smGet]
      by_cases hj : j = k' <;> simp [hj, eq_comm]
    · simp only [smDel, if_neg h, smGet, ih]
      by_cases hj : k' = j
      · subst hj; simp [h]
      · simp [hj]

theorem smGet_smIns_ne (d : Nat → α) (m : SMap α) {k j : Nat} (v : α) (h : j ≠ k) :
    smGet d (smIns k v m) j = smGet d m j := by
  induction m with
  | nil => simp [smIns, smGet, Ne.symm h]
  | cons e t ih =>
    obtain ⟨k', v'⟩ := e
    simp only [smIns]
    split <;> simp [smGet, Ne.symm h, ih]

theorem smGet_smIns_self (d : Nat → α) (m : SMap α) (k : Nat) (v : α) (h : ∀ e ∈ m, e.1 ≠ k) :
    smGet d (smIns k v m) k = v := by
  induction m with
  | nil => simp [smIns, smGet]
  | cons e t ih =>
    obtain ⟨k', v'⟩ := e
    have hk : k' ≠ k := h (k', v') (by simp)
    simp only [smIns]
    split
    · simp [smGet]
    · simp [smGet, hk, ih fun e he => h e (by simp [he])]

theorem smDel_keys (m : SMap α) (k : Nat) : ∀ e ∈ smDel k m, e.1 ≠ k := by
  induction m with
  | nil => simp [smDel]
  | cons e t ih =>
    obtain ⟨k', v'⟩ := e
    by_cases h : k' = k
    · simpa [smDel, h] using ih
    · simpa [smDel, h] using ih

section Put
variable [DecidableEq α]

/-- A read of the key written gives the value written. -/
@[simp] theorem smGet_smPut_self (d : Nat → α) (m : SMap α) (k : Nat) (v : α) :
    smGet d (smPut d m k v) k = v := by
  unfold smPut
  split
  · rename_i h; simp [smGet_smDel, h]
  · exact smGet_smIns_self d _ k v (smDel_keys m k)

/-- Every other key keeps its value. -/
theorem smGet_smPut_ne (d : Nat → α) (m : SMap α) {k j : Nat} (v : α) (h : j ≠ k) :
    smGet d (smPut d m k v) j = smGet d m j := by
  unfold smPut
  split
  · simp [smGet_smDel, h]
  · simp [smGet_smIns_ne d _ v h, smGet_smDel, h]

theorem smGet_smPut (d : Nat → α) (m : SMap α) (k j : Nat) (v : α) :
    smGet d (smPut d m k v) j = if j = k then v else smGet d m j := by
  by_cases h : j = k
  · subst h; simp
  · simp [smGet_smPut_ne d m v h, h]

omit [DecidableEq α] in
theorem smAbove_smDel (m : SMap α) (k j : Nat) (h : smAbove j m) : smAbove j (smDel k m) := by
  induction m with
  | nil => simpa [smDel] using h
  | cons e t ih =>
    obtain ⟨k', v'⟩ := e
    simp only [smAbove, List.all_cons, Bool.and_eq_true] at h
    by_cases hk : k' = k
    · simpa [smDel, hk] using ih h.2
    · simp only [smDel, if_neg hk, smAbove, List.all_cons, Bool.and_eq_true]
      exact ⟨h.1, ih h.2⟩

theorem smWf_smDel (d : Nat → α) (m : SMap α) (k : Nat) (h : smWf d m) : smWf d (smDel k m) := by
  induction m with
  | nil => simp [smDel, smWf]
  | cons e t ih =>
    obtain ⟨k', v'⟩ := e
    simp only [smWf, Bool.and_eq_true] at h
    by_cases hk : k' = k
    · simpa [smDel, hk] using ih h.2
    · simp only [smDel, if_neg hk, smWf, Bool.and_eq_true]
      exact ⟨⟨h.1.1, smAbove_smDel t k k' h.1.2⟩, ih h.2⟩

omit [DecidableEq α] in
theorem smAbove_smIns (m : SMap α) (k j : Nat) (v : α) (hj : j < k) (h : smAbove j m) : smAbove j (smIns k v m) := by
  induction m with
  | nil => simp [smIns, smAbove, hj]
  | cons e t ih =>
    obtain ⟨k', v'⟩ := e
    have h' := h
    simp only [smAbove, List.all_cons, Bool.and_eq_true] at h
    simp only [smIns]
    split
    · simp only [smAbove, List.all_cons, Bool.and_eq_true]
      exact ⟨by simpa using hj, h⟩
    · simp only [smAbove, List.all_cons, Bool.and_eq_true]
      exact ⟨h.1, ih h.2⟩

omit [DecidableEq α] in
theorem smAbove_mono (m : SMap α) {j k : Nat} (hjk : j ≤ k) (h : smAbove k m) : smAbove j m := by
  simp only [smAbove, List.all_eq_true, decide_eq_true_eq] at *
  exact fun e he => lt_of_le_of_lt hjk (h e he)

theorem smWf_smIns (d : Nat → α) (m : SMap α) (k : Nat) (v : α) (hv : v ≠ d k) (hk : ∀ e ∈ m, e.1 ≠ k)
    (h : smWf d m) : smWf d (smIns k v m) := by
  induction m with
  | nil => simp [smIns, smWf, smAbove, hv]
  | cons e t ih =>
    obtain ⟨k', v'⟩ := e
    have h' := h
    simp only [smWf, Bool.and_eq_true] at h
    have hne : k' ≠ k := hk (k', v') (by simp)
    simp only [smIns]
    split
    · rename_i hlt
      simp only [smWf, Bool.and_eq_true, smAbove, List.all_cons, decide_eq_true_eq]
      refine ⟨⟨hv, hlt, ?_⟩, ⟨by simpa using h.1.1, h.1.2⟩, h.2⟩
      exact smAbove_mono t (le_of_lt hlt) h.1.2
    · rename_i hlt
      simp only [smWf, Bool.and_eq_true]
      exact ⟨⟨h.1.1, smAbove_smIns t k k' v (by omega) h.1.2⟩, ih (fun e he => hk e (by simp [he])) h.2⟩

/-- A write keeps the canonical form. -/
theorem smWf_smPut (d : Nat → α) (m : SMap α) (k : Nat) (v : α) (h : smWf d m) : smWf d (smPut d m k v) := by
  unfold smPut
  split
  · exact smWf_smDel d m k h
  · rename_i hv
    exact smWf_smIns d _ k v hv (smDel_keys m k) (smWf_smDel d m k h)

omit [DecidableEq α] in
theorem smAbove_filter (m : SMap α) (p : Nat × α → Bool) (j : Nat) (h : smAbove j m) : smAbove j (m.filter p) := by
  simp only [smAbove, List.all_eq_true, decide_eq_true_eq] at *
  exact fun e he => h e (List.mem_of_mem_filter he)

/-- Keeping some entries keeps the canonical form. -/
theorem smWf_filter (d : Nat → α) (m : SMap α) (p : Nat × α → Bool) (h : smWf d m) : smWf d (m.filter p) := by
  induction m with
  | nil => simp [smWf]
  | cons e t ih =>
    simp only [smWf, Bool.and_eq_true] at h
    by_cases hp : p e
    · simp only [List.filter_cons, hp, if_true, smWf, Bool.and_eq_true]
      exact ⟨⟨h.1.1, smAbove_filter t p _ h.1.2⟩, ih h.2⟩
    · simpa [List.filter_cons, hp] using ih h.2

end Put

/-! Memory. -/

/-- A byte read after a byte written. -/
theorem memGet_memPut (m : Mem) (a b : Nat) (v : Byte) : memGet (memPut m a v) b = if b = a then v else memGet m b :=
  smGet_smPut memDefault m a b v

theorem memory_wf_memPut (m : Mem) (a : Nat) (v : Byte) (h : Memory.wf m) : Memory.wf (memPut m a v) :=
  smWf_smPut memDefault m a v h

theorem memory_wf_memPutBytes (m : Mem) (a : Nat) (l : List Byte) (h : Memory.wf m) : Memory.wf (memPutBytes m a l) := by
  induction l generalizing m a with
  | nil => simpa [memPutBytes] using h
  | cons b t ih => exact ih _ _ (memory_wf_memPut m a b h)

theorem memory_wf_memPutLe (m : Mem) (a n v : Nat) (h : Memory.wf m) : Memory.wf (memPutLe m a n v) :=
  memory_wf_memPutBytes m a _ h

/-- A byte read after a list of bytes written: a byte of the list, or what it was. -/
theorem memGet_memPutBytes (m : Mem) (a b : Nat) (l : List Byte) :
    memGet (memPutBytes m a l) b = if a ≤ b ∧ b < a + l.length then l.getD (b - a) 0 else memGet m b := by
  induction l generalizing m a with
  | nil => simp [memPutBytes]
  | cons x t ih =>
    simp only [memPutBytes, ih, memGet_memPut, List.length_cons]
    by_cases h1 : a = b
    · subst h1
      simp
    · by_cases h2 : a + 1 ≤ b ∧ b < a + 1 + t.length
      · rw [if_pos h2, if_pos (by omega), show b - a = (b - (a + 1)) + 1 by omega]
        simp
      · rw [if_neg h2, if_neg (Ne.symm h1), if_neg (by omega)]

theorem leBytes_length (n v : Nat) : (leBytes n v).length = n := by
  induction n generalizing v with
  | zero => rfl
  | succ n ih => simp [leBytes, ih]

theorem leVal_leBytes (n v : Nat) : leVal (leBytes n v) = v % 256 ^ n := by
  induction n generalizing v with
  | zero => simp [leBytes, leVal, Nat.mod_one]
  | succ n ih =>
    have h : (BitVec.ofNat 8 v).toNat = v % 256 := by simp
    rw [leBytes, leVal, ih, h, show (256 : Nat) ^ (n + 1) = 256 * 256 ^ n by rw [pow_succ, Nat.mul_comm], Nat.mod_mul]

end Sys2Proof.Machine
end

