-- ==== Sys2Proof/Laws/Fields.lean ====
section
/-! SUPPORT. The laws of registers and their fields: a read after a write, a field beside the field written, and what a field write leaves
of the word. -/

namespace Sys2Proof.Machine

open Reg

/-! Registers. -/

@[simp] theorem getR_setR_self (d : Dev) (o : Nat) (v : Word) : (d.setR o v).getR o = v := by simp [Dev.setR, Dev.getR]

theorem getR_setR_ne (d : Dev) {o p : Nat} (v : Word) (h : p ≠ o) : (d.setR o v).getR p = d.getR p := by
  simp [Dev.setR, Dev.getR, smGet_smPut_ne _ _ _ h]

theorem getR_setR (d : Dev) (o p : Nat) (v : Word) : (d.setR o v).getR p = if p = o then v else d.getR p := by
  simp [Dev.setR, Dev.getR, smGet_smPut]

theorem getR_setN (d : Dev) (o p v : Nat) : (d.setN o v).getR p = if p = o then BitVec.ofNat 32 v else d.getR p :=
  getR_setR d o p _

theorem getN_setN (d : Dev) (o p v : Nat) : (d.setN o v).getN p = if p = o then v % 2 ^ 32 else d.getN p := by
  simp only [Dev.getN, getR_setN]
  split <;> simp

theorem getR_setF (d : Dev) (f : Fld) (p v : Nat) :
    (d.setF f v).getR p = if p = f.off then wordPut (d.getR f.off) f.hi f.lo v else d.getR p :=
  getR_setR d f.off p _

theorem getR_setPair (d : Dev) (lo hi p v : Nat) :
    (d.setPair lo hi v).getR p =
      if p = hi then BitVec.ofNat 32 (v / 2 ^ 32) else if p = lo then BitVec.ofNat 32 v else d.getR p := by
  simp only [Dev.setPair, getR_setN]

/-- A pair whose two registers hold the halves of a 64-bit value reads as the value. -/
theorem getPair_of_halves (d : Dev) (lo hi v : Nat) (hv : v < 2 ^ 64) (h1 : d.getR lo = BitVec.ofNat 32 v)
    (h2 : d.getR hi = BitVec.ofNat 32 (v / 2 ^ 32)) : d.getPair lo hi = v := by
  simp only [Dev.getPair, Dev.getN, h1, h2, BitVec.toNat_ofNat]
  omega

/-- A pair written reads back, modulo 2^64. -/
theorem getPair_setPair_self (d : Dev) (lo hi v : Nat) (h : lo ≠ hi) : (d.setPair lo hi v).getPair lo hi = v % 2 ^ 64 := by
  simp only [Dev.getPair, Dev.setPair, getN_setN, if_neg h, if_true]
  omega

/-- A counter that stops at 0xFFFF_FFFF, after an addition. -/
theorem getN_satAdd (d : Dev) (o n : Nat) : (d.satAdd o n).getN o = min (d.getN o + n) 0xFFFFFFFF := by
  rw [Dev.satAdd, getN_setN, if_pos rfl]
  exact Nat.mod_eq_of_lt (by omega)

theorem getR_satAdd_ne (d : Dev) {o p : Nat} (n : Nat) (h : p ≠ o) : (d.satAdd o n).getR p = d.getR p := by
  rw [Dev.satAdd, getR_setN, if_neg h]

/-! Fields of a word. -/

theorem fieldMask_bit (hi lo k : Nat) (hk : k < 32) :
    (fieldMask hi lo).getLsbD k = decide (lo ≤ k ∧ k < hi + 1 ∧ lo < hi + 1) := by
  unfold fieldMask
  rw [BitVec.getLsbD_ofNat, Nat.testBit_mul_two_pow, Nat.testBit_two_pow_sub_one]
  simp only [hk, decide_true, Bool.true_and]
  by_cases h : lo ≤ k
  · have : k - lo < hi + 1 - lo ↔ k < hi + 1 ∧ lo < hi + 1 := by omega
    simp only [h, decide_true, Bool.true_and, true_and, decide_eq_decide]
    exact this
  · simp [h]

theorem wordPut_bit (w : Word) (hi lo v k : Nat) (hk : k < 32) :
    (wordPut w hi lo v).getLsbD k =
      if lo ≤ k ∧ k < hi + 1 then v.testBit (k - lo) else w.getLsbD k := by
  unfold wordPut
  rw [BitVec.getLsbD_or, BitVec.getLsbD_and, BitVec.getLsbD_not, BitVec.getLsbD_and, fieldMask_bit hi lo k hk,
    BitVec.getLsbD_ofNat, Nat.testBit_mul_two_pow]
  by_cases h : lo ≤ k ∧ k < hi + 1
  · have : lo < hi + 1 := by omega
    simp [h, hk, this]
  · have : ¬ (lo ≤ k ∧ k < hi + 1 ∧ lo < hi + 1) := fun x => h ⟨x.1, x.2.1⟩
    rw [if_neg h, decide_eq_false this]
    simp [hk]

theorem wordField_bit (w : Word) (hi lo k : Nat) :
    (wordField w hi lo).testBit k = (decide (k < hi + 1 - lo) && w.getLsbD (lo + k)) := by
  unfold wordField
  rw [Nat.testBit_mod_two_pow, Nat.testBit_div_two_pow, BitVec.getLsbD, Nat.add_comm k lo]

/-- The field written reads back, modulo its width. -/
theorem wordField_wordPut_self (w : Word) (hi lo v : Nat) (h : hi < 32) :
    wordField (wordPut w hi lo v) hi lo = v % 2 ^ (hi + 1 - lo) := by
  apply Nat.eq_of_testBit_eq
  intro k
  rw [wordField_bit, Nat.testBit_mod_two_pow]
  by_cases hk : k < hi + 1 - lo
  · rw [wordPut_bit _ _ _ _ _ (by omega)]
    simp [hk, show lo + k < hi + 1 by omega]
  · simp [hk]

/-- A field beside the one written keeps its value. -/
theorem wordField_wordPut_ne (w : Word) (hi lo v hi' lo' : Nat) (h : hi' < 32) (hd : hi' < lo ∨ hi < lo') :
    wordField (wordPut w hi lo v) hi' lo' = wordField w hi' lo' := by
  apply Nat.eq_of_testBit_eq
  intro k
  rw [wordField_bit, wordField_bit]
  by_cases hk : k < hi' + 1 - lo'
  · rw [wordPut_bit _ _ _ _ _ (by omega)]
    rw [if_neg (by omega)]
  · simp [hk]

/-! Fields of the register file. -/

theorem getF_setF_self (d : Dev) (f : Fld) (v : Nat) (h : f.hi < 32) :
    (d.setF f v).getF f = v % 2 ^ (f.hi + 1 - f.lo) := by
  simp only [Dev.getF, getR_setF, if_true]
  exact wordField_wordPut_self _ _ _ _ h

theorem getF_setF_ne (d : Dev) (f g : Fld) (v : Nat) (hg : g.hi < 32)
    (h : g.off ≠ f.off ∨ g.hi < f.lo ∨ f.hi < g.lo) : (d.setF f v).getF g = d.getF g := by
  simp only [Dev.getF, getR_setF]
  by_cases ho : g.off = f.off
  · rw [if_pos ho, wordField_wordPut_ne _ _ _ _ _ _ hg (by tauto), ho]
  · rw [if_neg ho]

theorem getF_setR_ne (d : Dev) (f : Fld) {o : Nat} (v : Word) (h : f.off ≠ o) : (d.setR o v).getF f = d.getF f := by
  simp [Dev.getF, getR_setR_ne d v h]

theorem regBit_setBit (d : Dev) (o b p c : Nat) (v : Bool) (hc : c < 32) :
    (d.setBit o b v).regBit p c = if p = o ∧ c = b then v else d.regBit p c := by
  simp only [Dev.setBit, Dev.regBit, getR_setF]
  by_cases hp : p = o
  · subst hp
    simp only [if_true, true_and]
    rw [wordPut_bit _ _ _ _ _ hc]
    by_cases hb : c = b
    · subst hb; cases v <;> simp
    · rw [if_neg (by omega), if_neg hb]
  · simp [hp]

theorem getR_setBit_ne (d : Dev) {o p : Nat} (b : Nat) (v : Bool) (h : p ≠ o) : (d.setBit o b v).getR p = d.getR p := by
  simp [Dev.setBit, getR_setF, h]

/-! Edges (R459). -/

theorem getR_edge_ne (d : Dev) (n p : Nat) (h : p ≠ Reg.INT_PEND (n / 32)) : (d.edge n).getR p = d.getR p := by
  unfold Dev.edge
  split
  · exact getR_setBit_ne d _ _ h
  · rfl

/-- A listed source is pending after its edge. -/
theorem isPending_edge (d : Dev) (n : Nat) (h : sourceListed n) : (d.edge n).isPending n := by
  simp [Dev.edge, h, Dev.isPending, regBit_setBit _ _ _ _ _ _ (Nat.mod_lt n (by norm_num : 0 < 32))]

/-- An edge changes no other pending bit. -/
theorem regBit_edge (d : Dev) (n o b : Nat) (hb : b < 32) (h : ¬ (o = Reg.INT_PEND (n / 32) ∧ b = n % 32)) :
    (d.edge n).regBit o b = d.regBit o b := by
  unfold Dev.edge
  split
  · rw [regBit_setBit _ _ _ _ _ _ hb, if_neg h]
  · rfl

end Sys2Proof.Machine
end

