-- ==== Sys2Proof/Laws/Ops.lean ====
section
/-! SUPPORT. Each lemma is true by definition; a proof by cases keeps simp from asking the kernel to compare whole packages. What the shared operations leave unchanged: a register write changes registers only, an edge registers only, a latched event
registers and ages, a log entry registers and the log, an output only what has been sent; and what a latched event and a write-back do to
the bits of their group. -/

namespace Sys2Proof.Machine

open Reg

/-- Packages that agree field by field are equal. -/
theorem dev_ext (x y : Dev) (h : x.regs = y.regs ∧ x.rwb = y.rwb ∧ x.ages = y.ages ∧ x.log = y.log ∧ x.now = y.now ∧ x.msix = y.msix ∧ x.maskOld = y.maskOld ∧ x.msixOld = y.msixOld ∧ x.out = y.out ∧ x.pw = y.pw ∧ x.sb = y.sb ∧ x.panel = y.panel ∧ x.boot = y.boot ∧ x.trust = y.trust ∧ x.mbx = y.mbx ∧ x.jtag = y.jtag ∧ x.tiles = y.tiles ∧ x.fab = y.fab ∧ x.gw = y.gw ∧ x.hubBufs = y.hubBufs ∧ x.srv = y.srv ∧ x.res = y.res ∧ x.rst = y.rst ∧ x.free = y.free) : x = y := by
  cases x; cases y; simpa using h

/-! A package written out field by field. -/

@[simp] theorem getR_mk (regs rwb ages log now msix maskOld msixOld out pw sb panel boot trust mbx jtag tiles fab gw hubBufs srv res rst free p) : Dev.getR (Dev.mk regs rwb ages log now msix maskOld msixOld out pw sb panel boot trust mbx jtag tiles fab gw hubBufs srv res rst free) p = smGet resetVal regs p := by rfl
theorem smGet_regs (d : Dev) (p : Nat) : smGet resetVal d.regs p = d.getR p := by cases d; rfl

/-! The one field that each plain operation changes. -/

@[simp] theorem rwb_setR (d : Dev) (o : Nat) (v : Word) : (d.setR o v).rwb = d.rwb := by cases d; rfl
@[simp] theorem ages_setR (d : Dev) (o : Nat) (v : Word) : (d.setR o v).ages = d.ages := by cases d; rfl
@[simp] theorem log_setR (d : Dev) (o : Nat) (v : Word) : (d.setR o v).log = d.log := by cases d; rfl
@[simp] theorem now_setR (d : Dev) (o : Nat) (v : Word) : (d.setR o v).now = d.now := by cases d; rfl
@[simp] theorem msix_setR (d : Dev) (o : Nat) (v : Word) : (d.setR o v).msix = d.msix := by cases d; rfl
@[simp] theorem maskOld_setR (d : Dev) (o : Nat) (v : Word) : (d.setR o v).maskOld = d.maskOld := by cases d; rfl
@[simp] theorem msixOld_setR (d : Dev) (o : Nat) (v : Word) : (d.setR o v).msixOld = d.msixOld := by cases d; rfl
@[simp] theorem out_setR (d : Dev) (o : Nat) (v : Word) : (d.setR o v).out = d.out := by cases d; rfl
@[simp] theorem pw_setR (d : Dev) (o : Nat) (v : Word) : (d.setR o v).pw = d.pw := by cases d; rfl
@[simp] theorem sb_setR (d : Dev) (o : Nat) (v : Word) : (d.setR o v).sb = d.sb := by cases d; rfl
@[simp] theorem panel_setR (d : Dev) (o : Nat) (v : Word) : (d.setR o v).panel = d.panel := by cases d; rfl
@[simp] theorem boot_setR (d : Dev) (o : Nat) (v : Word) : (d.setR o v).boot = d.boot := by cases d; rfl
@[simp] theorem trust_setR (d : Dev) (o : Nat) (v : Word) : (d.setR o v).trust = d.trust := by cases d; rfl
@[simp] theorem mbx_setR (d : Dev) (o : Nat) (v : Word) : (d.setR o v).mbx = d.mbx := by cases d; rfl
@[simp] theorem jtag_setR (d : Dev) (o : Nat) (v : Word) : (d.setR o v).jtag = d.jtag := by cases d; rfl
@[simp] theorem tiles_setR (d : Dev) (o : Nat) (v : Word) : (d.setR o v).tiles = d.tiles := by cases d; rfl
@[simp] theorem fab_setR (d : Dev) (o : Nat) (v : Word) : (d.setR o v).fab = d.fab := by cases d; rfl
@[simp] theorem gw_setR (d : Dev) (o : Nat) (v : Word) : (d.setR o v).gw = d.gw := by cases d; rfl
@[simp] theorem hubBufs_setR (d : Dev) (o : Nat) (v : Word) : (d.setR o v).hubBufs = d.hubBufs := by cases d; rfl
@[simp] theorem srv_setR (d : Dev) (o : Nat) (v : Word) : (d.setR o v).srv = d.srv := by cases d; rfl
@[simp] theorem res_setR (d : Dev) (o : Nat) (v : Word) : (d.setR o v).res = d.res := by cases d; rfl
@[simp] theorem rst_setR (d : Dev) (o : Nat) (v : Word) : (d.setR o v).rst = d.rst := by cases d; rfl
@[simp] theorem free_setR (d : Dev) (o : Nat) (v : Word) : (d.setR o v).free = d.free := by cases d; rfl
@[simp] theorem rwb_setN (d : Dev) (o v : Nat) : (d.setN o v).rwb = d.rwb := by cases d; rfl
@[simp] theorem ages_setN (d : Dev) (o v : Nat) : (d.setN o v).ages = d.ages := by cases d; rfl
@[simp] theorem log_setN (d : Dev) (o v : Nat) : (d.setN o v).log = d.log := by cases d; rfl
@[simp] theorem now_setN (d : Dev) (o v : Nat) : (d.setN o v).now = d.now := by cases d; rfl
@[simp] theorem msix_setN (d : Dev) (o v : Nat) : (d.setN o v).msix = d.msix := by cases d; rfl
@[simp] theorem maskOld_setN (d : Dev) (o v : Nat) : (d.setN o v).maskOld = d.maskOld := by cases d; rfl
@[simp] theorem msixOld_setN (d : Dev) (o v : Nat) : (d.setN o v).msixOld = d.msixOld := by cases d; rfl
@[simp] theorem out_setN (d : Dev) (o v : Nat) : (d.setN o v).out = d.out := by cases d; rfl
@[simp] theorem pw_setN (d : Dev) (o v : Nat) : (d.setN o v).pw = d.pw := by cases d; rfl
@[simp] theorem sb_setN (d : Dev) (o v : Nat) : (d.setN o v).sb = d.sb := by cases d; rfl
@[simp] theorem panel_setN (d : Dev) (o v : Nat) : (d.setN o v).panel = d.panel := by cases d; rfl
@[simp] theorem boot_setN (d : Dev) (o v : Nat) : (d.setN o v).boot = d.boot := by cases d; rfl
@[simp] theorem trust_setN (d : Dev) (o v : Nat) : (d.setN o v).trust = d.trust := by cases d; rfl
@[simp] theorem mbx_setN (d : Dev) (o v : Nat) : (d.setN o v).mbx = d.mbx := by cases d; rfl
@[simp] theorem jtag_setN (d : Dev) (o v : Nat) : (d.setN o v).jtag = d.jtag := by cases d; rfl
@[simp] theorem tiles_setN (d : Dev) (o v : Nat) : (d.setN o v).tiles = d.tiles := by cases d; rfl
@[simp] theorem fab_setN (d : Dev) (o v : Nat) : (d.setN o v).fab = d.fab := by cases d; rfl
@[simp] theorem gw_setN (d : Dev) (o v : Nat) : (d.setN o v).gw = d.gw := by cases d; rfl
@[simp] theorem hubBufs_setN (d : Dev) (o v : Nat) : (d.setN o v).hubBufs = d.hubBufs := by cases d; rfl
@[simp] theorem srv_setN (d : Dev) (o v : Nat) : (d.setN o v).srv = d.srv := by cases d; rfl
@[simp] theorem res_setN (d : Dev) (o v : Nat) : (d.setN o v).res = d.res := by cases d; rfl
@[simp] theorem rst_setN (d : Dev) (o v : Nat) : (d.setN o v).rst = d.rst := by cases d; rfl
@[simp] theorem free_setN (d : Dev) (o v : Nat) : (d.setN o v).free = d.free := by cases d; rfl
@[simp] theorem rwb_setF (d : Dev) (f : Fld) (v : Nat) : (d.setF f v).rwb = d.rwb := by cases d; rfl
@[simp] theorem ages_setF (d : Dev) (f : Fld) (v : Nat) : (d.setF f v).ages = d.ages := by cases d; rfl
@[simp] theorem log_setF (d : Dev) (f : Fld) (v : Nat) : (d.setF f v).log = d.log := by cases d; rfl
@[simp] theorem now_setF (d : Dev) (f : Fld) (v : Nat) : (d.setF f v).now = d.now := by cases d; rfl
@[simp] theorem msix_setF (d : Dev) (f : Fld) (v : Nat) : (d.setF f v).msix = d.msix := by cases d; rfl
@[simp] theorem maskOld_setF (d : Dev) (f : Fld) (v : Nat) : (d.setF f v).maskOld = d.maskOld := by cases d; rfl
@[simp] theorem msixOld_setF (d : Dev) (f : Fld) (v : Nat) : (d.setF f v).msixOld = d.msixOld := by cases d; rfl
@[simp] theorem out_setF (d : Dev) (f : Fld) (v : Nat) : (d.setF f v).out = d.out := by cases d; rfl
@[simp] theorem pw_setF (d : Dev) (f : Fld) (v : Nat) : (d.setF f v).pw = d.pw := by cases d; rfl
@[simp] theorem sb_setF (d : Dev) (f : Fld) (v : Nat) : (d.setF f v).sb = d.sb := by cases d; rfl
@[simp] theorem panel_setF (d : Dev) (f : Fld) (v : Nat) : (d.setF f v).panel = d.panel := by cases d; rfl
@[simp] theorem boot_setF (d : Dev) (f : Fld) (v : Nat) : (d.setF f v).boot = d.boot := by cases d; rfl
@[simp] theorem trust_setF (d : Dev) (f : Fld) (v : Nat) : (d.setF f v).trust = d.trust := by cases d; rfl
@[simp] theorem mbx_setF (d : Dev) (f : Fld) (v : Nat) : (d.setF f v).mbx = d.mbx := by cases d; rfl
@[simp] theorem jtag_setF (d : Dev) (f : Fld) (v : Nat) : (d.setF f v).jtag = d.jtag := by cases d; rfl
@[simp] theorem tiles_setF (d : Dev) (f : Fld) (v : Nat) : (d.setF f v).tiles = d.tiles := by cases d; rfl
@[simp] theorem fab_setF (d : Dev) (f : Fld) (v : Nat) : (d.setF f v).fab = d.fab := by cases d; rfl
@[simp] theorem gw_setF (d : Dev) (f : Fld) (v : Nat) : (d.setF f v).gw = d.gw := by cases d; rfl
@[simp] theorem hubBufs_setF (d : Dev) (f : Fld) (v : Nat) : (d.setF f v).hubBufs = d.hubBufs := by cases d; rfl
@[simp] theorem srv_setF (d : Dev) (f : Fld) (v : Nat) : (d.setF f v).srv = d.srv := by cases d; rfl
@[simp] theorem res_setF (d : Dev) (f : Fld) (v : Nat) : (d.setF f v).res = d.res := by cases d; rfl
@[simp] theorem rst_setF (d : Dev) (f : Fld) (v : Nat) : (d.setF f v).rst = d.rst := by cases d; rfl
@[simp] theorem free_setF (d : Dev) (f : Fld) (v : Nat) : (d.setF f v).free = d.free := by cases d; rfl
@[simp] theorem rwb_setBit (d : Dev) (o b : Nat) (v : Bool) : (d.setBit o b v).rwb = d.rwb := by cases d; rfl
@[simp] theorem ages_setBit (d : Dev) (o b : Nat) (v : Bool) : (d.setBit o b v).ages = d.ages := by cases d; rfl
@[simp] theorem log_setBit (d : Dev) (o b : Nat) (v : Bool) : (d.setBit o b v).log = d.log := by cases d; rfl
@[simp] theorem now_setBit (d : Dev) (o b : Nat) (v : Bool) : (d.setBit o b v).now = d.now := by cases d; rfl
@[simp] theorem msix_setBit (d : Dev) (o b : Nat) (v : Bool) : (d.setBit o b v).msix = d.msix := by cases d; rfl
@[simp] theorem maskOld_setBit (d : Dev) (o b : Nat) (v : Bool) : (d.setBit o b v).maskOld = d.maskOld := by cases d; rfl
@[simp] theorem msixOld_setBit (d : Dev) (o b : Nat) (v : Bool) : (d.setBit o b v).msixOld = d.msixOld := by cases d; rfl
@[simp] theorem out_setBit (d : Dev) (o b : Nat) (v : Bool) : (d.setBit o b v).out = d.out := by cases d; rfl
@[simp] theorem pw_setBit (d : Dev) (o b : Nat) (v : Bool) : (d.setBit o b v).pw = d.pw := by cases d; rfl
@[simp] theorem sb_setBit (d : Dev) (o b : Nat) (v : Bool) : (d.setBit o b v).sb = d.sb := by cases d; rfl
@[simp] theorem panel_setBit (d : Dev) (o b : Nat) (v : Bool) : (d.setBit o b v).panel = d.panel := by cases d; rfl
@[simp] theorem boot_setBit (d : Dev) (o b : Nat) (v : Bool) : (d.setBit o b v).boot = d.boot := by cases d; rfl
@[simp] theorem trust_setBit (d : Dev) (o b : Nat) (v : Bool) : (d.setBit o b v).trust = d.trust := by cases d; rfl
@[simp] theorem mbx_setBit (d : Dev) (o b : Nat) (v : Bool) : (d.setBit o b v).mbx = d.mbx := by cases d; rfl
@[simp] theorem jtag_setBit (d : Dev) (o b : Nat) (v : Bool) : (d.setBit o b v).jtag = d.jtag := by cases d; rfl
@[simp] theorem tiles_setBit (d : Dev) (o b : Nat) (v : Bool) : (d.setBit o b v).tiles = d.tiles := by cases d; rfl
@[simp] theorem fab_setBit (d : Dev) (o b : Nat) (v : Bool) : (d.setBit o b v).fab = d.fab := by cases d; rfl
@[simp] theorem gw_setBit (d : Dev) (o b : Nat) (v : Bool) : (d.setBit o b v).gw = d.gw := by cases d; rfl
@[simp] theorem hubBufs_setBit (d : Dev) (o b : Nat) (v : Bool) : (d.setBit o b v).hubBufs = d.hubBufs := by cases d; rfl
@[simp] theorem srv_setBit (d : Dev) (o b : Nat) (v : Bool) : (d.setBit o b v).srv = d.srv := by cases d; rfl
@[simp] theorem res_setBit (d : Dev) (o b : Nat) (v : Bool) : (d.setBit o b v).res = d.res := by cases d; rfl
@[simp] theorem rst_setBit (d : Dev) (o b : Nat) (v : Bool) : (d.setBit o b v).rst = d.rst := by cases d; rfl
@[simp] theorem free_setBit (d : Dev) (o b : Nat) (v : Bool) : (d.setBit o b v).free = d.free := by cases d; rfl
@[simp] theorem rwb_setPair (d : Dev) (lo hi v : Nat) : (d.setPair lo hi v).rwb = d.rwb := by cases d; rfl
@[simp] theorem ages_setPair (d : Dev) (lo hi v : Nat) : (d.setPair lo hi v).ages = d.ages := by cases d; rfl
@[simp] theorem log_setPair (d : Dev) (lo hi v : Nat) : (d.setPair lo hi v).log = d.log := by cases d; rfl
@[simp] theorem now_setPair (d : Dev) (lo hi v : Nat) : (d.setPair lo hi v).now = d.now := by cases d; rfl
@[simp] theorem msix_setPair (d : Dev) (lo hi v : Nat) : (d.setPair lo hi v).msix = d.msix := by cases d; rfl
@[simp] theorem maskOld_setPair (d : Dev) (lo hi v : Nat) : (d.setPair lo hi v).maskOld = d.maskOld := by cases d; rfl
@[simp] theorem msixOld_setPair (d : Dev) (lo hi v : Nat) : (d.setPair lo hi v).msixOld = d.msixOld := by cases d; rfl
@[simp] theorem out_setPair (d : Dev) (lo hi v : Nat) : (d.setPair lo hi v).out = d.out := by cases d; rfl
@[simp] theorem pw_setPair (d : Dev) (lo hi v : Nat) : (d.setPair lo hi v).pw = d.pw := by cases d; rfl
@[simp] theorem sb_setPair (d : Dev) (lo hi v : Nat) : (d.setPair lo hi v).sb = d.sb := by cases d; rfl
@[simp] theorem panel_setPair (d : Dev) (lo hi v : Nat) : (d.setPair lo hi v).panel = d.panel := by cases d; rfl
@[simp] theorem boot_setPair (d : Dev) (lo hi v : Nat) : (d.setPair lo hi v).boot = d.boot := by cases d; rfl
@[simp] theorem trust_setPair (d : Dev) (lo hi v : Nat) : (d.setPair lo hi v).trust = d.trust := by cases d; rfl
@[simp] theorem mbx_setPair (d : Dev) (lo hi v : Nat) : (d.setPair lo hi v).mbx = d.mbx := by cases d; rfl
@[simp] theorem jtag_setPair (d : Dev) (lo hi v : Nat) : (d.setPair lo hi v).jtag = d.jtag := by cases d; rfl
@[simp] theorem tiles_setPair (d : Dev) (lo hi v : Nat) : (d.setPair lo hi v).tiles = d.tiles := by cases d; rfl
@[simp] theorem fab_setPair (d : Dev) (lo hi v : Nat) : (d.setPair lo hi v).fab = d.fab := by cases d; rfl
@[simp] theorem gw_setPair (d : Dev) (lo hi v : Nat) : (d.setPair lo hi v).gw = d.gw := by cases d; rfl
@[simp] theorem hubBufs_setPair (d : Dev) (lo hi v : Nat) : (d.setPair lo hi v).hubBufs = d.hubBufs := by cases d; rfl
@[simp] theorem srv_setPair (d : Dev) (lo hi v : Nat) : (d.setPair lo hi v).srv = d.srv := by cases d; rfl
@[simp] theorem res_setPair (d : Dev) (lo hi v : Nat) : (d.setPair lo hi v).res = d.res := by cases d; rfl
@[simp] theorem rst_setPair (d : Dev) (lo hi v : Nat) : (d.setPair lo hi v).rst = d.rst := by cases d; rfl
@[simp] theorem free_setPair (d : Dev) (lo hi v : Nat) : (d.setPair lo hi v).free = d.free := by cases d; rfl
@[simp] theorem rwb_satAdd (d : Dev) (o n : Nat) : (d.satAdd o n).rwb = d.rwb := by cases d; rfl
@[simp] theorem ages_satAdd (d : Dev) (o n : Nat) : (d.satAdd o n).ages = d.ages := by cases d; rfl
@[simp] theorem log_satAdd (d : Dev) (o n : Nat) : (d.satAdd o n).log = d.log := by cases d; rfl
@[simp] theorem now_satAdd (d : Dev) (o n : Nat) : (d.satAdd o n).now = d.now := by cases d; rfl
@[simp] theorem msix_satAdd (d : Dev) (o n : Nat) : (d.satAdd o n).msix = d.msix := by cases d; rfl
@[simp] theorem maskOld_satAdd (d : Dev) (o n : Nat) : (d.satAdd o n).maskOld = d.maskOld := by cases d; rfl
@[simp] theorem msixOld_satAdd (d : Dev) (o n : Nat) : (d.satAdd o n).msixOld = d.msixOld := by cases d; rfl
@[simp] theorem out_satAdd (d : Dev) (o n : Nat) : (d.satAdd o n).out = d.out := by cases d; rfl
@[simp] theorem pw_satAdd (d : Dev) (o n : Nat) : (d.satAdd o n).pw = d.pw := by cases d; rfl
@[simp] theorem sb_satAdd (d : Dev) (o n : Nat) : (d.satAdd o n).sb = d.sb := by cases d; rfl
@[simp] theorem panel_satAdd (d : Dev) (o n : Nat) : (d.satAdd o n).panel = d.panel := by cases d; rfl
@[simp] theorem boot_satAdd (d : Dev) (o n : Nat) : (d.satAdd o n).boot = d.boot := by cases d; rfl
@[simp] theorem trust_satAdd (d : Dev) (o n : Nat) : (d.satAdd o n).trust = d.trust := by cases d; rfl
@[simp] theorem mbx_satAdd (d : Dev) (o n : Nat) : (d.satAdd o n).mbx = d.mbx := by cases d; rfl
@[simp] theorem jtag_satAdd (d : Dev) (o n : Nat) : (d.satAdd o n).jtag = d.jtag := by cases d; rfl
@[simp] theorem tiles_satAdd (d : Dev) (o n : Nat) : (d.satAdd o n).tiles = d.tiles := by cases d; rfl
@[simp] theorem fab_satAdd (d : Dev) (o n : Nat) : (d.satAdd o n).fab = d.fab := by cases d; rfl
@[simp] theorem gw_satAdd (d : Dev) (o n : Nat) : (d.satAdd o n).gw = d.gw := by cases d; rfl
@[simp] theorem hubBufs_satAdd (d : Dev) (o n : Nat) : (d.satAdd o n).hubBufs = d.hubBufs := by cases d; rfl
@[simp] theorem srv_satAdd (d : Dev) (o n : Nat) : (d.satAdd o n).srv = d.srv := by cases d; rfl
@[simp] theorem res_satAdd (d : Dev) (o n : Nat) : (d.satAdd o n).res = d.res := by cases d; rfl
@[simp] theorem rst_satAdd (d : Dev) (o n : Nat) : (d.satAdd o n).rst = d.rst := by cases d; rfl
@[simp] theorem free_satAdd (d : Dev) (o n : Nat) : (d.satAdd o n).free = d.free := by cases d; rfl
@[simp] theorem rwb_satInc (d : Dev) (o : Nat) : (d.satInc o).rwb = d.rwb := by cases d; rfl
@[simp] theorem ages_satInc (d : Dev) (o : Nat) : (d.satInc o).ages = d.ages := by cases d; rfl
@[simp] theorem log_satInc (d : Dev) (o : Nat) : (d.satInc o).log = d.log := by cases d; rfl
@[simp] theorem now_satInc (d : Dev) (o : Nat) : (d.satInc o).now = d.now := by cases d; rfl
@[simp] theorem msix_satInc (d : Dev) (o : Nat) : (d.satInc o).msix = d.msix := by cases d; rfl
@[simp] theorem maskOld_satInc (d : Dev) (o : Nat) : (d.satInc o).maskOld = d.maskOld := by cases d; rfl
@[simp] theorem msixOld_satInc (d : Dev) (o : Nat) : (d.satInc o).msixOld = d.msixOld := by cases d; rfl
@[simp] theorem out_satInc (d : Dev) (o : Nat) : (d.satInc o).out = d.out := by cases d; rfl
@[simp] theorem pw_satInc (d : Dev) (o : Nat) : (d.satInc o).pw = d.pw := by cases d; rfl
@[simp] theorem sb_satInc (d : Dev) (o : Nat) : (d.satInc o).sb = d.sb := by cases d; rfl
@[simp] theorem panel_satInc (d : Dev) (o : Nat) : (d.satInc o).panel = d.panel := by cases d; rfl
@[simp] theorem boot_satInc (d : Dev) (o : Nat) : (d.satInc o).boot = d.boot := by cases d; rfl
@[simp] theorem trust_satInc (d : Dev) (o : Nat) : (d.satInc o).trust = d.trust := by cases d; rfl
@[simp] theorem mbx_satInc (d : Dev) (o : Nat) : (d.satInc o).mbx = d.mbx := by cases d; rfl
@[simp] theorem jtag_satInc (d : Dev) (o : Nat) : (d.satInc o).jtag = d.jtag := by cases d; rfl
@[simp] theorem tiles_satInc (d : Dev) (o : Nat) : (d.satInc o).tiles = d.tiles := by cases d; rfl
@[simp] theorem fab_satInc (d : Dev) (o : Nat) : (d.satInc o).fab = d.fab := by cases d; rfl
@[simp] theorem gw_satInc (d : Dev) (o : Nat) : (d.satInc o).gw = d.gw := by cases d; rfl
@[simp] theorem hubBufs_satInc (d : Dev) (o : Nat) : (d.satInc o).hubBufs = d.hubBufs := by cases d; rfl
@[simp] theorem srv_satInc (d : Dev) (o : Nat) : (d.satInc o).srv = d.srv := by cases d; rfl
@[simp] theorem res_satInc (d : Dev) (o : Nat) : (d.satInc o).res = d.res := by cases d; rfl
@[simp] theorem rst_satInc (d : Dev) (o : Nat) : (d.satInc o).rst = d.rst := by cases d; rfl
@[simp] theorem free_satInc (d : Dev) (o : Nat) : (d.satInc o).free = d.free := by cases d; rfl
@[simp] theorem rwb_satIncF (d : Dev) (f : Fld) : (d.satIncF f).rwb = d.rwb := by cases d; rfl
@[simp] theorem ages_satIncF (d : Dev) (f : Fld) : (d.satIncF f).ages = d.ages := by cases d; rfl
@[simp] theorem log_satIncF (d : Dev) (f : Fld) : (d.satIncF f).log = d.log := by cases d; rfl
@[simp] theorem now_satIncF (d : Dev) (f : Fld) : (d.satIncF f).now = d.now := by cases d; rfl
@[simp] theorem msix_satIncF (d : Dev) (f : Fld) : (d.satIncF f).msix = d.msix := by cases d; rfl
@[simp] theorem maskOld_satIncF (d : Dev) (f : Fld) : (d.satIncF f).maskOld = d.maskOld := by cases d; rfl
@[simp] theorem msixOld_satIncF (d : Dev) (f : Fld) : (d.satIncF f).msixOld = d.msixOld := by cases d; rfl
@[simp] theorem out_satIncF (d : Dev) (f : Fld) : (d.satIncF f).out = d.out := by cases d; rfl
@[simp] theorem pw_satIncF (d : Dev) (f : Fld) : (d.satIncF f).pw = d.pw := by cases d; rfl
@[simp] theorem sb_satIncF (d : Dev) (f : Fld) : (d.satIncF f).sb = d.sb := by cases d; rfl
@[simp] theorem panel_satIncF (d : Dev) (f : Fld) : (d.satIncF f).panel = d.panel := by cases d; rfl
@[simp] theorem boot_satIncF (d : Dev) (f : Fld) : (d.satIncF f).boot = d.boot := by cases d; rfl
@[simp] theorem trust_satIncF (d : Dev) (f : Fld) : (d.satIncF f).trust = d.trust := by cases d; rfl
@[simp] theorem mbx_satIncF (d : Dev) (f : Fld) : (d.satIncF f).mbx = d.mbx := by cases d; rfl
@[simp] theorem jtag_satIncF (d : Dev) (f : Fld) : (d.satIncF f).jtag = d.jtag := by cases d; rfl
@[simp] theorem tiles_satIncF (d : Dev) (f : Fld) : (d.satIncF f).tiles = d.tiles := by cases d; rfl
@[simp] theorem fab_satIncF (d : Dev) (f : Fld) : (d.satIncF f).fab = d.fab := by cases d; rfl
@[simp] theorem gw_satIncF (d : Dev) (f : Fld) : (d.satIncF f).gw = d.gw := by cases d; rfl
@[simp] theorem hubBufs_satIncF (d : Dev) (f : Fld) : (d.satIncF f).hubBufs = d.hubBufs := by cases d; rfl
@[simp] theorem srv_satIncF (d : Dev) (f : Fld) : (d.satIncF f).srv = d.srv := by cases d; rfl
@[simp] theorem res_satIncF (d : Dev) (f : Fld) : (d.satIncF f).res = d.res := by cases d; rfl
@[simp] theorem rst_satIncF (d : Dev) (f : Fld) : (d.satIncF f).rst = d.rst := by cases d; rfl
@[simp] theorem free_satIncF (d : Dev) (f : Fld) : (d.satIncF f).free = d.free := by cases d; rfl
@[simp] theorem rwb_edge (d : Dev) (n : Nat) : (d.edge n).rwb = d.rwb := by unfold Dev.edge; split <;> rfl
@[simp] theorem ages_edge (d : Dev) (n : Nat) : (d.edge n).ages = d.ages := by unfold Dev.edge; split <;> rfl
@[simp] theorem log_edge (d : Dev) (n : Nat) : (d.edge n).log = d.log := by unfold Dev.edge; split <;> rfl
@[simp] theorem now_edge (d : Dev) (n : Nat) : (d.edge n).now = d.now := by unfold Dev.edge; split <;> rfl
@[simp] theorem msix_edge (d : Dev) (n : Nat) : (d.edge n).msix = d.msix := by unfold Dev.edge; split <;> rfl
@[simp] theorem maskOld_edge (d : Dev) (n : Nat) : (d.edge n).maskOld = d.maskOld := by unfold Dev.edge; split <;> rfl
@[simp] theorem msixOld_edge (d : Dev) (n : Nat) : (d.edge n).msixOld = d.msixOld := by unfold Dev.edge; split <;> rfl
@[simp] theorem out_edge (d : Dev) (n : Nat) : (d.edge n).out = d.out := by unfold Dev.edge; split <;> rfl
@[simp] theorem pw_edge (d : Dev) (n : Nat) : (d.edge n).pw = d.pw := by unfold Dev.edge; split <;> rfl
@[simp] theorem sb_edge (d : Dev) (n : Nat) : (d.edge n).sb = d.sb := by unfold Dev.edge; split <;> rfl
@[simp] theorem panel_edge (d : Dev) (n : Nat) : (d.edge n).panel = d.panel := by unfold Dev.edge; split <;> rfl
@[simp] theorem boot_edge (d : Dev) (n : Nat) : (d.edge n).boot = d.boot := by unfold Dev.edge; split <;> rfl
@[simp] theorem trust_edge (d : Dev) (n : Nat) : (d.edge n).trust = d.trust := by unfold Dev.edge; split <;> rfl
@[simp] theorem mbx_edge (d : Dev) (n : Nat) : (d.edge n).mbx = d.mbx := by unfold Dev.edge; split <;> rfl
@[simp] theorem jtag_edge (d : Dev) (n : Nat) : (d.edge n).jtag = d.jtag := by unfold Dev.edge; split <;> rfl
@[simp] theorem tiles_edge (d : Dev) (n : Nat) : (d.edge n).tiles = d.tiles := by unfold Dev.edge; split <;> rfl
@[simp] theorem fab_edge (d : Dev) (n : Nat) : (d.edge n).fab = d.fab := by unfold Dev.edge; split <;> rfl
@[simp] theorem gw_edge (d : Dev) (n : Nat) : (d.edge n).gw = d.gw := by unfold Dev.edge; split <;> rfl
@[simp] theorem hubBufs_edge (d : Dev) (n : Nat) : (d.edge n).hubBufs = d.hubBufs := by unfold Dev.edge; split <;> rfl
@[simp] theorem srv_edge (d : Dev) (n : Nat) : (d.edge n).srv = d.srv := by unfold Dev.edge; split <;> rfl
@[simp] theorem res_edge (d : Dev) (n : Nat) : (d.edge n).res = d.res := by unfold Dev.edge; split <;> rfl
@[simp] theorem rst_edge (d : Dev) (n : Nat) : (d.edge n).rst = d.rst := by unfold Dev.edge; split <;> rfl
@[simp] theorem free_edge (d : Dev) (n : Nat) : (d.edge n).free = d.free := by unfold Dev.edge; split <;> rfl
@[simp] theorem regs_emit (d : Dev) (o : Output) : (d.emit o).regs = d.regs := by cases d; rfl
@[simp] theorem regs_at_ (d : Dev) (t : Nat) : (d.at_ t).regs = d.regs := by cases d; rfl
@[simp] theorem regs_setAge (d : Dev) (g : EvGroup) (b v : Nat) : (d.setAge g b v).regs = d.regs := by cases d; rfl
@[simp] theorem rwb_emit (d : Dev) (o : Output) : (d.emit o).rwb = d.rwb := by cases d; rfl
@[simp] theorem rwb_at_ (d : Dev) (t : Nat) : (d.at_ t).rwb = d.rwb := by cases d; rfl
@[simp] theorem rwb_setAge (d : Dev) (g : EvGroup) (b v : Nat) : (d.setAge g b v).rwb = d.rwb := by cases d; rfl
@[simp] theorem ages_emit (d : Dev) (o : Output) : (d.emit o).ages = d.ages := by cases d; rfl
@[simp] theorem ages_at_ (d : Dev) (t : Nat) : (d.at_ t).ages = d.ages := by cases d; rfl
@[simp] theorem log_emit (d : Dev) (o : Output) : (d.emit o).log = d.log := by cases d; rfl
@[simp] theorem log_at_ (d : Dev) (t : Nat) : (d.at_ t).log = d.log := by cases d; rfl
@[simp] theorem log_setAge (d : Dev) (g : EvGroup) (b v : Nat) : (d.setAge g b v).log = d.log := by cases d; rfl
@[simp] theorem now_emit (d : Dev) (o : Output) : (d.emit o).now = d.now := by cases d; rfl
@[simp] theorem now_setAge (d : Dev) (g : EvGroup) (b v : Nat) : (d.setAge g b v).now = d.now := by cases d; rfl
@[simp] theorem msix_emit (d : Dev) (o : Output) : (d.emit o).msix = d.msix := by cases d; rfl
@[simp] theorem msix_at_ (d : Dev) (t : Nat) : (d.at_ t).msix = d.msix := by cases d; rfl
@[simp] theorem msix_setAge (d : Dev) (g : EvGroup) (b v : Nat) : (d.setAge g b v).msix = d.msix := by cases d; rfl
@[simp] theorem maskOld_emit (d : Dev) (o : Output) : (d.emit o).maskOld = d.maskOld := by cases d; rfl
@[simp] theorem maskOld_at_ (d : Dev) (t : Nat) : (d.at_ t).maskOld = d.maskOld := by cases d; rfl
@[simp] theorem maskOld_setAge (d : Dev) (g : EvGroup) (b v : Nat) : (d.setAge g b v).maskOld = d.maskOld := by cases d; rfl
@[simp] theorem msixOld_emit (d : Dev) (o : Output) : (d.emit o).msixOld = d.msixOld := by cases d; rfl
@[simp] theorem msixOld_at_ (d : Dev) (t : Nat) : (d.at_ t).msixOld = d.msixOld := by cases d; rfl
@[simp] theorem msixOld_setAge (d : Dev) (g : EvGroup) (b v : Nat) : (d.setAge g b v).msixOld = d.msixOld := by cases d; rfl
@[simp] theorem out_at_ (d : Dev) (t : Nat) : (d.at_ t).out = d.out := by cases d; rfl
@[simp] theorem out_setAge (d : Dev) (g : EvGroup) (b v : Nat) : (d.setAge g b v).out = d.out := by cases d; rfl
@[simp] theorem pw_emit (d : Dev) (o : Output) : (d.emit o).pw = d.pw := by cases d; rfl
@[simp] theorem pw_at_ (d : Dev) (t : Nat) : (d.at_ t).pw = d.pw := by cases d; rfl
@[simp] theorem pw_setAge (d : Dev) (g : EvGroup) (b v : Nat) : (d.setAge g b v).pw = d.pw := by cases d; rfl
@[simp] theorem sb_emit (d : Dev) (o : Output) : (d.emit o).sb = d.sb := by cases d; rfl
@[simp] theorem sb_at_ (d : Dev) (t : Nat) : (d.at_ t).sb = d.sb := by cases d; rfl
@[simp] theorem sb_setAge (d : Dev) (g : EvGroup) (b v : Nat) : (d.setAge g b v).sb = d.sb := by cases d; rfl
@[simp] theorem panel_emit (d : Dev) (o : Output) : (d.emit o).panel = d.panel := by cases d; rfl
@[simp] theorem panel_at_ (d : Dev) (t : Nat) : (d.at_ t).panel = d.panel := by cases d; rfl
@[simp] theorem panel_setAge (d : Dev) (g : EvGroup) (b v : Nat) : (d.setAge g b v).panel = d.panel := by cases d; rfl
@[simp] theorem boot_emit (d : Dev) (o : Output) : (d.emit o).boot = d.boot := by cases d; rfl
@[simp] theorem boot_at_ (d : Dev) (t : Nat) : (d.at_ t).boot = d.boot := by cases d; rfl
@[simp] theorem boot_setAge (d : Dev) (g : EvGroup) (b v : Nat) : (d.setAge g b v).boot = d.boot := by cases d; rfl
@[simp] theorem trust_emit (d : Dev) (o : Output) : (d.emit o).trust = d.trust := by cases d; rfl
@[simp] theorem trust_at_ (d : Dev) (t : Nat) : (d.at_ t).trust = d.trust := by cases d; rfl
@[simp] theorem trust_setAge (d : Dev) (g : EvGroup) (b v : Nat) : (d.setAge g b v).trust = d.trust := by cases d; rfl
@[simp] theorem mbx_emit (d : Dev) (o : Output) : (d.emit o).mbx = d.mbx := by cases d; rfl
@[simp] theorem mbx_at_ (d : Dev) (t : Nat) : (d.at_ t).mbx = d.mbx := by cases d; rfl
@[simp] theorem mbx_setAge (d : Dev) (g : EvGroup) (b v : Nat) : (d.setAge g b v).mbx = d.mbx := by cases d; rfl
@[simp] theorem jtag_emit (d : Dev) (o : Output) : (d.emit o).jtag = d.jtag := by cases d; rfl
@[simp] theorem jtag_at_ (d : Dev) (t : Nat) : (d.at_ t).jtag = d.jtag := by cases d; rfl
@[simp] theorem jtag_setAge (d : Dev) (g : EvGroup) (b v : Nat) : (d.setAge g b v).jtag = d.jtag := by cases d; rfl
@[simp] theorem tiles_emit (d : Dev) (o : Output) : (d.emit o).tiles = d.tiles := by cases d; rfl
@[simp] theorem tiles_at_ (d : Dev) (t : Nat) : (d.at_ t).tiles = d.tiles := by cases d; rfl
@[simp] theorem tiles_setAge (d : Dev) (g : EvGroup) (b v : Nat) : (d.setAge g b v).tiles = d.tiles := by cases d; rfl
@[simp] theorem fab_emit (d : Dev) (o : Output) : (d.emit o).fab = d.fab := by cases d; rfl
@[simp] theorem fab_at_ (d : Dev) (t : Nat) : (d.at_ t).fab = d.fab := by cases d; rfl
@[simp] theorem fab_setAge (d : Dev) (g : EvGroup) (b v : Nat) : (d.setAge g b v).fab = d.fab := by cases d; rfl
@[simp] theorem gw_emit (d : Dev) (o : Output) : (d.emit o).gw = d.gw := by cases d; rfl
@[simp] theorem gw_at_ (d : Dev) (t : Nat) : (d.at_ t).gw = d.gw := by cases d; rfl
@[simp] theorem gw_setAge (d : Dev) (g : EvGroup) (b v : Nat) : (d.setAge g b v).gw = d.gw := by cases d; rfl
@[simp] theorem hubBufs_emit (d : Dev) (o : Output) : (d.emit o).hubBufs = d.hubBufs := by cases d; rfl
@[simp] theorem hubBufs_at_ (d : Dev) (t : Nat) : (d.at_ t).hubBufs = d.hubBufs := by cases d; rfl
@[simp] theorem hubBufs_setAge (d : Dev) (g : EvGroup) (b v : Nat) : (d.setAge g b v).hubBufs = d.hubBufs := by cases d; rfl
@[simp] theorem srv_emit (d : Dev) (o : Output) : (d.emit o).srv = d.srv := by cases d; rfl
@[simp] theorem srv_at_ (d : Dev) (t : Nat) : (d.at_ t).srv = d.srv := by cases d; rfl
@[simp] theorem srv_setAge (d : Dev) (g : EvGroup) (b v : Nat) : (d.setAge g b v).srv = d.srv := by cases d; rfl
@[simp] theorem res_emit (d : Dev) (o : Output) : (d.emit o).res = d.res := by cases d; rfl
@[simp] theorem res_at_ (d : Dev) (t : Nat) : (d.at_ t).res = d.res := by cases d; rfl
@[simp] theorem res_setAge (d : Dev) (g : EvGroup) (b v : Nat) : (d.setAge g b v).res = d.res := by cases d; rfl
@[simp] theorem rst_emit (d : Dev) (o : Output) : (d.emit o).rst = d.rst := by cases d; rfl
@[simp] theorem rst_at_ (d : Dev) (t : Nat) : (d.at_ t).rst = d.rst := by cases d; rfl
@[simp] theorem rst_setAge (d : Dev) (g : EvGroup) (b v : Nat) : (d.setAge g b v).rst = d.rst := by cases d; rfl
@[simp] theorem free_emit (d : Dev) (o : Output) : (d.emit o).free = d.free := by cases d; rfl
@[simp] theorem free_at_ (d : Dev) (t : Nat) : (d.at_ t).free = d.free := by cases d; rfl
@[simp] theorem free_setAge (d : Dev) (g : EvGroup) (b v : Nat) : (d.setAge g b v).free = d.free := by cases d; rfl

@[simp] theorem out_emit (d : Dev) (o : Output) : (d.emit o).out = d.out ++ [o] := by cases d; rfl
@[simp] theorem now_at_ (d : Dev) (t : Nat) : (d.at_ t).now = max d.now t := by cases d; rfl
@[simp] theorem getR_emit (d : Dev) (o : Output) (p : Nat) : (d.emit o).getR p = d.getR p := by cases d; rfl
@[simp] theorem getR_at_ (d : Dev) (t p : Nat) : (d.at_ t).getR p = d.getR p := by cases d; rfl
@[simp] theorem getR_setAge (d : Dev) (g : EvGroup) (b v p : Nat) : (d.setAge g b v).getR p = d.getR p := by cases d; rfl

theorem age_setAge (d : Dev) (g : EvGroup) (b v c : Nat) : (d.setAge g b v).age g c = if c = b then v else d.age g c := by
  simp only [Dev.age, Dev.setAge, smGet_smPut, ageKey, Nat.add_left_cancel_iff]

/-! Ageing the other bits of a group (R456). -/

theorem ageOthers_go (g : EvGroup) (b : Nat) (l : List Nat) (d : Dev) :
    ∃ a, l.foldl (fun d c => if c ≠ b ∧ d.regBit g.ev c then d.setAge g c (min (d.age g c + 1) 65535) else d) d =
      { d with ages := a } := by
  induction l generalizing d with
  | nil => exact ⟨d.ages, rfl⟩
  | cons c t ih =>
    simp only [List.foldl_cons]
    split
    · obtain ⟨a, h⟩ := ih (d.setAge g c (min (d.age g c + 1) 65535))
      exact ⟨a, by rw [h]; rfl⟩
    · exact ih d

/-- Ageing changes ages only. -/
theorem ageOthers_only (d : Dev) (g : EvGroup) (b : Nat) : ∃ a, d.ageOthers g b = { d with ages := a } :=
  ageOthers_go g b _ d

@[simp] theorem regs_ageOthers (d : Dev) (g : EvGroup) (b : Nat) : (d.ageOthers g b).regs = d.regs := by
  obtain ⟨a, h⟩ := ageOthers_only d g b; rw [h]
@[simp] theorem rwb_ageOthers (d : Dev) (g : EvGroup) (b : Nat) : (d.ageOthers g b).rwb = d.rwb := by
  obtain ⟨a, h⟩ := ageOthers_only d g b; rw [h]
@[simp] theorem log_ageOthers (d : Dev) (g : EvGroup) (b : Nat) : (d.ageOthers g b).log = d.log := by
  obtain ⟨a, h⟩ := ageOthers_only d g b; rw [h]
@[simp] theorem now_ageOthers (d : Dev) (g : EvGroup) (b : Nat) : (d.ageOthers g b).now = d.now := by
  obtain ⟨a, h⟩ := ageOthers_only d g b; rw [h]
@[simp] theorem msix_ageOthers (d : Dev) (g : EvGroup) (b : Nat) : (d.ageOthers g b).msix = d.msix := by
  obtain ⟨a, h⟩ := ageOthers_only d g b; rw [h]
@[simp] theorem maskOld_ageOthers (d : Dev) (g : EvGroup) (b : Nat) : (d.ageOthers g b).maskOld = d.maskOld := by
  obtain ⟨a, h⟩ := ageOthers_only d g b; rw [h]
@[simp] theorem msixOld_ageOthers (d : Dev) (g : EvGroup) (b : Nat) : (d.ageOthers g b).msixOld = d.msixOld := by
  obtain ⟨a, h⟩ := ageOthers_only d g b; rw [h]
@[simp] theorem out_ageOthers (d : Dev) (g : EvGroup) (b : Nat) : (d.ageOthers g b).out = d.out := by
  obtain ⟨a, h⟩ := ageOthers_only d g b; rw [h]
@[simp] theorem pw_ageOthers (d : Dev) (g : EvGroup) (b : Nat) : (d.ageOthers g b).pw = d.pw := by
  obtain ⟨a, h⟩ := ageOthers_only d g b; rw [h]
@[simp] theorem sb_ageOthers (d : Dev) (g : EvGroup) (b : Nat) : (d.ageOthers g b).sb = d.sb := by
  obtain ⟨a, h⟩ := ageOthers_only d g b; rw [h]
@[simp] theorem panel_ageOthers (d : Dev) (g : EvGroup) (b : Nat) : (d.ageOthers g b).panel = d.panel := by
  obtain ⟨a, h⟩ := ageOthers_only d g b; rw [h]
@[simp] theorem boot_ageOthers (d : Dev) (g : EvGroup) (b : Nat) : (d.ageOthers g b).boot = d.boot := by
  obtain ⟨a, h⟩ := ageOthers_only d g b; rw [h]
@[simp] theorem trust_ageOthers (d : Dev) (g : EvGroup) (b : Nat) : (d.ageOthers g b).trust = d.trust := by
  obtain ⟨a, h⟩ := ageOthers_only d g b; rw [h]
@[simp] theorem mbx_ageOthers (d : Dev) (g : EvGroup) (b : Nat) : (d.ageOthers g b).mbx = d.mbx := by
  obtain ⟨a, h⟩ := ageOthers_only d g b; rw [h]
@[simp] theorem jtag_ageOthers (d : Dev) (g : EvGroup) (b : Nat) : (d.ageOthers g b).jtag = d.jtag := by
  obtain ⟨a, h⟩ := ageOthers_only d g b; rw [h]
@[simp] theorem tiles_ageOthers (d : Dev) (g : EvGroup) (b : Nat) : (d.ageOthers g b).tiles = d.tiles := by
  obtain ⟨a, h⟩ := ageOthers_only d g b; rw [h]
@[simp] theorem fab_ageOthers (d : Dev) (g : EvGroup) (b : Nat) : (d.ageOthers g b).fab = d.fab := by
  obtain ⟨a, h⟩ := ageOthers_only d g b; rw [h]
@[simp] theorem gw_ageOthers (d : Dev) (g : EvGroup) (b : Nat) : (d.ageOthers g b).gw = d.gw := by
  obtain ⟨a, h⟩ := ageOthers_only d g b; rw [h]
@[simp] theorem hubBufs_ageOthers (d : Dev) (g : EvGroup) (b : Nat) : (d.ageOthers g b).hubBufs = d.hubBufs := by
  obtain ⟨a, h⟩ := ageOthers_only d g b; rw [h]
@[simp] theorem srv_ageOthers (d : Dev) (g : EvGroup) (b : Nat) : (d.ageOthers g b).srv = d.srv := by
  obtain ⟨a, h⟩ := ageOthers_only d g b; rw [h]
@[simp] theorem res_ageOthers (d : Dev) (g : EvGroup) (b : Nat) : (d.ageOthers g b).res = d.res := by
  obtain ⟨a, h⟩ := ageOthers_only d g b; rw [h]
@[simp] theorem rst_ageOthers (d : Dev) (g : EvGroup) (b : Nat) : (d.ageOthers g b).rst = d.rst := by
  obtain ⟨a, h⟩ := ageOthers_only d g b; rw [h]
@[simp] theorem free_ageOthers (d : Dev) (g : EvGroup) (b : Nat) : (d.ageOthers g b).free = d.free := by
  obtain ⟨a, h⟩ := ageOthers_only d g b; rw [h]
@[simp] theorem getR_ageOthers (d : Dev) (g : EvGroup) (b p : Nat) : (d.ageOthers g b).getR p = d.getR p := by
  obtain ⟨a, h⟩ := ageOthers_only d g b; rw [h]; rfl

/-! A latched event (R14, R456, R459). -/

@[simp] theorem rwb_latch (d : Dev) (g : EvGroup) (b : Nat) : (d.latch g b).rwb = d.rwb := by simp [Dev.latch]
@[simp] theorem log_latch (d : Dev) (g : EvGroup) (b : Nat) : (d.latch g b).log = d.log := by simp [Dev.latch]
@[simp] theorem now_latch (d : Dev) (g : EvGroup) (b : Nat) : (d.latch g b).now = d.now := by simp [Dev.latch]
@[simp] theorem msix_latch (d : Dev) (g : EvGroup) (b : Nat) : (d.latch g b).msix = d.msix := by simp [Dev.latch]
@[simp] theorem maskOld_latch (d : Dev) (g : EvGroup) (b : Nat) : (d.latch g b).maskOld = d.maskOld := by simp [Dev.latch]
@[simp] theorem msixOld_latch (d : Dev) (g : EvGroup) (b : Nat) : (d.latch g b).msixOld = d.msixOld := by simp [Dev.latch]
@[simp] theorem out_latch (d : Dev) (g : EvGroup) (b : Nat) : (d.latch g b).out = d.out := by simp [Dev.latch]
@[simp] theorem pw_latch (d : Dev) (g : EvGroup) (b : Nat) : (d.latch g b).pw = d.pw := by simp [Dev.latch]
@[simp] theorem sb_latch (d : Dev) (g : EvGroup) (b : Nat) : (d.latch g b).sb = d.sb := by simp [Dev.latch]
@[simp] theorem panel_latch (d : Dev) (g : EvGroup) (b : Nat) : (d.latch g b).panel = d.panel := by simp [Dev.latch]
@[simp] theorem boot_latch (d : Dev) (g : EvGroup) (b : Nat) : (d.latch g b).boot = d.boot := by simp [Dev.latch]
@[simp] theorem trust_latch (d : Dev) (g : EvGroup) (b : Nat) : (d.latch g b).trust = d.trust := by simp [Dev.latch]
@[simp] theorem mbx_latch (d : Dev) (g : EvGroup) (b : Nat) : (d.latch g b).mbx = d.mbx := by simp [Dev.latch]
@[simp] theorem jtag_latch (d : Dev) (g : EvGroup) (b : Nat) : (d.latch g b).jtag = d.jtag := by simp [Dev.latch]
@[simp] theorem tiles_latch (d : Dev) (g : EvGroup) (b : Nat) : (d.latch g b).tiles = d.tiles := by simp [Dev.latch]
@[simp] theorem fab_latch (d : Dev) (g : EvGroup) (b : Nat) : (d.latch g b).fab = d.fab := by simp [Dev.latch]
@[simp] theorem gw_latch (d : Dev) (g : EvGroup) (b : Nat) : (d.latch g b).gw = d.gw := by simp [Dev.latch]
@[simp] theorem hubBufs_latch (d : Dev) (g : EvGroup) (b : Nat) : (d.latch g b).hubBufs = d.hubBufs := by simp [Dev.latch]
@[simp] theorem srv_latch (d : Dev) (g : EvGroup) (b : Nat) : (d.latch g b).srv = d.srv := by simp [Dev.latch]
@[simp] theorem res_latch (d : Dev) (g : EvGroup) (b : Nat) : (d.latch g b).res = d.res := by simp [Dev.latch]
@[simp] theorem rst_latch (d : Dev) (g : EvGroup) (b : Nat) : (d.latch g b).rst = d.rst := by simp [Dev.latch]
@[simp] theorem free_latch (d : Dev) (g : EvGroup) (b : Nat) : (d.latch g b).free = d.free := by simp [Dev.latch]

/-- A latched event changes registers and ages only. -/
theorem latch_only (d : Dev) (g : EvGroup) (b : Nat) :
    d.latch g b = { d with regs := (d.latch g b).regs, ages := (d.latch g b).ages } := by
  apply dev_ext; simp

/-- A register outside the group and the pending words keeps its value when an event latches. -/
theorem getR_latch_ne (d : Dev) (g : EvGroup) (b p : Nat) (h1 : p ≠ g.ev) (h2 : p ≠ g.seq) (h3 : p ≠ INT_PEND (g.src / 32)) :
    (d.latch g b).getR p = d.getR p := by
  unfold Dev.latch
  rw [getR_edge_ne _ _ _ h3, getR_setBit_ne _ _ _ h1, getR_setF, if_neg h2]
  simp

/-- The bit of the event is set after it latches. -/
theorem regBit_latch_self (d : Dev) (g : EvGroup) (b : Nat) (hb : b < 32) (h : g.ev ≠ INT_PEND (g.src / 32)) :
    (d.latch g b).regBit g.ev b = true := by
  unfold Dev.latch
  rw [regBit_edge _ _ _ _ hb (fun x => h x.1), regBit_setBit _ _ _ _ _ _ hb]
  simp

/-- Latching one event sets its bit and leaves the other bits of the event register. -/
theorem regBit_latch (d : Dev) (g : EvGroup) (b c : Nat) (hc : c < 32) (h : g.ev ≠ INT_PEND (g.src / 32)) (hs : g.ev ≠ g.seq) :
    (d.latch g b).regBit g.ev c = (decide (c = b) || d.regBit g.ev c) := by
  unfold Dev.latch
  rw [regBit_edge _ _ _ _ hc (fun x => h x.1), regBit_setBit _ _ _ _ _ _ hc]
  by_cases hb : c = b
  · simp [hb]
  · simp [hb, Dev.regBit, getR_setF, hs]

/-- The group's source is pending after an event latches. -/
theorem isPending_latch (d : Dev) (g : EvGroup) (b : Nat) (h : sourceListed g.src) : (d.latch g b).isPending g.src = true := by
  unfold Dev.latch
  exact isPending_edge _ _ h

/-! Log entries. -/

@[simp] theorem rwb_logEntry (d : Dev) (c s a b e : Nat) : (d.logEntry c s a b e).rwb = d.rwb := by simp [Dev.logEntry]
@[simp] theorem ages_logEntry (d : Dev) (c s a b e : Nat) : (d.logEntry c s a b e).ages = d.ages := by simp [Dev.logEntry]
@[simp] theorem now_logEntry (d : Dev) (c s a b e : Nat) : (d.logEntry c s a b e).now = d.now := by simp [Dev.logEntry]
@[simp] theorem msix_logEntry (d : Dev) (c s a b e : Nat) : (d.logEntry c s a b e).msix = d.msix := by simp [Dev.logEntry]
@[simp] theorem maskOld_logEntry (d : Dev) (c s a b e : Nat) : (d.logEntry c s a b e).maskOld = d.maskOld := by simp [Dev.logEntry]
@[simp] theorem msixOld_logEntry (d : Dev) (c s a b e : Nat) : (d.logEntry c s a b e).msixOld = d.msixOld := by simp [Dev.logEntry]
@[simp] theorem out_logEntry (d : Dev) (c s a b e : Nat) : (d.logEntry c s a b e).out = d.out := by simp [Dev.logEntry]
@[simp] theorem pw_logEntry (d : Dev) (c s a b e : Nat) : (d.logEntry c s a b e).pw = d.pw := by simp [Dev.logEntry]
@[simp] theorem sb_logEntry (d : Dev) (c s a b e : Nat) : (d.logEntry c s a b e).sb = d.sb := by simp [Dev.logEntry]
@[simp] theorem panel_logEntry (d : Dev) (c s a b e : Nat) : (d.logEntry c s a b e).panel = d.panel := by simp [Dev.logEntry]
@[simp] theorem boot_logEntry (d : Dev) (c s a b e : Nat) : (d.logEntry c s a b e).boot = d.boot := by simp [Dev.logEntry]
@[simp] theorem trust_logEntry (d : Dev) (c s a b e : Nat) : (d.logEntry c s a b e).trust = d.trust := by simp [Dev.logEntry]
@[simp] theorem mbx_logEntry (d : Dev) (c s a b e : Nat) : (d.logEntry c s a b e).mbx = d.mbx := by simp [Dev.logEntry]
@[simp] theorem jtag_logEntry (d : Dev) (c s a b e : Nat) : (d.logEntry c s a b e).jtag = d.jtag := by simp [Dev.logEntry]
@[simp] theorem tiles_logEntry (d : Dev) (c s a b e : Nat) : (d.logEntry c s a b e).tiles = d.tiles := by simp [Dev.logEntry]
@[simp] theorem fab_logEntry (d : Dev) (c s a b e : Nat) : (d.logEntry c s a b e).fab = d.fab := by simp [Dev.logEntry]
@[simp] theorem gw_logEntry (d : Dev) (c s a b e : Nat) : (d.logEntry c s a b e).gw = d.gw := by simp [Dev.logEntry]
@[simp] theorem hubBufs_logEntry (d : Dev) (c s a b e : Nat) : (d.logEntry c s a b e).hubBufs = d.hubBufs := by simp [Dev.logEntry]
@[simp] theorem srv_logEntry (d : Dev) (c s a b e : Nat) : (d.logEntry c s a b e).srv = d.srv := by simp [Dev.logEntry]
@[simp] theorem res_logEntry (d : Dev) (c s a b e : Nat) : (d.logEntry c s a b e).res = d.res := by simp [Dev.logEntry]
@[simp] theorem rst_logEntry (d : Dev) (c s a b e : Nat) : (d.logEntry c s a b e).rst = d.rst := by simp [Dev.logEntry]
@[simp] theorem free_logEntry (d : Dev) (c s a b e : Nat) : (d.logEntry c s a b e).free = d.free := by simp [Dev.logEntry]

theorem getR_logEntry_ne (d : Dev) (c s a b e p : Nat) (h1 : p ≠ HUB_LOG_HEAD) (h2 : p ≠ INT_PEND 0) :
    (d.logEntry c s a b e).getR p = d.getR p := by
  unfold Dev.logEntry
  rw [getR_edge_ne _ _ _ (by simpa using h2), getR_setN, if_neg h1]
  rfl

end Sys2Proof.Machine
end

