-- ==== Sys2Proof/Laws/Power.lean ====
section
/-! SUPPORT. What the power controller's shared operations leave unchanged: the throttle counters' accrual, the throttle reasons, the
PMBus alert. -/

namespace Sys2Proof.Machine

open Reg

theorem accrue_go (d : Dev) (now : Nat) (l : List Nat) (x : Dev) (hl : ∀ n ∈ l, n < 7) :
    ∃ r, l.foldl (fun e n => if d.pw.reasons.testBit n then
        e.setPair (PWR_THR_LO n) (PWR_THR_HI n) (e.getPair (PWR_THR_LO n) (PWR_THR_HI n) + (now - d.pw.accAt)) else e) x =
        { x with regs := r } ∧
      ∀ p, (p < PWR_THR_LO 0 ∨ PWR_THR_LO 7 ≤ p) → smGet resetVal r p = x.getR p := by
  induction l generalizing x with
  | nil => exact ⟨x.regs, rfl, fun p _ => rfl⟩
  | cons n t ih =>
    have hn : n < 7 := hl n (by simp)
    simp only [List.foldl_cons]
    split
    · obtain ⟨r, h1, h2⟩ := ih (x.setPair (PWR_THR_LO n) (PWR_THR_HI n)
        (x.getPair (PWR_THR_LO n) (PWR_THR_HI n) + (now - d.pw.accAt))) (fun m hm => hl m (by simp [hm]))
      refine ⟨r, ?_, fun p hp => ?_⟩
      · rw [h1]; apply dev_ext; simp
      · rw [h2 p hp, getR_setPair, if_neg (by unfold PWR_THR_LO PWR_THR_HI at *; omega),
          if_neg (by unfold PWR_THR_LO at *; omega)]
    · exact ih x (fun m hm => hl m (by simp [hm]))

/-- Accrual changes the throttle counters and the time counted up to. -/
theorem accrue_only (d : Dev) (now : Nat) :
    ∃ r, d.accrue now = { d with regs := r, pw := { d.pw with accAt := max d.pw.accAt now } } ∧
      ∀ p, (p < PWR_THR_LO 0 ∨ PWR_THR_LO 7 ≤ p) → smGet resetVal r p = d.getR p := by
  obtain ⟨r, h1, h2⟩ := accrue_go d now (List.range 7) d (fun n hn => by simpa using hn)
  refine ⟨r, ?_, h2⟩
  unfold Dev.accrue
  rw [h1]

theorem getR_accrue (d : Dev) (now p : Nat) (hp : p < PWR_THR_LO 0 ∨ PWR_THR_LO 7 ≤ p) : (d.accrue now).getR p = d.getR p := by
  obtain ⟨r, h1, h2⟩ := accrue_only d now
  rw [h1]
  exact h2 p hp

/-- Taking the reasons in force changes them, and the CURRENT event's group when CURRENT begins to throttle. -/
theorem setReasons_only (d : Dev) :
    ∃ r a, d.setReasons = { d with regs := r, ages := a, pw := { d.pw with reasons := d.reasonsNow } } ∧
      ∀ p, p ≠ PWR_EVENT → p ≠ PWR_EVENT_SEQ → p ≠ INT_PEND 0 → smGet resetVal r p = d.getR p := by
  unfold Dev.setReasons
  dsimp only
  split
  · refine ⟨_, _, latch_only _ _ _, fun p h1 h2 h3 => ?_⟩
    exact getR_latch_ne { d with pw := { d.pw with reasons := d.reasonsNow } } egPwr 4 p h1 h2 h3
  · exact ⟨d.regs, d.ages, rfl, fun p _ _ _ => rfl⟩

/-- The PMBus alert changes the sideband's state only. -/
theorem alertOnStatus_only (d : Dev) : ∃ b, d.alertOnStatus = { d with sb := b } := ⟨_, rfl⟩

/-- A run of field writes changes registers only, and only those written. -/
theorem setF_fold_only {α : Type} (l : List α) (g : α → Fld) (v : α → Nat) (d : Dev) :
    ∃ r, l.foldl (fun e a => e.setF (g a) (v a)) d = { d with regs := r } ∧
      ∀ p, (∀ a ∈ l, p ≠ (g a).off) → smGet resetVal r p = d.getR p := by
  induction l generalizing d with
  | nil => exact ⟨d.regs, rfl, fun p _ => rfl⟩
  | cons a t ih =>
    obtain ⟨r, h1, h2⟩ := ih (d.setF (g a) (v a))
    refine ⟨r, ?_, fun p hp => ?_⟩
    · rw [List.foldl_cons, h1]; apply dev_ext; simp
    · rw [h2 p fun b hb => hp b (by simp [hb]), getR_setF, if_neg (hp a (by simp))]

/-- The sensors' readings change registers of temperatures and voltages and the hub's two sensors only. -/
theorem sense_only (d : Dev) (temps vcore : List (BitVec 16)) (f : Flash) :
    ∃ r a b, d.sense temps vcore f = { d with regs := r, pw := { d.pw with hubTemp0 := a, hubTemp1 := b } } ∧
      ∀ p, p ≠ PWR_TEMP → (∀ j < 128, p ≠ PWR_TTEMP (j / 4) (j % 4)) → (∀ n < 32, p ≠ PWR_TSTATUS n) →
        smGet resetVal r p = d.getR p := by
  obtain ⟨r1, h1, hr1⟩ := setF_fold_only (List.range 128) (fun j => PWR_TTEMP_TEMP (j / 4) (j % 4))
    (fun j => (temps.getD j 0 + f.sensorTrim j).toNat) d
  obtain ⟨r2, h2, hr2⟩ := setF_fold_only (List.range 32) (fun n => PWR_TSTATUS_VCORE_MV n)
    (fun n => (vcore.getD n 0).toNat) { d with regs := r1 }
  have hs : ∃ v w, d.sense temps vcore f = (({ d with regs := r2, pw := { d.pw with
      hubTemp0 := temps.getD 128 0 + f.sensorTrim 128, hubTemp1 := temps.getD 129 0 + f.sensorTrim 129 } } : Dev).setF
        PWR_TEMP_DIE_MAX v).setF PWR_TEMP_DRAM_MAX w := by
    unfold Dev.sense
    dsimp only
    rw [h1, h2]
    exact ⟨_, _, rfl⟩
  obtain ⟨v, w, hs⟩ := hs
  refine ⟨(d.sense temps vcore f).regs, temps.getD 128 0 + f.sensorTrim 128, temps.getD 129 0 + f.sensorTrim 129, ?_, ?_⟩
  · rw [hs]
    apply dev_ext
    simp
  · intro p hp h3 h4
    rw [smGet_regs, hs, getR_setF, if_neg hp, getR_setF, if_neg hp]
    exact (hr2 p fun n hn => h4 n (by simpa using hn)).trans (hr1 p fun j hj => h3 j (by simpa using hj))

end Sys2Proof.Machine
end

