-- ==== Sys2Proof/Laws/Regs.lean ====
section
/-! SUPPORT. The fields of every register of the map lie in 32 bits and do not overlap. -/

namespace Sys2Proof.Machine

/-- Fields that lie in 32 bits, none overlapping a later one. -/
def fieldsOk : List FieldDesc → Bool
  | [] => true
  | f :: t => decide (f.hi < 32) && decide (f.lo ≤ f.hi) && (t.all fun g => decide (g.hi < f.lo) || decide (f.hi < g.lo)) && fieldsOk t

def descsOk (l : List RegDesc) : Bool := l.all fun r => fieldsOk r.fields

theorem hub_ok : descsOk (hubRegs ++ logRegs) = true := by decide +kernel
theorem int_ok : descsOk (intRegs ++ msixRegs) = true := by decide +kernel
theorem srv_ok : descsOk (srvRegs ++ budgetRegs) = true := by decide +kernel
theorem pwr_ok : descsOk pwrRegs = true := by decide +kernel
theorem sec_ok : descsOk secRegs = true := by decide +kernel
theorem fab_ok : descsOk fabRegs = true := by decide +kernel
theorem dld_ok : descsOk dldRegs = true := by decide +kernel
theorem wtr_ok : descsOk wtrRegs = true := by decide +kernel
theorem pmc_ok : descsOk pmcRegs = true := by decide +kernel
theorem stc_ok : descsOk stcRegs = true := by decide +kernel
theorem tctl_ok : descsOk tctlRegs = true := by decide +kernel
theorem mgl_ok : descsOk mglRegs = true := by decide +kernel
theorem vec_ok : descsOk vecRegs = true := by decide +kernel
theorem qnt_ok : descsOk qntRegs = true := by decide +kernel
theorem mem_ok : descsOk memRegs = true := by decide +kernel
theorem wrg_ok : descsOk wrgRegs = true := by decide +kernel
theorem hmp_ok : descsOk hmpRegs = true := by decide +kernel
theorem xpt_ok : descsOk xptRegs = true := by decide +kernel
theorem seam_ok : descsOk seamRegs = true := by decide +kernel
theorem pwrt_ok : descsOk pwrtRegs = true := by decide +kernel
theorem oec_ok : descsOk oecRegs = true := by decide +kernel

theorem findDesc_ok (l : List RegDesc) (o : Nat) (r : RegDesc) (hl : descsOk l = true) (h : findDesc l o = some r) :
    fieldsOk r.fields = true := by
  have hm := List.mem_of_find?_eq_some h
  exact List.all_eq_true.mp hl r hm

theorem tileDesc_ok (o : Nat) (r : RegDesc) (h : tileDesc o = some r) : fieldsOk r.fields = true := by
  unfold tileDesc at h
  split at h
  · exact findDesc_ok _ _ _ tctl_ok h
  · exact findDesc_ok _ _ _ mgl_ok h
  · exact findDesc_ok _ _ _ vec_ok h
  · exact findDesc_ok _ _ _ qnt_ok h
  · exact findDesc_ok _ _ _ mem_ok h
  · exact findDesc_ok _ _ _ wrg_ok h
  · exact findDesc_ok _ _ _ hmp_ok h
  · exact findDesc_ok _ _ _ xpt_ok h
  · exact findDesc_ok _ _ _ seam_ok h
  · split at h
    · cases h
    · exact findDesc_ok _ _ _ pmc_ok h
  · exact findDesc_ok _ _ _ stc_ok h
  · exact findDesc_ok _ _ _ pwrt_ok h
  · cases h

theorem hubDesc_ok (o : Nat) (r : RegDesc) (h : hubDesc o = some r) : fieldsOk r.fields = true := by
  unfold hubDesc at h
  split at h
  · exact findDesc_ok _ _ _ hub_ok h
  · exact findDesc_ok _ _ _ int_ok h
  · exact findDesc_ok _ _ _ srv_ok h
  · exact findDesc_ok _ _ _ pwr_ok h
  · exact findDesc_ok _ _ _ sec_ok h
  · exact findDesc_ok _ _ _ fab_ok h
  · exact findDesc_ok _ _ _ dld_ok h
  · exact findDesc_ok _ _ _ wtr_ok h
  · exact findDesc_ok _ _ _ pmc_ok h
  · split at h
    · exact findDesc_ok _ _ _ stc_ok h
    · cases h
  · cases h

/-- The fields of the register at any offset. -/
theorem regDesc_fieldsOk (o : Nat) (r : RegDesc) (h : regDesc o = some r) : fieldsOk r.fields = true := by
  unfold regDesc at h
  split at h
  · exact hubDesc_ok _ _ h
  · split at h
    · exact tileDesc_ok _ _ h
    · split at h
      · exact findDesc_ok _ _ _ oec_ok h
      · cases h

end Sys2Proof.Machine
end

