-- ==== Sys2Proof/Safety.lean ====
section
/-! DEFINITION. What counts as a safe run: no command stops the block, the protected sectors of the flash hold what they held, and the
flash's list of bytes keeps its canonical form. -/

namespace Sys2Proof.Machine

open Reg

/-- The command at the front of the queue, or idling, gives a next state. -/
def State.runs (s : State) : Prop := ∃ t, step s = .next t

/-- The state with another package: the queue and the flash stay. -/
abbrev State.put (s : State) (d : Dev) : State := { s with dev := d }

/-- Every register but those listed holds its value. -/
def Dev.keepsRegs (d e : Dev) (l : List Nat) : Prop := ∀ o, o ∉ l → e.getR o = d.getR o

/-- Every tile but `n` is as it was. -/
abbrev Dev.onlyTile (d e : Dev) (n : Fin 32) : Prop := ∀ m : Fin 32, m ≠ n → e.tile m = d.tile m

/-- One message of which `p` holds leaves endpoint `src` for a node of this package: it arrives at once at its own endpoint, and enters
the package network toward another (R362). -/
def Dev.launched (d e : Dev) (src : EndPt) (vc : Vc) (p : Dmsg → Prop) : Prop := ∃ m, p m ∧
  (src = nodeEndpt m.dst → e.out = d.out ++ [.arrive src m] ∧ e.fab = d.fab) ∧
  (src ≠ nodeEndpt m.dst → e.out = d.out ∧ ∃ x : Transit, x.msg = m ∧ x.vc = vc ∧ x.src = src ∧ x.dst = nodeEndpt m.dst ∧ x.where_ = .launch ∧
    e.fab = { d.fab with net := d.fab.net ++ [x] })

/-- The flash's bytes are in canonical form: addresses strictly rising, no entry equal to an erased byte. -/
def Flash.wf (f : Flash) : Bool := smWf flashDefault f.bytes

/-- Every byte of the device block reads alike (R422: its sectors are protected). -/
def sameDeviceBlock (f g : Flash) : Prop := ∀ a, 0x10000 ≤ a → a < 0x20000 → g.get a = f.get a

/-- Bits of the write-once region go from 1 to 0 only (R428). -/
def onlyBurnt (f g : Flash) : Prop := ∀ a, a < 0x10000 → g.get a &&& f.get a = g.get a

/-- The register's write of R12 and R13 reaches field `f`: it is RW, or RWB of a hub counter's selection, which applies on arrival. -/
def takesNow (o : Nat) (f : FieldDesc) : Prop := f.acc = .rw ∨ (f.acc = .rwb ∧ o / 0x100000 = 8)

/-- What a WARM reset that begins in `d` at `now` keeps and restarts in `e` (R177, R478, R479). -/
def Dev.warmKept (d e : Dev) (now : Nat) : Prop :=
  e.log = d.log ∧ e.now = max d.now now ∧ e.getR HUB_LOG_HEAD = d.getR HUB_LOG_HEAD ∧
  e.getR HUB_FATAL_INFO = d.getR HUB_FATAL_INFO ∧ e.getR PWR_STOP_CAUSE = d.getR PWR_STOP_CAUSE ∧
  (d.getF HUB_RESET_STATUS_WARM_COUNT < 0xFFFF →
    e.getF HUB_RESET_STATUS_WARM_COUNT = d.getF HUB_RESET_STATUS_WARM_COUNT + 1) ∧
  (∀ g, g < 4 → e.getF (SRV_GROUP_STATE_EPOCH g) = d.getF (SRV_GROUP_STATE_EPOCH g)) ∧
  (∀ n : Fin 32, (e.tile n).dram = (d.tile n).dram ∧ (e.tile n).darner.poison = (d.tile n).darner.poison ∧
    (e.tile n).store = [] ∧ (e.tile n).imem = []) ∧
  (∀ n : Fin 32, d.inService n = true → e.getF (MEM_STATUS_MODE n) = 2) ∧
  (∀ o, 0x100000 ≤ o → o < 0x200000 → e.getR o = resetVal o) ∧ e.rst.fatal = none ∧
  e.srv = Serve.reset ∧ e.fab = Fabric.reset ∧ e.trust = Trust.reset ∧ e.mbx = Mailbox.reset ∧
  e.out = d.out ++ [.transmittersOff, .hostLinkDown]

/-- R332: the IDENTITY frame of link `j`: this package, the link's index, reserved zero, the slice number. -/
def Dev.identityFrame (d : Dev) (j : Fin 64) : Output :=
  .frame j (ctrlFrame (leBytes 4 1 ++ leBytes 4 d.self ++ leBytes 1 j ++ leBytes 1 0 ++ leBytes 2 (d.getF FAB_CTRL_SLICE)))

/-- What the bring-up of link `j` leaves alone: every other link, every tile, and all of the package but its registers, ages, fabric and output. -/
def Dev.onlyLink (d e : Dev) (j : Fin 64) : Prop :=
  (∀ i, i ≠ j → e.link i = d.link i ∧ e.linkState i = d.linkState i) ∧
  e = { d with regs := e.regs, ages := e.ages, fab := e.fab, out := e.out, now := e.now }

/-- The registers that a link's departure from ACTIVE can write. -/
def Dev.linkGone (d e : Dev) (j : Fin 64) (cause : Nat) : Prop :=
  e.linkState j = 1 ∧ e.getF (OEC_LINK_STATUS_CAUSE (j / 8) (j % 8)) = cause ∧
  e.getN (OEC_LINK_DOWN_COUNT (j / 8) (j % 8)) = min (d.getN (OEC_LINK_DOWN_COUNT (j / 8) (j % 8)) + 1) 0xFFFFFFFF ∧
  e.regBit (OEC_EVENT (j / 8)) 0 = true ∧ e.regBit FAB_EVENT 1 = true ∧
  e.regBit (if j.val < 32 then FAB_LINK_ACTIVE_LO else FAB_LINK_ACTIVE_HI) (j.val % 32) = false ∧
  (e.link j).unacked = [] ∧ (e.link j).resend = [] ∧ (∀ i, i ≠ j → e.linkState i = d.linkState i) ∧ e.tiles = d.tiles

/-- The 32-byte write of a completion entry to the tail of its ring, posted at `t` (R302, R303). -/
def Dev.compWrite (d : Dev) (c : Comp) (t : Nat) : Output :=
  .hostWrite (d.getPair (SRV_CQ_BASE_LO c.cq) (SRV_CQ_BASE_HI c.cq) + 32 * d.cqTail (Fin.ofNat 64 c.cq))
    (c.bytes (d.getF (SRV_CQ_TAIL_PHASE c.cq)) t)

end Sys2Proof.Machine
end

