-- ==== Sys2Proof/WellFormed.lean ====
section
/-! DEFINITION. Which commands are well-formed: the operands that are numbers or lists lie in the ranges that the spec gives them. Every other
operand's range is its type's. -/

namespace Sys2Proof

/-- A naturally aligned offset of BAR0's 64 MiB (R8, R419). -/
def regOff (o : Nat) : Bool := o % 4 == 0 && decide (o < 0x4000000)

/-- The command is well-formed. -/
def Instr.wf (i : Instr) : Bool :=
  match i with
  | .registerWrite _ off _ _ => regOff off
  | .bar0BadAccess off len _ => !(len == 4 && off % 4 == 0) && decide (0 < len) && decide (off + len ≤ 0x4000000)
  | .regPairLowRead _ off => regOff off
  | .unmappedWrite off _ => regOff off
  | .eventSeqWriteback _ off _ => regOff off
  | .rwbTimerBoundary _ _ => true
  | .seamTransfer _ _ => true
  | .seamDown _ lost _ => decide lost.Nodup
  | .seamUp _ _ => true
  | .routeClassUpdate _ => true
  | .oeSeamLinksDown _ _ => true
  | .tileExit _ _ _ _ => true
  | .timeMessage _ => true
  | .crossingTransfer _ _ => true
  | .tileRetireWrite _ _ progA progB => decide (progA ≤ 2) && decide (progB ≤ 2)
  | .nop _ _ => true
  | .wait _ _ _ => true
  | .waitRelease _ _ => true
  | .waitExpiry _ _ => true
  | .signal _ _ _ _ _ _ => true
  | .signalTokenSend _ => true
  | .tokenMessage _ _ _ _ _ _ => true
  | .loop _ _ _ _ => true
  | .lend _ _ => true
  | .endStream _ _ => true
  | .mark _ _ _ _ => true
  | .mma _ _ _ _ _ _ _ _ _ _ _ _ _ => true
  | .drain _ _ _ _ _ _ _ _ _ _ _ _ => true
  | .vfma _ _ _ _ _ _ _ _ => true
  | .vadd _ _ _ _ _ _ _ => true
  | .vsub _ _ _ _ _ _ _ => true
  | .vmul _ _ _ _ _ _ _ => true
  | .vmax _ _ _ _ _ _ _ => true
  | .vmin _ _ _ _ _ _ _ => true
  | .vcmp _ _ _ _ _ _ _ _ => true
  | .vsel _ _ _ _ _ _ _ => true
  | .vimm _ _ _ _ => true
  | .vred _ _ _ _ _ _ => true
  | .vbcast _ _ _ _ _ => true
  | .vexp2 _ _ _ _ => true
  | .vexp _ _ _ _ => true
  | .vrcp _ _ _ _ => true
  | .vrsqrt _ _ _ _ => true
  | .vlog2 _ _ _ _ => true
  | .vld _ _ _ _ _ _ => true
  | .vst _ _ _ _ _ => true
  | .vqst _ _ _ _ _ _ _ _ => true
  | .mcopy _ _ _ _ _ _ _ _ _ _ _ => true
  | .matom _ _ _ _ _ => true
  | .happend _ _ _ _ _ _ => true
  | .hflush _ _ _ _ _ _ => true
  | .xtopk _ _ _ _ _ _ => true
  | .xdispatchForwardEager _ _ _ _ _ _ => true
  | .xdispatchForwardCoalesced _ _ _ _ _ _ => true
  | .xdispatchReturn _ _ _ _ _ _ => true
  | .xcombine _ _ _ _ _ _ => true
  | .wconvert _ _ _ _ _ _ => true
  | .wpack _ _ _ _ _ _ => true
  | .wunpack _ _ _ _ _ _ => true
  | .passStart _ => true
  | .passOverrun _ => true
  | .scheduleFault _ _ _ _ _ _ => true
  | .sfaultReport _ _ _ _ => true
  | .abortOrder _ _ => true
  | .abortReady _ _ _ _ => true
  | .rerunReadyTimeout _ _ => true
  | .rerunRelease _ _ => true
  | .elasticAccess _ _ => true
  | .voteRecordWrite _ => true
  | .voteRecordSend _ => true
  | .packageVote _ _ => true
  | .voteDecision _ _ _ => true
  | .voteTimeout _ missing _ => missing.all fun p => decide (p < 0x20000)
  | .decisionRecord _ _ _ _ => true
  | .passPrepare _ _ => true
  | .refresh _ _ => true
  | .scrubRead _ _ => true
  | .darnerWriteback _ _ _ => true
  | .telemetryRead _ temps => temps.length == 8
  | .calibrationStep _ _ _ => true
  | .rotaBoundary _ => true
  | .homeQueueIssue _ _ _ _ => true
  | .ueReport _ _ _ _ progA progB _ => decide (progA ≤ 4) && decide (progB ≤ 4)
  | .lendStart _ _ => true
  | .lendReclaim _ _ _ => true
  | .runRequest _ _ _ page _ _ _ => decide (page < 0x4000000000)
  | .runRenewal _ _ _ _ => true
  | .runRelease _ _ _ => true
  | .evictionNotice _ _ => true
  | .evictionGraceExpiry _ _ _ => true
  | .tierTransfer _ _ => true
  | .tierTransferDone _ _ => true
  | .tierFetch _ _ _ _ _ _ _ => true
  | .tierFetchDone _ _ _ => true
  | .driveLinkDown _ _ => true
  | .driveLinkUp _ _ _ => true
  | .driveReady _ _ => true
  | .driveReadComplete _ _ _ _ _ => true
  | .driveCmdTimeout _ _ _ => true
  | .chunkForward _ => true
  | .chunkWring _ _ => true
  | .regionVerify _ _ _ => true
  | .loadCommit _ => true
  | .loadReport _ => true
  | .slotReverify _ _ _ => true
  | .modelLoad _ _ _ => true
  | .modelEvict _ => true
  | .regionRewrite _ _ _ => true
  | .driveImage _ _ _ _ => true
  | .pegPush _ _ _ => true
  | .forwardArrival _ _ => true
  | .coalescedArrival _ _ => true
  | .returnArrival _ _ => true
  | .forwardDone _ _ => true
  | .returnDone _ _ => true
  | .barrierEnd _ _ _ _ _ _ _ _ => true
  | .intakeClose _ _ _ => true
  | .groupStart _ _ _ => true
  | .join _ _ _ _ => true
  | .joinTimeout _ _ => true
  | .groupStop _ => true
  | .groupStopForce _ => true
  | .bar2Write off data _ => decide (0 < data.length) && decide (off.toNat + data.length ≤ 0x2000000)
  | .sqTailDoorbell _ _ => true
  | .cqHeadDoorbell _ _ _ => true
  | .submit _ _ => true
  | .cancel _ _ => true
  | .badSubmissionOpcode _ _ => true
  | .sqCfgWrite _ _ => true
  | .cqCfgWrite _ _ _ => true
  | .cqStall _ _ => true
  | .stepReport _ _ _ => true
  | .stepBoundary _ _ _ _ _ _ _ => true
  | .stepOrderSend _ _ => true
  | .stepOrder _ _ _ _ _ => true
  | .boundaryRetry _ _ _ _ _ _ => true
  | .stopOrder _ _ _ => true
  | .leadTimeout _ _ => true
  | .pauseOrder _ _ => true
  | .damageClearedReport _ _ _ _ _ _ => true
  | .linkSignalDetect _ => true
  | .identity _ _ _ _ => true
  | .qualifyEnd _ _ _ => true
  | .qualResult _ _ => true
  | .qualRetryTimer _ => true
  | .linkJoin _ _ => true
  | .linkDown _ _ _ => true
  | .fenceEnd _ dst _ => decide (dst < 0x20000)
  | .linkLos _ _ _ => true
  | .linkSilentTimeout _ _ => true
  | .fecFailure _ _ _ _ => true
  | .laserLoss _ _ _ => true
  | .laserRestore _ _ => true
  | .frameReceive _ _ _ => true
  | .nakReceive _ _ _ => true
  | .replayTimeout _ _ => true
  | .frameTransmit _ _ => true
  | .reachabilityNotice _ _ stage target _ => if stage then decide (target < 2048) else decide (target < 0x20000)
  | .destinationLost _ _ => true
  | .routeEntryWrite _ _ _ _ => true
  | .portEnable _ _ _ => true
  | .portDisable _ _ _ => true
  | .portDrainDone _ _ => true
  | .portLinksWrite _ _ _ _ => true
  | .linkDisable _ _ _ => true
  | .linkEnable _ _ => true
  | .linkBert _ => true
  | .testReq _ ms _ _ => decide (1 ≤ ms) && decide (ms ≤ 3600000)
  | .testAck _ _ => true
  | .testAckTimeout _ => true
  | .testEnd _ _ _ => true
  | .periodicTestStart _ _ => true
  | .periodicTestYield _ => true
  | .loadReq _ _ _ => true
  | .store _ _ => true
  | .bulkStore _ _ => true
  | .atomic _ _ => true
  | .mgmt _ => true
  | .loadData _ _ => true
  | .ack _ _ => true
  | .atomicResult _ _ => true
  | .error _ _ => true
  | .gateway _ => true
  | .gatewayEgress _ => true
  | .gatewaySlotAsk _ _ => true
  | .unknownDeludOp _ => true
  | .homeLineAccess _ => true
  | .homeLineWriteback _ _ => true
  | .homeLineIdleRelease _ _ => true
  | .txnTimeout _ _ _ => true
  | .keyInstall _ _ _ => true
  | .keyTableRevoke _ _ _ => true
  | .keyRead _ _ _ => true
  | .grantRead _ _ _ => true
  | .grantWrite _ _ _ => true
  | .timeBeacon _ _ _ _ => true
  | .inputRise _ _ => true
  | .mainStagesOn _ _ _ => true
  | .busInRegulation _ _ _ => true
  | .signedPartVerify _ => true
  | .tileBringup _ _ _ _ => true
  | .bootDone _ => true
  | .configRequest _ => true
  | .powerControlTick _ temps vcore => temps.length == 130 && vcore.length == 32
  | .converterReport _ _ _ _ _ _ _ _ => true
  | .stepPublish _ => true
  | .droopStart _ => true
  | .droopEnd _ _ => true
  | .thermalTrip _ => true
  | .kzLease _ _ _ _ _ => true
  | .leasePendingTimeout _ => true
  | .leaseExpiry _ => true
  | .uvWarning _ _ => true
  | .uvWarningClear _ => true
  | .uvStop _ => true
  | .inputOvervoltage => true
  | .standbyOff => true
  | .flowStop _ => true
  | .flowCutTimer => true
  | .epo => true
  | .epoRelease _ _ => true
  | .converterFault _ => true
  | .stop _ => true
  | .operationOn _ _ _ _ => true
  | .operationSoftOff _ _ => true
  | .operationImmediateOff _ _ => true
  | .operationRead => true
  | .statusWord => true
  | .statusInput => true
  | .statusTemperature => true
  | .readVin => true
  | .readIin => true
  | .readPin => true
  | .readTemperature1 => true
  | .readTemperature2 => true
  | .kzLeaseStatus _ => true
  | .clearFaults => true
  | .alertResponse => true
  | .pmbusRevision => true
  | .mfrId => true
  | .mfrModel => true
  | .mfrRevision => true
  | .mfrSerial => true
  | .kzPanel => true
  | .kzLocate _ => true
  | .kzLocateRead => true
  | .kzIdent => true
  | .kzBoot => true
  | .sidebandUnsupported _ => true
  | .perstAssert _ => true
  | .perstRelease _ _ _ => true
  | .hotReset _ => true
  | .functionLevelReset _ => true
  | .endpointLinkDown _ => true
  | .bar4Read off len _ _ => decide (off.toNat + len ≤ 0x100000000)
  | .bar4Write off data _ _ => decide (off.toNat + data.length ≤ 0x100000000)
  | .doeDiscovery => true
  | .getVersion => true
  | .getCapabilities => true
  | .negotiateAlgorithms => true
  | .getDigests => true
  | .getCertificate slot _ _ => decide (slot < 8)
  | .challenge slot _ => decide (slot < 8)
  | .getMeasurements index _ => decide (1 ≤ index) && decide (index < 256)
  | .keyExchange _ _ _ => true
  | .finish _ _ _ => true
  | .heartbeat _ _ => true
  | .heartbeatExpiry _ _ => true
  | .keyUpdate _ _ => true
  | .endSession _ => true
  | .chunkSend _ _ => true
  | .chunkGet _ => true
  | .grantRelease _ => true
  | .unknownCommand _ => true
  | .mailboxAbort => true
  | .mailboxConsume => true
  | .mbxStatusRead => true
  | .pageRetire _ progA progB => decide (progA ≤ 4) && decide (progB ≤ 4)
  | .imageWrite _ => true
  | .imageVerify _ _ => true
  | .floorRaise _ => true
  | .keyRevoke _ => true
  | .flashOperationDone _ _ _ => true
  | .svcButtonRelease _ => true
  | .longPress _ => true
  | .latchOpened _ => true
  | .latchClosed _ => true
  | .drainDone _ => true
  | .drainTimeout _ => true
  | .drainCancel _ => true
  | .svcAck => true
  | .msixMessage _ _ => true
  | .intForce src => decide (src < 1024)
  | .intPendClr src => decide (src < 1024)
  | .intRegisterRead _ off => regOff off && off / 0x100000 == 1
  | .counterWrap b c _ => (match b with | .hub => decide (c < 32) | .tile _ => decide (c < 16))
  | .pmcSnapshot _ _ => true
  | .stitchGo _ _ _ => true
  | .stitchJobDone _ _ _ _ => true
  | .hubResetWarm _ _ => true
  | .hubResetDump _ _ => true
  | .warmResetEnd _ _ _ => true
  | .mgmtWatchdogExpiry _ => true
  | .dispWatchdogExpiry _ _ => true
  | .fatalError _ _ _ => true
  | .dumpComplete sram fw _ _ => sram.length == 32 && (sram.all fun b => b.length == 0x80000) && fw.length == 0x2000000
  | .dumpTimeout part _ => decide (part.length ≤ 0x0FFFF000)
  | .dumpDiscard _ _ => true
  | .jtagBypass _ => true
  | .jtagIdcode => true
  | .jtagSamplePreload _ _ => true
  | .jtagExtest _ _ => true
  | .beaconTimeout _ => true
  | .svcButtonPress _ => true
  | .txnQuarantineEnd _ _ _ => true

end Sys2Proof
end

