-- ==== Sys2Proof/Certificates/Slice0/Obligations.lean ====
section
/-! DEFINITION. The statements for the provers, in the order of the package's parts: the queue and the flash, power, registers and events, resets and boot, the mailbox and the
root of trust, the tiles, the router, passes and votes, the fabric of transactions, DRAM and homes, model loads, links and ports, the package network, Stitch, serving. -/

open Sys2Proof Sys2Proof.Machine Sys2Proof.Machine.Reg

/-- The queue: a step runs the command at its front on the state with the queue's rest; on an empty queue the block idles (the model's
choice, notes/assumptions/1.md). No word spells a command, since no row of the table gives bits. -/
def Obligations.StepRunsFront : Prop := ∀ (s : State) (c : Instr) (rest : List Instr) (nbits w : Nat),
  step { s with pending := c :: rest } = exec c { s with pending := rest } ∧ step { s with pending := [] } = .next { s with pending := [] } ∧
  decodeTableWord nbits w = none ∧ s.withFetchWord nbits w = s

/-- Every command completes, whatever its operands and the state: it answers a next state, and leaves the queue as it is.

Only four commands change the configuration flash: a flash operation of the mailbox's command, the retirement of a tile, and the two ways in which a page
is retired. -/
def Obligations.EveryCommandCompletes : Prop :=
  (∀ (c : Instr) (s : State), ∃ (f : Flash) (d : Dev), exec c s = .next { s with flash := f, dev := d }) ∧
  (∀ (c : Instr) (s t : State), exec c s = .next t → t.flash ≠ s.flash →
  (∃ now ok b, c = .flashOperationDone now ok b) ∨ (∃ m mask a b, c = .tileRetireWrite m mask a b) ∨ (∃ now a b, c = .pageRetire now a b) ∨
  ∃ n line source buffer a b now, c = .ueReport n line source buffer a b now)

/-- R428: the write-once region. The floor is the index of the lowest thermometer bit that reads 1, or 8,192 when every bit reads 0; a key slot is
revoked when its bit of byte 0x400 reads 0. A step changes the region from 1 to 0 only, so the floor never falls and a revoked key never returns. -/
def Obligations.WriteOnceRegion : Prop := ∀ (f : Flash) (s t : State),
  (∀ k, k < 8192 → (f.floor = k ↔ (f.get (k / 8)).getLsbD (k % 8) = true ∧ ∀ j, j < k → (f.get (j / 8)).getLsbD (j % 8) = false)) ∧
  (f.floor = 8192 ↔ ∀ k, k < 8192 → (f.get (k / 8)).getLsbD (k % 8) = false) ∧
  (∀ k : Fin 4, f.revoked k = true ↔ (f.get 0x400).getLsbD k = false) ∧
  (step s = .next t → (∀ a b, a < 0x10000 → (s.flash.get a).getLsbD b = false → (t.flash.get a).getLsbD b = false) ∧
    s.flash.floor ≤ t.flash.floor ∧ ∀ k : Fin 4, s.flash.revoked k = true → t.flash.revoked k = true)

/-- R422, R428: from any state, a step keeps the flash's list of bytes in canonical form, changes no byte of the device block, and turns bits of the
write-once region from 1 to 0 only. -/
def Obligations.FlashProtected : Prop := ∀ (f0 : Flash) (s t : State), s.flash.wf = true ∧ sameDeviceBlock f0 s.flash ∧ onlyBurnt f0 s.flash →
  step s = .next t → t.flash.wf = true ∧ sameDeviceBlock f0 t.flash ∧ onlyBurnt f0 t.flash

/-- At reset the flash's list of bytes has its canonical form, no command waits, and every register holds the value of its map's Reset column: the event
log's next number is 1, and the registers of R192's CRC in each Stitch unit hold its parameters. -/
def Obligations.ResetState : Prop := State.reset.flash.wf = true ∧ State.reset.pending = [] ∧ (∀ o, State.reset.dev.getR o = resetVal o) ∧
  State.reset.dev.getN HUB_LOG_HEAD = 1 ∧ (∀ n : Fin 32, State.reset.dev.stcParams (tileStc n) = crc32cParams) ∧
  (∀ u : Fin 4, State.reset.dev.stcParams (hubStc u) = crc32cParams) ∧ step State.reset = .next State.reset

/-- R406, R445: each sideband read that the power and boot state allows answers with the data that the rules name, and nothing else of
the package changes. The places of the STATUS bits, LINEAR11's exponent and the state of OPERATION before its first write are the
model's (log entries 11 and 13).

R445, R406: CLEAR_FAULTS clears the latched status and releases the alert of a status bit; the alert response answers the address and
releases SMBALERT#; KZ_LOCATE sets TRAY_LOCATE and the indicator follows it; a command that is unsupported or not allowed now is refused and
changes nothing else, whatever it is.

R510: JTAG. BYPASS puts one bit that captures 0 between TDI and TDO; IDCODE shifts the identification code out, bit 0 first;
SAMPLE/PRELOAD shifts the captured lands out and loads the chain; EXTEST drives the chain only where BSCAN_EN was sampled high at the last
COLD or WARM reset. Nothing outside the port changes. -/
def Obligations.MaintenancePorts : Prop :=
  (∀ (s : State) (now : Nat),
  (s.dev.sbAllowed 0x01 → exec .operationRead s = .next (s.put (s.dev.emit (.smbData (leBytes 1 s.dev.sb.operation))))) ∧
  (s.dev.sbAllowed 0x79 → exec .statusWord s = .next (s.put (s.dev.emit (.smbData (leBytes 2 s.dev.statusWord))))) ∧
  (s.dev.sbAllowed 0x7C → exec .statusInput s = .next (s.put (s.dev.emit (.smbData (leBytes 1 s.dev.statusInput))))) ∧
  (s.dev.sbAllowed 0x7D →
    exec .statusTemperature s = .next (s.put (s.dev.emit (.smbData (leBytes 1 s.dev.statusTemperature))))) ∧
  (s.dev.sbAllowed 0x88 →
    exec .readVin s = .next (s.put (s.dev.emit (.smbData (leBytes 2 (linear11 (s.dev.getN PWR_VIN % 65536) 1000)))))) ∧
  (s.dev.sbAllowed 0x89 →
    exec .readIin s = .next (s.put (s.dev.emit (.smbData (leBytes 2 (linear11 (s.dev.getN PWR_IIN % 65536) 100)))))) ∧
  (s.dev.sbAllowed 0x97 →
    exec .readPin s = .next (s.put (s.dev.emit (.smbData (leBytes 2 (linear11 (s.dev.getN PWR_PIN % 65536) 1)))))) ∧
  (s.dev.sbAllowed 0x8D → exec .readTemperature1 s = .next (s.put (s.dev.emit (.smbData (leBytes 2 (linear11Temp (BitVec.ofNat 16 (s.dev.getF PWR_TEMP_DIE_MAX)).toInt)))))) ∧
  (s.dev.sbAllowed 0x8E → exec .readTemperature2 s = .next (s.put (s.dev.emit (.smbData (leBytes 2 (linear11Temp (BitVec.ofNat 16 (s.dev.getF PWR_TEMP_DRAM_MAX)).toInt)))))) ∧
  (s.dev.sbAllowed 0x98 → exec .pmbusRevision s = .next (s.put (s.dev.emit (.smbData [0x33])))) ∧
  (s.dev.sbAllowed 0x99 → exec .mfrId s = .next (s.put (s.dev.emit (.smbData [0x4B, 0x59, 0x4F, 0x5A, 0x45, 0x4E])))) ∧
  (s.dev.sbAllowed 0x9A → exec .mfrModel s = .next (s.put (s.dev.emit (.smbData [0x4B, 0x5A, 0x50, 0x33, 0x32, 0x31, 0x30, 0x2D, 0x31, 0x54])))) ∧
  (s.dev.sbAllowed 0x9B →
    exec .mfrRevision s = .next (s.put (s.dev.emit (.smbData (leBytes 1 (s.dev.getF HUB_ID_REVISION)))))) ∧
  (s.dev.sbAllowed 0x9E → exec .mfrSerial s = .next (s.put (s.dev.emit (.smbData (leBytes 8 (s.dev.getN HUB_UID_LO + s.dev.getN HUB_UID_HI * 2 ^ 32)))))) ∧
  (s.dev.sbAllowed 0xD2 → exec .kzPanel s = .next (s.put (
    ({ s.dev with sb := { s.dev.sb with alertPanel := false } } : Dev).emit (.smbData (leBytes 4 (s.dev.getN HUB_PANEL_STATUS)))))) ∧
  (s.dev.sbAllowed 0xD3 →
    exec .kzLocateRead s = .next (s.put (s.dev.emit (.smbData (leBytes 1 (s.dev.getF HUB_PANEL_STATUS_TRAY_LOCATE)))))) ∧
  (s.dev.sbAllowed 0xD4 → exec .kzIdent s = .next (s.put (s.dev.emit (.smbData (leBytes 8 (s.dev.getN HUB_UID_LO + s.dev.getN HUB_UID_HI * 2 ^ 32) ++ leBytes 4 (s.dev.getN FAB_SELF)))))) ∧
  (s.dev.sbAllowed 0xD5 → exec .kzBoot s = .next (s.put (s.dev.emit (.smbData (leBytes 4 (s.dev.getN HUB_BOOT_STATUS) ++ leBytes 4 (s.dev.getN PWR_STOP_CAUSE)))))) ∧
  (s.dev.sbAllowed 0xD1 → exec (.kzLeaseStatus now) s = .next (s.put ((s.dev.at_ now).emit (.smbData (leBytes 2 (s.dev.getF PWR_STATUS_BUDGET_W) ++
     leBytes 2 (if s.dev.flag PWR_LEASE_PEND_PENDING then s.dev.getF PWR_LEASE_PEND_BUDGET_W else 0) ++
     leBytes 4 (if s.dev.flag PWR_STATUS_LEASE_VALID then
       (s.dev.getPair PWR_LEASE_EXP_LO PWR_LEASE_EXP_HI - max s.dev.now now) / 1000000 else 0) ++
     leBytes 2 (s.dev.getF PWR_LEASE_SEQ_SEQ) ++ leBytes 1 (s.dev.getF PWR_STATUS_STEP) ++
     leBytes 1 (s.dev.getF PWR_STATUS_FLOOR))))))) ∧
  (∀ (s : State),
  (s.dev.sbAllowed 0x03 → ∃ e : Dev, exec .clearFaults s = .next (s.put e) ∧ e.sb.alertStatus = false ∧ e.sb.uvFault = false ∧
    e.sb.otFault = false ∧ e.sb.alertPanel = s.dev.sb.alertPanel ∧ e = { s.dev with sb := e.sb, out := s.dev.out ++ [.smbAck] }) ∧
  (s.dev.pw.phase ≠ .off → s.dev.sb.alertStatus = true ∨ s.dev.sb.alertPanel = true → ∀ a : BitVec 3, s.dev.pw.sbAddr = some a →
    ∃ e : Dev, exec .alertResponse s = .next (s.put e) ∧ e.sb.alertStatus = false ∧ e.sb.alertPanel = false ∧
      e.out = s.dev.out ++ [.smbData [BitVec.ofNat 8 (2 * (0x40 + a.toNat))]] ∧ e = { s.dev with sb := e.sb, out := e.out }) ∧
  (∀ b : BitVec 8, s.dev.sbAllowed 0xD3 → ∃ e : Dev, exec (.kzLocate b) s = .next (s.put e) ∧
    e.flag HUB_PANEL_STATUS_TRAY_LOCATE = b.getLsbD 0 ∧
    e.getF HUB_PANEL_STATUS_LED = (if s.dev.flag HUB_PANEL_STATUS_DRAIN_DONE then 4 else if s.dev.flag HUB_PANEL_STATUS_DRAIN then 3
      else if s.dev.flag HUB_PANEL_STATUS_SVC_REQ then 2 else if s.dev.flag HUB_PANEL_CTRL_LOCATE ∨ b.getLsbD 0 then 1 else 0) ∧
    s.dev.keepsRegs e [HUB_PANEL_STATUS] ∧ e = { s.dev with regs := e.regs, out := s.dev.out ++ [.smbAck] }) ∧
  (∀ code : BitVec 8, s.dev.sbAllowed code.toNat = false →
    exec (.sidebandUnsupported code) s = .next (s.put (s.dev.emit .smbNack)))) ∧
  (∀ (s : State) (tdi pins load : List Bool) (b : Bool),
  (∃ e : Dev, exec (.jtagBypass tdi) s = .next (s.put e) ∧ e.out = s.dev.out ++ [.tdo ((false :: tdi).dropLast)] ∧
    e.jtag.instr = .bypass ∧ e.jtag.driving = false ∧ e = { s.dev with jtag := e.jtag, out := e.out }) ∧
  (∃ e : Dev, exec .jtagIdcode s = .next (s.put e) ∧ e.out = s.dev.out ++ [.tdo ((List.range 32).map fun k =>
      (s.dev.getF HUB_ID_REVISION / 16 * 2 ^ 28 + 0xA032 * 2 ^ 12 + Config.jedecCode.toNat * 2 + 1).testBit k)] ∧
    e.jtag.instr = .idcode ∧ e.jtag.driving = false ∧ e = { s.dev with jtag := e.jtag, out := e.out }) ∧
  (∃ e : Dev, exec (.jtagSamplePreload pins load) s = .next (s.put e) ∧ e.out = s.dev.out ++ [.tdo pins] ∧ e.jtag.chain = load ∧
    e.jtag.driving = false ∧ e = { s.dev with jtag := e.jtag, out := e.out }) ∧
  (∃ e : Dev, exec (.jtagExtest load b) s = .next (s.put e) ∧ e.jtag.driving = s.dev.boot.bscan ∧
    (s.dev.boot.bscan = true → e.jtag.chain = load) ∧ (s.dev.boot.bscan = false → e.jtag.chain = s.dev.jtag.chain) ∧
    e.jtag.bscanPin = b ∧ e = { s.dev with jtag := e.jtag }))

/-- R402: a KZ_LEASE write with a right PEC and a new SEQ is accepted in its cycle: SEQ is taken, the expiry is the time of acceptance plus
the clamped duration, a budget no greater than the one in effect takes effect and drops what is pending, a greater one becomes pending,
and nothing else changes but global time and the acknowledgement.

R402, R404, R445: a repeated SEQ is acknowledged and discarded; a wrong PEC is not acknowledged and discarded; a DURATION_MS of 0, and
the expiry of a lease, put the floor of 2,000 W into effect, drop what is pending and set PWR_EVENT.LEASE_EXPIRED; 20 ms after its
acceptance a pending greater budget takes effect. -/
def Obligations.BudgetLeases : Prop :=
  (∀ (s : State) (now : Nat) (b t q : BitVec 16),
  s.dev.sbAllowed 0xD0 → ¬ (s.dev.pw.seqHeld ∧ s.dev.getF PWR_LEASE_SEQ_SEQ = q.toNat) → t ≠ 0 →
  max s.dev.now now + 10000000000 < 2 ^ 64 →
  ∃ e : Dev, exec (.kzLease now true b t q) s = .next (s.put e) ∧
    e.getF PWR_LEASE_SEQ_SEQ = q.toNat ∧ e.pw.seqHeld = true ∧ e.flag PWR_STATUS_LEASE_VALID = true ∧
    e.getPair PWR_LEASE_EXP_LO PWR_LEASE_EXP_HI = max s.dev.now now + max 10 (min 10000 t.toNat) * 1000000 ∧
    (max 2000 (min 3600 b.toNat) ≤ s.dev.getF PWR_STATUS_BUDGET_W →
      e.getF PWR_STATUS_BUDGET_W = max 2000 (min 3600 b.toNat) ∧ e.flag PWR_LEASE_PEND_PENDING = false) ∧
    (s.dev.getF PWR_STATUS_BUDGET_W < max 2000 (min 3600 b.toNat) →
      e.getF PWR_STATUS_BUDGET_W = s.dev.getF PWR_STATUS_BUDGET_W ∧ e.flag PWR_LEASE_PEND_PENDING = true ∧
      e.getF PWR_LEASE_PEND_BUDGET_W = max 2000 (min 3600 b.toNat) ∧ e.pw.pendAt = max s.dev.now now) ∧
    s.dev.keepsRegs e [PWR_STATUS, PWR_LEASE_PEND, PWR_LEASE_EXP_LO, PWR_LEASE_EXP_HI, PWR_LEASE_SEQ] ∧
    e.getF PWR_STATUS_STEP = s.dev.getF PWR_STATUS_STEP ∧ e.flag PWR_STATUS_UV_WARN = s.dev.flag PWR_STATUS_UV_WARN ∧
    e = { s.dev with regs := e.regs, pw := { s.dev.pw with seqHeld := true, pendAt := e.pw.pendAt }, now := max s.dev.now now,
                     out := s.dev.out ++ [.smbAck] }) ∧
  (∀ (s : State) (now : Nat) (b t q : BitVec 16),
  (s.dev.sbAllowed 0xD0 → s.dev.pw.seqHeld = true → s.dev.getF PWR_LEASE_SEQ_SEQ = q.toNat →
    exec (.kzLease now true b t q) s = .next (s.put ((s.dev.at_ now).emit .smbAck))) ∧
  (s.dev.sbAllowed 0xD0 → exec (.kzLease now false b t q) s = .next (s.put ((s.dev.at_ now).emit .smbNack))) ∧
  (s.dev.sbAllowed 0xD0 → ¬ (s.dev.pw.seqHeld ∧ s.dev.getF PWR_LEASE_SEQ_SEQ = q.toNat) →
    ∃ e : Dev, exec (.kzLease now true b 0 q) s = .next (s.put e) ∧ e.getF PWR_STATUS_BUDGET_W = 2000 ∧
      e.flag PWR_STATUS_LEASE_VALID = false ∧ e.flag PWR_LEASE_PEND_PENDING = false ∧ e.regBit PWR_EVENT 0 = true ∧
      e.getF PWR_LEASE_SEQ_SEQ = q.toNat) ∧
  (s.dev.flag PWR_STATUS_LEASE_VALID = true → s.dev.getPair PWR_LEASE_EXP_LO PWR_LEASE_EXP_HI ≤ now →
    ∃ e : Dev, exec (.leaseExpiry now) s = .next (s.put e) ∧ e.getF PWR_STATUS_BUDGET_W = 2000 ∧
      e.flag PWR_STATUS_LEASE_VALID = false ∧ e.flag PWR_LEASE_PEND_PENDING = false ∧ e.regBit PWR_EVENT 0 = true ∧
      e.isPending 6 = true ∧ e.out = s.dev.out ∧ e.pw = s.dev.pw ∧ e.getF PWR_STATUS_STEP = s.dev.getF PWR_STATUS_STEP) ∧
  (s.dev.pw.pendAt + 20000000 ≤ now → s.dev.flag PWR_LEASE_PEND_PENDING = true →
    ∃ e : Dev, exec (.leasePendingTimeout now) s = .next (s.put e) ∧
      e.getF PWR_STATUS_BUDGET_W = s.dev.getF PWR_LEASE_PEND_BUDGET_W ∧ e.flag PWR_LEASE_PEND_PENDING = false ∧
      s.dev.keepsRegs e [PWR_STATUS, PWR_LEASE_PEND] ∧ e = { s.dev with regs := e.regs, now := max s.dev.now now }))

/-- R400, R406, R407, R412, R414: with the main stages on, each stop trigger starts the stop sequence, latches the stop and records its cause as
FIRST and alone in MASK; a further trigger while the sequence runs adds its bit to MASK and leaves FIRST; PWR_STOP_CAUSE is the only
register that changes. With the main stages off a trigger is no stop. -/
def Obligations.StopTriggers : Prop := ∀ (s : State) (now : Nat) (i : Instr) (c : Nat),
  ((s.dev.tripped = true ∧ i = .thermalTrip now ∧ c = 4) ∨ (i = .uvStop now ∧ c = 2) ∨ (i = .flowStop now ∧ c = 1) ∨
    (i = .converterFault now ∧ c = 6) ∨ (s.dev.sbAllowed 0x01 = true ∧ i = .operationSoftOff now true ∧ c = 5) ∨
    (s.dev.sbAllowed 0x01 = true ∧ i = .operationImmediateOff now true ∧ c = 5)) →
  ∃ e : Dev, exec i s = .next (s.put e) ∧ s.dev.keepsRegs e [PWR_STOP_CAUSE] ∧ e.now = max s.dev.now now ∧ e.tiles = s.dev.tiles ∧
    (s.dev.pw.phase = .main ∨ s.dev.pw.phase = .softStart →
      e.pw.phase = .stopping ∧ e.pw.stopLatched = true ∧ e.getF PWR_STOP_CAUSE_FIRST = c ∧ e.getF PWR_STOP_CAUSE_MASK = 2 ^ c) ∧
    (s.dev.pw.phase = .stopping →
      e.pw.phase = .stopping ∧ e.getF PWR_STOP_CAUSE_FIRST = s.dev.getF PWR_STOP_CAUSE_FIRST ∧
      ∀ b, b < 8 → e.regBit PWR_STOP_CAUSE b = (s.dev.regBit PWR_STOP_CAUSE b || b == c)) ∧
    (s.dev.pw.phase = .standby ∨ s.dev.pw.phase = .off →
      e.pw.phase = s.dev.pw.phase ∧ e.getR PWR_STOP_CAUSE = s.dev.getR PWR_STOP_CAUSE)

/-- R389, R392, R407, R409, R412, R413, R415, R478: the end of a stop, and the converters' cut of it, turn off the main stages: tiles, fabric,
serving state, flash-independent state and every register but PWR_STOP_CAUSE, the throttle counters, the service panel's registers and the
input readings go back to reset, and the hub goes dark. Overvoltage, a low input and EPO_N turn off the standby stage too: every register goes
back to reset. The flash keeps its bytes throughout. -/
def Obligations.PowerLoss : Prop := ∀ (s : State) (now : Nat) (i : Instr),
  ((s.dev.pw.phase = .stopping ∧ (i = .stop now ∨ (s.dev.pw.flowTimer = true ∧ i = .flowCutTimer)) →
    ∃ e : Dev, exec i s = .next (s.put e) ∧ e.pw.phase = .standby ∧ e.tiles = Dev.reset.tiles ∧ e.fab = Fabric.reset ∧
      e.srv = Serve.reset ∧ e.log = [] ∧ e.now = 0 ∧ e.getR PWR_STOP_CAUSE = s.dev.getR PWR_STOP_CAUSE ∧
      e.getR HUB_PANEL_STATUS = s.dev.getR HUB_PANEL_STATUS ∧ e.pw.stopLatched = s.dev.pw.stopLatched ∧
      (∀ o, keptStandby o = false → o ≠ PWR_VIN → o ≠ PWR_IIN → o ≠ PWR_PIN → e.getR o = resetVal o) ∧
      e.out = s.dev.out ++ [.transmittersOff, .hostLinkDown]) ∧
  (i = .inputOvervoltage ∨ i = .standbyOff ∨ i = .epo →
    ∃ e : Dev, exec i s = .next (s.put e) ∧ e.pw.phase = .off ∧ e.tiles = Dev.reset.tiles ∧ e.fab = Fabric.reset ∧
      e.srv = Serve.reset ∧ e.log = [] ∧ e.now = 0 ∧ (∀ o, e.getR o = resetVal o) ∧
      (i = .inputOvervoltage → e.pw.ovHold = true) ∧ (i = .standbyOff → e.pw.ovHold = false) ∧
      (i = .epo → e.pw.epoHigh = false) ∧ e.out = s.dev.out ++ [.transmittersOff, .hostLinkDown]))

/-- R393, R409, R413, R414: with the standby stage off, an input rise (unless EPO_N is low or an overvoltage hold stands) and the release of
EPO_N start a COLD power-up: the standby stage runs, SB_ADDR is sampled, no stop is latched. With both signals high and no stop latched the
main stages are ordered on. After a stop whose only cause is UV an input rise ends the latch; after one whose causes leave UV out, one
OPERATION on that meets them does.

R391, R394, R398, R408, R411: the converters' reports, a settled raise of TCLK, droop episodes and the undervoltage warning: what each leaves
in the registers, and that nothing beside it changes. PWR_VIN as the mean of the four voltages is the model's (log entry 12). -/
def Obligations.PowerSequence : Prop :=
  (∀ (s : State) (now : Nat) (a : BitVec 3),
  (s.dev.pw.phase = .off → s.dev.pw.ovHold = false → s.dev.pw.epoHigh = true →
    exec (.inputRise now a) s = .next (s.put { s.dev with pw :=
      { s.dev.pw with phase := .standby, sbAddr := some a, stopLatched := false, restart := false } })) ∧
  (s.dev.pw.phase = .off → s.dev.pw.ovHold = true ∨ s.dev.pw.epoHigh = false → exec (.inputRise now a) s = .next s) ∧
  (s.dev.pw.phase = .standby → s.dev.pw.stopLatched = true → s.dev.getF PWR_STOP_CAUSE_MASK = 4 →
    exec (.inputRise now a) s = .next (s.put { s.dev with now := max s.dev.now now, pw :=
      { s.dev.pw with stopLatched := false, restart := true, uvMet := false, onMet := false } })) ∧
  (s.dev.pw.phase = .standby → s.dev.pw.stopLatched = true → s.dev.getF PWR_STOP_CAUSE_MASK ≠ 0 →
    s.dev.regBit PWR_STOP_CAUSE 2 = false →
    ∀ flow cool : Bool, (s.dev.regBit PWR_STOP_CAUSE 1 = true → flow = true) → (s.dev.regBit PWR_STOP_CAUSE 4 = true → cool = true) →
    exec (.operationOn now true flow cool) s = .next (s.put (({ s.dev with now := max s.dev.now now, sb := { s.dev.sb with operation := 0x80 }, pw :=
      { s.dev.pw with flowOk := flow, stopLatched := false, restart := true, uvMet := false, onMet := false } } : Dev).emit .smbAck))) ∧
  (s.dev.pw.phase = .stopping → ∀ flow cool : Bool,
    exec (.operationOn now true flow cool) s = .next (s.put (({ s.dev with now := max s.dev.now now, sb := { s.dev.sb with operation := 0x80 }, pw :=
      { s.dev.pw with flowOk := flow } } : Dev).emit .smbAck))) ∧
  (s.dev.pw.phase = .standby → s.dev.pw.stopLatched = false →
    exec (.mainStagesOn now true true) s = .next (s.put { s.dev with now := max s.dev.now now, pw :=
      { s.dev.pw with flowOk := true, phase := .softStart } })) ∧
  (s.dev.pw.phase = .standby → ∀ epoN flow : Bool, (epoN && flow) = false →
    exec (.mainStagesOn now epoN flow) s = .next (s.put { s.dev with pw := { s.dev.pw with flowOk := flow } })) ∧
  (s.dev.pw.phase = .off → s.dev.pw.ovHold = false →
    exec (.epoRelease now a) s = .next (s.put { s.dev with now := max s.dev.now now, pw :=
      { s.dev.pw with epoHigh := true, phase := .standby, sbAddr := some a, stopLatched := false, restart := false } }))) ∧
  (∀ (s : State) (now : Nat) (n : Fin 32),
  (∀ v0 v1 v2 v3 i0 i1 i2 i3 : BitVec 16,
    i0.toNat + i1.toNat + i2.toNat + i3.toNat < 65536 →
    ∃ e : Dev, exec (.converterReport v0 v1 v2 v3 i0 i1 i2 i3) s = .next (s.put e) ∧
      e.pw.pin = v0.toNat * i0.toNat + v1.toNat * i1.toNat + v2.toNat * i2.toNat + v3.toNat * i3.toNat ∧
      e.getN PWR_PIN % 65536 = e.pw.pin / 100000 % 65536 ∧
      e.getN PWR_IIN % 65536 = i0.toNat + i1.toNat + i2.toNat + i3.toNat ∧
      e.getN PWR_VIN % 65536 = (v0.toNat + v1.toNat + v2.toNat + v3.toNat) / 4 ∧
      s.dev.keepsRegs e [PWR_VIN, PWR_IIN, PWR_PIN] ∧ e = { s.dev with regs := e.regs, pw := { s.dev.pw with pin := e.pw.pin } }) ∧
  (s.dev.pw.droop.getLsbD n = false →
    ∃ e : Dev, exec (.droopStart n) s = .next (s.put e) ∧ e.pw.droop.getLsbD n = true ∧
      e.getN (PWR_TDROOP_COUNT n) = min (s.dev.getN (PWR_TDROOP_COUNT n) + 1) 0xFFFFFFFF ∧
      (∀ m : Fin 32, m ≠ n → e.pw.droop.getLsbD m = s.dev.pw.droop.getLsbD m) ∧
      s.dev.keepsRegs e [PWR_TDROOP_COUNT n] ∧ e = { s.dev with regs := e.regs, pw := { s.dev.pw with droop := e.pw.droop } }) ∧
  (s.dev.pw.droop.getLsbD n = true → ∀ k : Nat, max 1 (s.dev.getF (PWR_TDROOP_HOLD n)) ≤ k →
    ∃ e : Dev, exec (.droopEnd n k) s = .next (s.put e) ∧ e.pw.droop.getLsbD n = false ∧
      e.getPair (PWR_TSTRETCH_LO n) (PWR_TSTRETCH_HI n) =
        (s.dev.getPair (PWR_TSTRETCH_LO n) (PWR_TSTRETCH_HI n) + k) % 2 ^ 64 ∧
      s.dev.keepsRegs e [PWR_TSTRETCH_LO n, PWR_TSTRETCH_HI n] ∧
      e = { s.dev with regs := e.regs, pw := { s.dev.pw with droop := e.pw.droop } }) ∧
  (∀ mv : Nat, s.dev.flag PWR_STATUS_UV_WARN = false → mv < max 42500 (min 44000 (s.dev.getF PWR_UV_WARN_MV)) →
    ∃ e : Dev, exec (.uvWarning now mv) s = .next (s.put e) ∧ e.flag PWR_STATUS_UV_WARN = true ∧
      e.pw.uvStretch = BitVec.allOnes 32 ∧ e.regBit PWR_EVENT 1 = true ∧ e.pw.reasons.testBit 6 = true ∧
      (s.dev.sb.seenUv = false → e.sb.alertStatus = true) ∧ e.tiles = s.dev.tiles ∧ e.out = s.dev.out) ∧
  (s.dev.flag PWR_STATUS_UV_WARN = true →
    ∃ e : Dev, exec (.uvWarningClear now) s = .next (s.put e) ∧ e.flag PWR_STATUS_UV_WARN = false ∧ e.getF PWR_STATUS_STEP = 16 ∧
      e.pw.uvStretch = 0 ∧ e.pw.sPwr = 16 ∧ e.pw.raising = none ∧ e.pw.reasons.testBit 6 = false ∧ e.tiles = s.dev.tiles) ∧
  (∀ r t : Nat, s.dev.pw.raising = some (r, t) → t + 20000 ≤ now → r ≤ 16 →
    ∃ e : Dev, exec (.stepPublish now) s = .next (s.put e) ∧ e.getF PWR_STATUS_STEP = r ∧ e.pw.raising = none ∧
      e.getF PWR_STATUS_BUDGET_W = s.dev.getF PWR_STATUS_BUDGET_W ∧ e.tiles = s.dev.tiles ∧ e.out = s.dev.out))

/-- R394, R396: one tick of the control loop. Power over the limit raises s_pwr to the smallest step that meets it and by at least 1; power
under 97% of the limit lowers it by 1, at most once in 100 µs; otherwise it holds. The largest demand is published at once when it does not
raise TCLK, and otherwise waits for VCORE. Nothing but the power controller's registers and state changes. -/
def Obligations.ControlLoop : Prop := ∀ (s : State) (now : Nat) (temps vcore : List (BitVec 16)),
  s.dev.pw.sPwr ≤ 16 → s.dev.pw.sTile ≤ 16 → s.dev.pw.sDram ≤ 16 →
  ∃ e : Dev, exec (.powerControlTick now temps vcore) s = .next (s.put e) ∧
    (s.dev.lim < s.dev.pw.pin → e.pw.sPwr = min 16 (max (s.dev.pw.sPwr + 1)
      (smallestStep s.dev.pw.sPwr s.dev.pw.pin s.dev.lim (s.dev.getF PWR_PFIX_PFIX_W * 100000)))) ∧
    (100 * s.dev.pw.pin < 97 * s.dev.lim → s.dev.pw.tPwr + 100000 ≤ now → e.pw.sPwr = s.dev.pw.sPwr - 1) ∧
    (s.dev.pw.pin ≤ s.dev.lim → (97 * s.dev.lim ≤ 100 * s.dev.pw.pin ∨ now < s.dev.pw.tPwr + 100000) →
      e.pw.sPwr = s.dev.pw.sPwr) ∧
    (s.dev.getF PWR_STATUS_STEP ≤ e.demand → e.getF PWR_STATUS_STEP = e.demand ∧ e.pw.raising = none) ∧
    (e.demand < s.dev.getF PWR_STATUS_STEP →
      e.getF PWR_STATUS_STEP = s.dev.getF PWR_STATUS_STEP ∧ ∃ t, e.pw.raising = some (e.demand, t)) ∧
    e.now = max s.dev.now now ∧ e.tiles = s.dev.tiles ∧ e.out = s.dev.out ∧ e.srv = s.dev.srv ∧ e.fab = s.dev.fab

/-- R8: a BAR0 request that is not a naturally aligned 32-bit one completes with Unsupported Request, and nothing else changes. -/
def Obligations.BadAccessRefused : Prop := ∀ (s : State) (off len : Nat) (w : Bool),
  ¬ (len = 4 ∧ off % 4 = 0) → exec (.bar0BadAccess off len w) s = .next (s.put (s.dev.emit .unsupported))

/-- R9, R11, R489, R491: a read of a pair's low half answers it and copies the high half into the snapshot register, which the next read
of it shows whatever the high half has become; a write to an offset that no block defines leaves every register but the log's alone and
enters the log, or is counted in the latest entry where that is for the same offset and no older than 1 ms.

R12, R13, R15, R455: a plain register write. Each field takes what its access code says: an RW field the value written, an RWB field a
pending value that replaces an earlier one, every other field nothing; a PRV- field nothing from a master that is not privileged, whose
write counts once when it carries a value in one. Which fields have a row of their own is the table's (no plain write reaches them). -/
def Obligations.RegisterAccess : Prop :=
  (∀ (s : State) (m : Master) (off now q : Nat),
  (snapOf off = some q → s.dev.barOpen off = true →
    ∃ e : Dev, exec (.regPairLowRead m off) s = .next (s.put e) ∧ e.out = s.dev.out ++ [.readData (s.dev.readWord m off)] ∧
      e.getR q = s.dev.getR (off + 4) ∧ s.dev.keepsRegs e [q] ∧ e = { s.dev with regs := e.regs, out := e.out }) ∧
  (regDesc off = none → s.dev.barOpen off = true →
    s.dev.lastLog.logseq = 0 ∨ s.dev.lastLog.code ≠ 3 ∨ s.dev.lastLog.arg0 ≠ off ∨ s.dev.lastLog.time + 1000000 < max s.dev.now now →
    ∃ e : Dev, exec (.unmappedWrite off now) s = .next (s.put e) ∧
      smGet (fun _ => LogEntry.empty) e.log (s.dev.getN HUB_LOG_HEAD % 8192) =
        ⟨max s.dev.now now, s.dev.getN HUB_LOG_HEAD, 3, 0, off, 1, 0, 0⟩ ∧
      e.getN HUB_LOG_HEAD = (if s.dev.getN HUB_LOG_HEAD = 0xFFFFFFFF then 1 else s.dev.getN HUB_LOG_HEAD + 1) ∧
      e.isPending 14 = true ∧ s.dev.keepsRegs e [HUB_LOG_HEAD, INT_PEND 0] ∧
      e = { s.dev with regs := e.regs, log := e.log, now := max s.dev.now now }) ∧
  (regDesc off = none → s.dev.barOpen off = true →
    s.dev.lastLog.logseq ≠ 0 → s.dev.lastLog.code = 3 → s.dev.lastLog.arg0 = off → max s.dev.now now ≤ s.dev.lastLog.time + 1000000 →
    ∃ e : Dev, exec (.unmappedWrite off now) s = .next (s.put e) ∧
      smGet (fun _ => LogEntry.empty) e.log (s.dev.lastLog.logseq % 8192) =
        { s.dev.lastLog with arg1 := min (s.dev.lastLog.arg1 + 1) 0xFFFFFFFF } ∧
      e = { s.dev with log := e.log, now := max s.dev.now now })) ∧
  (∀ (s : State) (m : Master) (off : Nat) (v : Word) (now : Nat) (r : RegDesc),
  regDesc off = some r → s.dev.barOpen off = true → ownRow off = false → s.dev.writeLocked off = false →
  off ≠ HUB_PRV_DENY_COUNT → off ≠ HUB_PRV_DENY_LAST →
  ∃ e : Dev, exec (.registerWrite m off v now) s = .next (s.put e) ∧
    (∀ f ∈ r.fields, ownField off f.hi = false → fieldLocked off f (wordField v f.hi f.lo) = false →
      (f.prv = true → s.dev.privileged m = true) →
      (takesNow off f → e.getF ⟨off, f.hi, f.lo⟩ = wordField v f.hi f.lo) ∧
      (f.acc = .rwb → off / 0x100000 ≠ 8 →
        e.getF ⟨off, f.hi, f.lo⟩ = s.dev.getF ⟨off, f.hi, f.lo⟩ ∧
        (e.rwb.filter fun x => x.off == off && x.hi == f.hi && x.lo == f.lo) =
          [⟨off, f.hi, f.lo, wordField v f.hi f.lo, max s.dev.now now⟩])) ∧
    (∀ f ∈ r.fields, (f.acc = .ro ∨ f.acc = .wo ∨ f.acc = .sqc ∨ (f.prv = true ∧ s.dev.privileged m = false)) →
      e.getF ⟨off, f.hi, f.lo⟩ = s.dev.getF ⟨off, f.hi, f.lo⟩) ∧
    (s.dev.privileged m = false → (∃ f ∈ r.fields, f.prv = true ∧ wordField v f.hi f.lo ≠ 0) →
      e.getN HUB_PRV_DENY_COUNT = min (s.dev.getN HUB_PRV_DENY_COUNT + 1) 0xFFFFFFFF ∧ e.getN HUB_PRV_DENY_LAST = off % 2 ^ 26) ∧
    (s.dev.privileged m = true → e.getR HUB_PRV_DENY_COUNT = s.dev.getR HUB_PRV_DENY_COUNT) ∧
    (∀ o, o ≠ off → o ≠ HUB_PRV_DENY_COUNT → o ≠ HUB_PRV_DENY_LAST → o ≠ HUB_PANEL_STATUS → e.getR o = s.dev.getR o) ∧
    e.out = s.dev.out ∧ e.tiles = s.dev.tiles ∧ e.srv = s.dev.srv ∧ e.log = s.dev.log)

/-- R14, R456, R459: an event that latches takes the group's next number: its bit is set with age 0, every other set bit ages by one up to
65,535, the number advances modulo 2^16, the group's source becomes pending, and nothing else changes.

R456, R461: a write-back of W to a group's _SEQ register clears every bit whose age is no smaller than the age of W, and nothing when W is
newer than the current number; a group left with any bit set raises an edge; the number and every other register stay. -/
def Obligations.EventGroups : Prop :=
  (∀ (d : Dev) (g : EvGroup) (b : Nat), g ∈ eventGroups → b < g.width →
  (∀ c, c < g.width → (d.latch g b).regBit g.ev c = (decide (c = b) || d.regBit g.ev c)) ∧
  (d.latch g b).getF ⟨g.seq, 15, 0⟩ = (d.getF ⟨g.seq, 15, 0⟩ + 1) % 65536 ∧
  (d.latch g b).age g b = 0 ∧
  (∀ c, c < g.width → c ≠ b → d.regBit g.ev c = true → (d.latch g b).age g c = min (d.age g c + 1) 65535) ∧
  (d.latch g b).isPending g.src = true ∧
  d.keepsRegs (d.latch g b) [g.ev, g.seq, INT_PEND (g.src / 32)] ∧
  d.latch g b = { d with regs := (d.latch g b).regs, ages := (d.latch g b).ages }) ∧
  (∀ (s : State) (m : Master) (g : EvGroup) (w : BitVec 16), g ∈ eventGroups →
  s.dev.barOpen g.seq = true → s.dev.pmcGone g.seq = false →
  ∃ e : Dev, exec (.eventSeqWriteback m g.seq w) s = .next (s.put e) ∧
    (∀ b, b < g.width → e.regBit g.ev b = (s.dev.regBit g.ev b &&
      !(decide ((s.dev.getF ⟨g.seq, 15, 0⟩ + 65536 - w.toNat) % 65536 < 32768) &&
        decide ((s.dev.getF ⟨g.seq, 15, 0⟩ + 65536 - w.toNat) % 65536 ≤ s.dev.age g b)))) ∧
    ((∃ b, b < g.width ∧ e.regBit g.ev b = true) → e.isPending g.src = true) ∧
    ((∀ b, b < g.width → e.regBit g.ev b = false) → e.getR (INT_PEND (g.src / 32)) = s.dev.getR (INT_PEND (g.src / 32))) ∧
    (∀ n, n < 768 → n ≠ g.src → e.isPending n = s.dev.isPending n) ∧
    s.dev.keepsRegs e [g.ev, INT_PEND (g.src / 32)] ∧
    e = { s.dev with regs := e.regs, ages := e.ages })

/-- R460, R462, R464: where a source of the vector is pending and enabled, GEN and MSI-X Enable are set and neither the Function Mask nor the
entry's Mask is, the message goes out with the entry's address and data, the pending bits of exactly the enabled sources of the vector clear,
and INT_SENT_COUNT advances; where one of the conditions fails and no masking window is open, nothing happens.

R459, R462, R464: INT_FORCE raises an edge on a source that R458 lists and nothing on a reserved one; INT_PEND_CLR clears the one pending
bit; a read of a register of the controller answers it and ends every masking window. -/
def Obligations.Interrupts : Prop :=
  (∀ (s : State) (v : Fin 2048),
  ((∃ n, n < 768 ∧ s.dev.isPending n = true ∧ s.dev.flag (INT_SRC_CFG_ENABLE n) = true ∧ s.dev.srcVector n = v) →
    s.dev.flag INT_CTRL_GEN = true → s.dev.msix = ⟨true, false⟩ → (s.dev.getR (0x11000C + 16 * v)).getLsbD 0 = false →
    ∃ e : Dev, exec (.msixMessage v false) s = .next (s.put e) ∧
      e.out = s.dev.out ++ [.msix v (s.dev.getPair (0x110000 + 16 * v) (0x110004 + 16 * v)) (s.dev.getN (0x110008 + 16 * v))] ∧
      (∀ n, n < 768 → e.isPending n =
        (s.dev.isPending n && !(s.dev.flag (INT_SRC_CFG_ENABLE n) && s.dev.srcVector n == v))) ∧
      e.getN INT_SENT_COUNT = min (s.dev.getN INT_SENT_COUNT + 1) 0xFFFFFFFF ∧
      (∀ o, (∀ k, k < 24 → o ≠ INT_PEND k) → o ≠ INT_SENT_COUNT → e.getR o = s.dev.getR o) ∧
      e = { s.dev with regs := e.regs, out := e.out }) ∧
  (∀ early : Bool, (early = true → s.dev.maskOld = [] ∧ s.dev.msixOld = none) →
    ((∀ n, n < 768 → ¬ (s.dev.isPending n = true ∧ s.dev.flag (INT_SRC_CFG_ENABLE n) = true ∧ s.dev.srcVector n = v)) ∨
      s.dev.flag INT_CTRL_GEN = false ∨ s.dev.msix.enable = false ∨ s.dev.msix.fmask = true ∨
      (s.dev.getR (0x11000C + 16 * v)).getLsbD 0 = true) →
    exec (.msixMessage v early) s = .next s)) ∧
  (∀ (s : State) (m : Master) (n off : Nat),
  (s.dev.barOpen INT_FORCE = true → sourceListed n = true →
    ∃ e : Dev, exec (.intForce n) s = .next (s.put e) ∧ e.isPending n = true ∧
      (∀ k, k < 768 → k ≠ n → e.isPending k = s.dev.isPending k) ∧ s.dev.keepsRegs e [INT_PEND (n / 32)] ∧
      e = { s.dev with regs := e.regs }) ∧
  (sourceListed n = false → exec (.intForce n) s = .next s ∧ exec (.intPendClr n) s = .next s) ∧
  (s.dev.barOpen INT_PEND_CLR = true → sourceListed n = true →
    ∃ e : Dev, exec (.intPendClr n) s = .next (s.put e) ∧ e.isPending n = false ∧
      (∀ k, k < 768 → k ≠ n → e.isPending k = s.dev.isPending k) ∧ s.dev.keepsRegs e [INT_PEND (n / 32)] ∧
      e = { s.dev with regs := e.regs }) ∧
  (off / 0x100000 = 1 → (regDesc off).isSome = true →
    ∃ e : Dev, exec (.intRegisterRead m off) s = .next (s.put e) ∧ e.out = s.dev.out ++ [.readData (s.dev.readWord m off)] ∧
      e = { s.dev with maskOld := [], msixOld := none, out := e.out }))

/-- R465, R467, R470: a counter that passes 2^40 − 1 wraps, latches its overflow bit and raises its group's source, and the wrap of an even
counter with CHAIN set advances the next counter by 1; one that does not pass it only adds.

R468, R469: a snapshot copies every counter of the block into its shadow set with global time, and SNAPSEQ advances; the block of a tile
out of service discards it.

R13, R451: where 1 ms has passed since the earliest pending write of a set whose boundary no running group serves, every pending value of
the set applies and none of the set stays pending; other pending values stay. At a tile's rota boundary the values of R451 for it apply, the
published throttle step is taken, and the pending values of other blocks stay. -/
def Obligations.PerformanceCounters : Prop :=
  (∀ (s : State) (b : PmcBlock) (c k : Nat), c < pmcSize b → s.dev.pmc b c < 2 ^ 40 →
  (s.dev.pmc b c + k < 2 ^ 40 →
    ∃ e : Dev, exec (.counterWrap b c k) s = .next (s.put e) ∧ e.pmc b c = s.dev.pmc b c + k ∧
      s.dev.keepsRegs e [PMC_CNT_LO (pmcBase b) c, PMC_CNT_HI (pmcBase b) c] ∧ e = { s.dev with regs := e.regs }) ∧
  (2 ^ 40 ≤ s.dev.pmc b c + k →
    ∃ e : Dev, exec (.counterWrap b c k) s = .next (s.put e) ∧ e.pmc b c = (s.dev.pmc b c + k) % 2 ^ 40 ∧
      e.regBit (PMC_OVF (pmcBase b)) c = true ∧ e.isPending (pmcGroup b).src = true ∧
      (c % 2 = 0 → s.dev.regBit (PMC_CHAIN (pmcBase b)) (c / 2) = true →
        e.pmc b (c + 1) = (s.dev.pmc b (c + 1) + 1) % 2 ^ 40) ∧
      (c % 2 = 1 ∨ s.dev.regBit (PMC_CHAIN (pmcBase b)) (c / 2) = false →
        ∀ j, j < pmcSize b → j ≠ c → e.pmc b j = s.dev.pmc b j) ∧
      e = { s.dev with regs := e.regs, ages := e.ages })) ∧
  (∀ (s : State) (b : PmcBlock) (now : Nat), s.dev.frozen = false →
  ((∀ n, b = .tile n → s.dev.inService n = true) →
    ∃ e : Dev, exec (.pmcSnapshot b now) s = .next (s.put e) ∧
      (∀ c, c < pmcSize b → e.getPair (PMC_SH_LO (pmcBase b) c) (PMC_SH_HI (pmcBase b) c) = s.dev.pmc b c ∧
        e.pmc b c = s.dev.pmc b c) ∧
      (max s.dev.now now < 2 ^ 64 →
        e.getPair (PMC_SH_TIME_LO (pmcBase b)) (PMC_SH_TIME_HI (pmcBase b)) = max s.dev.now now) ∧
      e.getF (PMC_SNAP_CMD_LAST_SRC (pmcBase b)) = 1 ∧ e = { s.dev with regs := e.regs, now := max s.dev.now now }) ∧
  (∀ n, b = .tile n → s.dev.inService n = false → exec (.pmcSnapshot b now) s = .next s)) ∧
  (∀ (s : State) (set : SrvSet) (n : Fin 32) (now : Nat), s.dev.frozen = false →
  (s.dev.setTimed set = true → (∃ x ∈ s.dev.rwb, SrvSet.takes set x = true ∧ x.since + 1000000 ≤ max s.dev.now now) →
    ∃ e : Dev, exec (.rwbTimerBoundary set now) s = .next (s.put e) ∧ e.rwb = s.dev.rwb.filter (fun x => !SrvSet.takes set x) ∧
      (∀ x, s.dev.rwb.filter (SrvSet.takes set) = [x] → x.hi < 32 → (∀ m : Fin 32, x.off ≠ QNT_CTRL m ∧ x.off ≠ HMP_AREA m ∧ x.off ≠ QNT_LFSR_SEED m) →
        e.getF ⟨x.off, x.hi, x.lo⟩ = x.val % 2 ^ (x.hi + 1 - x.lo) ∧ s.dev.keepsRegs e [x.off]) ∧
      e.tiles = s.dev.tiles ∧ e.out = s.dev.out) ∧
  (∃ e : Dev, exec (.rotaBoundary n) s = .next (s.put e) ∧
    (∀ x ∈ s.dev.rwb, x.ofTile n = true → x.bnd = .rota → x ∉ e.rwb) ∧
    (∀ x ∈ s.dev.rwb, x.ofTile n = false → x ∈ e.rwb) ∧
    (s.dev.running n = true → ∀ x ∈ s.dev.rwb, x.bnd = .rotaIdle → x ∈ e.rwb) ∧
    (e.tile n).tstep = e.getF PWR_STATUS_STEP ∧ (∀ m, m ≠ n → e.tile m = s.dev.tile m) ∧
    (e.tile n).store = (s.dev.tile n).store ∧ (e.tile n).dram = (s.dev.tile n).dram ∧ e.out = s.dev.out ∧ e.srv = s.dev.srv))

/-- R446 to R449: the technician's acts while the panel has power. A press of the button is debounced and timed; its release within 2 s sets
SVC_REQ and HUB_PANEL_EVENT.BUTTON, and later neither; a hold of 5 s sets LONG_PRESS and starts a drain; an opened latch sets LATCH_OPENED and
starts one; a closed latch ends any drain and sets LATCH_CLOSED; SVC_ACK clears SVC_REQ. Each event asserts SMBALERT#. -/
def Obligations.PanelActs : Prop := ∀ (s : State) (now t : Nat), s.dev.pw.phase ≠ .off →
  (s.dev.panel.pressedAt = none →
    ∃ e : Dev, exec (.svcButtonPress now) s = .next (s.put e) ∧ e.panel.pressedAt = some (max s.dev.now now) ∧
      e.flag HUB_PANEL_STATUS_BUTTON = true ∧ s.dev.keepsRegs e [HUB_PANEL_STATUS] ∧
      e = { s.dev with regs := e.regs, panel := e.panel, now := max s.dev.now now }) ∧
  (s.dev.panel.pressedAt = some t → max s.dev.now now ≤ t + 2000000000 →
    ∃ e : Dev, exec (.svcButtonRelease now) s = .next (s.put e) ∧ e.panel.pressedAt = none ∧
      e.flag HUB_PANEL_STATUS_BUTTON = false ∧ e.flag HUB_PANEL_STATUS_SVC_REQ = true ∧ e.regBit HUB_PANEL_EVENT 0 = true ∧
      e.sb.alertPanel = true ∧ e.out = s.dev.out ∧ e.tiles = s.dev.tiles ∧
      e.flag HUB_PANEL_STATUS_DRAIN = s.dev.flag HUB_PANEL_STATUS_DRAIN) ∧
  (s.dev.panel.pressedAt = some t → t + 2000000000 < max s.dev.now now →
    ∃ e : Dev, exec (.svcButtonRelease now) s = .next (s.put e) ∧ e.panel.pressedAt = none ∧
      e.flag HUB_PANEL_STATUS_BUTTON = false ∧ e.flag HUB_PANEL_STATUS_SVC_REQ = s.dev.flag HUB_PANEL_STATUS_SVC_REQ ∧
      s.dev.keepsRegs e [HUB_PANEL_STATUS] ∧ e.sb = s.dev.sb) ∧
  (s.dev.panel.pressedAt = some t → s.dev.panel.longDone = false → t + 5000000000 ≤ now → s.dev.pw.phase = .main →
    ∃ e : Dev, exec (.longPress now) s = .next (s.put e) ∧ e.regBit HUB_PANEL_EVENT 1 = true ∧ e.panel.longDone = true ∧
      e.flag HUB_PANEL_STATUS_DRAIN = true ∧ e.isPending 8 = true ∧ e.sb.alertPanel = true ∧
      (s.dev.flag HUB_PANEL_STATUS_DRAIN = false → e.panel.byButton = true ∧ e.panel.drainAt = max s.dev.now now) ∧
      (s.dev.flag HUB_PANEL_STATUS_DRAIN = true → e.panel.byButton = s.dev.panel.byButton ∧ e.panel.drainAt = s.dev.panel.drainAt)) ∧
  (s.dev.flag HUB_PANEL_STATUS_LATCH_OPEN = false → s.dev.pw.phase = .main →
    ∃ e : Dev, exec (.latchOpened now) s = .next (s.put e) ∧ e.regBit HUB_PANEL_EVENT 2 = true ∧
      e.flag HUB_PANEL_STATUS_LATCH_OPEN = true ∧ e.flag HUB_PANEL_STATUS_DRAIN = true ∧ e.sb.alertPanel = true ∧
      (s.dev.flag HUB_PANEL_STATUS_DRAIN = false → e.panel.byButton = false ∧ ∀ n : Fin 32, e.flag (MEM_LEND_LEND n) = false) ∧
      (s.dev.flag HUB_PANEL_STATUS_DRAIN = true → e.panel = s.dev.panel)) ∧
  (s.dev.flag HUB_PANEL_STATUS_LATCH_OPEN = true →
    ∃ e : Dev, exec (.latchClosed now) s = .next (s.put e) ∧ e.regBit HUB_PANEL_EVENT 3 = true ∧
      e.flag HUB_PANEL_STATUS_LATCH_OPEN = false ∧ e.flag HUB_PANEL_STATUS_DRAIN = false ∧
      e.flag HUB_PANEL_STATUS_DRAIN_DONE = false ∧ e.sb.alertPanel = true ∧ e.tiles = s.dev.tiles ∧ e.out = s.dev.out) ∧
  (∃ e : Dev, exec .svcAck s = .next (s.put e) ∧ e.flag HUB_PANEL_STATUS_SVC_REQ = false ∧ s.dev.keepsRegs e [HUB_PANEL_STATUS] ∧
    e = { s.dev with regs := e.regs })

/-- R448: a running drain. Once every serving group is IDLE, STOPPED or HALTED, no lent tile holds a directory entry and no mailbox command
runs, DRAIN_DONE and its event are set; where DRAIN_MS passes first, DRAIN_TIMEOUT is set and the drain stays; a cancel ends a drain that the
button started and no other. That DRAIN_DONE does not follow a DRAIN_TIMEOUT is the model's reading (log entry 57). -/
def Obligations.DrainEnds : Prop := ∀ (s : State) (now : Nat), s.dev.flag HUB_PANEL_STATUS_DRAIN = true →
  (s.dev.flag HUB_PANEL_STATUS_DRAIN_DONE = false → s.dev.panel.timedOut = false →
    (∀ g, g < 4 → s.dev.gstate g = 0 ∨ s.dev.gstate g = 3 ∨ s.dev.gstate g = 4) →
    (∀ n : Fin 32, s.dev.lends n = true → (s.dev.tile n).pool = []) → s.dev.mbxBusy = false →
    ∃ e : Dev, exec (.drainDone now) s = .next (s.put e) ∧ e.flag HUB_PANEL_STATUS_DRAIN_DONE = true ∧
      e.regBit HUB_PANEL_EVENT 4 = true ∧ e.getF HUB_PANEL_STATUS_LED = 4 ∧ e.sb.alertPanel = true ∧ e.tiles = s.dev.tiles) ∧
  (s.dev.flag HUB_PANEL_STATUS_DRAIN_DONE = false → s.dev.panel.timedOut = false →
    s.dev.panel.drainAt + s.dev.getF HUB_PANEL_CTRL_DRAIN_MS * 1000000 ≤ now →
    ∃ e : Dev, exec (.drainTimeout now) s = .next (s.put e) ∧ e.regBit HUB_PANEL_EVENT 5 = true ∧
      e.flag HUB_PANEL_STATUS_DRAIN = true ∧ e.flag HUB_PANEL_STATUS_DRAIN_DONE = false ∧ e.panel.timedOut = true ∧
      e.tiles = s.dev.tiles) ∧
  (s.dev.panel.byButton = true →
    ∃ e : Dev, exec (.drainCancel now) s = .next (s.put e) ∧ e.flag HUB_PANEL_STATUS_DRAIN = false ∧
      e.flag HUB_PANEL_STATUS_DRAIN_DONE = false ∧ s.dev.keepsRegs e [HUB_PANEL_STATUS] ∧
      e = { s.dev with regs := e.regs, now := max s.dev.now now }) ∧
  (s.dev.panel.byButton = false → exec (.drainCancel now) s = .next s)

/-- R420: the DRAM window. Without a held grant a read answers zeros and a write is discarded; with it, over a tile out of service or lent, a
read answers ones and a write is discarded; otherwise a read of lines that the codes find clean answers the DRAM's bytes, and a write of whole
lines puts its bytes there and leaves every other byte of every tile's DRAM.

R421, R439, R464: each reset of the endpoint ends the privileged grant and the session that holds it. A loss of the link or a hot reset
puts host memory out of reach; a function-level reset disables every queue and resets the interrupt-controller block and MSI-X, and leaves
the tiles, the fabric and the serving state. That host memory stays out of reach until a Configuration Request completes is the model's
(log entry 53). -/
def Obligations.EndpointAccess : Prop :=
  (∀ (s : State) (off : BitVec 32) (len : Nat) (data : List Byte) (reps : List (Nat × EccRep)) (now : Nat),
  (s.dev.flag SEC_GRANT_HELD = false →
    exec (.bar4Read off len reps now) s = .next (s.put ((s.dev.at_ now).emit (.window (List.replicate len 0)))) ∧
    exec (.bar4Write off data reps now) s = .next (s.put (s.dev.at_ now))) ∧
  (s.dev.flag SEC_GRANT_HELD = true → s.dev.inService s.dev.winTile = false ∨ s.dev.lends s.dev.winTile = true →
    exec (.bar4Read off len reps now) s = .next (s.put ((s.dev.at_ now).emit (.window (List.replicate len 0xFF)))) ∧
    exec (.bar4Write off data reps now) s = .next (s.put (s.dev.at_ now))) ∧
  (s.dev.flag SEC_GRANT_HELD = true → s.dev.inService s.dev.winTile = true → s.dev.lends s.dev.winTile = false → reps = [] →
    (∀ l, s.dev.poisoned s.dev.winTile l = false) →
    ∃ e : Dev, exec (.bar4Read off len reps now) s = .next (s.put e) ∧
      e.out = s.dev.out ++ [.window (memBytes (s.dev.tile s.dev.winTile).dram
        (s.dev.getF HUB_BAR4_SEL_WINDOW * 2 ^ 32 + off.toNat) len)] ∧ (∀ n, (e.tile n).dram = (s.dev.tile n).dram)) ∧
  (s.dev.flag SEC_GRANT_HELD = true → s.dev.inService s.dev.winTile = true → s.dev.lends s.dev.winTile = false →
    off.toNat % 64 = 0 → data.length % 64 = 0 →
    ∃ e : Dev, exec (.bar4Write off data reps now) s = .next (s.put e) ∧
      (e.tile s.dev.winTile).dram =
        memPutBytes (s.dev.tile s.dev.winTile).dram (s.dev.getF HUB_BAR4_SEL_WINDOW * 2 ^ 32 + off.toNat) data ∧
      (∀ n, n ≠ s.dev.winTile → e.tile n = s.dev.tile n) ∧ e.out = s.dev.out)) ∧
  (∀ (s : State) (now : Nat) (i : Instr),
  (i = .endpointLinkDown now ∨ i = .hotReset now ∨ i = .functionLevelReset now →
    ∃ e : Dev, exec i s = .next (s.put e) ∧ e.trust.holder = none ∧ e.now = max s.dev.now now ∧
      (∀ h, s.dev.trust.holder = some h → e.flag SEC_GRANT_HELD = false ∧ e.regBit SEC_EVENT 1 = true ∧
        e.trust.sessions = s.dev.trust.sessions.filter fun q => q.id ≠ h) ∧
      (i ≠ .functionLevelReset now → e.rst.hostDown = true ∧ e.msix = s.dev.msix ∧
        (s.dev.trust.holder = none → e.regs = s.dev.regs)) ∧
      (i = .functionLevelReset now → (∀ q : Fin 64, e.flag (SRV_SQ_CFG_ENABLE q) = false ∧ e.flag (SRV_CQ_CFG_ENABLE q) = false) ∧
        (∀ o, o / 0x100000 = 1 → e.getR o = resetVal o) ∧ e.msix = ⟨false, false⟩ ∧ e.rst = s.dev.rst) ∧
      e.tiles = s.dev.tiles ∧ e.fab = s.dev.fab ∧ e.srv = s.dev.srv ∧ e.out = s.dev.out ∧ e.log = s.dev.log))

/-- R476 to R480, R488: PERST# falling with the main stages on, a WARM reset asked for by a privileged master, and the end of a fatal error
with FATAL_RESET each begin a WARM reset: LAST tells which, WARM_COUNT advances, the tiles keep their DRAM and the poisoned state of its lines
and nothing else, the event log, global time, the fatal record and each EPOCH stay, every register of a block outside the standby and log
islands is at its reset value, and the transmitters and the host link go dark. A master that is not privileged is counted and resets
nothing.

R476, R477, R431, R432: the rising edge of PERST# ends a WARM reset that PERST# holds, and 100 µs end another one; while PERST# is low the
reset stays. The end of a reset starts boot anew at its time: a strap for boundary scan holds it there, a flash that does not answer ends it
with ERROR 4 and STAGE 15. -/
def Obligations.WarmReset : Prop :=
  (∀ (s : State) (m : Master) (now : Nat), s.dev.pw.phase = .main →
  ((s.dev.rst.perstLow = false →
    ∃ e : Dev, exec (.perstAssert now) s = .next (s.put e) ∧ e.rst.perstLow = true ∧ e.rst.warm = some true ∧
      e.getF HUB_RESET_STATUS_LAST = 2 ∧ s.dev.warmKept e now) ∧
  (s.dev.barOpen HUB_RESET = true → s.dev.privileged m = true →
    ∃ e : Dev, exec (.hubResetWarm m now) s = .next (s.put e) ∧ e.rst.warm = some false ∧ e.getF HUB_RESET_STATUS_LAST = 3 ∧
      s.dev.warmKept e now) ∧
  (s.dev.barOpen HUB_RESET = true → s.dev.privileged m = false →
    ∃ e : Dev, exec (.hubResetWarm m now) s = .next (s.put e) ∧ exec (.hubResetDump m now) s = .next (s.put e) ∧
      e.rst = s.dev.rst ∧ e.getN HUB_PRV_DENY_COUNT = min (s.dev.getN HUB_PRV_DENY_COUNT + 1) 0xFFFFFFFF ∧
      e.getN HUB_PRV_DENY_LAST = HUB_RESET ∧ s.dev.keepsRegs e [HUB_PRV_DENY_COUNT, HUB_PRV_DENY_LAST] ∧
      e = { s.dev with regs := e.regs }))) ∧
  (∀ (s : State) (now : Nat) (i : Instr) (fo po : Bool),
  (s.dev.rst.warm = some true ∧ i = .perstRelease now fo po) ∨
    (s.dev.rst.warm = some false ∧ s.dev.rst.since + 100000 ≤ now ∧ s.dev.rst.perstLow = false ∧ i = .warmResetEnd now fo po) →
  (∃ e : Dev, exec i s = .next (s.put e) ∧ e.rst.warm = none ∧ e.rst.perstLow = false ∧ e.boot.startAt = max s.dev.now now ∧
    e.now = max s.dev.now now ∧ e.tiles = s.dev.tiles ∧ e.log = s.dev.log ∧ e.out = s.dev.out ∧
    (s.dev.jtag.bscanPin = true → e.boot.running = true ∧ e.boot.trying = none ∧ e.regs = s.dev.regs) ∧
    (s.dev.jtag.bscanPin = false → fo = false → e.boot.running = false ∧ e.getF HUB_BOOT_STATUS_ERROR = 4 ∧
      e.getF HUB_BOOT_STATUS_STAGE = 15) ∧
    (s.dev.jtag.bscanPin = false → fo = true → po = false → e.boot.running = false ∧ e.getF HUB_BOOT_STATUS_ERROR = 1)) ∧
  (s.dev.rst.warm = some false → s.dev.rst.since + 100000 ≤ now → s.dev.rst.perstLow = true →
    exec (.warmResetEnd now fo po) s = .next (s.put { s.dev with now := max s.dev.now now, rst := { s.dev.rst with warm := some true } })) ∧
  (s.dev.rst.warm ≠ some true →
    exec (.perstRelease now fo po) s = .next (s.put { s.dev with now := max s.dev.now now, rst := { s.dev.rst with perstLow := false } })))

/-- R483, R484: with the main stages on, no reset running and no fatal error in hand, each cause latches HUB_FATAL_INFO and writes one FATAL
entry, every serving group that starts, runs or pauses is STOPPED, the tiles stop issue and keep all but their sequencers, and the
transmitters go dark; with T0 in service the dump starts, with T0 out of it FATAL_RESET alone decides whether a WARM reset follows. A further
fatal error changes nothing but global time.

R484 to R488: the end of a dump. A finished one leaves in the slot after the newest a header with MAGIC, the next DUMP_SEQ and
COMPLETE, and touches no byte of DRAM outside its slot; after 10 ms an unfinished one clears COMPLETE (its bytes are the model's operand, log
entry 55). Both clear ACTIVE, or with FATAL_RESET begin a WARM reset whose LAST is 4. DISCARD by a privileged master while no dump runs zeros
the first 4 KiB of each named slot and no other byte.

R488: HUB_DUMP_CTRL.DISCARD of a privileged master while no dump runs: every named slot's first 4 KiB reads zeros, and no other byte of any
DRAM and no register but the count of discarded write-backs changes; of any other master it is counted, and while ACTIVE it is discarded. -/
def Obligations.FatalAndDump : Prop :=
  (∀ (s : State) (m : Master) (now : Nat) (i : Instr) (k a : Nat),
  (i = .hubResetDump m now ∧ s.dev.barOpen HUB_RESET = true ∧ s.dev.privileged m = true ∧ k = 6 ∧ a = 0) ∨
    (i = .mgmtWatchdogExpiry now ∧ k = 2 ∧ a = 0) ∨ (∃ c : Fin 8, i = .dispWatchdogExpiry c now ∧ k = 3 ∧ a = c) ∨
    (∃ g : BitVec 24, (i = .fatalError .hubUe g now ∧ k = 1 ∧ a = g.toNat) ∨ (i = .fatalError .xbar g now ∧ k = 4 ∧ a = g.toNat) ∨
      (i = .fatalError .rot g now ∧ k = 5 ∧ a = 0)) →
  (s.dev.pw.phase = .main → s.dev.rst.fatal = none → s.dev.rst.warm = none →
    (s.dev.inService 0 = true ∨ s.dev.flag HUB_DUMP_CTRL_FATAL_RESET = false →
      ∃ e : Dev, exec i s = .next (s.put e) ∧ e.getN HUB_FATAL_INFO = k * 2 ^ 24 + a ∧ e.frozen = true ∧
        e.rst = { s.dev.rst with fatal := some ⟨max s.dev.now now, s.dev.getN HUB_TILE_INSERVICE, s.dev.getN HUB_LOG_HEAD⟩ } ∧
        e.flag HUB_DUMP_STATUS_ACTIVE = s.dev.inService 0 ∧
        smGet (fun _ => LogEntry.empty) e.log (s.dev.getN HUB_LOG_HEAD % 8192) =
          ⟨max s.dev.now now, s.dev.getN HUB_LOG_HEAD, 2, 0, k, a, 0, 0⟩ ∧
        (∀ g, g < 4 → e.gstate g = if s.dev.gstate g = 1 ∨ s.dev.gstate g = 2 ∨ s.dev.gstate g = 5 then 3 else s.dev.gstate g) ∧
        (∀ n : Fin 32, e.tile n = { s.dev.tile n with seq := Seq.reset }) ∧ e.mbxBusy = false ∧ e.isPending 14 = true ∧
        e.out = s.dev.out ++ [.transmittersOff]) ∧
    (s.dev.inService 0 = false → s.dev.flag HUB_DUMP_CTRL_FATAL_RESET = true →
      ∃ e : Dev, exec i s = .next (s.put e) ∧ e.getN HUB_FATAL_INFO = k * 2 ^ 24 + a ∧ e.rst.warm = some false ∧ e.rst.fatal = none ∧
        e.getF HUB_RESET_STATUS_LAST = 4)) ∧
  (s.dev.rst.fatal.isSome = true → exec i s = .next (s.put (s.dev.at_ now)))) ∧
  (∀ (s : State) (now : Nat) (f : Fatal), s.dev.rst.fatal = some f →
  s.dev.flag HUB_DUMP_STATUS_ACTIVE = true →
  (∀ (sram : List (List Byte)) (fw : List Byte) (un : List (Nat × Nat)),
    (s.dev.flag HUB_DUMP_CTRL_FATAL_RESET = true →
      ∃ e : Dev, exec (.dumpComplete sram fw un now) s = .next (s.put e) ∧ e.rst.warm = some false ∧ e.getF HUB_RESET_STATUS_LAST = 4 ∧
        memLe (e.tile 0).dram (dumpSlot s.dev.nextDump.1) 4 = 0x50445A4B) ∧
    (s.dev.flag HUB_DUMP_CTRL_FATAL_RESET = false →
      ∃ e : Dev, exec (.dumpComplete sram fw un now) s = .next (s.put e) ∧ e.flag HUB_DUMP_STATUS_ACTIVE = false ∧ e.rst = s.dev.rst ∧
        e.now = max s.dev.now now ∧ s.dev.keepsRegs e [HUB_DUMP_STATUS, MEM_WB_CANCEL_COUNT 0] ∧
        memLe (e.tile 0).dram (dumpSlot s.dev.nextDump.1) 4 = 0x50445A4B ∧
        memLe (e.tile 0).dram (dumpSlot s.dev.nextDump.1 + 16) 4 = s.dev.nextDump.2 % 2 ^ 32 ∧
        memLe (e.tile 0).dram (dumpSlot s.dev.nextDump.1 + 7) 1 % 2 = 1 ∧
        (∀ n, n ≠ 0 → e.tile n = s.dev.tile n) ∧
        (∀ x, x < dumpSlot s.dev.nextDump.1 ∨ dumpSlot s.dev.nextDump.1 + 0x10000000 ≤ x →
          memGet (e.tile 0).dram x = memGet (s.dev.tile 0).dram x))) ∧
  (∀ part : List Byte, f.at_ + 10000000 ≤ now → s.dev.flag HUB_DUMP_CTRL_FATAL_RESET = false →
    ∃ e : Dev, exec (.dumpTimeout part now) s = .next (s.put e) ∧ e.flag HUB_DUMP_STATUS_ACTIVE = false ∧ e.rst = s.dev.rst ∧
      memLe (e.tile 0).dram (dumpSlot s.dev.nextDump.1 + 7) 1 % 2 = 0 ∧ (∀ n, n ≠ 0 → e.tile n = s.dev.tile n))) ∧
  (∀ (s : State) (m : Master) (mask : BitVec 8), s.dev.barOpen HUB_DUMP_CTRL = true →
  (s.dev.privileged m = true → s.dev.flag HUB_DUMP_STATUS_ACTIVE = false → s.dev.inService 0 = true →
    ∃ e : Dev, exec (.dumpDiscard m mask) s = .next (s.put e) ∧ s.dev.keepsRegs e [MEM_WB_CANCEL_COUNT 0] ∧
      (∀ n, n ≠ 0 → e.tile n = s.dev.tile n) ∧
      ∀ x, memGet (e.tile 0).dram x =
        if ∃ k : Fin 8, mask.getLsbD k = true ∧ dumpSlot k ≤ x ∧ x < dumpSlot k + 4096 then 0 else memGet (s.dev.tile 0).dram x) ∧
  (s.dev.privileged m = true → s.dev.flag HUB_DUMP_STATUS_ACTIVE = true → exec (.dumpDiscard m mask) s = .next s) ∧
  (s.dev.privileged m = false → mask ≠ 0 → exec (.dumpDiscard m mask) s = .next (s.put (s.dev.deny HUB_DUMP_CTRL))))

/-- R393, R431, R432, R477, R507: with the 6 V bus in regulation, SYSCLK present and PERST# high the hub rails come up and boot starts at time 0;
LAST names a power-up, or a restart after a stop, which sets PWR_EVENT.STOP_SEEN; without SYSCLK nothing starts. That PERST# low holds boot is
the model's (log entry 51). Boot reads the flash: one that does not answer gives ERROR 4, an identity that does not match its public key
ERROR 1, a bad device block ERROR 2, and two slots that fail their header checks ERROR 3, each with STAGE 15.

R426, R430, R431, R444: the check of the slot that boot tries. A signature that verifies boots it: its SVN, version and slot number are
shown, the site block (where it passes its checks, else zeros and SITE_BAD) gives FAB_SELF, the slice and the pool key, and boot reaches
STAGE 3. One that does not marks the slot with reason 5 and tries the other slot where that passed its header checks, else boot ends with
ERROR 3.

R42, R179, R426, R431: the tiles come up. A tile of the retirement mask, one whose self-test fails and one whose DRAM does not train stay
out of service, a tile with none of these is in service with its memory running unless the restoration of the route classes takes it out;
the seams that trained are up and each skip table holds the page list's pages in order.

R431, R433, R438, R485, R490: the end of boot. STAGE is 4, HUB_BOOT_MS holds the time that boot took (whole ms, rounded down by the model),
the alias identity exists and blocks 2 to 8 of the measurements are fixed, and the log holds a RESET entry; after a COLD reset the dump slots'
first bytes read zeros.

R431, R432: before boot is done and while no boot error stands a Configuration Request is answered with Request Retry Status and
changes nothing; after either it completes. -/
def Obligations.BootStages : Prop :=
  (∀ (s : State) (fo po : Bool), s.dev.pw.phase = .softStart →
  (∀ sys : Bool, sys = true → ∃ e : Dev, exec (.busInRegulation sys fo po) s = .next (s.put e) ∧ e.pw.phase = .main ∧ e.now = 0 ∧
    e.getF HUB_RESET_STATUS_LAST = (if s.dev.pw.restart then 1 else 0) ∧
    (s.dev.pw.restart = true → e.regBit PWR_EVENT 5 = true ∧ e.isPending 6 = true) ∧ e.tiles = s.dev.tiles ∧ e.out = s.dev.out ∧
    (s.dev.rst.perstLow = true → e.rst.warm = some true ∧ e.boot = s.dev.boot) ∧
    (s.dev.rst.perstLow = false → s.dev.jtag.bscanPin = false →
      e.boot.startAt = 0 ∧
      (fo = false → e.getF HUB_BOOT_STATUS_ERROR = 4 ∧ e.getF HUB_BOOT_STATUS_STAGE = 15) ∧
      (fo = true → po = false ∨ Config.identityPub (s.flash.read 0x10090 2048) ≠ s.flash.devidPub →
        e.getF HUB_BOOT_STATUS_ERROR = 1 ∧ e.getF HUB_BOOT_STATUS_STAGE = 15) ∧
      (fo = true → po = true → Config.identityPub (s.flash.read 0x10090 2048) = s.flash.devidPub →
        e.trust.identity = true ∧
        (s.flash.deviceBlockOk = false → e.getF HUB_BOOT_STATUS_ERROR = 2 ∧ e.getF HUB_BOOT_STATUS_STAGE = 15) ∧
        (s.flash.deviceBlockOk = true → e.getF SEC_FLOOR_FLOOR = s.flash.floor % 2 ^ 14 ∧
          (s.flash.headerReason 0 ≠ 6 → s.flash.headerReason 1 ≠ 6 →
            e.getF HUB_BOOT_STATUS_ERROR = 3 ∧ e.getF HUB_BOOT_STATUS_STAGE = 15) ∧
          (s.flash.headerReason 0 = 6 ∨ s.flash.headerReason 1 = 6 →
            e.getF HUB_BOOT_STATUS_STAGE = 2 ∧ e.boot.running = true ∧
            ∃ k : Fin 2, e.boot.trying = some k ∧ s.flash.headerReason k = 6))))) ∧
  exec (.busInRegulation false fo po) s = .next s) ∧
  (∀ (s : State) (now : Nat) (k : Fin 2), s.dev.boot.running = true → s.dev.boot.trying = some k →
  (s.flash.signatureOk k = true →
    ∃ e : Dev, exec (.signedPartVerify now) s = .next (s.put e) ∧ e.boot.trying = none ∧ e.getF HUB_BOOT_STATUS_STAGE = 3 ∧
      e.getF HUB_BOOT_STATUS_SLOT = k ∧ e.getF HUB_BOOT_STATUS_FALLBACK = (if s.dev.boot.fellBack then 1 else 0) ∧
      e.getPair HUB_FW_VER_LO HUB_FW_VER_HI = s.flash.imageVersion k % 2 ^ 64 ∧
      e.regBit (if k = 0 then SEC_SLOTA else SEC_SLOTB) 31 = true ∧ e.regBit (if k = 0 then SEC_SLOTA else SEC_SLOTB) 30 = true ∧
      (s.flash.siteOk k = true → e.getF HUB_BOOT_STATUS_SITE_BAD = 0 ∧ e.getN DLD_POOL_KEY = s.flash.site k 0xC 4 % 2 ^ 32 ∧
        e.getF FAB_SELF_PACKAGE = s.flash.site k 4 4 % 2 ^ 17) ∧
      (s.flash.siteOk k = false → e.getF HUB_BOOT_STATUS_SITE_BAD = 1 ∧ e.getN DLD_POOL_KEY = 0 ∧ e.getF FAB_SELF_PACKAGE = 0) ∧
      e.tiles = s.dev.tiles ∧ e.out = s.dev.out ∧ e.now = max s.dev.now now) ∧
  (s.flash.signatureOk k = false →
    (∀ k2, s.dev.boot.second = some k2 →
      ∃ e : Dev, exec (.signedPartVerify now) s = .next (s.put e) ∧ e.boot.trying = some k2 ∧ e.boot.second = none ∧
        e.boot.fellBack = true ∧ e.boot.running = true ∧ e.getF ⟨if k = 0 then SEC_SLOTA else SEC_SLOTB, 27, 24⟩ = 5 ∧
        s.dev.keepsRegs e [if k = 0 then SEC_SLOTA else SEC_SLOTB]) ∧
    (s.dev.boot.second = none →
      ∃ e : Dev, exec (.signedPartVerify now) s = .next (s.put e) ∧ e.boot.running = false ∧ e.getF HUB_BOOT_STATUS_ERROR = 3 ∧
        e.getF HUB_BOOT_STATUS_STAGE = 15))) ∧
  (∀ (s : State) (now : Nat) (tf sf : BitVec 32) (seams : BitVec 72), s.dev.boot.running = true →
  s.dev.getF HUB_BOOT_STATUS_STAGE = 3 → s.dev.boot.tilesDone = false →
  ∃ e : Dev, exec (.tileBringup now tf sf seams) s = .next (s.put e) ∧ e.boot.tilesDone = true ∧ e.fab.routeSeams = seams ∧
    e.getN HUB_TILE_RETIRE = s.flash.tileMask s.dev.slotInUse % 2 ^ 32 ∧
    (∀ n : Fin 32, e.inService n = true →
      (s.flash.tileMask s.dev.slotInUse).testBit n = false ∧ tf.getLsbD n = false ∧ sf.getLsbD n = false ∧
      e.getF (MEM_STATUS_MODE n) = 0 ∧ e.pathBlocked n = false ∧ e.tile n = s.dev.tile n) ∧
    (∀ n : Fin 32, e.inService n = false → e.getF (MEM_STATUS_MODE n) = 3 ∧ e.tile n = Tile.reset) ∧
    (∀ (n : Fin 32) (j : Fin 128) (p : Nat), (s.flash.retiredOf s.dev.slotInUse n)[j.val]? = some p →
      e.getN (MEM_SKIP n j) = 2 ^ 31 + p) ∧
    e.out = s.dev.out ∧ e.now = max s.dev.now now) ∧
  (∀ (s : State) (now : Nat), s.dev.boot.running = true → s.dev.boot.tilesDone = true →
  ∃ e : Dev, exec (.bootDone now) s = .next (s.put e) ∧ e.bootDone = true ∧ e.boot.running = false ∧ e.trust.alias_ = true ∧
    e.trust.blocks.length = 7 ∧ e.getN HUB_BOOT_MS = (max s.dev.now now - s.dev.boot.startAt) / 1000000 % 2 ^ 32 ∧
    (s.dev.boot.notes = [] → s.dev.getF HUB_RESET_STATUS_LAST ≠ 1 → s.dev.coldBoot = true →
      e.getN HUB_LOG_HEAD = (if s.dev.getN HUB_LOG_HEAD = 0xFFFFFFFF then 1 else s.dev.getN HUB_LOG_HEAD + 1) ∧
      (smGet (fun _ => LogEntry.empty) e.log (s.dev.getN HUB_LOG_HEAD % 8192)).code = 1) ∧
    (s.dev.coldBoot = true → s.dev.inService 0 = true → ∀ (k : Fin 8) (x : Nat), x < 4096 → memGet (e.tile 0).dram (dumpSlot k + x) = 0)) ∧
  (∀ (s : State) (w : Option (Bool × Bool)),
  (s.dev.bootDone = false → s.dev.getF HUB_BOOT_STATUS_ERROR = 0 → exec (.configRequest w) s = .next (s.put (s.dev.emit .configRetry))) ∧
  (s.dev.bootDone = true ∨ s.dev.getF HUB_BOOT_STATUS_ERROR ≠ 0 →
    ∃ e : Dev, exec (.configRequest w) s = .next (s.put e) ∧ e.out = s.dev.out ++ [.configDone] ∧ e.rst.hostDown = false ∧
      (∀ v, w = some v → e.msix = ⟨v.1, v.2⟩) ∧ (w = none → e.msix = s.dev.msix) ∧ e.regs = s.dev.regs ∧ e.tiles = s.dev.tiles))

/-- R441: with no reset running and no fatal error, a mailbox command written while another is BUSY is discarded and shown as REJECT_BUSY; one
written while none is starts: a code that no chapter defines ends FAILED with detail 0xF0. A read of HUB_MBX_STATUS shows a pending
REJECT_BUSY once, then the described command again; a consume makes STATUS IDLE unless a command is BUSY.

R442, R443: an abort of a running IMAGE_WRITE is accepted: ABORT_RESULT 1, and the command stops after the operation in hand; with no command
BUSY, or one that does not stop, ABORT_RESULT is 2 and the command runs on. -/
def Obligations.MailboxProtocol : Prop :=
  (∀ (s : State) (i : Instr) (now : Nat) (code : BitVec 16) (ro : Bool),
  (s.dev.rst.warm = none → s.dev.rst.fatal = none →
    i = .unknownCommand code ∨ i = .imageWrite now ∨ i = .imageVerify now ro ∨ i = .floorRaise now ∨ i = .keyRevoke now ∨
      i = .modelEvict now →
    s.dev.mbxBusy = true → exec i s = .next (s.put { s.dev with mbx := { s.dev.mbx with rejected := true } })) ∧
  (s.dev.rst.warm = none → s.dev.rst.fatal = none → mbxDefined code.toNat = false → s.dev.mbxBusy = false →
    ∃ e : Dev, exec (.unknownCommand code) s = .next (s.put e) ∧ e.mbxBusy = false ∧ e.getF HUB_MBX_STATUS_STATUS = 5 ∧
      e.getF HUB_MBX_STATUS_DETAIL = 0xF0 ∧ e.getF HUB_MBX_STATUS_CODE = code.toNat ∧ e.mbx.rejected = false ∧ e.isPending 0 = true ∧
      e.tiles = s.dev.tiles ∧ e.out = s.dev.out ∧ e.srv = s.dev.srv ∧ e.res = s.dev.res) ∧
  (∃ e : Dev, exec .mbxStatusRead s = .next (s.put e) ∧ e.mbx = { s.dev.mbx with rejected := false } ∧ e.regs = s.dev.regs ∧
    (s.dev.mbx.rejected = false → e.out = s.dev.out ++ [.readData (s.dev.getR HUB_MBX_STATUS)]) ∧
    (s.dev.mbx.rejected = true → ∃ w, e.out = s.dev.out ++ [.readData w] ∧ wordField w 31 28 = 4 ∧
      wordField w 27 0 = wordField (s.dev.getR HUB_MBX_STATUS) 27 0)) ∧
  (s.dev.mbxBusy = false → ∃ e : Dev, exec .mailboxConsume s = .next (s.put e) ∧ e.getF HUB_MBX_STATUS_STATUS = 0 ∧
    e.getF HUB_MBX_STATUS_CODE = s.dev.getF HUB_MBX_STATUS_CODE ∧ s.dev.keepsRegs e [HUB_MBX_STATUS] ∧ e.mbx.rejected = false) ∧
  (s.dev.mbxBusy = true → exec .mailboxConsume s = .next s)) ∧
  (∀ (s : State), s.dev.barOpen HUB_MBX_ABORT = true →
  (∀ (p : List Nat) (j : MbxJob), s.dev.mbx.run = some ⟨0x0402, p, false, j⟩ → s.dev.res.job = none →
    ∃ e : Dev, exec .mailboxAbort s = .next (s.put e) ∧ e.getF HUB_MBX_STATUS_ABORT_RESULT = 1 ∧
      e = { s.dev with regs := e.regs, mbx := { s.dev.mbx with run := some ⟨0x0402, p, true, j⟩ } } ∧ s.dev.keepsRegs e [HUB_MBX_STATUS] ∧
      e.getF HUB_MBX_STATUS_STATUS = s.dev.getF HUB_MBX_STATUS_STATUS) ∧
  (s.dev.mbx.run = none ∨ (∃ r, s.dev.mbx.run = some r ∧ r.abort = false ∧ mbxStops r.code = false) →
    ∃ e : Dev, exec .mailboxAbort s = .next (s.put e) ∧ e.getF HUB_MBX_STATUS_ABORT_RESULT = 2 ∧ e = { s.dev with regs := e.regs } ∧
      s.dev.keepsRegs e [HUB_MBX_STATUS]))

/-- R443: the commands for the configuration flash as they start. Without the grant (and outside recovery mode) IMAGE_WRITE fails with 0x50. With
it, checked parameters and a slot that did not boot, IMAGE_WRITE, FLOOR_RAISE above the floor and KEY_REVOKE of a key that did not boot take up
their flash operations and stay BUSY; FLOOR_RAISE to a value already reached ends DONE at once; IMAGE_VERIFY runs every check and leaves
the outcome in SEC_SLOTx. None of them changes the flash at its start.

R422, R428, R443: one flash operation. Of an IMAGE_WRITE it erases the sector in hand and programs the host's bytes into it and no other
byte of the flash changes; of a FLOOR_RAISE it turns the lowest thermometer bit that reads 1 to 0 and nothing else; of a KEY_REVOKE it turns the
key's REVOKE bit to 0. The last ends the command, a failed one ends it FLASH_ERROR with SEC_EVENT.FLASH_ERR. -/
def Obligations.FlashCommands : Prop :=
  (∀ (s : State) (now : Nat), s.dev.rst.warm = none → s.dev.rst.fatal = none → s.dev.mbxBusy = false →
  s.dev.mbxRefusesAll = false →
  (s.dev.flag SEC_GRANT_HELD = false → s.dev.recovery = false → ∀ i, i = .imageWrite now ∨ i = .floorRaise now ∨ i = .keyRevoke now →
    ∃ e : Dev, exec i s = .next (s.put e) ∧ e.getF HUB_MBX_STATUS_STATUS = 5 ∧ e.getF HUB_MBX_STATUS_DETAIL = 0x50 ∧ e.mbxBusy = false) ∧
  (s.dev.flag SEC_GRANT_HELD = true ∨ s.dev.recovery = true → ∀ (k : Fin 2) (off n r : Nat), s.dev.getN (HUB_MBX_P 0) = k * 2 ^ 31 →
    s.dev.getN (HUB_MBX_P 1) = off * 0x10000 → s.dev.getN (HUB_MBX_P 2) = n * 0x10000 → s.dev.getN (HUB_MBX_P 5) = r →
    0 < n → off + n ≤ 0x1F0 → r ≤ 1 → s.dev.getN (HUB_MBX_P 6) = 0 → s.dev.getN (HUB_MBX_P 7) = 0 → s.dev.bootedSlot ≠ some k →
    ∃ e : Dev, exec (.imageWrite now) s = .next (s.put e) ∧ e.getF HUB_MBX_STATUS_STATUS = 1 ∧ e.getF HUB_MBX_STATUS_CODE = 0x0402 ∧
      e.mbx.run = some ⟨0x0402, s.dev.mbxParams, false, .imageWrite k (off * 0x10000) n 0 (r == 1)⟩) ∧
  (∀ (k : Fin 2), s.dev.getN (HUB_MBX_P 0) = k * 2 ^ 31 → (∀ j, 1 ≤ j → j < 8 → s.dev.getN (HUB_MBX_P j) = 0) →
    ∃ e : Dev, exec (.imageVerify now true) s = .next (s.put e) ∧ e.getF HUB_MBX_STATUS_STATUS = 2 ∧ e.mbxBusy = false ∧
      e.getF ⟨if k = 0 then SEC_SLOTA else SEC_SLOTB, 27, 24⟩ = s.flash.fullReason k ∧
      e.regBit (if k = 0 then SEC_SLOTA else SEC_SLOTB) 31 = decide (s.flash.fullReason k = 0)) ∧
  (s.dev.flag SEC_GRANT_HELD = true → (∀ j, 1 ≤ j → j < 8 → s.dev.getN (HUB_MBX_P j) = 0) → s.dev.getN (HUB_MBX_P 0) ≤ 8191 →
    s.dev.getN (HUB_MBX_P 0) ≤ s.dev.getF HUB_BOOT_STATUS_SVN →
    ∃ e : Dev, exec (.floorRaise now) s = .next (s.put e) ∧
      (s.dev.getN (HUB_MBX_P 0) ≤ s.flash.floor → e.getF HUB_MBX_STATUS_STATUS = 2 ∧ e.mbxBusy = false) ∧
      (s.flash.floor < s.dev.getN (HUB_MBX_P 0) → e.getF HUB_MBX_STATUS_STATUS = 1 ∧
        e.mbx.run = some ⟨0x0404, s.dev.mbxParams, false, .floor (s.dev.getN (HUB_MBX_P 0))⟩)) ∧
  (s.dev.flag SEC_GRANT_HELD = true → ∀ k : Fin 4, (∀ j, 1 ≤ j → j < 8 → s.dev.getN (HUB_MBX_P j) = 0) → s.dev.getN (HUB_MBX_P 0) = k →
    (∀ b, s.dev.bootedSlot = some b → s.flash.keyIndex b ≠ k) →
    ∃ e : Dev, exec (.keyRevoke now) s = .next (s.put e) ∧ e.getF HUB_MBX_STATUS_STATUS = 1 ∧
      e.mbx.run = some ⟨0x0405, s.dev.mbxParams, false, .revoke k⟩)) ∧
  (∀ (s : State) (now : Nat) (r : MbxRun), s.dev.mbx.run = some r → r.abort = false →
  (∀ (k : Fin 2) (off n done : Nat) (rec : Bool) (b : List Byte), r.job = .imageWrite k off n done rec → off % 0x10000 = 0 →
    off + n * 0x10000 ≤ 0x1F00000 → done < n → b.length = 0x10000 → (off + done * 0x10000 ≠ 0x1E10000 ∨ rec = true) →
    s.dev.mbx.latePages = [] → s.dev.mbx.lateMasks = [] →
    ∃ (g : Flash) (e : Dev), exec (.flashOperationDone now true (some b)) s = .next { s with flash := g, dev := e } ∧
      (∀ x, g.get x = if slotBase k + off + done * 0x10000 ≤ x ∧ x < slotBase k + off + (done + 1) * 0x10000 then
        b.getD (x - (slotBase k + off + done * 0x10000)) 0 else s.flash.get x) ∧
      (done + 1 = n → e.mbxBusy = false ∧ e.getF HUB_MBX_STATUS_STATUS = 2) ∧
      (done + 1 < n → e.mbx.run = some { r with job := .imageWrite k off n (done + 1) rec })) ∧
  (∀ v, r.job = .floor v → s.flash.floor < v → v ≤ 8191 →
    ∃ (g : Flash) (e : Dev), exec (.flashOperationDone now true none) s = .next { s with flash := g, dev := e } ∧
      (∀ j, j < 8192 → g.thermo j = (s.flash.thermo j && j != s.flash.floor)) ∧ (∀ x, 0x400 ≤ x → g.get x = s.flash.get x) ∧
      e.getF SEC_FLOOR_FLOOR = g.floor ∧ (v ≤ g.floor → e.mbxBusy = false ∧ e.getF HUB_MBX_STATUS_STATUS = 2) ∧
      (g.floor < v → e.mbx.run = some r)) ∧
  (∀ k : Fin 4, r.job = .revoke k →
    ∃ (g : Flash) (e : Dev), exec (.flashOperationDone now true none) s = .next { s with flash := g, dev := e } ∧ g.revoked k = true ∧
      (∀ j : Fin 8, j.val ≠ k.val → (g.get 0x400).getLsbD j = (s.flash.get 0x400).getLsbD j) ∧ (∀ x, x ≠ 0x400 → g.get x = s.flash.get x) ∧
      e.mbxBusy = false ∧ e.getF HUB_MBX_STATUS_STATUS = 2) ∧
  (∀ v, r.job = .floor v →
    ∃ e : Dev, exec (.flashOperationDone now false none) s = .next (s.put e) ∧ e.mbxBusy = false ∧ e.getF HUB_MBX_STATUS_STATUS = 5 ∧
      e.getF HUB_MBX_STATUS_DETAIL = 0x52 ∧ e.regBit SEC_EVENT 2 = true))

/-- R44, R426, R455: a privileged write of HUB_TILE_RETIRE appends the mask to the tile-mask log of both slots and is held for the next reset, the
register itself and the tiles stay; with the booted slot's log full it is discarded and logged; one that is not privileged is counted.

R165, R180, R229, R427, R512: retired pages and uncorrectable lines. PAGE_RETIRE of a page that is not yet retired appends its entry to the
booted slot's list and then to the other's, changes no other byte of the flash, and holds the page for the tile's skip table until its next
rota boundary; of a page already retired it is done at once; with 128 entries of the tile, or no room, it fails. An uncorrectable line retires
its page with cause 1; the KV page of a sequence leaves record 6 at the page's owner, a unit of a bound slot damages the slot
and leaves record 12 (and 10 when the step read it), another buffer that the step read leaves record 10. -/
def Obligations.Retirement : Prop :=
  (∀ (s : State) (m : Master) (mask : Word),
  (s.dev.privileged m = true → ∀ (j : Nat), s.flash.nextMask s.dev.slotInUse = some j →
    ∃ (g : Flash) (e : Dev), exec (.tileRetireWrite m mask 2 2) s = .next { s with flash := g, dev := e } ∧
      g.maskWord s.dev.slotInUse j = mask.toNat ∧ g.maskValid s.dev.slotInUse j = true ∧
      ⟨HUB_TILE_RETIRE, 31, 0, mask.toNat, s.dev.now⟩ ∈ e.rwb ∧ e.getR HUB_TILE_RETIRE = s.dev.getR HUB_TILE_RETIRE ∧
      e.tiles = s.dev.tiles ∧ e.getR HUB_TILE_INSERVICE = s.dev.getR HUB_TILE_INSERVICE) ∧
  (s.dev.privileged m = true → s.flash.nextMask s.dev.slotInUse = none →
    ∃ e : Dev, exec (.tileRetireWrite m mask 2 2) s = .next (s.put e) ∧ e.rwb = s.dev.rwb ∧
      (smGet (fun _ => LogEntry.empty) e.log (s.dev.getN HUB_LOG_HEAD % 8192)).code = 7) ∧
  (s.dev.privileged m = false → mask ≠ 0 → exec (.tileRetireWrite m mask 2 2) s = .next (s.put (s.dev.deny HUB_TILE_RETIRE)))) ∧
  (∀ (s : State) (now : Nat) (n : Fin 32) (p : Nat), p < 2 ^ 20 → inDumpRegion n p = false →
  let k := s.dev.slotInUse
  let kept (g : Flash) (j i : Nat) : Prop := ∀ a, a < recordBase k + 4 * j ∨ recordBase k + 4 * j + 4 ≤ a →
    a < recordBase (otherSlot k) + 4 * i ∨ recordBase (otherSlot k) + 4 * i + 4 ≤ a → g.get a = s.flash.get a
  (s.dev.rst.warm = none → s.dev.rst.fatal = none → s.dev.mbxBusy = false → s.dev.mbxRefusesAll = false → s.dev.flag SEC_GRANT_HELD = true →
    s.dev.getN (HUB_MBX_P 0) = mkPageEntry n p 0 → (∀ j, 1 ≤ j → j < 8 → s.dev.getN (HUB_MBX_P j) = 0) →
    (∀ j i, (s.flash.retiredOf k n).contains p = false → (s.flash.retiredOf k n).length < 128 → s.flash.nextPage k = some j →
      s.flash.nextPage (otherSlot k) = some i →
      ∃ (g : Flash) (e : Dev), exec (.pageRetire now 4 4) s = .next { s with flash := g, dev := e } ∧ g.pageEntry k j = mkPageEntry n p 0 ∧
        g.pageEntry (otherSlot k) i = mkPageEntry n p 0 ∧ kept g j i ∧ e.getF HUB_MBX_STATUS_STATUS = 2 ∧ e.mbxBusy = false ∧
        (let f := MEM_SKIP_PAGE n (s.flash.retiredOf k n).length
         ⟨f.off, f.hi, f.lo, p, max s.dev.now now⟩ ∈ e.rwb) ∧ e.tiles = s.dev.tiles) ∧
    ((s.flash.retiredOf k n).contains p = true →
      ∃ e : Dev, exec (.pageRetire now 4 4) s = .next (s.put e) ∧ e.getF HUB_MBX_STATUS_STATUS = 2 ∧ e.mbxBusy = false) ∧
    ((s.flash.retiredOf k n).contains p = false → 128 ≤ (s.flash.retiredOf k n).length →
      ∃ e : Dev, exec (.pageRetire now 4 4) s = .next (s.put e) ∧ e.getF HUB_MBX_STATUS_STATUS = 5 ∧ e.getF HUB_MBX_STATUS_DETAIL = 0x53) ∧
    ((s.flash.retiredOf k n).contains p = false → (s.flash.retiredOf k n).length < 128 → s.flash.nextPage k = none →
      ∃ e : Dev, exec (.pageRetire now 4 4) s = .next (s.put e) ∧ e.getF HUB_MBX_STATUS_STATUS = 5 ∧ e.getF HUB_MBX_STATUS_DETAIL = 0x54)) ∧
  (∀ (line : BitVec 29) (source : Fin 5) (buffer : Bool), line.toNat / 512 = p → s.dev.mbx.run = none →
    (∀ j i, (s.flash.retiredOf k n).contains p = false → (s.flash.retiredOf k n).length < 128 → s.flash.nextPage k = some j →
      s.flash.nextPage (otherSlot k) = some i →
      ∃ (g : Flash) (e : Dev), exec (.ueReport n line source buffer 4 4 now) s = .next { s with flash := g, dev := e } ∧
        g.pageEntry k j = mkPageEntry n p 1 ∧ g.pageEntry (otherSlot k) i = mkPageEntry n p 1 ∧ kept g j i) ∧
    ((s.flash.retiredOf k n).contains p = true → ∃ e : Dev, exec (.ueReport n line source buffer 4 4 now) s = .next (s.put e) ∧
      (∀ t q, s.dev.pageOfLine n line.toNat = some (t, q) → source = 0 ∨ source = 2 ∨ source = 3 →
        (e.tile t).recs = (s.dev.tile t).recs ++ [(6, q)] ∧ s.dev.onlyTile e t ∧ e.regs = s.dev.regs) ∧
      (∀ m, s.dev.pageOfLine n line.toNat = none → s.dev.unitSlot n (line.toNat / 32768) = some m → s.dev.slotState m = 4 →
        (m, n.val, line.toNat / 32768) ∈ e.res.damaged ∧ e.getF (WTR_SLOT_STATE_DAMAGED m) = 1 ∧ e.regBit WTR_EVENT 3 = true ∧
        (e.tile n).recs = (s.dev.tile n).recs ++ (if source = 0 then [(12, 0), (10, 0)] else [(12, 0)]) ∧ s.dev.onlyTile e n) ∧
      (s.dev.pageOfLine n line.toNat = none → s.dev.unitSlot n (line.toNat / 32768) = none →
        (e.tile n).recs = (s.dev.tile n).recs ++ (if buffer = true ∧ source = 0 then [(10, 0)] else []) ∧ s.dev.onlyTile e n ∧
        e.regs = s.dev.regs))))

/-- R432, R436 to R438: what the root of trust answers while its identity exists, and ERROR without it; slots 1 to 7 hold no certificates,
blocks past the eighth do not exist. Nothing else of the package changes.

R437, R439: sessions. KEY_EXCHANGE with room opens one and answers its number; FINISH that verifies completes it, and gives the grant to a
mutually authenticated requester whose key hashes to the site block's non-zero OPERATOR_KEY while no session holds it; HEARTBEAT and
KEY_UPDATE renew it.

R439: sessions and the grant end. END_SESSION, twice the heartbeat period without renewal (the model's period, log entry 15), a FINISH
that does not verify, and a privileged write of SEC_GRANT.RELEASE end a session; with the grant's holder the grant ends and
SEC_EVENT.GRANT_ENDED latches.

R437: chunks. A request's chunks are gathered up to 64 KiB, the last one becomes the object that CHUNK_GET hands out in order, and a longer
request is dropped with an error. -/
def Obligations.RootOfTrust : Prop :=
  (∀ (s : State) (nonce : List Byte),
  let say (name : String) (items : List String) (data : List Byte) : State :=
    s.put (s.dev.emit (if s.dev.trust.identity then .spdm name items data else .spdm "ERROR" [] []))
  exec .doeDiscovery s = .next (s.put (s.dev.emit (.spdm "DOE_DISCOVERY" ["DOE Discovery", "CMA/SPDM", "Secured CMA/SPDM"] []))) ∧
  exec .getVersion s = .next (say "VERSION" ["1.2", "1.3"] []) ∧
  exec .getCapabilities s = .next (say "CAPABILITIES"
    ["CERT", "CHAL", "MEAS with signature", "KEY_EX", "MUT_AUTH", "ENCRYPT", "MAC", "HBEAT", "CHUNK"] []) ∧
  exec .negotiateAlgorithms s = .next (say "ALGORITHMS"
    ["TPM_ALG_ECDSA_ECC_NIST_P521", "TPM_ALG_SHA_512", "SECP_521_R1", "AES-256-GCM", "SPDM key schedule"] []) ∧
  exec .getDigests s = .next (say "DIGESTS" [] (Config.sha512 (certChain s.flash s.dev))) ∧
  (∀ off len, exec (.getCertificate 0 off len) s = .next (say "CERTIFICATE" [] (((certChain s.flash s.dev).drop off).take len))) ∧
  exec (.challenge 0 nonce) s = .next (say "CHALLENGE_AUTH" [] (Config.sha512 (certChain s.flash s.dev) ++
    Config.deviceSign (nonce ++ Config.sha512 (certChain s.flash s.dev)))) ∧
  exec (.getMeasurements 1 nonce) s = .next (say "MEASUREMENTS" [] (Config.romDigest ++ Config.deviceSign (nonce ++ Config.romDigest))) ∧
  (∀ k b, s.dev.trust.blocks[k]? = some b →
    exec (.getMeasurements (k + 2) nonce) s = .next (say "MEASUREMENTS" [] (b ++ Config.deviceSign (nonce ++ b)))) ∧
  (∀ k off len, 0 < k → exec (.getCertificate k off len) s = .next (s.put (s.dev.emit (.spdm "ERROR" ["InvalidRequest"] []))) ∧
    exec (.challenge k nonce) s = .next (s.put (s.dev.emit (.spdm "ERROR" ["InvalidRequest"] [])))) ∧
  (∀ k, s.dev.trust.blocks.length ≤ k → exec (.getMeasurements (k + 2) nonce) s =
    .next (s.put (s.dev.emit (.spdm "ERROR" ["InvalidRequest"] []))))) ∧
  (∀ (s : State) (now sid : Nat) (mu : Bool) (key : List Byte) (q : Session),
  (s.dev.trust.identity = true → (mu = true → s.dev.trust.holder = none) → s.dev.trust.sessions.length < 4 →
    ∃ e : Dev, exec (.keyExchange now mu key) s = .next (s.put e) ∧
      e.trust.sessions = s.dev.trust.sessions ++
        [⟨s.dev.trust.nextId, mu, Config.sha512 key, false, max s.dev.now now, 0⟩] ∧ e.trust.nextId = s.dev.trust.nextId + 1 ∧
      e.trust.holder = s.dev.trust.holder ∧ e.regs = s.dev.regs ∧
      e.out = s.dev.out ++ [.spdm "KEY_EXCHANGE_RSP" [] (leBytes 4 s.dev.trust.nextId)]) ∧
  (s.dev.trust.identity = true → mu = true → s.dev.trust.holder.isSome = true →
    exec (.keyExchange now mu key) s = .next (s.put ((s.dev.at_ now).emit (.spdm "ERROR" ["Busy"] [])))) ∧
  (s.dev.session sid = some q →
    (∃ e : Dev, exec (.finish now sid true) s = .next (s.put e) ∧ e.out = s.dev.out ++ [.spdm "FINISH_RSP" [] []] ∧
      (∃ p, e.session sid = some p ∧ p.finished = true ∧ p.lastBeat = max s.dev.now now ∧ p.keyHash = q.keyHash) ∧
      (q.mutAuth = true → s.flash.operatorKey s.dev.slotInUse ≠ List.replicate 64 0 →
        q.keyHash = s.flash.operatorKey s.dev.slotInUse → s.dev.trust.holder = none →
        e.trust.holder = some sid ∧ e.flag SEC_GRANT_HELD = true ∧ e.regBit SEC_EVENT 0 = true ∧ e.isPending 7 = true) ∧
      (q.mutAuth = false ∨ s.flash.operatorKey s.dev.slotInUse = List.replicate 64 0 ∨
        q.keyHash ≠ s.flash.operatorKey s.dev.slotInUse ∨ s.dev.trust.holder ≠ none →
        e.trust.holder = s.dev.trust.holder ∧ e.regs = s.dev.regs)) ∧
    (∃ e : Dev, exec (.heartbeat now sid) s = .next (s.put e) ∧ e.out = s.dev.out ++ [.spdm "HEARTBEAT_ACK" [] []] ∧
      (∃ p, e.session sid = some p ∧ p = { q with lastBeat := max s.dev.now now }) ∧ e.regs = s.dev.regs ∧
      e.trust.holder = s.dev.trust.holder) ∧
    (∃ e : Dev, exec (.keyUpdate now sid) s = .next (s.put e) ∧ e.out = s.dev.out ++ [.spdm "KEY_UPDATE_ACK" [] []] ∧
      (∃ p, e.session sid = some p ∧ p = { q with keyGen := q.keyGen + 1, lastBeat := max s.dev.now now }) ∧ e.regs = s.dev.regs ∧
      e.trust.holder = s.dev.trust.holder))) ∧
  (∀ (s : State) (now sid : Nat) (m : Master) (q : Session),
  (s.dev.session sid = some q → ∀ i, i = .endSession sid ∨ i = .finish now sid false ∨
      (q.lastBeat + 20000000000 ≤ now ∧ i = .heartbeatExpiry now sid) →
    ∃ e : Dev, exec i s = .next (s.put e) ∧ e.trust.sessions = s.dev.trust.sessions.filter (fun p => p.id ≠ sid) ∧
      (s.dev.trust.holder = some sid → e.trust.holder = none ∧ e.flag SEC_GRANT_HELD = false ∧ e.regBit SEC_EVENT 1 = true) ∧
      (s.dev.trust.holder ≠ some sid → e.trust.holder = s.dev.trust.holder ∧ e.regs = s.dev.regs) ∧
      (i = .endSession sid → e.out = s.dev.out ++ [.spdm "END_SESSION_ACK" [] []]) ∧ e.tiles = s.dev.tiles ∧ e.srv = s.dev.srv) ∧
  (s.dev.privileged m = true → ∀ h, s.dev.trust.holder = some h →
    ∃ e : Dev, exec (.grantRelease m) s = .next (s.put e) ∧ e.trust.holder = none ∧ e.flag SEC_GRANT_HELD = false ∧
      e.regBit SEC_EVENT 1 = true ∧ e.trust.sessions = s.dev.trust.sessions.filter (fun p => p.id ≠ h)) ∧
  (s.dev.privileged m = false → exec (.grantRelease m) s = .next (s.put (s.dev.deny SEC_GRANT)))) ∧
  (∀ (s : State) (b : List Byte) (k : Nat), s.dev.trust.identity = true →
  ((s.dev.trust.chunkIn ++ b).length ≤ 65536 →
    exec (.chunkSend b false) s = .next (s.put (
      ({ s.dev with trust := { s.dev.trust with chunkIn := s.dev.trust.chunkIn ++ b } } : Dev).emit (.spdm "CHUNK_SEND_ACK" [] []))) ∧
    exec (.chunkSend b true) s = .next (s.put (
      ({ s.dev with trust := { s.dev.trust with chunkIn := [], chunkOut := s.dev.trust.chunkIn ++ b } } : Dev).emit
        (.spdm "CHUNK_SEND_ACK" [] [])))) ∧
  (65536 < (s.dev.trust.chunkIn ++ b).length → ∀ last : Bool,
    exec (.chunkSend b last) s = .next (s.put (
      ({ s.dev with trust := { s.dev.trust with chunkIn := [] } } : Dev).emit (.spdm "ERROR" ["RequestTooLarge"] [])))) ∧
  exec (.chunkGet k) s = .next (s.put (
    ({ s.dev with trust := { s.dev.trust with chunkOut := s.dev.trust.chunkOut.drop k } } : Dev).emit
      (.spdm "CHUNK_RESPONSE" [] (s.dev.trust.chunkOut.take k)))))

/-- R123, R142, R143: waits. A WAIT that all unended streams issue outside a loop takes its token at once where one has arrived; else it holds
every stream with its token, bound and cycle. A release falls a whole number of beats after the issue, takes the token and adds its beats;
an expired wait on a tier token sets the token's TIER_LATE bit and ends, one on any other token is schedule fault 0x0B in its last cycle.

R146, R147: loop groups. LOOP opens a group with the trip count latched for its slot; a trip count of 0 opens none; a count above MAXTRIP is
schedule fault 0x0D. The LEND of the first iteration sets the period, a later one on the period counts an iteration, and the last closes the
group and lets the streams go on at a whole beat; a LEND off its period or of another group is schedule fault 0x0C.

R77, R114, R115, R123, R468: NOP changes nothing; MARK takes a snapshot of the tile's counters with its marker and cycle; END ends its stream,
and the last stream's END ends the pass: STATE 0, PASS_LEN the cycle, and the tile's vote record due.

R139 to R141: token traffic. A SIGNAL with no write or atomic of the mover outstanding and no token held sends its message at once, inside the
package to the tile that it names, with the token and the group's EPOCH; with writes outstanding it is held with them. An oldest
held token leaves when none of its operations is outstanding. A message of the pass's number and EPOCH counts in the current bank, one of the
next pass's in the next bank, any other is stale: counted and discarded. -/
def Obligations.StreamControl : Prop :=
  (∀ (s : State) (p : Issue) (n : Fin 32) (tok : BitVec 12) (bound : BitVec 32) (w : WaitRec) (k : Nat),
  s.dev.frozen = false → s.dev.running n = true → p.tile = n →
  (tok.toNat < 4032 → s.dev.issuesAll n = true → (s.dev.seq n).loops = [] →
    (1 ≤ s.dev.tokCur n tok.toNat →
      ∃ e : Dev, exec (.wait p tok bound) s = .next (s.put e) ∧ e.tokCur n tok.toNat = s.dev.tokCur n tok.toNat - 1 ∧
        (∀ t, t ≠ tok.toNat → e.tokCur n t = s.dev.tokCur n t) ∧ (e.seq n).wait = none ∧ (e.seq n).resumeAt = p.cyc ∧
        (e.seq n).waitBeats = (s.dev.seq n).waitBeats ∧ s.dev.onlyTile e n ∧ (e.tile n).store = (s.dev.tile n).store ∧
        e = { s.dev with tiles := e.tiles }) ∧
    (s.dev.tokCur n tok.toNat = 0 → bound ≠ 0 →
      ∃ e : Dev, exec (.wait p tok bound) s = .next (s.put e) ∧ (e.seq n).wait = some ⟨tok.toNat, bound.toNat, p.cyc, p.idx⟩ ∧
        e = { s.dev with tiles := e.tiles } ∧ s.dev.onlyTile e n ∧
        e.tile n = { s.dev.tile n with seq := { (s.dev.tile n).seq with wait := (e.seq n).wait } })) ∧
  ((s.dev.seq n).wait = some w → w.tok < 4032 → 1 ≤ s.dev.tokCur n w.tok → w.cyc + 256 * k ≤ w.cyc + 256 * ((w.bound + 255) / 256) →
    ∃ e : Dev, exec (.waitRelease n (w.cyc + 256 * k)) s = .next (s.put e) ∧ (e.seq n).wait = none ∧
      (e.seq n).resumeAt = w.cyc + 256 * k ∧ (e.seq n).waitBeats = (s.dev.seq n).waitBeats + k ∧
      e.tokCur n w.tok = s.dev.tokCur n w.tok - 1 ∧ e = { s.dev with tiles := e.tiles } ∧ s.dev.onlyTile e n) ∧
  ((s.dev.seq n).wait = some w → w.tok < 4032 → s.dev.tokCur n w.tok = 0 →
    (3072 ≤ w.tok → ∀ lost : Bool, ∃ e : Dev, exec (.waitExpiry n lost) s = .next (s.put e) ∧
      e.regBit (TCTL_TIER_LATE n ((w.tok - 3072) / 32)) (w.tok % 32) = true ∧ e.regBit (TCTL_EVENT n) 1 = true ∧
      (e.seq n).wait = none ∧ e.running n = true ∧ (e.seq n).waitBeats = (s.dev.seq n).waitBeats + (w.bound + 255) / 256) ∧
    (w.tok < 3072 → ∃ e : Dev, exec (.waitExpiry n false) s = .next (s.put e) ∧ e.getF (TCTL_PASS_STATUS_STATE n) = 2 ∧
      e.getF (TCTL_SFAULT_INFO_CAUSE n) = 0x0B ∧ e.getF (TCTL_SFAULT_INFO_INDEX n) = w.idx % 2 ^ 18 ∧
      e.getN (TCTL_SFAULT_ARG n) = w.tok ∧ e.regBit (TCTL_EVENT n) 0 = true ∧ e.tiles = s.dev.tiles))) ∧
  (∀ (s : State) (p : Issue) (n : Fin 32) (group : Fin 16) (slot : Fin 64) (maxtrip : BitVec 16)
    (r : LoopRec) (t : List LoopRec), s.dev.frozen = false → p.tile = n → s.dev.issuesAll n = true →
  ((s.dev.seq n).loops = [] →
    (0 < (s.dev.seq n).trips[slot] → (s.dev.seq n).trips[slot] ≤ maxtrip.toNat →
      ∃ e : Dev, exec (.loop p group slot maxtrip) s = .next (s.put e) ∧
        e.seq n = { s.dev.seq n with loops := [⟨group, p.cyc, (s.dev.seq n).trips[slot], 0, 0⟩] } ∧ s.dev.onlyTile e n ∧
        e = { s.dev with tiles := e.tiles }) ∧
    ((s.dev.seq n).trips[slot] = 0 →
      ∃ e : Dev, exec (.loop p group slot maxtrip) s = .next (s.put e) ∧ e.seq n = { s.dev.seq n with resumeAt := p.cyc } ∧
        s.dev.onlyTile e n ∧ e = { s.dev with tiles := e.tiles }) ∧
    (maxtrip.toNat < (s.dev.seq n).trips[slot] →
      ∃ e : Dev, exec (.loop p group slot maxtrip) s = .next (s.put e) ∧ e.getF (TCTL_PASS_STATUS_STATE n) = 2 ∧
        e.getF (TCTL_SFAULT_INFO_CAUSE n) = 0x0D ∧ e.tiles = s.dev.tiles)) ∧
  ((s.dev.seq n).loops = r :: t → r.group = group.val →
    (r.iter = 0 → 1 < r.trips → r.start ≤ p.cyc →
      ∃ e : Dev, exec (.lend p group) s = .next (s.put e) ∧
        e.seq n = { s.dev.seq n with loops := { r with period := p.cyc - r.start, iter := 1 } :: t } ∧ s.dev.onlyTile e n ∧
        e = { s.dev with tiles := e.tiles }) ∧
    (0 < r.iter → p.cyc = r.start + (r.iter + 1) * r.period → r.iter + 1 < r.trips →
      ∃ e : Dev, exec (.lend p group) s = .next (s.put e) ∧
        e.seq n = { s.dev.seq n with loops := { r with iter := r.iter + 1 } :: t } ∧ s.dev.onlyTile e n ∧
        e = { s.dev with tiles := e.tiles }) ∧
    (0 < r.iter → p.cyc = r.start + (r.iter + 1) * r.period → r.iter + 1 = r.trips →
      ∃ e : Dev, exec (.lend p group) s = .next (s.put e) ∧
        e.seq n = { s.dev.seq n with loops := t, resumeAt := r.start + 256 * ((r.trips * r.period + 255) / 256) } ∧
        s.dev.onlyTile e n ∧ e = { s.dev with tiles := e.tiles }) ∧
    (0 < r.iter → p.cyc ≠ r.start + (r.iter + 1) * r.period →
      ∃ e : Dev, exec (.lend p group) s = .next (s.put e) ∧ e.getF (TCTL_PASS_STATUS_STATE n) = 2 ∧
        e.getF (TCTL_SFAULT_INFO_CAUSE n) = 0x0C ∧ e.tiles = s.dev.tiles))) ∧
  (∀ (s : State) (p : Issue) (n : Fin 32) (st : Fin 5) (marker : BitVec 16) (now : Nat),
  s.dev.frozen = false → p.tile = n → s.dev.issues n st = true →
  exec (.nop p st) s = .next s ∧
  (∃ e : Dev, exec (.mark p st marker now) s = .next (s.put e) ∧ e.getF (PMC_SH_INFO_MARKER (tilePmc n)) = marker.toNat ∧
    e.getN (PMC_SH_CYCLE (tilePmc n)) = p.cyc % 2 ^ 32 ∧ e.getF (PMC_SNAP_CMD_LAST_SRC (tilePmc n)) = 2 ∧
    (∀ c, c < 16 → e.getPair (PMC_SH_LO (tilePmc n) c) (PMC_SH_HI (tilePmc n) c) = s.dev.pmc (.tile n) c) ∧
    e.tiles = s.dev.tiles ∧ e.out = s.dev.out) ∧
  ((s.dev.seq n).ended ||| BitVec.ofNat 5 (2 ^ st.val) ≠ 31#5 →
    ∃ e : Dev, exec (.endStream p st) s = .next (s.put e) ∧
      e.seq n = { s.dev.seq n with ended := (s.dev.seq n).ended ||| BitVec.ofNat 5 (2 ^ st.val) } ∧ e.issues n st = false ∧
      s.dev.onlyTile e n ∧ e = { s.dev with tiles := e.tiles }) ∧
  ((s.dev.seq n).ended ||| BitVec.ofNat 5 (2 ^ st.val) = 31#5 →
    ∃ e : Dev, exec (.endStream p st) s = .next (s.put e) ∧ e.getF (TCTL_PASS_STATUS_STATE n) = 0 ∧
      e.getN (TCTL_PASS_LEN n) = p.cyc % 2 ^ 32 ∧ e.getN (TCTL_WAIT_BEATS n) = (s.dev.seq n).waitBeats % 2 ^ 32 ∧
      (e.tile n).voteDue = true ∧ (e.seq n).ended = 31#5 ∧ ((s.dev.tile n).troubled ≠ [] → e.regBit (QNT_EVENT n) 0 = true) ∧
      s.dev.onlyTile e n ∧ (e.tile n).store = (s.dev.tile n).store ∧ (e.tile n).dram = (s.dev.tile n).dram ∧ e.out = s.dev.out)) ∧
  (∀ (s : State) (p : Issue) (n : Fin 32) (st : Fin 5) (tok : BitVec 12) (pkg : BitVec 17) (dst : Fin 32)
    (h : HeldTok) (t : List HeldTok) (seq ep : BitVec 16) (cyc : Nat), s.dev.frozen = false → p.tile = n →
  (s.dev.issues n st = true → tok.toNat < 4032 → (s.dev.moverWrites n = [] → (s.dev.seq n).held = [] →
      ∃ (e : Dev) (m : Dmsg), exec (.signal p st tok pkg dst true) s = .next (s.put e) ∧ m.op = 5 ∧ m.src = ⟨s.dev.self, n, false⟩ ∧
        m.dst = ⟨s.dev.self, dst, false⟩ ∧ m.rlen = tok.toNat + s.dev.epoch n * 2 ^ 16 ∧ m.data = [] ∧ m.stamp = s.dev.now ∧
        (dst = n → e = { s.dev with out := s.dev.out ++ [.arrive (.tile n) m] }) ∧
        (dst ≠ n → ∃ yx, e = { s.dev with fab := { s.dev.fab with net :=
          s.dev.fab.net ++ [⟨m, .req, .tile n, .tile dst, yx, .launch, 0⟩] } })) ∧
    (s.dev.moverWrites n ≠ [] →
      ∃ (e : Dev) (m : Dmsg), exec (.signal p st tok pkg dst true) s = .next (s.put e) ∧ m.op = 5 ∧
        (e.seq n).held = (s.dev.seq n).held ++ [⟨m, s.dev.moverWrites n⟩] ∧ e = { s.dev with tiles := e.tiles } ∧ s.dev.onlyTile e n)) ∧
  ((s.dev.seq n).held = h :: t → h.msg.src = ⟨s.dev.self, n, false⟩ → h.msg.dst = ⟨s.dev.self, n, false⟩ →
    ((∀ k ∈ s.dev.moverWrites n, k ∉ h.waits) →
      ∃ e : Dev, exec (.signalTokenSend n) s = .next (s.put e) ∧ (e.seq n).held = t ∧ s.dev.onlyTile e n ∧
        e = { s.dev with tiles := e.tiles, out := s.dev.out ++ [.arrive (.tile n) (s.dev.stampMsg h.msg)] }) ∧
    ((∃ k ∈ s.dev.moverWrites n, k ∈ h.waits) → exec (.signalTokenSend n) s = .next s)) ∧
  (ep.toNat = s.dev.epoch n → seq.toNat = s.dev.passSeq n → s.dev.tokCur n tok.toNat < 255 →
    ∃ e : Dev, exec (.tokenMessage n tok seq ep false cyc) s = .next (s.put e) ∧
      e.tokCur n tok.toNat = s.dev.tokCur n tok.toNat + 1 ∧ (∀ k, k ≠ tok.toNat → e.tokCur n k = s.dev.tokCur n k) ∧
      (∀ k, e.tokNext n k = s.dev.tokNext n k) ∧ s.dev.onlyTile e n ∧ e.out = s.dev.out) ∧
  (ep.toNat = s.dev.epoch n → seq.toNat = (s.dev.passSeq n + 1) % 65536 → s.dev.tokNext n tok.toNat < 255 →
    ∃ e : Dev, exec (.tokenMessage n tok seq ep false cyc) s = .next (s.put e) ∧
      e.tokNext n tok.toNat = s.dev.tokNext n tok.toNat + 1 ∧ (∀ k, e.tokCur n k = s.dev.tokCur n k) ∧ s.dev.onlyTile e n ∧
      e.out = s.dev.out) ∧
  (ep.toNat ≠ s.dev.epoch n ∨ seq.toNat ≠ s.dev.passSeq n ∧ seq.toNat ≠ (s.dev.passSeq n + 1) % 65536 →
    ∃ e : Dev, exec (.tokenMessage n tok seq ep false cyc) s = .next (s.put e) ∧
      e.getN (TCTL_STALE_COUNT n) = min (s.dev.getN (TCTL_STALE_COUNT n) + 1) 0xFFFFFFFF ∧ e.regBit (TCTL_EVENT n) 3 = true ∧
      e.tiles = s.dev.tiles ∧ e.out = s.dev.out))

/-- R129, R152, R154: a pass that overruns its bound (cause 0x0F, in the cycle of the bound) and a violation that the scoreboard finds stop the
sequencer of a running tile: STATE 2, the cause with its stream, index, cycle and argument, and TCTL_EVENT.SFAULT; on a tile where no pass
runs they change nothing. -/
def Obligations.ScheduleFaults : Prop := ∀ (s : State) (n : Fin 32) (i : Instr) (c x y z a : Nat),
  s.dev.frozen = false → c < 18 → x < 8 →
  (i = .passOverrun n ∧ c = 15 ∧ x = 7 ∧ y = 0 ∧ a = 0 ∧
      z = memLe (s.dev.tile n).imem ((if s.dev.flag (TCTL_PASS_STATUS_FB_HALF n) then 0x400000 else 0) + 0x0C) 4) ∨
    (∃ (k : Fin 18) (q : Fin 8), i = .scheduleFault n k q y z a ∧ c = k ∧ x = q) →
  (s.dev.running n = true →
    ∃ e : Dev, exec i s = .next (s.put e) ∧ e.getF (TCTL_PASS_STATUS_STATE n) = 2 ∧ e.getF (TCTL_SFAULT_INFO_CAUSE n) = c ∧
      e.getF (TCTL_SFAULT_INFO_STREAM n) = x ∧ e.getN (TCTL_SFAULT_CYCLE n) = z % 2 ^ 32 ∧ e.getN (TCTL_SFAULT_ARG n) = a % 2 ^ 32 ∧
      e.regBit (TCTL_EVENT n) 0 = true ∧ e.isPending (256 + 16 * n) = true ∧ e.tiles = s.dev.tiles ∧ e.out = s.dev.out ∧
      (∀ st, e.issues n st = false)) ∧
  (s.dev.running n = false → exec i s = .next s)

/-- R103 to R105, R114: the lane-wise instructions of the vector engine. Each lane that the mask register names takes the operation's result of the
same lane of the sources (BIMM puts the immediate in every lane of the second), every other lane and every other register keeps its value, and
beside the destination register only counters and the engine's event bits change.

R103, R104, R106, R119: VCMP writes the predicate into the lanes of a mask register that the write mask names; VSEL writes every lane from
the source that the mask selects; VRED and VBCAST put the group's reduction, or its lowest lane, in each masked lane of the group. A write of M0, a
predicate above 6 and a group above 512 lanes are MALFORMED.

R107, R108, R120: the vector memory instructions on well-formed operands. VLD in FP32 gives each lane its four bytes, in any other format the
value that the segment's bytes and block scales stand for; VST in FP32 stores each lane's four bytes at its segment's address and no other byte;
VQST in an FP8 format, where neither rounding is stochastic nor the tensor's record overlaps the data, stores each lane's quantised code, and
changes no byte beside the data and the record. A misaligned address is MALFORMED. -/
def Obligations.VectorUnit : Prop :=
  (∀ (s : State) (p : Issue) (n : Fin 32) (vd va vb vc : Fin 64) (k : Fin 8) (bi : Bool) (imm : Word)
    (i : Instr) (f : Fin 512 → Word), s.dev.frozen = false → p.tile = n → s.dev.issues n 2 = true →
  let a := s.dev.vlanes n va
  let b : Fin 512 → Word := fun j => if bi then imm else (s.dev.vlanes n vb)[j]
  (i = .vfma p vd va vb vc k bi imm ∧ f = fun j => fFma vNan a[j] (b j) (s.dev.vlanes n vc)[j]) ∨
    (i = .vadd p vd va vb k bi imm ∧ f = fun j => fAdd vNan a[j] (b j)) ∨
    (i = .vsub p vd va vb k bi imm ∧ f = fun j => fSub vNan a[j] (b j)) ∨
    (i = .vmul p vd va vb k bi imm ∧ f = fun j => fMul vNan a[j] (b j)) ∨
    (i = .vmax p vd va vb k bi imm ∧ f = fun j => fMax a[j] (b j)) ∨
    (i = .vmin p vd va vb k bi imm ∧ f = fun j => fMin a[j] (b j)) ∨
    (i = .vimm p vd k imm ∧ f = fun _ => imm) ∨
    (i = .vexp2 p vd va k ∧ f = fun j => fExp2 vNan a[j]) ∨ (i = .vexp p vd va k ∧ f = fun j => fExpE vNan a[j]) ∨
    (i = .vrcp p vd va k ∧ f = fun j => fRcp vNan a[j]) ∨ (i = .vrsqrt p vd va k ∧ f = fun j => fRsqrt vNan a[j]) ∨
    (i = .vlog2 p vd va k ∧ f = fun j => fLog2 vNan a[j]) →
  ∃ e : Dev, exec i s = .next (s.put e) ∧
    (∀ j : Fin 512, (e.vlanes n vd)[j] = if (s.dev.vmask n k).getLsbD j then f j else (s.dev.vlanes n vd)[j]) ∧
    (∀ r, r ≠ vd → e.vlanes n r = s.dev.vlanes n r) ∧ s.dev.onlyTile e n ∧
    e.tile n = { s.dev.tile n with vreg := (e.tile n).vreg } ∧ e = { s.dev with regs := e.regs, ages := e.ages, tiles := e.tiles }) ∧
  (∀ (s : State) (p : Issue) (n : Fin 32) (md k : Fin 8) (vd va vb : Fin 64) (fn g : Fin 16) (bi : Bool)
    (imm : Word), s.dev.frozen = false → p.tile = n → s.dev.issues n 2 = true →
  let a := s.dev.vlanes n va
  let b : Fin 512 → Word := fun j => if bi then imm else (s.dev.vlanes n vb)[j]
  (md ≠ 0 → fn.val ≤ 6 →
    ∃ e : Dev, exec (.vcmp p md va vb k fn bi imm) s = .next (s.put e) ∧
      (∀ j : Fin 512, (e.vmask n md).getLsbD j =
        if (s.dev.vmask n k).getLsbD j then vcmpHolds fn a[j] (b j) else (s.dev.vmask n md).getLsbD j) ∧
      (∀ m, m ≠ md → e.vmask n m = s.dev.vmask n m) ∧ e.tile n = { s.dev.tile n with mreg := (e.tile n).mreg } ∧ s.dev.onlyTile e n) ∧
  (md = 0 ∨ 6 < fn.val →
    ∃ e : Dev, exec (.vcmp p md va vb k fn bi imm) s = .next (s.put e) ∧ e.getF (TCTL_SFAULT_INFO_CAUSE n) = 1 ∧
      e.getF (TCTL_PASS_STATUS_STATE n) = 2 ∧ e.tiles = s.dev.tiles) ∧
  (∃ e : Dev, exec (.vsel p vd va vb k bi imm) s = .next (s.put e) ∧
    (∀ j : Fin 512, (e.vlanes n vd)[j] = if (s.dev.vmask n k).getLsbD j then a[j] else b j) ∧
    e.tile n = { s.dev.tile n with vreg := (s.dev.tile n).vreg.set vd (e.vlanes n vd) } ∧ s.dev.onlyTile e n) ∧
  (fn.val ≤ 2 → g.val ≤ 9 →
    ∃ e : Dev, exec (.vred p vd va k fn g) s = .next (s.put e) ∧
      (∀ j : Fin 512, (e.vlanes n vd)[j] =
        if (s.dev.vmask n k).getLsbD j then treeRed (vredOp fn) g (groupOf a g j) else (s.dev.vlanes n vd)[j]) ∧
      e.tile n = { s.dev.tile n with vreg := (s.dev.tile n).vreg.set vd (e.vlanes n vd) } ∧ s.dev.onlyTile e n) ∧
  (g.val ≤ 9 →
    ∃ e : Dev, exec (.vbcast p vd va k g) s = .next (s.put e) ∧
      (∀ j : Fin 512, (e.vlanes n vd)[j] =
        if (s.dev.vmask n k).getLsbD j then a.toList.getD (j.val / 2 ^ g.val * 2 ^ g.val) 0 else (s.dev.vlanes n vd)[j]) ∧
      e.tile n = { s.dev.tile n with vreg := (s.dev.tile n).vreg.set vd (e.vlanes n vd) } ∧ s.dev.onlyTile e n)) ∧
  (∀ (s : State) (p : Issue) (n : Fin 32) (v : Fin 64) (fmt : Fin 16) (addr saddr : BitVec 26) (stride : BitVec 16)
    (tid : BitVec 12), s.dev.frozen = false → p.tile = n → s.dev.issues n 2 = true →
  (segsOk addr.toNat stride.toNat (vldSize fmt) (vldSize fmt) = true → (fmt = 4 → scalesOk saddr.toNat stride.toNat = true) →
    ∃ e : Dev, exec (.vld p v fmt addr stride saddr) s = .next (s.put e) ∧
      (∀ j : Fin 512, (e.vlanes n v)[j] = (segLanes fmt
        (s.dev.tsRead n (segAddr addr.toNat stride.toNat (vldSize fmt) (j.val / 64)) (vldSize fmt))
        (s.dev.tsRead n (segScale saddr.toNat stride.toNat (j.val / 64)) 2)).getD (j.val % 64) 0) ∧
      (fmt = 0 → ∀ j : Fin 512, ((e.vlanes n v)[j]).toNat =
        s.dev.tsLe n (segAddr addr.toNat stride.toNat 256 (j.val / 64) + 4 * (j.val % 64)) 4) ∧
      e.tile n = { s.dev.tile n with vreg := (s.dev.tile n).vreg.set v (e.vlanes n v) } ∧ s.dev.onlyTile e n) ∧
  (segsOk addr.toNat stride.toNat 256 256 = true →
    ∃ e : Dev, exec (.vst p v 0 addr stride) s = .next (s.put e) ∧
      (stride = 0 ∨ 8 ≤ stride.toNat → ∀ j : Fin 512,
        e.tsLe n (segAddr addr.toNat stride.toNat 256 (j.val / 64) + 4 * (j.val % 64)) 4 = ((s.dev.vlanes n v)[j]).toNat) ∧
      (∀ x, (∀ g, g < 8 → x < segAddr addr.toNat stride.toNat 256 g ∨ segAddr addr.toNat stride.toNat 256 g + 256 ≤ x) →
        memGet (e.tile n).store x = memGet (s.dev.tile n).store x) ∧
      e.tile n = { s.dev.tile n with store := (e.tile n).store } ∧ s.dev.onlyTile e n) ∧
  (addr.toNat % 256 ≠ 0 →
    ∃ e : Dev, exec (.vst p v 0 addr stride) s = .next (s.put e) ∧ e.getF (TCTL_SFAULT_INFO_CAUSE n) = 1 ∧ e.tiles = s.dev.tiles) ∧
  (fmt = 5 ∨ fmt = 6 → addr.toNat % 64 = 0 → addr.toNat + 512 ≤ tsBytes → s.dev.flag (QNT_CTRL_STOCH_EN n) = false →
    s.dev.statAt n tid.toNat + 32 ≤ addr.toNat ∨ addr.toNat + 512 ≤ s.dev.statAt n tid.toNat →
    ∃ e : Dev, exec (.vqst p v fmt false tid addr 0 saddr) s = .next (s.put e) ∧
      (∀ j, j < 512 → memGet (e.tile n).store (addr.toNat + j) = BitVec.ofNat 8
        ((quantise (if fmt = 5 then .e4m3 else .e5m2) (tscaleUsed (s.dev.tscale n tid.toNat)) (s.dev.zeroLimit n)
          (((s.dev.vlanes n v).toList.drop (32 * (j / 32))).take 32) none).codes.getD (j % 32) 0)) ∧
      (∀ x, x < addr.toNat ∨ addr.toNat + 512 ≤ x → x < s.dev.statAt n tid.toNat ∨ s.dev.statAt n tid.toNat + 32 ≤ x →
        memGet (e.tile n).store x = memGet (s.dev.tile n).store x) ∧
      e.statFlag n tid.toNat 0 = true ∧ (e.tile n).vreg = (s.dev.tile n).vreg ∧ (e.tile n).dram = (s.dev.tile n).dram ∧
      s.dev.onlyTile e n ∧ e.getR (QNT_LFSR_STATE n) = s.dev.getR (QNT_LFSR_STATE n) ∧ e.out = s.dev.out))

/-- R86, R93 to R97, R116, R117: MMA on Mangles whose multiplying panel is loaded and good. SW makes the shadow the active panel and leaves an
invalid shadow; each named row of the accumulator takes the product of its activation row with the panel added to what CLR leaves (zeros and
the panel's WSCALE) or to its own values; every other row, every Mangle that MSEL does not name, the vector registers, tile store and DRAM
stay. SW on an invalid shadow is schedule fault 8.

R100 to R102, R118: DRAIN of well-formed operands. Into tile store in FP32 without scaling each drained value stands at its row's address,
and no byte outside the rows changes; into vector registers eight rows fill one, and no other register changes; with a valid tensor
scale SCL multiplies each value by tag times TSCALE; ZERO clears the drained rows' values and keeps their tags, and without it the
accumulators stay. -/
def Obligations.MangleRows : Prop :=
  (∀ (s : State) (p : Issue) (n : Fin 32) (half : Fin 2) (msel afmt : BitVec 2) (sw clr : Bool)
    (atid : BitVec 12) (rows acc : Fin 256) (aaddr : BitVec 20) (astride : BitVec 16) (saddr : BitVec 26),
  s.dev.frozen = false → p.tile = n → s.dev.issues n half = true → msel ≠ 0 → afmt ≠ 3 → acc.val + rows.val < 256 →
  (∀ i ∈ mselSet half msel.toNat, 64 * (aaddr.toNat + rows.val * astride.toNat) +
    sliceBytes ((s.dev.mangle n i).panel sw) (actFmt afmt.toNat) ≤ tsBytes) →
  ((∀ i ∈ mselSet half msel.toNat, ∃ q f, (s.dev.mangle n i).panel sw = some q ∧ q.err = false ∧ imgFormat q.image = some f) →
    ∃ e : Dev, exec (.mma p half msel sw clr false afmt atid rows acc aaddr astride saddr) s = .next (s.put e) ∧
      (∀ i, i ∉ mselSet half msel.toNat → e.mangle n i = s.dev.mangle n i) ∧
      (∀ i ∈ mselSet half msel.toNat, ∀ q f, (s.dev.mangle n i).panel sw = some q → imgFormat q.image = some f →
        (e.mangle n i).active = some q ∧ (e.mangle n i).shadow = (if sw then none else (s.dev.mangle n i).shadow) ∧
        (∀ r : Fin 256, r < acc ∨ acc.val + rows.val < r.val → (e.mangle n i).acc[r] = (s.dev.mangle n i).acc[r]) ∧
        (∀ r : Fin 256, acc ≤ r → r.val ≤ acc.val + rows.val →
          ((e.mangle n i).acc[r]).tag = (if clr then imgWscale q.image else ((s.dev.mangle n i).acc[r]).tag) ∧
          ∀ c : Fin 64, ((e.mangle n i).acc[r]).vals[c] = mmaCell q.image f (imgSparse q.image) (actFmt afmt.toNat)
            (s.dev.tsRead n (64 * (aaddr.toNat + (r.val - acc.val) * astride.toNat)) (sliceBytes (some q) (actFmt afmt.toNat)))
            (s.dev.tsRead n (saddr.toNat + 4 * (r.val - acc.val) * astride.toNat) 32) c
            (if clr then 0 else ((s.dev.mangle n i).acc[r]).vals[c]))) ∧
      e.tile n = { s.dev.tile n with mangle := (e.tile n).mangle } ∧ s.dev.onlyTile e n ∧ e.out = s.dev.out) ∧
  (sw = true → (∃ i ∈ mselSet half msel.toNat, (s.dev.mangle n i).shadow = none) →
    ∃ e : Dev, exec (.mma p half msel sw clr false afmt atid rows acc aaddr astride saddr) s = .next (s.put e) ∧
      e.getF (TCTL_SFAULT_INFO_CAUSE n) = 8 ∧ e.getF (TCTL_PASS_STATUS_STATE n) = 2 ∧ e.tiles = s.dev.tiles)) ∧
  (∀ (s : State) (p : Issue) (n : Fin 32) (half : Fin 2) (odd scl zero : Bool) (atid : BitVec 12)
    (acc rows : Fin 256) (vd : Fin 64) (daddr : BitVec 20) (dstride : BitVec 16) (m : Fin 4),
  s.dev.frozen = false → p.tile = n → s.dev.issues n half = true → m.val = 2 * half.val + (if odd then 1 else 0) →
  acc.val + rows.val < 256 → (scl = true → tscaleValid (s.dev.tscale n atid.toNat) = true) →
  let v (r : Nat) (c : Fin 64) : Word := (((s.dev.mangle n m).acc.toList.getD r ⟨0, Vector.replicate 64 0⟩).vals)[c]
  let tag (r : Nat) : Word := ((s.dev.mangle n m).acc.toList.getD r ⟨0, Vector.replicate 64 0⟩).tag
  let x (r : Nat) (c : Fin 64) : Word :=
    if scl then fMul (mangleNan (v r c) (fMul vNan (tag r) (s.dev.tscale n atid.toNat))) (v r c) (fMul vNan (tag r) (s.dev.tscale n atid.toNat))
    else v r c
  let zeroed (e : Dev) : Prop := (∀ i, i ≠ m → e.mangle n i = s.dev.mangle n i) ∧ (zero = false → e.mangle n m = s.dev.mangle n m) ∧
    (zero = true → ∀ r : Fin 256, (e.mangle n m).acc[r] =
      if acc ≤ r ∧ r.val ≤ acc.val + rows.val then ⟨tag r, Vector.replicate 64 0⟩ else (s.dev.mangle n m).acc[r])
  (64 * (daddr.toNat + rows.val * dstride.toNat) + 256 ≤ tsBytes →
    ∃ e : Dev, exec (.drain p half odd 1 scl zero atid acc rows vd daddr dstride) s = .next (s.put e) ∧ zeroed e ∧
      (4 ≤ dstride.toNat ∨ rows = 0 → ∀ (j : Nat) (c : Fin 64), j ≤ rows.val →
        e.tsLe n (64 * (daddr.toNat + j * dstride.toNat) + 4 * c.val) 4 = (x (acc.val + j) c).toNat) ∧
      (∀ a, (∀ j, j ≤ rows.val → a < 64 * (daddr.toNat + j * dstride.toNat) ∨ 64 * (daddr.toNat + j * dstride.toNat) + 256 ≤ a) →
        memGet (e.tile n).store a = memGet (s.dev.tile n).store a) ∧
      (e.tile n).vreg = (s.dev.tile n).vreg ∧ (e.tile n).dram = (s.dev.tile n).dram ∧ s.dev.onlyTile e n) ∧
  ((rows.val + 1) % 8 = 0 → vd.val + (rows.val + 1) / 8 ≤ 64 →
    ∃ e : Dev, exec (.drain p half odd 0 scl zero atid acc rows vd daddr dstride) s = .next (s.put e) ∧ zeroed e ∧
      (∀ (r : Fin 64) (l : Fin 512), vd ≤ r → r.val < vd.val + (rows.val + 1) / 8 →
        (e.vlanes n r)[l] = x (acc.val + 8 * (r.val - vd.val) + l.val / 64) ⟨l.val % 64, Nat.mod_lt _ (by decide)⟩) ∧
      (∀ r : Fin 64, r < vd ∨ vd.val + (rows.val + 1) / 8 ≤ r.val → e.vlanes n r = s.dev.vlanes n r) ∧
      (e.tile n).store = (s.dev.tile n).store ∧ (e.tile n).dram = (s.dev.tile n).dram ∧ s.dev.onlyTile e n))

/-- R121, R132, R164, R246: the mover's copies inside the package, with nothing uncorrectable. Tile store to tile store and DRAM to tile store put the
source's bytes at the destination and change no other byte of tile store; tile store to DRAM puts them there and changes no other byte of
DRAM; a copy to a Mangle loads its shadow with the image, in error where the header check fails. A pushed Peg joins its queue while
fewer than 1,024 wait.

R121, R363, R368, R370, R375: MATOM toward a tile of this package with a grant for its unit, room in the send buffer and a free number: one atomic
with the operand bytes and the grant's key becomes outstanding under the lowest free number and leaves; without a grant for the unit nothing
leaves, and the mover is told NO_GRANT. -/
def Obligations.MoverCopies : Prop :=
  (∀ (s : State) (p : Issue) (n : Fin 32) (len : BitVec 16) (a b : BitVec 29) (pkg : BitVec 17) (t : Fin 32)
    (bulk : Bool) (reps : List (Nat × EccRep)) (wues : List Nat), s.dev.frozen = false → p.tile = n →
  let k := 64 * (len.toNat + 1)
  (s.dev.issues n 3 = true → 64 * a.toNat + k ≤ tsBytes → 64 * b.toNat + k ≤ tsBytes →
    64 * a.toNat + k ≤ 64 * b.toNat ∨ 64 * b.toNat + k ≤ 64 * a.toNat →
    ∃ e : Dev, exec (.mcopy p 0 0 len a b pkg t bulk reps wues) s = .next (s.put e) ∧
      (∀ x, memGet (e.tile n).store x = if 64 * b.toNat ≤ x ∧ x < 64 * b.toNat + k then
        memGet (s.dev.tile n).store (64 * a.toNat + (x - 64 * b.toNat)) else memGet (s.dev.tile n).store x) ∧
      e = { s.dev with tiles := e.tiles } ∧ e.tile n = { s.dev.tile n with store := (e.tile n).store } ∧ s.dev.onlyTile e n) ∧
  (s.dev.issues n 3 = true → 2 ^ 15 ≤ a.toNat → a.toNat + len.toNat + 1 ≤ 2 ^ 29 → 64 * b.toNat + k ≤ tsBytes → reps = [] →
    (∀ l, s.dev.poisoned n l = false) →
    ∃ e : Dev, exec (.mcopy p 1 0 len a b pkg t bulk reps wues) s = .next (s.put e) ∧
      (∀ x, memGet (e.tile n).store x = if 64 * b.toNat ≤ x ∧ x < 64 * b.toNat + k then
        memGet (s.dev.tile n).dram (64 * a.toNat + (x - 64 * b.toNat)) else memGet (s.dev.tile n).store x) ∧
      (e.tile n).dram = (s.dev.tile n).dram ∧ s.dev.onlyTile e n ∧ e.out = s.dev.out) ∧
  (s.dev.issues n 3 = true → 64 * a.toNat + k ≤ tsBytes → 2 ^ 15 ≤ b.toNat → b.toNat + len.toNat + 1 ≤ 2 ^ 29 → wues = [] →
    ∃ e : Dev, exec (.mcopy p 0 1 len a b pkg t bulk reps wues) s = .next (s.put e) ∧
      (∀ x, memGet (e.tile n).dram x = if 64 * b.toNat ≤ x ∧ x < 64 * b.toNat + k then
        memGet (s.dev.tile n).store (64 * a.toNat + (x - 64 * b.toNat)) else memGet (s.dev.tile n).dram x) ∧
      (e.tile n).store = (s.dev.tile n).store ∧ s.dev.onlyTile e n ∧ e.out = s.dev.out) ∧
  (s.dev.issues n 3 = true → 64 * a.toNat + k ≤ tsBytes → isPanelUnits (len.toNat + 1) = true → ∀ i : Fin 4, b = BitVec.ofNat 29 i →
    ∃ e : Dev, exec (.mcopy p 0 3 len a b pkg t bulk reps wues) s = .next (s.put e) ∧
      (e.mangle n i).shadow = some ⟨s.dev.tsRead n (64 * a.toNat) k, (headerCause (s.dev.tsRead n (64 * a.toNat) k)).isSome⟩ ∧
      (e.mangle n i).active = (s.dev.mangle n i).active ∧ (e.mangle n i).acc = (s.dev.mangle n i).acc ∧
      (∀ j, j ≠ i → e.mangle n j = s.dev.mangle n j) ∧
      e.tile n = { s.dev.tile n with mangle := (e.tile n).mangle } ∧ s.dev.onlyTile e n) ∧
  (∀ (q : Fin 2) (peg : BitVec 128),
    ((s.dev.tile n).pq[q].length < 1024 → ∃ e : Dev, exec (.pegPush n q peg) s = .next (s.put e) ∧
      (e.tile n).pq = (s.dev.tile n).pq.set q ((s.dev.tile n).pq[q] ++ [pegOf peg]) ∧ s.dev.onlyTile e n ∧
      e.tile n = { s.dev.tile n with pq := (e.tile n).pq } ∧ s.dev.keepsRegs e [HMP_PEGQ n]) ∧
    (1024 ≤ (s.dev.tile n).pq[q].length → exec (.pegPush n q peg) s = .next s))) ∧
  (∀ (s : State) (p : Issue) (n : Fin 32) (aop : BitVec 4) (ga : BitVec 57) (op : BitVec 23),
  s.dev.frozen = false → p.tile = n → s.dev.issues n 3 = true → aop.toNat ≤ 3 → (s.dev.delud n).sendBytes + 64 ≤ 0x400000 →
  gaPkg ga.toNat = s.dev.self →
  (∀ g, s.dev.grantFor n ga.toNat = some g → (s.dev.delud n).src.queue = [] → (s.dev.delud n).src.txns = [] →
    (s.dev.delud n).src.quarantine = [] →
    ∃ (e : Dev) (t : Txn), exec (.matom p aop false ga op) s = .next (s.put e) ∧ (e.delud n).src.txns = [t] ∧ t.num = 0 ∧
      t.owner = .mover ∧ t.vc = .req ∧ t.use = .atomic (8 * op.toNat) 4 ∧ t.msg.op = 4 ∧ t.msg.aop = aop.toNat ∧ t.msg.addr = ga.toNat ∧
      t.msg.key = g.key ∧ t.msg.data = s.dev.tsRead n (8 * op.toNat) 4 ∧ (e.delud n).sendBytes = (s.dev.delud n).sendBytes + 64 ∧
      (gaTile ga.toNat = n → ∃ m, e.out = s.dev.out ++ [.arrive (.tile n) m] ∧ m.op = 4 ∧ m.data = t.msg.data ∧ e.fab = s.dev.fab) ∧
      (gaTile ga.toNat ≠ n → ∃ x, e.fab.net = s.dev.fab.net ++ [x] ∧ x.vc = .req ∧ x.src = .tile n ∧ x.msg.op = 4 ∧ e.out = s.dev.out) ∧
      (e.tile n).store = (s.dev.tile n).store ∧ s.dev.onlyTile e n) ∧
  (s.dev.grantFor n ga.toNat = none →
    ∃ e : Dev, exec (.matom p aop false ga op) s = .next (s.put e) ∧
      (e.delud n).src.errs = (s.dev.delud n).src.errs ++ [⟨.mover, 2, gaNode ga.toNat⟩] ∧ (e.delud n).src.txns = (s.dev.delud n).src.txns ∧
      e.regBit DLD_EVENT 0 = true ∧ e.regBit DLD_EVENT 2 = true ∧ e.out = s.dev.out ∧ e.fab = s.dev.fab ∧
      (e.tile n).store = (s.dev.tile n).store))

/-- R234, R238, R249: HAPPEND of one row. A row with SKIP changes no tile; a bin past BINS sets HMP_EVENT bit 4 and the tile's fault; otherwise the
row's 256 keys, quantised in K4F with the bin's scale, stand at its position, VALID covers the position, and no byte of tile store beside the
bin's page and the two tensors' records changes.

R242: HFLUSH of one bin copies the page's data into its slot; the slot's FULL bit tells whether VALID is 64, a bin that is not full sets HMP_EVENT
bit 3, HMP_FLUSH_COUNT advances, and no other byte of tile store changes. -/
def Obligations.HamperRows : Prop :=
  (∀ (s : State) (p : Issue) (n : Fin 32) (a0 a1 a2 : BitVec 26), s.dev.frozen = false → p.tile = n →
  s.dev.issues n 4 = true → happendBad a0.toNat a1.toNat a2.toNat 16 0 = false →
  let ent := s.dev.tsLe n a1.toNat 4
  let bin := s.dev.binAt n (ent / 64 % 1024)
  let pos := ent % 64
  let kr := s.dev.statAt n (a2.toNat % 4096)
  let vr := s.dev.statAt n (a2.toNat / 4096 % 4096)
  (ent.testBit 31 = true →
    ∃ e : Dev, exec (.happend p a0 a1 a2 16 0) s = .next (s.put e) ∧ e.tiles = s.dev.tiles ∧ e.out = s.dev.out) ∧
  (ent.testBit 31 = false → s.dev.bins n ≤ ent / 64 % 1024 →
    ∃ e : Dev, exec (.happend p a0 a1 a2 16 0) s = .next (s.put e) ∧ e.regBit (HMP_EVENT n) 4 = true ∧
      e.tile n = { s.dev.tile n with hmpFault := true } ∧ s.dev.onlyTile e n) ∧
  (ent.testBit 31 = false → ent / 64 % 1024 < s.dev.bins n → kr + 32 ≤ bin ∨ bin + 32768 ≤ kr → vr + 32 ≤ bin ∨ bin + 32768 ≤ vr →
    (a0.toNat + 2048 ≤ bin ∨ bin + 32768 ≤ a0.toNat) → (a0.toNat + 2048 ≤ kr ∨ kr + 32 ≤ a0.toNat) →
    ∃ e : Dev, exec (.happend p a0 a1 a2 16 0) s = .next (s.put e) ∧ e.pageValid n bin = max (s.dev.pageValid n bin) (pos + 1) ∧
      (∀ b j, b < 8 → j < 16 → memGet (e.tile n).store (bin + kpAt (b / 4) + 64 + 64 * pos + 16 * (b % 4) + j) =
        (packCodes 4 (quantise .k4f (tscaleUsed (BitVec.ofNat 32 (s.dev.tsLe n (bin + 4) 4))) (s.dev.zeroLimit n)
          (s.dev.tsWords n (a0.toNat + 128 * b) 32) none).codes).getD j 0) ∧
      (∀ x, x < bin ∨ bin + 32768 ≤ x → x < kr ∨ kr + 32 ≤ x → x < vr ∨ vr + 32 ≤ x →
        memGet (e.tile n).store x = memGet (s.dev.tile n).store x) ∧
      (e.tile n).dram = (s.dev.tile n).dram ∧ (e.tile n).vreg = (s.dev.tile n).vreg ∧ s.dev.onlyTile e n ∧ e.out = s.dev.out)) ∧
  (∀ (s : State) (p : Issue) (n : Fin 32) (a0 a1 : BitVec 26), s.dev.frozen = false → p.tile = n →
  s.dev.issues n 4 = true → hflushBad a0.toNat a1.toNat 0 1 0 = false →
  let b := s.dev.tsLe n a0.toNat 4 % 1024
  let bin := s.dev.binAt n b
  b < s.dev.bins n →
  ∃ e : Dev, exec (.hflush p a0 a1 0 1 0) s = .next (s.put e) ∧
    (∀ j, j < pageData → j ≠ trailerAt + 3 → memGet (e.tile n).store (a1.toNat + j) = memGet (s.dev.tile n).store (bin + j)) ∧
    (e.tsLe n (a1.toNat + trailerAt + 3) 1).testBit 0 = (s.dev.pageValid n bin == 64) ∧
    (∀ x, x < a1.toNat ∨ a1.toNat + pageData ≤ x → memGet (e.tile n).store x = memGet (s.dev.tile n).store x) ∧
    e.getN (HMP_FLUSH_COUNT n) = min (s.dev.getN (HMP_FLUSH_COUNT n) + 1) 0xFFFFFFFF ∧
    (s.dev.pageValid n bin ≠ 64 → e.regBit (HMP_EVENT n) 3 = true) ∧ e.tile n = { s.dev.tile n with store := (e.tile n).store } ∧
    s.dev.onlyTile e n ∧ e.out = s.dev.out)

/-- R264 to R267: XTOPK. Where the records overlap neither scores nor bias each row's 64-byte record holds the K experts of largest selection value
with their weights, as the row's scores give them, and no other byte of tile store changes.

R286 to R288: XCOMBINE of one row. With every answer in place and none deferred each element of the row becomes the base value plus the
weighted answers in choice order, and no other byte changes; with an answer missing the row's MISSING flag and DLAYER are set and XPT_EVENT
bit 2 latches; with all there and one deferred its DEFERRED flag is set and XPT_DEFER_COUNT advances. A row flagged before stays. -/
def Obligations.RouterRecords : Prop :=
  (∀ (s : State) (p : Issue) (n : Fin 32) (a0 a1 a2 : BitVec 26) (count : BitVec 16) (param : BitVec 10),
  s.dev.frozen = false → p.tile = n → s.dev.issues n 4 = true →
  xtopkBad a0.toNat a1.toNat a2.toNat count.toNat param.toNat = false →
  let eb := param.toNat % 32 + 1
  let rows := count.toNat / eb
  (a1.toNat + 64 * rows ≤ a0.toNat ∨ a0.toNat + 512 * count.toNat ≤ a1.toNat) →
  (param.toNat.testBit 5 = true → a1.toNat + 64 * rows ≤ a2.toNat ∨ a2.toNat + 512 * eb ≤ a1.toNat) →
  ∃ e : Dev, exec (.xtopk p a0 a1 a2 count param) s = .next (s.put e) ∧
    (∀ r j, r < rows → j < 64 → memGet (e.tile n).store (a1.toNat + 64 * r + j) =
      (routeRecord (param.toNat / 128 + 1) (param.toNat.testBit 6)
        (if param.toNat.testBit 5 then some (s.dev.tsWords n a2.toNat (128 * eb)) else none)
        (s.dev.tsWords n (a0.toNat + 4 * (128 * eb) * r) (128 * eb))).1.getD j 0) ∧
    (∀ x, x < a1.toNat ∨ a1.toNat + 64 * rows ≤ x → memGet (e.tile n).store x = memGet (s.dev.tile n).store x) ∧
    e.tile n = { s.dev.tile n with store := (e.tile n).store } ∧ s.dev.onlyTile e n ∧ e.out = s.dev.out) ∧
  (∀ (s : State) (p : Issue) (n : Fin 32) (a0 a1 a2 : BitVec 26) (count : BitVec 16) (param : BitVec 10),
  s.dev.frozen = false → p.tile = n → s.dev.issues n 4 = true → xcombineBad a2.toNat count.toNat param.toNat = false →
  count.toNat = 2 + param.toNat % 128 → s.dev.ddBad n a0.toNat = false →
  let f := s.dev.ddF n a0.toNat
  let h := 128 * (param.toNat % 128 + 1)
  let st := s.dev.tsLe n (f 0x1C 4) 1
  let ch := s.dev.choices n (s.dev.recordOf n (f 0x20 4) a1.toNat).2 (f 1 1)
  let hd (j : Nat) : XHdr := xhdrOf (s.dev.tsRead n (f 0x24 4 + j * f 0x28 4) 64)
  let good (x : Nat × Choice) : Bool := (hd x.1).tag == s.dev.tag n && (hd x.1).srow == 0 && (hd x.1).targets.head?.any fun t => t.2.2 == x.1
  ∃ e : Dev, exec (.xcombine p a0 a1 a2 count param) s = .next (s.put e) ∧ s.dev.onlyTile e n ∧ e.out = s.dev.out ∧
    e.tile n = { s.dev.tile n with store := (e.tile n).store } ∧
    (st.testBit 0 = true ∨ st.testBit 1 = true ∨ st.testBit 2 = true → e.tile n = s.dev.tile n) ∧
    (st % 8 = 0 → ch.all good = false → f 0x1C 4 + 3 < tsBytes →
      (e.tsLe n (f 0x1C 4) 1).testBit 2 = true ∧ e.tsLe n (f 0x1C 4 + 2) 1 = f 0 1 ∧ e.regBit (XPT_EVENT n) 2 = true) ∧
    (st % 8 = 0 → ch.all good = true → (ch.any fun x => (hd x.1).kind == 3) = true → f 0x1C 4 + 3 < tsBytes →
      (e.tsLe n (f 0x1C 4) 1).testBit 1 = true ∧ e.getN (XPT_DEFER_COUNT n) = min (s.dev.getN (XPT_DEFER_COUNT n) + 1) 0xFFFFFFFF) ∧
    (st % 8 = 0 → ch.all good = true → (ch.any fun x => (hd x.1).kind == 3) = false →
      (∀ j, j < h → e.tsLe n (a2.toNat + 4 * j) 4 = (combineAcc (BitVec.ofNat 32 (s.dev.tsLe n (a2.toNat + 4 * j) 4))
        (ch.map fun x => (x.2.weight, ofBf16 (BitVec.ofNat 16 (s.dev.tsLe n (f 0x24 4 + x.1 * f 0x28 4 + 64 + 2 * j) 2))))).toNat) ∧
      ∀ x, x < a2.toNat ∨ a2.toNat + 4 * h ≤ x → memGet (e.tile n).store x = memGet (s.dev.tile n).store x))

/-- R268, R270 to R272, R274: forward dispatches with a good descriptor. One row that no flag holds back sends one message to each chosen
expert's tile (eager), or one to each package that holds a chosen expert (coalesced), counted in XPT_FWD_COUNT; rows with a flag send
none. Either way the dispatch has ended on the tile. A descriptor that is not good sets XPT_EVENT bit 3 and sends nothing.

R283: XDISPATCH, RETURN answers the held rows of its range, each counted in XPT_RET_COUNT and no message for a slot that holds none; the range
that takes in the last slot closes the intake's return. -/
def Obligations.Dispatches : Prop :=
  (∀ (s : State) (p : Issue) (n : Fin 32) (a0 a1 a2 : BitVec 26) (param : BitVec 8) (count : BitVec 16)
    (i : Instr) (co : Bool), s.dev.frozen = false → p.tile = n → s.dev.issues n 4 = true →
  forwardBad a0.toNat a2.toNat count.toNat param.toNat = false → count.toNat = 1 + param.toNat % 128 →
  (i = .xdispatchForwardEager p a0 a1 a2 count param ∧ co = false) ∨ (i = .xdispatchForwardCoalesced p a0 a1 a2 count param ∧ co = true) →
  let f := s.dev.ddF n a0.toNat
  let st := s.dev.tsLe n (f 0x1C 4) 4
  let ch := s.dev.choices n (s.dev.recordOf n (f 0x20 4) a1.toNat).2 (f 1 1)
  let pk (x : Nat × Choice) := smGet (fun _ => 0) (s.dev.router n).place (f 0x2C 4 + x.2.expert) % 2 ^ 17
  ∃ e : Dev, exec i s = .next (s.put e) ∧
    (e.router n).runs = (s.dev.router n).runs.filter (fun y => y.disp != f 0 1) ++
      [⟨f 0 1, f 2 2 % 4096, f 4 2 % 4096, true, false, false⟩] ∧
    (s.dev.ddBad n a0.toNat = true → e.regBit (XPT_EVENT n) 3 = true ∧ e.out = s.dev.out ∧ e.fab = s.dev.fab) ∧
    (s.dev.ddBad n a0.toNat = false → st.testBit 0 = true ∨ st.testBit 1 = true →
      e.getN (XPT_FWD_COUNT n) = s.dev.getN (XPT_FWD_COUNT n) ∧ e.out = s.dev.out ∧ e.fab = s.dev.fab) ∧
    (s.dev.ddBad n a0.toNat = false → st.testBit 0 = false → st.testBit 1 = false →
      e.getN (XPT_FWD_COUNT n) = min (s.dev.getN (XPT_FWD_COUNT n) + (if co then (ch.map pk).dedup.length else ch.length)) 0xFFFFFFFF) ∧
    (e.tile n).store = (s.dev.tile n).store ∧ (e.tile n).dram = (s.dev.tile n).dram) ∧
  (∀ (s : State) (p : Issue) (n : Fin 32) (a0 a1 a2 : BitVec 26) (count : BitVec 16) (param : BitVec 8),
  s.dev.frozen = false → p.tile = n → s.dev.issues n 4 = true →
  returnBad a0.toNat a1.toNat a2.toNat count.toNat param.toNat = false →
  let k := Fin.ofNat 64 a2.toNat
  let s0 := a2.toNat / 4096
  let rows := count.toNat / (param.toNat % 128)
  let x := s.dev.intake n k
  let last := x.rows * (1 + (s.dev.seq n).trips[Fin.ofNat 64 x.slot]) - 1
  ∃ e : Dev, exec (.xdispatchReturn p a0 a1 a2 count param) s = .next (s.put e) ∧
    e.getN (XPT_RET_COUNT n) = min (s.dev.getN (XPT_RET_COUNT n) + (min (s0 + rows) x.held.length - s0)) 0xFFFFFFFF ∧
    (e.intake n k).retClosed = (x.retClosed || decide (s0 ≤ last ∧ last < s0 + rows)) ∧ (e.intake n k).held = x.held ∧
    (∀ j, j ≠ k → e.intake n j = s.dev.intake n j) ∧ (e.tile n).store = (s.dev.tile n).store ∧ (e.tile n).dram = (s.dev.tile n).dram)

/-- R274, R275, R277, R278, R283, R289: router messages that arrive at a tile. One of another epoch or pass is counted stale and acknowledged; one of
the next pass is withheld. A FORWARD of the running pass for an open intake of its dispatch takes the next free slot, with its row on the
way to its place, and is acknowledged; at a full intake a row that does not rank ahead of the worst is refused, counted, with the held rows as
they were. A COALESCED message whose one target is here is taken like a FORWARD. A RETURN and a DEFER go whole to their return slot.

R279, R280: the barriers of a dispatch, on a package whose group has one tile and one member. The done report of the tile sends END, forward
when its forward side is quiet, return when every intake of the dispatch has returned. The END of the member orders the intakes closed, or
counts TOKEN_R. An intake that holds every slot is closed and TOKEN_F counts; one with free slots is closed, filled with zeros, and TOKEN_F waits
for them. -/
def Obligations.DispatchReception : Prop :=
  (∀ (s : State) (n : Fin 32) (m : Dmsg) (c : Instr), s.dev.frozen = false → m.op = 6 →
  m.src.pkg = s.dev.self →
  let h := xhdrOf m.data
  let ack (e : Dev) : Prop := s.dev.launched e (.tile n) .resp fun r => r.op = 9 ∧ r.err = 0 ∧ r.txn = m.txn ∧ r.dst = m.src
  (c = .forwardArrival n m ∧ h.kind = 0) ∨ (c = .coalescedArrival n m ∧ h.kind = 1) ∨ (c = .returnArrival n m ∧ (h.kind = 2 ∨ h.kind = 3)) →
  (s.dev.tagAgeAt n h = .stale → ∃ e : Dev, exec c s = .next (s.put e) ∧ ack e ∧
    e.getN (XPT_STALE_COUNT n) = min (s.dev.getN (XPT_STALE_COUNT n) + 1) 0xFFFFFFFF ∧ e.regBit (XPT_EVENT n) 0 = true ∧
    e.tiles = s.dev.tiles) ∧
  (s.dev.tagAgeAt n h = .next → exec c s = .next (s.put (s.dev.onRouter n fun r => { r with early := r.early ++ [m] }))) ∧
  (s.dev.tagAgeAt n h = .current → h.kind = 0 → ∀ t, h.targets = [t] →
    let j := Fin.ofNat 64 t.2.1
    let x := s.dev.intake n j
    x.on = true → x.disp = h.disp → x.closed = false → x.seen.contains (h.src, h.srow) = false →
    (x.held.length < x.cap → ∃ e : Dev, exec c s = .next (s.put e) ∧ ack e ∧
      (e.intake n j).held = x.held ++ [{ m with data := m.data.take 64 }] ∧ (e.intake n j).seen = x.seen ++ [(h.src, h.srow)] ∧
      (e.tile n).elastic = ((s.dev.placeRow n j m x.held.length).tile n).elastic ∧
      e.getN (XPT_INTAKE_DEMAND n j) = min (s.dev.getN (XPT_INTAKE_DEMAND n j) + 1) 0xFFFFFFFF ∧
      (∀ i, i ≠ j → e.intake n i = s.dev.intake n i) ∧ (e.tile n).store = (s.dev.tile n).store ∧ s.dev.onlyTile e n) ∧
    (∀ w, x.cap ≤ x.held.length → x.held[worstSlot x.held]? = some w → ranksAhead h (xhdrOf w.data) = false →
      ∃ e : Dev, exec c s = .next (s.put e) ∧ (e.intake n j).held = x.held ∧
        e.getN (XPT_REFUSE_COUNT n) = min (s.dev.getN (XPT_REFUSE_COUNT n) + 1) 0xFFFFFFFF ∧
        (e.tile n).elastic = (s.dev.tile n).elastic ∧ (e.tile n).store = (s.dev.tile n).store ∧ s.dev.onlyTile e n)) ∧
  (s.dev.tagAgeAt n h = .current → h.kind = 1 → ∀ t, h.targets = [t] → t.1 = n.val → s.dev.source (some n) = Source.reset →
    let j := Fin.ofNat 64 t.2.1
    let x := s.dev.intake n j
    x.on = true → x.disp = h.disp → x.closed = false → x.seen.contains (h.src, h.srow) = false → x.held.length < x.cap →
    ∃ e : Dev, exec c s = .next (s.put e) ∧ ack e ∧ (e.intake n j).held.length = x.held.length + 1 ∧ s.dev.onlyTile e n ∧
      (e.tile n).store = (s.dev.tile n).store) ∧
  (s.dev.tagAgeAt n h = .current → h.kind = 2 ∨ h.kind = 3 → ∀ t, h.targets = [t] → h.retAddr + t.2.2 * h.rslot + m.data.length ≤ tsBytes →
    ∃ e : Dev, exec c s = .next (s.put e) ∧ ack e ∧
      (e.tile n).elastic = ((s.dev.elasticPut n (dispOwner h.disp) (h.retAddr + t.2.2 * h.rslot) m.data).tile n).elastic ∧
      e.regs = s.dev.regs ∧ s.dev.onlyTile e n ∧ (e.tile n).store = (s.dev.tile n).store)) ∧
  (∀ (s : State) (n : Fin 32) (g : Fin 4) (disp : BitVec 8) (tok : BitVec 12) (epoch seq : BitVec 16)
    (pkg : BitVec 17) (cyc : Nat) (r : DispRun) (j : Fin 64), s.dev.frozen = false →
  let D := disp.toNat
  let x := s.dev.intake n j
  s.dev.groupOf n = some g → s.dev.groupTiles g = [n] → (s.dev.group g).barriers = [] → (s.dev.group g).memberList = [pkg.toNat] →
  s.dev.dispIntakes n D = [j] →
  ((s.dev.router n).runs = [r] → r.disp = D → r.ended = true →
    (r.fwdDone = false → s.dev.dispLive n D [0, 1] = false →
      ∃ e : Dev, exec (.forwardDone n disp) s = .next (s.put e) ∧ (e.router n).runs = [{ r with fwdDone := true }] ∧
        e.out = s.dev.out ++ [.mgmt pkg.toNat "END" [g, 0, D, r.tokF, s.dev.groupEpoch g, s.dev.passSeq n]] ∧
        (∃ b, e.barrier g false D (s.dev.passSeq n) = some b ∧ b.tiles = [n.val] ∧ b.sent = true) ∧ e.regs = s.dev.regs ∧ s.dev.onlyTile e n) ∧
    (r.retDone = false → s.dev.dispLive n D [2, 3] = false → x.retClosed = true →
      ∃ e : Dev, exec (.returnDone n disp) s = .next (s.put e) ∧ (e.router n).runs = [{ r with retDone := true }] ∧
        e.out = s.dev.out ++ [.mgmt pkg.toNat "END" [g, 1, D, r.tokR, s.dev.groupEpoch g, s.dev.passSeq n]] ∧ e.regs = s.dev.regs ∧
        s.dev.onlyTile e n) ∧
    (x.retClosed = false → exec (.returnDone n disp) s = .next s)) ∧
  (tagAge (s.dev.groupEpoch g) (s.dev.groupSeq g) epoch.toNat seq.toNat = .current →
    (∃ e : Dev, exec (.barrierEnd g false disp tok epoch seq pkg cyc) s = .next (s.put e) ∧
      (e.router n).closes = (s.dev.router n).closes ++ [(D, tok.toNat)] ∧ e.out = s.dev.out ++ [.signal "CLOSE" [n, D]] ∧
      (e.group g).barriers = [] ∧ e.regs = s.dev.regs ∧ s.dev.onlyTile e n) ∧
    (s.dev.tokCur n tok.toNat < 255 → ∃ e : Dev, exec (.barrierEnd g true disp tok epoch seq pkg cyc) s = .next (s.put e) ∧
      e.tokCur n tok.toNat = s.dev.tokCur n tok.toNat + 1 ∧ (∀ t, t ≠ tok.toNat → e.tokCur n t = s.dev.tokCur n t) ∧
      (e.group g).barriers = [] ∧ e.out = s.dev.out ∧ s.dev.onlyTile e n)) ∧
  (tagAge (s.dev.groupEpoch g) (s.dev.groupSeq g) epoch.toNat seq.toNat = .stale →
    exec (.barrierEnd g false disp tok epoch seq pkg cyc) s = .next s) ∧
  ((s.dev.router n).closes = [(D, tok.toNat)] → x.closed = false → (s.dev.tile n).elastic = [] → s.dev.tokCur n tok.toNat < 255 →
    (x.cap ≤ x.held.length → ∃ e : Dev, exec (.intakeClose n disp cyc) s = .next (s.put e) ∧ (e.intake n j).closed = true ∧
      (e.intake n j).held = x.held ∧ (e.router n).closes = [] ∧ e.tokCur n tok.toNat = s.dev.tokCur n tok.toNat + 1 ∧
      (e.tile n).elastic = [] ∧ s.dev.onlyTile e n ∧ e.out = s.dev.out) ∧
    (x.held.length < x.cap → 0 < x.slotBytes → ∃ e : Dev, exec (.intakeClose n disp cyc) s = .next (s.put e) ∧
      (e.intake n j).closed = true ∧ (e.router n).closes = [(D, tok.toNat)] ∧ e.tokCur n tok.toNat = s.dev.tokCur n tok.toNat ∧
      (e.tile n).elastic ≠ [] ∧ (∀ a ∈ (e.tile n).elastic, ∀ b ∈ a.data, b = 0) ∧ (e.tile n).store = (s.dev.tile n).store ∧
      s.dev.onlyTile e n ∧ e.out = s.dev.out)))

/-- R192, R193: WPACK then WUNPACK lose nothing. The header and the slots that packing gives a page of 32 KiB unpack to that page with
RESULT 0, and RESULT is 2 for a header that does not say that a page is packed. -/
def Obligations.PackRoundTrip : Prop := ∀ page : List Byte, page.length = 32768 →
  unpackPage (packHeader page 1) ((pageChunks page).map fun c => padTo 1024 (packChunk c).2) = (page, 0) ∧
  ∀ (h : List Byte) (slots : List (List Byte)), hdrFlag h 0 = false → unpackPage h slots = (List.replicate 32768 0, 2)

/-- R193: WPACK of one page stores its header and its chunks' payloads, each in a slot of 1,024 bytes, and WUNPACK of one stores the page that header and
slots give and RESULT in the header; no other byte of tile store changes.

R65, R217, R218: WCONVERT of one dense panel whose source and image overlap neither each other's record nor it: the image of its source panel
stands at its address, the tensor's record is touched, and no other byte of tile store changes. -/
def Obligations.WringerCommands : Prop :=
  (∀ (s : State) (p : Issue) (n : Fin 32) (a0 a1 a2 : BitVec 26), s.dev.frozen = false → p.tile = n →
  s.dev.issues n 4 = true →
  (packBad a0.toNat a1.toNat a2.toNat 1 0 = false → a1.toNat + 32768 ≤ a2.toNat ∨ a2.toNat + 384 ≤ a1.toNat →
    ∃ e : Dev, exec (.wpack p a0 a1 a2 1 0) s = .next (s.put e) ∧
      e.tsRead n a2.toNat 384 = packHeader (s.dev.tsRead n a0.toNat 32768) 1 ∧
      e.tsRead n a1.toNat 32768 =
        ((pageChunks (s.dev.tsRead n a0.toNat 32768)).flatMap fun c => padTo 1024 (packChunk c).2) ∧
      (∀ x, x < a1.toNat ∨ a1.toNat + 32768 ≤ x → x < a2.toNat ∨ a2.toNat + 384 ≤ x →
        memGet (e.tile n).store x = memGet (s.dev.tile n).store x) ∧
      e.tile n = { s.dev.tile n with store := (e.tile n).store } ∧ s.dev.onlyTile e n) ∧
  (packBad a0.toNat a2.toNat a1.toNat 1 0 = false → a2.toNat + 32768 ≤ a1.toNat ∨ a1.toNat + 384 ≤ a2.toNat →
    let r := unpackPage (s.dev.tsRead n a1.toNat 384) ((List.range 32).map fun j => s.dev.tsRead n (a0.toNat + 1024 * j) 1024)
    ∃ e : Dev, exec (.wunpack p a0 a1 a2 1 0) s = .next (s.put e) ∧ e.tsRead n a2.toNat 32768 = r.1 ∧
      e.tsLe n (a1.toNat + 0x14C) 1 = r.2 % 256 ∧
      (∀ x, x < a2.toNat ∨ a2.toNat + 32768 ≤ x → x ≠ a1.toNat + 0x14C →
        memGet (e.tile n).store x = memGet (s.dev.tile n).store x) ∧
      e.tile n = { s.dev.tile n with store := (e.tile n).store } ∧ s.dev.onlyTile e n)) ∧
  (∀ (s : State) (p : Issue) (n : Fin 32) (a0 a1 a2 : BitVec 26) (count : BitVec 16) (param : BitVec 10) (f : NFmt),
  s.dev.frozen = false → p.tile = n → s.dev.issues n 4 = true →
  wconvertBad a0.toNat a1.toNat a2.toNat count.toNat param.toNat = false → wcDst param.toNat = some f → wcNs param.toNat = 32 →
  let x := wcShape (wcSrc param.toNat) f 32 count.toNat
  let r := s.dev.statAt n a2.toNat
  let len := srcBytes (wcSrc param.toNat) (denseK f 32)
  x.2.2 = 1 → r + 32 ≤ a0.toNat ∨ a0.toNat + len ≤ r → r + 32 ≤ a1.toNat ∨ a1.toNat + panelBytes f 32 ≤ r →
  ∃ e : Dev, exec (.wconvert p a0 a1 a2 count param) s = .next (s.put e) ∧
    e.tsRead n a1.toNat (panelBytes f 32) = (wringPanel s.dev.free ⟨wcSrc param.toNat, f, 32, a2.toNat, tscaleUsed (s.dev.tscale n a2.toNat),
      none, s.dev.zeroLimit n⟩ (s.dev.tsRead n a0.toNat len)).1 ∧
    e.statFlag n a2.toNat 0 = true ∧
    (∀ y, y < a1.toNat ∨ a1.toNat + panelBytes f 32 ≤ y → y < r ∨ r + 32 ≤ y →
      memGet (e.tile n).store y = memGet (s.dev.tile n).store y) ∧
    (e.tile n).dram = (s.dev.tile n).dram ∧ (e.tile n).vreg = (s.dev.tile n).vreg ∧ (e.tile n).mangle = (s.dev.tile n).mangle ∧
    s.dev.onlyTile e n ∧ e.out = s.dev.out)

/-- R93, R213: every image that the Wringer writes, of an allowed format, a 12-bit tensor ID and a valid tensor scale, passes the Mangles'
header check. -/
def Obligations.ImagesPassHeaderCheck : Prop := ∀ (k : Nat) (w : WringJob) (l : List Byte), sparseOk w.dst w.ns = true → w.tid < 4096 →
  tscaleValid w.st = true → headerCause (wringPanel k w l).1 = none

/-- R65, R99, R110, R127, R129, R141: a pass starts on a released tile. Its number advances modulo 2^16, the sequencer latches the trip counts and
the fallback map, the next token bank becomes the current one and the next is empty, the quantiser's trouble state is clear; a half whose
header fails the check is schedule fault 0x10, otherwise the pass runs.

R66, R77, R78: votes. A due vote record is written into tile store in the layout of R77 and then sent: the hub holds what the record in tile
store spells. With a vote of every in-service tile of a running group the package's vote is their union and maximum, and goes to the lead. -/
def Obligations.PassAndVotes : Prop :=
  (∀ (s : State) (n : Fin 32) (r : Release), s.dev.frozen = false → (s.dev.seq n).released = some r →
  s.dev.running n = false → s.dev.rwb = [] → (s.dev.router n).early = [] →
  let half := if r.fallback then 0x400000 else 0
  ∃ e : Dev, exec (.passStart n) s = .next (s.put e) ∧ e.passSeq n = (s.dev.passSeq n + 1) % 65536 ∧
    e.flag (TCTL_PASS_STATUS_RERUN n) = r.rerun ∧ e.flag (TCTL_PASS_STATUS_FB_HALF n) = r.fallback ∧ (e.seq n).released = none ∧
    (∀ k : Fin 64, (e.seq n).trips[k] = s.dev.getF (TCTL_TRIP_TRIP n k)) ∧ (e.seq n).fbMap = s.dev.fbMapWord n ∧
    (∀ t, e.tokCur n t = s.dev.tokNext n t ∧ e.tokNext n t = 0) ∧ (e.tile n).troubled = [] ∧ (e.delud n).sendBytes = 0 ∧
    e.flag (QNT_STEP_STATUS_TROUBLE n) = false ∧ (e.tile n).dram = (s.dev.tile n).dram ∧ s.dev.onlyTile e n ∧
    (s.dev.headerBad n half = true → e.getF (TCTL_PASS_STATUS_STATE n) = 2 ∧ e.getF (TCTL_SFAULT_INFO_CAUSE n) = 0x10) ∧
    (s.dev.headerBad n half = false → (s.dev.seq n).nextOver = [] → (∃ st, st < 5 ∧ s.dev.streamLen n half st ≠ 0) → e.running n = true)) ∧
  (∀ (s : State) (n : Fin 32) (g : Fin 4) (now : Nat), s.dev.frozen = false →
  ((s.dev.tile n).voteDue = true →
    ∃ e : Dev, exec (.voteRecordWrite n) s = .next (s.put e) ∧
      e.tsRead n (s.dev.getN (QNT_VOTE_BASE n)) 16960 =
        voteBytes (((s.dev.groupOf n).map fun g => s.dev.gstep g).getD 0) (s.dev.getF (QNT_STEP_STATUS_PASS n)) n 0 (s.dev.tileVote n) ∧
      (e.tile n).voteDue = false ∧ (e.tile n).voteReady = true ∧
      (∀ x, x < s.dev.getN (QNT_VOTE_BASE n) ∨ s.dev.getN (QNT_VOTE_BASE n) + 16960 ≤ x →
        memGet (e.tile n).store x = memGet (s.dev.tile n).store x) ∧ s.dev.onlyTile e n ∧ e = { s.dev with tiles := e.tiles }) ∧
  ((s.dev.tile n).voteReady = true → s.dev.groupOf n = some g → s.dev.gstate g = 2 →
    ∃ e : Dev, exec (.voteRecordSend n) s = .next (s.put e) ∧ (e.tile n).voteReady = false ∧
      (e.group g).votes = (s.dev.group g).votes ++ [(n.val, voteOfBytes (s.dev.tsRead n (s.dev.getN (QNT_VOTE_BASE n)) 16960))] ∧
      (e.tile n).store = (s.dev.tile n).store ∧ (∀ k, k ≠ g → e.group k = s.dev.group k) ∧ s.dev.onlyTile e n ∧ e.regs = s.dev.regs) ∧
  (s.dev.gstate g = 2 → (s.dev.group g).pkgVote = none → (s.dev.group g).votes ≠ [] → (s.dev.group g).abortAt = none →
    (∀ m ∈ s.dev.groupTiles g, ∃ v, (m.val, v) ∈ (s.dev.group g).votes) →
    ∃ (e : Dev) (l : List Nat), exec (.packageVote g now) s = .next (s.put e) ∧
      (e.group g).pkgVote = some (voteJoin s.dev.self ((s.dev.group g).votes.map Prod.snd)) ∧ (e.group g).voteAt = max s.dev.now now ∧
      (s.dev.isLead g = false → (e.group g).waitFrom = some (max s.dev.now now)) ∧
      e.out = s.dev.out ++ [.mgmt (s.dev.group g).leadPkg "PACKAGE_VOTE" l] ∧ e.tiles = s.dev.tiles ∧ e.regs = s.dev.regs))

/-- R73, R78, R79, R83: the lead decides with the votes of every member: trouble in pass 0 or 1 orders the next replay, counted, anything else
accepts the pass; the record goes to every member. A member holds the decision, shows an accepted pass, and tells its tiles; the tiles
then prepare the replay and are released for it, in the fallback half for pass 2. A vote that stays away past the timeout stops the group.

R154, R155, R320: the schedule rerun. The lead's hub counts the first fault of a step and sends every member an abort order; one of a step that was
rerun halts the group. An abort order stops issue on every tile of the group; when the last package has reported ready the lead releases the
rerun, and every tile restores its step state and is released for the same pass. A package that does not report in time stops the group. -/
def Obligations.StepDecisions : Prop :=
  (∀ (s : State) (g : Fin 4) (now : Nat) (vs : List Vote) (v : Vote) (k : Fin 3) (miss : List Nat),
  s.dev.frozen = false →
  (∀ own, (s.dev.group g).pkgVote = some own → s.dev.leadsRunning g = true →
    (∀ p ∈ s.dev.followers g, ∃ x ∈ vs, x.pkg = p) →
    let u := voteJoin s.dev.self (own :: vs)
    let c := if u.trouble = true ∧ (s.dev.group g).pass < 2 then (s.dev.group g).pass + 1 else 0
    ∃ (e : Dev) (l : List Nat), exec (.voteDecision g vs now) s = .next (s.put e) ∧ (e.group g).pkgVote = none ∧
      e.out = s.dev.out ++ (s.dev.group g).memberList.map (fun p => .mgmt p "DECISION_RECORD" l) ∧ l.take 2 = [g.val, c] ∧
      (c = 1 → e.getN HUB_REPLAY1_COUNT = min (s.dev.getN HUB_REPLAY1_COUNT + 1) 0xFFFFFFFF) ∧
      (c = 2 → e.getN HUB_REPLAY2_COUNT = min (s.dev.getN HUB_REPLAY2_COUNT + 1) 0xFFFFFFFF) ∧ (c = 0 → e.regs = s.dev.regs) ∧
      e.tiles = s.dev.tiles) ∧
  (s.dev.gstate g = 2 →
    ∃ e : Dev, exec (.decisionRecord g k v now) s = .next (s.put e) ∧ (e.group g).decision = some (k.val, v) ∧ (e.group g).votes = [] ∧
      (e.group g).pkgVote = none ∧ (k = 0 → e.getF HUB_VOTE_STAT_ACCEPTED_PASS = (s.dev.group g).pass % 4) ∧
      s.dev.keepsRegs e [HUB_VOTE_STAT] ∧ e.out = s.dev.out ++ (s.dev.groupTiles g).map (fun n => .signal "DECISION" [n.val, k.val]) ∧
      e.tiles = s.dev.tiles) ∧
  (s.dev.gstate g = 2 → (s.dev.group g).decision = some (k.val, v) → k ≠ 0 → (∀ t ∈ v.map, t < 4096) →
    (∀ n ∈ s.dev.groupTiles g, (s.dev.tile n).saved.trips.length ≤ 64) →
    ∃ e : Dev, exec (.passPrepare g []) s = .next (s.put e) ∧ (e.group g).pass = k.val ∧ (e.group g).decision = none ∧
      (∀ n ∈ s.dev.groupTiles g, (e.seq n).released = some ⟨k == 2, false⟩ ∧ e.getF (QNT_STEP_STATUS_PASS n) = k.val ∧
        (∀ t, t < 4096 → e.regBit (MGL_FB_MAP n (t / 32)) (t % 32) = decide (k = 2 ∧ t ∈ v.map)) ∧
        e.getR (QNT_LFSR_STATE n) = (s.dev.tile n).saved.lfsr ∧ (e.tile n).dram = (s.dev.tile n).dram) ∧
      (∀ n, n ∉ s.dev.groupTiles g → e.tile n = s.dev.tile n) ∧ e.out = s.dev.out) ∧
  (s.dev.leadsRunning g = true → (s.dev.group g).pkgVote.isSome = true → (s.dev.group g).voteAt + s.dev.voteTimeout ≤ max s.dev.now now →
    (∃ p ∈ miss, p ∈ s.dev.followers g) → s.dev.stopPending g = false →
    ∃ e : Dev, exec (.voteTimeout g miss now) s = .next (s.put e) ∧ e.gstate g = 3 ∧
      (∀ p ∈ s.dev.followers g, ∃ l, .mgmt p "STOP_ORDER" l ∈ e.out) ∧ ∀ q ∈ e.srv.seqs, q.group = g → q.state = 4)) ∧
  (∀ (s : State) (g : Fin 4) (n : Fin 32) (now : Nat) (p : BitVec 17), s.dev.frozen = false →
  (s.dev.leadsRunning g = true → (s.dev.group g).abortAt = none → n ∈ s.dev.groupTiles g → s.dev.getF (TCTL_PASS_STATUS_STATE n) = 2 →
    (s.dev.group g).rerun = false →
    ∃ e : Dev, exec (.sfaultReport g (some n) p now) s = .next (s.put e) ∧
      e.getN HUB_SFAULT_COUNT = min (s.dev.getN HUB_SFAULT_COUNT + 1) 0xFFFFFFFF ∧ s.dev.keepsRegs e [HUB_SFAULT_COUNT] ∧
      (e.group g).rerun = true ∧ (e.group g).abortAt = some (max s.dev.now now) ∧
      e.out = s.dev.out ++ (s.dev.group g).memberList.map (fun q => .mgmt q "ABORT_ORDER" [g.val]) ∧ e.tiles = s.dev.tiles) ∧
  (s.dev.leadsRunning g = true → (s.dev.group g).abortAt = none → n ∈ s.dev.groupTiles g → s.dev.getF (TCTL_PASS_STATUS_STATE n) = 2 →
    (s.dev.group g).rerun = true → s.dev.stopPending g = false →
    ∃ e : Dev, exec (.sfaultReport g (some n) p now) s = .next (s.put e) ∧ e.gstate g = 4 ∧
      e.getN HUB_SHALT_COUNT = min (s.dev.getN HUB_SHALT_COUNT + 1) 0xFFFFFFFF) ∧
  (s.dev.gstate g = 2 →
    ∃ e : Dev, exec (.abortOrder g now) s = .next (s.put e) ∧ (∀ m ∈ s.dev.groupTiles g, e.running m = false) ∧
      (∀ m, m ∉ s.dev.groupTiles g → e.running m = s.dev.running m) ∧ (e.group g).abortAt.isSome = true ∧
      e.out = s.dev.out ++ (s.dev.groupTiles g).map (fun m => .signal "ABORT" [m.val]) ∧ e.tiles = s.dev.tiles) ∧
  (s.dev.gstate g = 2 → (s.dev.group g).abortAt.isSome = true → s.dev.isLead g = true → p.toNat ∉ (s.dev.group g).readyPkgs →
    ∃ e : Dev, exec (.abortReady g none p now) s = .next (s.put e) ∧ (e.group g).readyPkgs = (s.dev.group g).readyPkgs ++ [p.toNat] ∧
      e.out = s.dev.out ++ (if (s.dev.group g).memberList.all (fun q => ((s.dev.group g).readyPkgs ++ [p.toNat]).contains q) then
        (s.dev.group g).memberList.map (fun q => .mgmt q "RERUN_RELEASE" [g.val]) else []) ∧ e.tiles = s.dev.tiles ∧ e.regs = s.dev.regs) ∧
  (s.dev.gstate g = 2 → (s.dev.group g).abortAt.isSome = true → (∀ m ∈ s.dev.groupTiles g, (s.dev.tile m).saved.trips.length ≤ 64) →
    ∃ e : Dev, exec (.rerunRelease g []) s = .next (s.put e) ∧ (e.group g).abortAt = none ∧ (e.group g).rerun = true ∧
      (e.group g).votes = [] ∧ (∀ m ∈ s.dev.groupTiles g, (e.seq m).released = some ⟨(s.dev.group g).pass == 2, true⟩ ∧
        e.getR (QNT_LFSR_STATE m) = (s.dev.tile m).saved.lfsr ∧ (e.tile m).voteDue = false) ∧
      (∀ m, m ∉ s.dev.groupTiles g → e.tile m = s.dev.tile m) ∧ e.out = s.dev.out) ∧
  (s.dev.leadsRunning g = true → (∃ t, (s.dev.group g).abortAt = some t ∧ t + s.dev.voteTimeout ≤ max s.dev.now now) →
    (∃ q ∈ (s.dev.group g).memberList, q ∉ (s.dev.group g).readyPkgs) → s.dev.stopPending g = false →
    ∃ e : Dev, exec (.rerunReadyTimeout g now) s = .next (s.put e) ∧ e.gstate g = 3))

/-- R85, R134: the oldest access that waits for a bank writes its bytes to tile store and leaves the elastic port; with none waiting for the
bank nothing happens.

R121, R367 to R369, R371, R372, R382: responses at a tile with no operation waiting to start. A response that answers no outstanding operation is counted
late and changes nothing else. The last piece of a load's data waits for tile store at its place and frees the number; an earlier piece lands and
the operation stays; an acknowledgement frees the number; an atomic's old value waits to land over its operand; an error is kept with
its code and the home that gave it.

R369, R388: a transaction of a tile that has waited for TXN_TIMEOUT (at least 100 µs) completes with TIMEOUT, and its number stays unused as long again;
then it is free.

R348, R367, R387: the hub sinks a management message and counts it only where a counter selects its event; an operation code that is not defined is counted; a
beacon of the followed port measures the offset, and a timebase behind by more than 1 µs steps forward at once with DLD_EVENT bit 3; with
beacons off nothing but time moves, and with no beacon for 1 ms no port is followed. -/
def Obligations.Transactions : Prop :=
  (∀ (s : State) (n bank : Fin 32) (l r : List Elastic) (x : Elastic), s.dev.frozen = false →
  (s.dev.tile n).elastic = l ++ x :: r → (∀ y ∈ l, y.addr / 128 % 32 ≠ bank.val) →
  (x.addr / 128 % 32 = bank.val →
    ∃ e : Dev, exec (.elasticAccess n bank) s = .next (s.put e) ∧ (e.tile n).elastic = l ++ r ∧
      (e.tile n).store = memPutBytes (s.dev.tile n).store x.addr x.data ∧
      e.tile n = { s.dev.tile n with elastic := l ++ r, store := (e.tile n).store } ∧ s.dev.onlyTile e n ∧ e.out = s.dev.out) ∧
  (r = [] → x.addr / 128 % 32 ≠ bank.val → exec (.elasticAccess n bank) s = .next s)) ∧
  (∀ (s : State) (n : Fin 32) (m : Dmsg) (t : Txn), s.dev.frozen = false →
  (s.dev.delud n).src.queue = [] → (s.dev.delud n).src.holds = [] →
  let src (e : Dev) := (e.delud n).src
  let gone (e : Dev) : Prop := (src e).txns = (src s.dev).txns.filter (fun u => u.num ≠ t.num)
  (s.dev.txnOf (some n) m.txn = none → ∀ i, i = .loadData (some n) m ∨ i = .ack (some n) m ∨ i = .atomicResult (some n) m ∨
      (i = .error (some n) m ∧ s.dev.answersToken n m = false) →
    ∃ e : Dev, exec i s = .next (s.put e) ∧ e.getN DLD_LATE_RESP_COUNT = min (s.dev.getN DLD_LATE_RESP_COUNT + 1) 0xFFFFFFFF ∧
      s.dev.keepsRegs e [DLD_LATE_RESP_COUNT] ∧ e = { s.dev with regs := e.regs }) ∧
  (s.dev.txnOf (some n) m.txn = some t → t.owner = .mover ∨ t.owner = .helper →
    (∀ g a, t.use = .toStore g a → m.data ≠ [] → (a + (m.addr - g)) % 128 + m.data.length ≤ 128 →
      ∃ e : Dev, exec (.loadData (some n) m) s = .next (s.put e) ∧
        (e.tile n).elastic = (s.dev.tile n).elastic ++ [⟨a + (m.addr - g), m.data, t.owner⟩] ∧
        (m.flags.testBit 1 = true ∨ t.left ≤ m.data.length → gone e) ∧
        (m.flags.testBit 1 = false → m.data.length < t.left → (src e).txns.map Txn.num = (src s.dev).txns.map Txn.num) ∧
        (e.tile n).store = (s.dev.tile n).store ∧ s.dev.onlyTile e n ∧ e.regs = s.dev.regs ∧ e.out = s.dev.out) ∧
    (∃ e : Dev, exec (.ack (some n) m) s = .next (s.put e) ∧ gone e ∧ s.dev.onlyTile e n ∧ (e.tile n).store = (s.dev.tile n).store ∧
      (e.tile n).elastic = (s.dev.tile n).elastic ∧ e = { s.dev with tiles := e.tiles }) ∧
    (∀ a k, t.use = .atomic a k → 0 < k → k ≤ m.data.length → a % 128 + k ≤ 128 →
      ∃ e : Dev, exec (.atomicResult (some n) m) s = .next (s.put e) ∧ gone e ∧
        (e.tile n).elastic = (s.dev.tile n).elastic ++ [⟨a, m.data.take k, t.owner⟩] ∧ s.dev.onlyTile e n ∧
        e = { s.dev with tiles := e.tiles }) ∧
    (∃ e : Dev, exec (.error (some n) m) s = .next (s.put e) ∧ gone e ∧
      (src e).errs = (src s.dev).errs ++ [⟨t.owner, m.err, t.msg.dst⟩] ∧ e.regBit DLD_EVENT 2 = true ∧
      e.getN DLD_ERR_RESP_COUNT = min (s.dev.getN DLD_ERR_RESP_COUNT + 1) 0xFFFFFFFF ∧ e.isPending 5 = true ∧
      (e.tile n).store = (s.dev.tile n).store ∧ s.dev.onlyTile e n ∧ e.out = s.dev.out))) ∧
  (∀ (s : State) (n : Fin 32) (k now : Nat) (t : Txn), s.dev.frozen = false →
  (s.dev.delud n).src.queue = [] → (s.dev.delud n).src.holds = [] →
  (s.dev.txnOf (some n) k = some t → t.owner = .mover ∨ t.owner = .helper →
    t.sent + max 100 (s.dev.getF DLD_CTRL_TXN_TIMEOUT) * 1000 ≤ max s.dev.now now →
    ∃ e : Dev, exec (.txnTimeout (some n) k now) s = .next (s.put e) ∧
      (e.delud n).src.txns = (s.dev.delud n).src.txns.filter (fun u => u.num ≠ k) ∧
      (e.delud n).src.errs = (s.dev.delud n).src.errs ++ [⟨t.owner, 8, t.msg.dst⟩] ∧
      (e.delud n).src.quarantine = (s.dev.delud n).src.quarantine ++
        [(k, max s.dev.now now + max 100 (s.dev.getF DLD_CTRL_TXN_TIMEOUT) * 1000)] ∧ s.dev.onlyTile e n ∧ e.out = s.dev.out) ∧
  (∃ e : Dev, exec (.txnQuarantineEnd (some n) k now) s = .next (s.put e) ∧
    (e.delud n).src.quarantine = (s.dev.delud n).src.quarantine.filter (fun q => ¬ (q.1 = k ∧ q.2 ≤ max s.dev.now now)) ∧
    (e.delud n).src.txns = (s.dev.delud n).src.txns ∧ s.dev.onlyTile e n ∧
    e = { s.dev with tiles := e.tiles, now := max s.dev.now now })) ∧
  (∀ (s : State) (m : Dmsg) (p : Fin 16) (time delay now : Nat), s.dev.frozen = false →
  (m.op = 7 → ∃ e : Dev, exec (.mgmt m) s = .next (s.put e) ∧ e = { s.dev with regs := e.regs, ages := e.ages } ∧
    ((∀ c, c < 32 → s.dev.pmcEvent .hub c ≠ 0x11) → e = s.dev)) ∧
  (m.op = 0 ∨ 0x0C < m.op → ∃ e : Dev, exec (.unknownDeludOp m) s = .next (s.put e) ∧
    e.getN DLD_ERR_RESP_COUNT = min (s.dev.getN DLD_ERR_RESP_COUNT + 1) 0xFFFFFFFF ∧ s.dev.keepsRegs e [DLD_ERR_RESP_COUNT] ∧
    e = { s.dev with regs := e.regs }) ∧
  (s.dev.flag DLD_CTRL_BEACON_EN = false → exec (.timeBeacon p time delay now) s = .next (s.put (s.dev.at_ now))) ∧
  (s.dev.flag DLD_CTRL_BEACON_EN = true → s.dev.portActive p = true → s.dev.portPeer p = false →
    (∀ q, q < p → s.dev.portActive q = false) → max s.dev.now now + 1000 < time + delay → time + delay < max s.dev.now now + 2 ^ 32 →
    ∃ e : Dev, exec (.timeBeacon p time delay now) s = .next (s.put e) ∧ e.now = time + delay ∧ e.regBit DLD_EVENT 3 = true ∧
      e.getF DLD_BEACON_PORT_PORT = p ∧ e.flag DLD_BEACON_PORT_VALID = true ∧
      e.getN DLD_TIME_OFFSET = time + delay - max s.dev.now now ∧ e.tiles = s.dev.tiles ∧ e.out = s.dev.out) ∧
  ((∀ q : Fin 16, ∀ t, s.dev.gw.beacons[q] = some t → t + 1000000 < max s.dev.now now) →
    ∃ e : Dev, exec (.beaconTimeout now) s = .next (s.put e) ∧ e.flag DLD_BEACON_PORT_VALID = false ∧
      s.dev.keepsRegs e [DLD_BEACON_PORT] ∧ e = { s.dev with regs := e.regs, now := max s.dev.now now }))

/-- R135, R166 to R168, R171 to R174: the rota while the memory controller runs. A refresh begins a beat; a scrub slot of a walk with nothing wrong and
no repair waiting moves on by one position and counts a completed walk; a pending write-back of a bank that is not being refreshed
stores its line; telemetry and calibration act in their beats. With the memory in self-refresh or off none of them does anything.

R163, R164, R169, R174 (through MEM_EVENT and MEM_UE_ADDR): a scrub slot that finds a line uncorrectable on the die, with no repair waiting,
counts it, sets MEM_EVENT.UE, and names the line with source 2; a line of the write-back that meets a link UE is stored poisoned with
source 4. -/
def Obligations.TileDram : Prop :=
  (∀ (s : State) (n k : Fin 32) (ch : Fin 48) (reps : List (Nat × EccRep)) (temps : List (BitVec 16)),
  s.dev.frozen = false →
  (s.dev.getF (MEM_STATUS_MODE n) < 2 →
    (∃ e : Dev, exec (.refresh n k) s = .next (s.put e) ∧ e.beat n = k.val ∧ e.getF (TCTL_ROTA_PHASE n) = 0 ∧
      e.darner n = { s.dev.darner n with used := [], group := if k = 31 then ((s.dev.darner n).group + 1) % 993 else (s.dev.darner n).group } ∧
      e.tile n = { s.dev.tile n with darner := e.darner n } ∧ s.dev.onlyTile e n ∧ s.dev.keepsRegs e [TCTL_ROTA n]) ∧
    (reps = [] → (s.dev.darner n).repair = [] → s.dev.flag (MEM_CTRL_SCRUB_EN n) = true → (∀ l, s.dev.poisoned n l = false) →
      (∀ c, c < 48 → s.dev.scrubFree n c (s.dev.getF (MEM_SCRUB_POS_POS n) / walkPositions) = true) →
      s.dev.getF (MEM_SCRUB_POS_POS n) < walkEnd →
      ∃ e : Dev, exec (.scrubRead n reps) s = .next (s.put e) ∧ (e.tile n).dram = (s.dev.tile n).dram ∧
        (s.dev.getF (MEM_SCRUB_POS_POS n) + 1 < walkEnd → e.getF (MEM_SCRUB_POS_POS n) = s.dev.getF (MEM_SCRUB_POS_POS n) + 1 ∧
          e.getN (MEM_SCRUB_PASSES n) = s.dev.getN (MEM_SCRUB_PASSES n)) ∧
        (s.dev.getF (MEM_SCRUB_POS_POS n) + 1 = walkEnd → e.getF (MEM_SCRUB_POS_POS n) = 0 ∧ (e.darner n).ce = 0 ∧
          e.getN (MEM_SCRUB_PASSES n) = min (s.dev.getN (MEM_SCRUB_PASSES n) + 1) 0xFFFFFFFF) ∧
        s.dev.onlyTile e n ∧ (e.tile n).store = (s.dev.tile n).store ∧ e.out = s.dev.out) ∧
    (∀ l b r, (s.dev.darner n).wb = (l, b) :: r → lineCh l = ch.val → lineBank l ≠ s.dev.beat n → b.length = 64 →
      ∃ e : Dev, exec (.darnerWriteback n ch false) s = .next (s.put e) ∧ (e.tile n).dram = memPutBytes (s.dev.tile n).dram (64 * l) b ∧
        (∀ w ∈ (e.darner n).wb, w.1 ≠ l) ∧ e.poisoned n l = false ∧ (∀ x, x ≠ l → e.poisoned n x = s.dev.poisoned n x) ∧
        s.dev.onlyTile e n ∧ (e.tile n).store = (s.dev.tile n).store ∧ e.out = s.dev.out) ∧
    (s.dev.beat n % 8 = 0 →
      ∃ e : Dev, exec (.telemetryRead n temps) s = .next (s.put e) ∧
        (∀ j, j < 8 → e.getF (MEM_DIE_TEMP_TEMP n j) = (temps.getD j 0).toNat) ∧
        s.dev.keepsRegs e ((List.range 8).map (MEM_DIE_TEMP n)) ∧ e = { s.dev with regs := e.regs }) ∧
    (s.dev.beat n = 31 → ∀ warn : Bool,
      ∃ e : Dev, exec (.calibrationStep n warn false) s = .next (s.put e) ∧
        e.getF (MEM_STATUS_CAL_STEP n) = (s.dev.getF (MEM_STATUS_CAL_STEP n) + 1) % 2 ^ ((MEM_STATUS_CAL_STEP n).hi + 1 - (MEM_STATUS_CAL_STEP n).lo) ∧
        (warn = true → e.regBit (MEM_EVENT n) 4 = true) ∧ (warn = false → s.dev.keepsRegs e [MEM_STATUS n]) ∧ e.tiles = s.dev.tiles ∧
        e.out = s.dev.out)) ∧
  (2 ≤ s.dev.getF (MEM_STATUS_MODE n) → ∀ i, i = .refresh n k ∨ i = .scrubRead n reps ∨ i = .darnerWriteback n ch false ∨
      i = .telemetryRead n temps ∨ i = .calibrationStep n true true → exec i s = .next s)) ∧
  (∀ (s : State) (n : Fin 32) (ch : Fin 48) (r : EccRep) (c0 : Nat), s.dev.frozen = false →
  s.dev.getF (MEM_STATUS_MODE n) < 2 →
  (∀ l b w, (s.dev.darner n).wb = (l, b) :: w → lineCh l = ch.val → lineBank l ≠ s.dev.beat n → b.length = 64 → l < dramLines →
    ∃ e : Dev, exec (.darnerWriteback n ch true) s = .next (s.put e) ∧ e.poisoned n l = true ∧ e.regBit (MEM_EVENT n) 2 = true ∧
      e.getN (MEM_UE_ADDR_LO n) = 64 * l % 2 ^ 32 ∧ e.getF (MEM_UE_ADDR_HI_SOURCE n) = 4 ∧
      e.getF (MEM_UE_ADDR_HI_OFFSET_HI n) = 64 * l / 2 ^ 32 ∧ e.out = s.dev.out ++ [.signal "UE" [n, l, 4]]) ∧
  ((s.dev.darner n).repair = [] → s.dev.flag (MEM_CTRL_SCRUB_EN n) = true → (∀ l, s.dev.poisoned n l = false) →
    (∀ c, c < 48 → s.dev.scrubFree n c (s.dev.getF (MEM_SCRUB_POS_POS n) / walkPositions) = true) → c0 < 48 → r.dieUe = true → r.linkUe = false →
    let l := lineAt c0 (s.dev.getF (MEM_SCRUB_POS_POS n) / walkPositions) (s.dev.getF (MEM_SCRUB_POS_POS n) % walkPositions)
    l < dramLines → s.dev.skipped n l = false →
    ∃ e : Dev, exec (.scrubRead n [(l, r)]) s = .next (s.put e) ∧ e.getN (MEM_UE_COUNT n) = min (s.dev.getN (MEM_UE_COUNT n) + 1) 0xFFFFFFFF ∧
      e.regBit (MEM_EVENT n) 1 = true ∧ e.getN (MEM_UE_ADDR_LO n) = 64 * l % 2 ^ 32 ∧ e.getF (MEM_UE_ADDR_HI_SOURCE n) = 2 ∧
      e.out = s.dev.out ++ [.signal "UE" [n, l, 2]] ∧ (e.tile n).dram = (s.dev.tile n).dram))

/-- R371, R374, R378, R379: the home line unit. A request-VC access enters the admission buffer. The one buffered access of a unit whose
memory runs: with a wrong key it performs nothing, is counted and is answered ERROR KEY; a load of a held line returns its bytes as the last
piece; a store and an atomic change the held copy, which becomes dirty, and their responses wait for its write-back; an access to a line
that is not held claims a register, whose acquiring read joins the home queue. A dirty line's write-back joins the home queue; a clean line
with no pending access leaves its register.

R371 to R373, R163, R175, R379: the home queue. A bulk load and a bulk store with the right key become a job, with one access for each
line, in address order. The first access of a channel that issues: an acquiring read gives a held line its stored bytes; a
write-back stores the held bytes and sends the response that it carries; the last line of a store is stored and acknowledged. -/
def Obligations.HomeLineUnit : Prop :=
  (∀ (s : State) (n : Fin 32) (m : Dmsg) (line : Nat), s.dev.frozen = false →
  (∀ i o, (i = .loadReq n m false ∧ o = 1) ∨ (i = .store n m ∧ o = 2) ∨ (i = .atomic n m ∧ o = 4) →
    exec i s = .next (s.put (s.dev.onDelud n fun x => { x with adm := x.adm ++ [{ m with op := o }] }))) ∧
  (s.dev.memRuns n = true → (s.dev.delud n).adm = [m] → s.dev.lineBusy n (accLine m) = false → addrBad n m = false → accLines m = 1 →
    m.src.pkg = s.dev.self → m.op = 1 ∨ m.op = 2 ∨ m.op = 4 →
    (s.dev.keyOk n m = false →
      ∃ e : Dev, exec (.homeLineAccess n) s = .next (s.put e) ∧ (e.delud n).adm = [] ∧ (e.delud n).held = (s.dev.delud n).held ∧
        e.getN DLD_KEY_FAULT_COUNT = min (s.dev.getN DLD_KEY_FAULT_COUNT + 1) 0xFFFFFFFF ∧ e.regBit DLD_EVENT 1 = true ∧
        s.dev.launched e (.tile n) .resp (fun r => r.op = 0x0B ∧ r.err = 1 ∧ r.txn = m.txn ∧ r.dst = m.src) ∧
        (e.tile n).dram = (s.dev.tile n).dram ∧ s.dev.onlyTile e n) ∧
    (∀ h b, s.dev.keyOk n m = true → s.dev.heldLine n (accLine m) = some h → h.data = some b → b.length = 64 →
      let off := gaOff m.addr % 64
      (m.op = 1 → 0 < m.rlen → ∃ e : Dev, exec (.homeLineAccess n) s = .next (s.put e) ∧ (e.delud n).adm = [] ∧
        e.heldLine n (accLine m) = some h ∧
        s.dev.launched e (.tile n) .resp (fun r => r.op = 8 ∧ r.flags.testBit 1 = true ∧ r.txn = m.txn ∧ r.dst = m.src ∧ r.addr = m.addr ∧
          r.data = (b.drop off).take m.rlen) ∧ e.regs = s.dev.regs ∧ s.dev.onlyTile e n) ∧
      (m.op = 2 → ∃ (e : Dev) (g : HeldLine), exec (.homeLineAccess n) s = .next (s.put e) ∧ (e.delud n).adm = [] ∧
        e.heldLine n (accLine m) = some g ∧ g.data = some (splice b off m.data) ∧ g.dirty = true ∧
        (∃ r, g.resps = h.resps ++ [r] ∧ r.op = 9 ∧ r.txn = m.txn ∧ r.dst = m.src) ∧ e = { s.dev with tiles := e.tiles } ∧
        (e.tile n).dram = (s.dev.tile n).dram ∧ s.dev.onlyTile e n) ∧
      (m.op = 4 → let size := atomSize m
        let old := leVal ((b.drop off).take size)
        let x := leVal (m.data.take size)
        ∃ (e : Dev) (g : HeldLine) (v : Nat), exec (.homeLineAccess n) s = .next (s.put e) ∧ (e.delud n).adm = [] ∧
        (m.aop % 16 = 0 → v = (old + x) % 256 ^ size) ∧ (m.aop % 16 = 1 → v = min old x) ∧ (m.aop % 16 = 2 → v = max old x) ∧
        (m.aop % 16 = 3 → v = x) ∧ (m.aop % 16 = 4 → v = if old = x then leVal ((m.data.drop size).take size) else old) ∧
        e.heldLine n (accLine m) = some g ∧ g.data = some (splice b off (leBytes size v)) ∧ g.dirty = true ∧
        (∃ r, g.resps = h.resps ++ [r] ∧ r.op = 0x0A ∧ r.txn = m.txn ∧ r.dst = m.src ∧ r.data = leBytes size old) ∧
        e = { s.dev with tiles := e.tiles } ∧ (e.tile n).dram = (s.dev.tile n).dram ∧ s.dev.onlyTile e n)) ∧
    (s.dev.keyOk n m = true → s.dev.heldLine n (accLine m) = none → (s.dev.delud n).held.length < 256 →
      exec (.homeLineAccess n) s = .next (s.put (s.dev.onDelud n fun x =>
        { x with held := x.held ++ [⟨accLine m, none, false, false, []⟩], hq := x.hq ++ [⟨accLine m, .fill⟩] })))) ∧
  (∀ h, s.dev.memRuns n = true → s.dev.heldLine n line = some h → h.dirty = true → h.back = false →
    ∃ e : Dev, exec (.homeLineWriteback n line) s = .next (s.put e) ∧ (e.delud n).hq = (s.dev.delud n).hq ++ [⟨line, .back⟩] ∧
      e.heldLine n line = some { h with back := true } ∧ e = { s.dev with tiles := e.tiles } ∧ s.dev.onlyTile e n) ∧
  (∃ e : Dev, exec (.homeLineIdleRelease n line) s = .next (s.put e) ∧
    (∀ h ∈ (s.dev.delud n).held, h ∈ (e.delud n).held ↔ ¬ (h.line = line ∧ h.data.isSome = true ∧ h.dirty = false ∧ h.back = false ∧
      ∀ a ∈ (s.dev.delud n).adm, accLine a ≠ line)) ∧ e = { s.dev with tiles := e.tiles } ∧ s.dev.onlyTile e n)) ∧
  (∀ (s : State) (n : Fin 32) (m : Dmsg) (ch : Fin 48) (line now : Nat) (t : List HomeAcc),
  s.dev.frozen = false →
  (∀ i o, (i = .loadReq n m true ∧ o = 1 ∧ ∀ h ∈ (s.dev.delud n).held, h.data = none) ∨ (i = .bulkStore n m ∧ o = 3) →
    addrBad n { m with op := o } = false → s.dev.keyOk n { m with op := o } = true → 0 < accLines { m with op := o } →
    ∃ e : Dev, exec i s = .next (s.put e) ∧
      (e.delud n).jobs = (s.dev.delud n).jobs ++ [⟨(s.dev.delud n).nextJob, { m with op := o }, accLines { m with op := o }, [], false⟩] ∧
      (e.delud n).hq = (s.dev.delud n).hq ++ (List.range (accLines { m with op := o })).map (fun k => ⟨accLine m + k,
        if o = 1 then .jobRead (s.dev.delud n).nextJob else .jobWrite (s.dev.delud n).nextJob ((m.data.drop (64 * k)).take 64)⟩) ∧
      e = { s.dev with tiles := e.tiles } ∧ (e.tile n).dram = (s.dev.tile n).dram ∧ s.dev.onlyTile e n) ∧
  (s.dev.memRuns n = true → lineCh line = ch.val → s.dev.poisoned n line = false → s.dev.gw.revoke = none →
    (∀ c, c < pmcSize (.tile n) → s.dev.pmcEvent (.tile n) c = 0) → (s.dev.darner n).wb = [] →
    ((s.dev.delud n).hq = ⟨line, .fill⟩ :: t →
      ∃ e : Dev, exec (.homeQueueIssue n ch cleanRep now) s = .next (s.put e) ∧ (e.delud n).hq = t ∧
        (∀ h, s.dev.heldLine n line = some h → e.heldLine n line = some { h with data := some (s.dev.dramLine n line) }) ∧
        (e.tile n).dram = (s.dev.tile n).dram ∧ s.dev.onlyTile e n ∧ e.out = s.dev.out ∧ e.fab = s.dev.fab) ∧
    (∀ h b r, (s.dev.delud n).hq = ⟨line, .back⟩ :: t → s.dev.heldLine n line = some h → h.data = some b → b.length = 64 →
      h.resps = [r] → r.dst.pkg = s.dev.self →
      ∃ e : Dev, exec (.homeQueueIssue n ch cleanRep now) s = .next (s.put e) ∧ (e.delud n).hq = t ∧
        (e.tile n).dram = memPutBytes (s.dev.tile n).dram (64 * line) b ∧
        e.heldLine n line = some { h with dirty := false, back := false, resps := [] } ∧
        s.dev.launched e (.tile n) .resp (fun x => x.op = r.op ∧ x.txn = r.txn ∧ x.dst = r.dst ∧ x.data = r.data) ∧ s.dev.onlyTile e n) ∧
    (∀ k b j, (s.dev.delud n).hq = ⟨line, .jobWrite k b⟩ :: t → b.length = 64 → (s.dev.delud n).jobs = [j] → j.id = k → j.left = 1 →
      j.ue = false → j.msg.op = 3 → j.msg.src.pkg = s.dev.self →
      ∃ e : Dev, exec (.homeQueueIssue n ch cleanRep now) s = .next (s.put e) ∧ (e.delud n).hq = t ∧ (e.delud n).jobs = [] ∧
        (e.tile n).dram = memPutBytes (s.dev.tile n).dram (64 * line) b ∧
        s.dev.launched e (.tile n) .resp (fun x => x.op = 9 ∧ x.txn = j.msg.txn ∧ x.dst = j.msg.src) ∧ s.dev.onlyTile e n)))

/-- R374 to R376, R388: the key and grant commands of a privileged master, while no revoke waits. INSTALL writes the entry from the data
registers; REVOKE clears VALID and is done at once when nothing of the unit is pending; READ shows the entry. A grant is written and read
in the same way. A master without the privilege changes no key and no grant.

R384, R385: the gateways. An ask for slots that are free is granted whole and at once, and waits otherwise. A waiting message whose slots
have been asked for leaves wrapped, with the inner message whole, and its tile's egress slots are free again; the wrapped request
that arrives is issued by the hub with its own slots released. -/
def Obligations.KeysAndGateways : Prop :=
  (∀ (s : State) (m : Master) (n : Fin 32) (u : BitVec 14) (k : Fin 64), s.dev.frozen = false →
  (s.dev.privileged m = true → s.dev.gw.revoke = none →
    (∃ e : Dev, exec (.keyInstall m n u) s = .next (s.put e) ∧ e.keyEnt n u.toNat = ⟨s.dev.getN DLD_KEY_DATA, s.dev.flag DLD_KEY_PERM_VALID,
        s.dev.flag DLD_KEY_PERM_RD, s.dev.flag DLD_KEY_PERM_WR, s.dev.flag DLD_KEY_PERM_AT⟩ ∧
      (∀ v, v ≠ u.toNat → e.keyEnt n v = s.dev.keyEnt n v) ∧ s.dev.keepsRegs e [DLD_KEY_CMD] ∧ s.dev.onlyTile e n ∧
      e = { s.dev with regs := e.regs, tiles := e.tiles }) ∧
    (∃ e : Dev, exec (.keyTableRevoke m n u) s = .next (s.put e) ∧ e.keyEnt n u.toNat = { s.dev.keyEnt n u.toNat with valid := false } ∧
      (s.dev.unitBusy n u.toNat = false → e.gw.revoke = none ∧ e.getF DLD_KEY_CMD_GO = 0) ∧
      (s.dev.unitBusy n u.toNat = true → e.gw.revoke = some (n, u.toNat) ∧ e.getF DLD_KEY_CMD_GO = 1) ∧
      (∀ v, v ≠ u.toNat → e.keyEnt n v = s.dev.keyEnt n v) ∧ s.dev.keepsRegs e [DLD_KEY_CMD] ∧ s.dev.onlyTile e n ∧ e.out = s.dev.out) ∧
    (∃ e : Dev, exec (.keyRead m n u) s = .next (s.put e) ∧ e.getN DLD_KEY_DATA = (s.dev.keyEnt n u.toNat).key % 2 ^ 32 ∧
      e.flag DLD_KEY_PERM_VALID = (s.dev.keyEnt n u.toNat).valid ∧ e.flag DLD_KEY_PERM_RD = (s.dev.keyEnt n u.toNat).rd ∧
      e.flag DLD_KEY_PERM_WR = (s.dev.keyEnt n u.toNat).wr ∧ e.flag DLD_KEY_PERM_AT = (s.dev.keyEnt n u.toNat).at_ ∧
      s.dev.keepsRegs e [DLD_KEY_CMD, DLD_KEY_DATA, DLD_KEY_PERM] ∧ e = { s.dev with regs := e.regs })) ∧
  (s.dev.privileged m = true →
    (∃ e : Dev, exec (.grantWrite m n k) s = .next (s.put e) ∧ (e.delud n).grants = (s.dev.delud n).grants.set k
        ⟨s.dev.getPair DLD_GRANT_BASE_LO DLD_GRANT_BASE_HI % 2 ^ 36, s.dev.getF DLD_GRANT_UNITS_UNITS, s.dev.getN DLD_GRANT_KEY,
          s.dev.flag DLD_GRANT_UNITS_VALID⟩ ∧
      s.dev.keepsRegs e [DLD_GRANT_CMD] ∧ s.dev.onlyTile e n ∧ e = { s.dev with regs := e.regs, tiles := e.tiles }) ∧
    (∃ e : Dev, exec (.grantRead m n k) s = .next (s.put e) ∧
      (let g := (s.dev.delud n).grants[k]
       e.getPair DLD_GRANT_BASE_LO DLD_GRANT_BASE_HI = g.base % 2 ^ 64 ∧ e.flag DLD_GRANT_UNITS_VALID = g.valid ∧
       e.getF DLD_GRANT_UNITS_UNITS = g.units % 2 ^ (DLD_GRANT_UNITS_UNITS.hi + 1 - DLD_GRANT_UNITS_UNITS.lo) ∧
       e.getN DLD_GRANT_KEY = g.key % 2 ^ 32) ∧
      s.dev.keepsRegs e [DLD_GRANT_CMD, DLD_GRANT_BASE_LO, DLD_GRANT_BASE_HI, DLD_GRANT_UNITS, DLD_GRANT_KEY] ∧
      e = { s.dev with regs := e.regs })) ∧
  (s.dev.privileged m = false → ∀ i, i = .keyInstall m n u ∨ i = .keyTableRevoke m n u ∨ i = .keyRead m n u ∨ i = .grantWrite m n k ∨
      i = .grantRead m n k → ∃ e : Dev, exec i s = .next (s.put e) ∧ e.tiles = s.dev.tiles ∧ e.gw = s.dev.gw)) ∧
  (∀ (s : State) (pkg slots : Nat) (i : GwItem) (m : Dmsg), s.dev.frozen = false →
  (s.dev.gw.asks = [] → slots ≤ s.dev.gw.ingress → exec (.gatewaySlotAsk pkg slots) s = .next (s.put { s.dev with
    gw := { s.dev.gw with ingress := s.dev.gw.ingress - slots }, out := s.dev.out ++ [.mgmt pkg "SLOT_GRANT" [slots]] })) ∧
  (s.dev.gw.asks = [] → s.dev.gw.ingress < slots → exec (.gatewaySlotAsk pkg slots) s = .next (s.put { s.dev with
    gw := { s.dev.gw with asks := [⟨pkg, slots⟩] } })) ∧
  (s.dev.gw.queue = [i] → i.asked = true → i.origin = 32 → s.dev.gw.src.queue = [] → s.dev.entValid (s.dev.entryOf i.msg.dst.pkg) = true →
    s.dev.entLost (s.dev.entryOf i.msg.dst.pkg) = false → i.msg.dst.pkg ≠ s.dev.self →
    s.dev.fenceOf ⟨s.dev.self, 0, true⟩ i.msg.dst.pkg = none →
    ∀ j, s.dev.pathLink ⟨s.dev.self, 0, true⟩ i.msg.dst.pkg = some j →
    ∃ (e : Dev) (x : Transit), exec (.gatewayEgress i.id) s = .next (s.put e) ∧ e.gw.queue = [] ∧
      e.gw.egress = s.dev.gw.egress.set 32 (min 128 (s.dev.gw.egress[32] + gwSlots (48 + i.msg.data.length))) ∧
      e.fab.net = s.dev.fab.net ++ [x] ∧ x.vc = .bulk ∧ x.src = .hub ∧ x.dst = .oe (Fin.ofNat 8 (j / 8)) ∧ x.msg.op = 0x0C ∧
      x.msg.dst = ⟨i.msg.dst.pkg, 0, true⟩ ∧ x.msg.data = msgBytes i.msg ∧ e.tiles = s.dev.tiles ∧ e.out = s.dev.out) ∧
  (∀ r, msgOfBytes m.data = some r → r.op = 2 → r.dst.pkg = s.dev.self → r.dst.hub = false → s.dev.gw.src = Source.reset →
    s.dev.gw.asks = [] → s.dev.gw.queue = [] →
    ∃ (e : Dev) (t : Txn), exec (.gateway m) s = .next (s.put e) ∧
      e.getN DLD_GW_IN_COUNT = min (s.dev.getN DLD_GW_IN_COUNT + 1) 0xFFFFFFFF ∧ e.gw.src.txns = [t] ∧ t.owner = .gateway m r ∧
      t.use = .write ∧ s.dev.launched e .hub .req (fun x => x.op = 2 ∧ x.addr = r.addr ∧ x.key = r.key ∧ x.data = r.data ∧ x.dst = r.dst ∧
        x.src = ⟨s.dev.self, 0, true⟩) ∧
      e.gw.ingress = min 4096 (s.dev.gw.ingress + gwSlots (48 + m.data.length)) ∧ e.tiles = s.dev.tiles))

/-- R176, R187 to R189, R191: the neighbour pool. LEND_START on an idle tile in service gates its compute island and lends its DRAM; a run that is
free is entered for its owner with TOUCH, given its key, and granted; one that cannot be had is refused. A renewal moves TOUCH, a release frees
the run. A low tile sends a notice for its oldest run, and LEND_RECLAIM one for every run; an empty tile leaves the pool at once. A run whose
grace has passed is freed and counted.

R143, R190, R191, R194: tier transfers and fetches. A transfer of a page homed in its tile marks the page MOVING, its word 0 still naming the source, and
asks for its 512 lines; once its reads have come, the bytes for a place in the tile itself wait in the home queue; a transfer whose writes are
done is done, and its page still has its source as its home. A fetch clears VALID of the staging header and remembers the owner's header;
when every read has landed without error the header is written and the token counts in the pass; a read that ended in an error leaves record 6
and counts the token with ERR. -/
def Obligations.TiersAndPool : Prop :=
  (∀ (s : State) (m : Master) (n t : Fin 32) (pkg : BitVec 17) (page first now : Nat) (len : Fin 9)
    (r : PoolRun), s.dev.frozen = false →
  let pool (e : Dev) := (e.tile n).pool
  let now' := max s.dev.now now
  (s.dev.privileged m = true → s.dev.inService n = true → s.dev.groupOf n = none → s.dev.getF (MEM_STATUS_MODE n) = 0 →
    ∃ e : Dev, exec (.lendStart m n) s = .next (s.put e) ∧ e.flag (MEM_LEND_LEND n) = true ∧ e.getF (MEM_STATUS_MODE n) = 1 ∧
      (e.tile n).dram = (s.dev.tile n).dram ∧ (e.tile n).store = Tile.reset.store ∧ pool e = pool s.dev ∧ s.dev.onlyTile e n ∧
      s.dev.keepsRegs e [MEM_LEND n, MEM_STATUS n, MEM_POOL_FREE n] ∧ e.out = s.dev.out) ∧
  (s.dev.lends n = true →
    (s.dev.flag (MEM_LEND_LEND n) = true → s.dev.runFree n first len = true →
      ∃ e : Dev, exec (.runRequest n pkg t page len (some first) now) s = .next (s.put e) ∧
        pool e = pool s.dev ++ [⟨pkg.toNat, t, page, first, len, now', none⟩] ∧
        (let k := e.keyEnt n (first / 512)
         k.key = s.dev.getN DLD_POOL_KEY ∧ k.valid = true ∧ k.rd = true ∧ k.wr = true) ∧
        e.out = s.dev.out ++ [.mgmt pkg.toNat "RUN_GRANT" [t, page, n, first, len]] ∧ (e.tile n).dram = (s.dev.tile n).dram ∧
        s.dev.onlyTile e n ∧ s.dev.keepsRegs e [MEM_POOL_FREE n]) ∧
    (s.dev.flag (MEM_LEND_LEND n) = false →
      exec (.runRequest n pkg t page len none now) s = .next (s.put { s.dev with
        now := now', out := s.dev.out ++ [.mgmt pkg.toNat "RUN_REFUSE" [t, page, n, len]] })) ∧
    (pool s.dev = [r] → r.first = first → r.pkg = pkg.toNat →
      (∃ e : Dev, exec (.runRenewal n pkg first now) s = .next (s.put e) ∧ pool e = [{ r with touch := now' }] ∧ s.dev.onlyTile e n ∧
        e = { s.dev with tiles := e.tiles, now := now' }) ∧
      (s.dev.flag (MEM_LEND_LEND n) = true → ∃ e : Dev, exec (.runRelease n pkg first) s = .next (s.put e) ∧ pool e = [] ∧
        e.getF (MEM_STATUS_MODE n) = 1 ∧ s.dev.keepsRegs e [MEM_POOL_FREE n] ∧ s.dev.onlyTile e n ∧ e.out = s.dev.out) ∧
      (s.dev.flag (MEM_LEND_LEND n) = false → ∃ e : Dev, exec (.runRelease n pkg first) s = .next (s.put e) ∧ pool e = [] ∧
        e.getF (MEM_STATUS_MODE n) = 0 ∧ s.dev.onlyTile e n ∧ e.out = s.dev.out) ∧
      (∀ i, r.notice = none → (i = .evictionNotice n now ∧ s.dev.getN (MEM_POOL_FREE n) < s.dev.getF ⟨MEM_LEND n, 15, 1⟩ * 256) ∨
          (i = .lendReclaim m n now ∧ s.dev.privileged m = true ∧ s.dev.getN (MEM_POOL_FREE n) ≤ granules) →
        ∃ e : Dev, exec i s = .next (s.put e) ∧ pool e = [{ r with notice := some now' }] ∧
          e.getN (MEM_POOL_EVICT_COUNT n) = min (s.dev.getN (MEM_POOL_EVICT_COUNT n) + 1) 0xFFFFFFFF ∧
          e.out = s.dev.out ++ [.mgmt r.pkg "EVICTION_NOTICE" [r.tile, r.page, n, r.first, r.len]] ∧ s.dev.onlyTile e n) ∧
      (∀ u, r.notice = some u → u + s.dev.getF (MEM_LEND_GRACE n) * 1000000 ≤ now' →
        ∃ e : Dev, exec (.evictionGraceExpiry n first now) s = .next (s.put e) ∧ pool e = [] ∧
          e.getN (MEM_POOL_LOST_COUNT n) = min (s.dev.getN (MEM_POOL_LOST_COUNT n) + 1) 0xFFFFFFFF ∧ s.dev.onlyTile e n ∧
          e.out = s.dev.out)) ∧
    (pool s.dev = [] → s.dev.privileged m = true →
      ∃ e : Dev, exec (.lendReclaim m n now) s = .next (s.put e) ∧ e.flag (MEM_LEND_LEND n) = false ∧ e.getF (MEM_STATUS_MODE n) = 0 ∧
        e.getN (MEM_POOL_FREE n) = 0 ∧ e.tiles = s.dev.tiles ∧ e.out = s.dev.out))) ∧
  (∀ (s : State) (n : Fin 32) (q st pg dest id cyc slots hdr : Nat) (tok : BitVec 12) (p : PageEnt)
    (j : TierJob) (f : Fetch), s.dev.frozen = false →
  (s.dev.pageEnt n (q, st, pg) = some p → wTier p.w0 = 2 → wMoving p.w0 = false → wTier dest = 3 ∨ wTier dest = 4 →
    ∃ e : Dev, exec (.tierTransfer n (.page q st pg dest)) s = .next (s.put e) ∧
      e.pageEnt n (q, st, pg) = some { p with w0 := wSetMoving p.w0 } ∧
      (e.tile n).tiers = (s.dev.tile n).tiers ++
        [⟨(s.dev.tile n).nextTier, some (q, st, pg), p.w0, wClearMoving dest, [], false, false, false, false⟩] ∧
      (e.delud n).hq = (s.dev.delud n).hq ++
        (List.range 512).map (fun k => ⟨wOff p.w0 / 64 + k, .read (.job (s.dev.tile n).nextTier)⟩) ∧
      s.dev.keepsRegs e [WRG_STATUS n] ∧ s.dev.onlyTile e n ∧ (e.tile n).dram = (s.dev.tile n).dram ∧ e.out = s.dev.out) ∧
  ((s.dev.tile n).tiers = [j] → j.id = id → j.done = false → j.stopped = false → s.dev.jobIdle n id = true → s.dev.jobErr n id = none →
    (∀ b h, j.writing = false → s.dev.tierOut n j = some (b, h) → s.dev.ownGa n (s.dev.tierGa n j j.dest) = true →
      ∃ e : Dev, exec (.tierTransferDone n id) s = .next (s.put e) ∧ (e.tile n).tiers = [{ j with writing := true, header := h }] ∧
        (e.delud n).hq = (s.dev.delud n).hq ++ (List.range ((b.length + 63) / 64)).map (fun k =>
          ⟨gaOff (s.dev.tierGa n j j.dest) / 64 + k, .land (.job id) ((b.drop (64 * k)).take 64)⟩) ∧
        e = { s.dev with tiles := e.tiles } ∧ s.dev.onlyTile e n) ∧
    (j.writing = true → j.key ≠ none →
      ∃ e : Dev, exec (.tierTransferDone n id) s = .next (s.put e) ∧ (e.tile n).tiers = [{ j with done := true }] ∧
        (e.tile n).pages = (s.dev.tile n).pages ∧ e.getF (WRG_STATUS_TIER n) = 0 ∧ s.dev.keepsRegs e [WRG_STATUS n] ∧
        s.dev.onlyTile e n ∧ e.out = s.dev.out)) ∧
  (s.dev.pageEnt n (q, st, pg) = some p → wTier p.w0 = 3 → 3072 ≤ tok.toNat → tok.toNat < 4032 →
    (s.dev.tile n).lateToks.contains tok.toNat = false → s.dev.running n = true →
    ∃ e : Dev, exec (.tierFetch n tok q st pg slots hdr) s = .next (s.put e) ∧ (e.tsLe n (hdr + 0x149) 1).testBit 0 = false ∧
      (∀ a, a ≠ hdr + 0x149 → memGet (e.tile n).store a = memGet (s.dev.tile n).store a) ∧
      (e.tile n).fetches = (s.dev.tile n).fetches ++
        [⟨(s.dev.tile n).nextTier, tok.toNat, q, s.dev.passSeq n, slots, hdr, wClearMoving p.w0, rawHeader, false⟩] ∧
      s.dev.onlyTile e n ∧ (e.tile n).dram = (s.dev.tile n).dram) ∧
  ((s.dev.tile n).fetches = [f] → f.id = id → f.done = false → s.dev.jobIdle n id = true → s.dev.fetchLate n f = false →
    f.pass = s.dev.passSeq n → s.dev.tokCur n f.tok < 255 → f.tok < 4032 → 3072 ≤ f.tok →
    (s.dev.jobErr n id = none →
      ∃ e : Dev, exec (.tierFetchDone n id cyc) s = .next (s.put e) ∧ (e.tile n).fetches = [{ f with done := true }] ∧
        (e.tile n).store = memPutBytes (s.dev.tile n).store f.hdr f.header ∧ e.tokCur n f.tok = s.dev.tokCur n f.tok + 1 ∧
        (e.tile n).recs = (s.dev.tile n).recs ∧ s.dev.onlyTile e n ∧ e.out = s.dev.out) ∧
    (∀ c, s.dev.jobErr n id = some c → wTier f.home = 3 →
      ∃ e : Dev, exec (.tierFetchDone n id cyc) s = .next (s.put e) ∧ (e.tile n).recs = (s.dev.tile n).recs ++ [(6, f.seq)] ∧
        (e.tile n).store = (s.dev.tile n).store ∧ e.tokCur n f.tok = s.dev.tokCur n f.tok + 1 ∧
        e.regBit (TCTL_TIER_ERR n ((f.tok - 3072) / 32)) (f.tok % 32) = true ∧ e.regBit (TCTL_EVENT n) 2 = true ∧ s.dev.onlyTile e n)))

/-- R198 to R200, R209 to R211: the drives and the chunks of a running load. Link and READY follow the drive, with WTR_EVENT; a drive whose link goes down
while the load needs it fails the load with detail 0x05. A Read that brings a chunk with the right CRC leaves it in the chunk buffer; the
first Read that fails, times out or brings a wrong CRC is counted and issued again, the second fails the load with 0x04 or 0x03. A tile's next
chunk goes to its input buffer while that holds fewer than two.

R205, R209, R213 to R216, R225, R230: the stages of a load. The first chunk of a tile's input buffer is converted or copied: its output
stands at the chunk's place in the unit, and no byte outside the region's unit changes; an output that fails a check fails the
load. A region written whole whose resident CRC is as the manifest says is verified and its CRC kept in the directory; another fails the load
with 0x0C. Once every region is verified, the commit makes the slot READY, with a commit record on each tile and LAST_USE. The report
ends the command with the load's status, or REPORT_DMA.

R198, R219 to R224, R225 (stages 1 to 3), R227 to R229: the commands on slots, given while none is busy. MODEL_LOAD that passes its
checks, with every slot EMPTY, claims the slot and leaves a job with its Reads begun; with a check that fails, it ends with that detail. MODEL_EVICT
empties a READY slot, is done at once on an EMPTY one and refused on a BOUND one. REGION_REWRITE of a region of the slot's own
manifest leaves a job for it. DRIVE_IMAGE writes and flushes a drive whose WRITE_EN is 1. A VERIFYING slot whose every unit reads back with its
CRC becomes READY, another EMPTY with reason 7. -/
def Obligations.ModelLoads : Prop :=
  (∀ (s : State) (k : Fin 2) (now c : Nat) (speed width : BitVec 4) (maxRead : BitVec 16) (data : List Byte)
    (j : LoadJob), s.dev.frozen = false →
  let now' := max s.dev.now now
  let st := driveStatus k
  let ends (e : Dev) (x : Nat) : Prop := (∃ i, e.res.job = some i ∧ i.ending = some (5, x, now')) ∧ e.slotState j.slot = 0 ∧
    e.getF (WTR_SLOT_STATE_REASON j.slot) = 4
  let again (e : Dev) (x : ChunkSt) : Prop := (∃ i, e.res.job = some i ∧ i.chunk c = x ∧ i.retries = j.retries + 1) ∧
    e.getN WTR_CHUNK_RETRY_COUNT = min (s.dev.getN WTR_CHUNK_RETRY_COUNT + 1) 0xFFFFFFFF
  let read : Output := .signal "NVME_READ" [cDrive j.man c, cLba j.man c, cLength j.man c, c]
  (s.dev.res.job.any (fun i => i.needs k) = false → ∃ e : Dev, exec (.driveLinkDown k now) s = .next (s.put e) ∧ e.flag ⟨st, 31, 31⟩ = false ∧
    e.flag ⟨st, 30, 30⟩ = false ∧ e.regBit WTR_EVENT 0 = true ∧ s.dev.keepsRegs e [st, WTR_EVENT, WTR_EVENT_SEQ, INT_PEND 0] ∧
    e = { s.dev with regs := e.regs, ages := e.ages, now := now' }) ∧
  (s.dev.res.job = some j → j.needs k = true → j.region = none → j.slot < 16 →
    ∃ e : Dev, exec (.driveLinkDown k now) s = .next (s.put e) ∧ e.flag ⟨st, 31, 31⟩ = false ∧ ends e 0x05) ∧
  (∃ e : Dev, exec (.driveLinkUp k speed width) s = .next (s.put e) ∧ e.flag ⟨st, 31, 31⟩ = true ∧ e.getF ⟨st, 23, 20⟩ = speed.toNat ∧
    e.getF ⟨st, 19, 16⟩ = width.toNat ∧ e.flag ⟨st, 30, 30⟩ = s.dev.flag ⟨st, 30, 30⟩ ∧ s.dev.keepsRegs e [st] ∧
    e = { s.dev with regs := e.regs, out := s.dev.out ++ [.signal "NVME_INIT" [k]] }) ∧
  (s.dev.flag ⟨st, 31, 31⟩ = true → ∃ e : Dev, exec (.driveReady k maxRead) s = .next (s.put e) ∧ e.flag ⟨st, 30, 30⟩ = true ∧
    e.getF ⟨st, 15, 0⟩ = maxRead.toNat ∧ e.regBit WTR_EVENT 1 = true ∧ s.dev.keepsRegs e [st, WTR_EVENT, WTR_EVENT_SEQ, INT_PEND 0] ∧
    e = { s.dev with regs := e.regs, ages := e.ages }) ∧
  (s.dev.flag ⟨st, 31, 31⟩ = false → exec (.driveReady k maxRead) s = .next s) ∧
  (s.dev.res.job = some j → j.ending = none → c < j.chunks.length → cDrive j.man c = k → j.region = none → j.slot < 16 →
    (s.dev.readsChunk k c = true →
      (chunkCrc c (data.take (cLength j.man c)) = cCrc j.man c →
        ∃ (e : Dev) (i : LoadJob), exec (.driveReadComplete k c true data now) s = .next (s.put e) ∧ e.res.job = some i ∧
          i.chunk c = { j.chunk c with st := 2, data := data.take (cLength j.man c) } ∧
          i.srcBytes = j.srcBytes + (data.take (cLength j.man c)).length ∧ i.ending = none ∧ i.retries = j.retries ∧
          (∀ x, (j.chunk x).st ≠ 0 → x ≠ c → i.chunk x = j.chunk x) ∧ e.tiles = s.dev.tiles) ∧
      (chunkCrc c (data.take (cLength j.man c)) ≠ cCrc j.man c →
        ((j.chunk c).crcs = 0 → ∃ e : Dev, exec (.driveReadComplete k c true data now) s = .next (s.put e) ∧
          again e { j.chunk c with crcs := 1, errs := 0 } ∧ e.out = s.dev.out ++ [read] ∧ e.tiles = s.dev.tiles) ∧
        ((j.chunk c).crcs ≠ 0 → ∃ e : Dev, exec (.driveReadComplete k c true data now) s = .next (s.put e) ∧ ends e 0x03)) ∧
      ((j.chunk c).errs = 0 →
        (∃ e : Dev, exec (.driveReadComplete k c false data now) s = .next (s.put e) ∧ again e { j.chunk c with errs := 1 } ∧
          e.out = s.dev.out ++ [read] ∧ e.tiles = s.dev.tiles) ∧
        (∃ e : Dev, exec (.driveCmdTimeout k c now) s = .next (s.put e) ∧ again e { j.chunk c with errs := 1 } ∧
          e.out = s.dev.out ++ [.signal "NVME_ABORT" [k, c], read] ∧ e.tiles = s.dev.tiles)) ∧
      ((j.chunk c).errs ≠ 0 → ∀ i, i = .driveReadComplete k c false data now ∨ i = .driveCmdTimeout k c now →
        ∃ e : Dev, exec i s = .next (s.put e) ∧ ends e 0x04)) ∧
    ((j.chunk c).st = 2 → (∀ x, x < j.chunks.length → x ≠ c → cTile j.man x = cTile j.man c → x < c ∧ (j.chunk x).st = 4) →
      ∃ (e : Dev) (i : LoadJob), exec (.chunkForward c) s = .next (s.put e) ∧ e.res.job = some i ∧ i.chunk c = { j.chunk c with st := 3 } ∧
        (j.wants (cRegion j.man c) = true → e.getF (WRG_STATUS_LOAD (cTile j.man c)) = 1) ∧ i.ending = none ∧ e.tiles = s.dev.tiles)) ∧
  (s.dev.res.job = none → ∀ i, i = .driveReadComplete k c true data now ∨ i = .driveCmdTimeout k c now →
    exec i s = .next (s.put (s.dev.at_ now)))) ∧
  (∀ (s : State) (n : Fin 32) (c r now : Nat) (j : LoadJob), s.dev.frozen = false → s.dev.res.job = some j →
  j.slot < 16 → j.region = none →
  let now' := max s.dev.now now
  let x := wringChunk s.dev.free j.man c (((j.heads.find? fun h => h.1 == n.val).map Prod.snd).getD 0) (s.dev.zeroLimit n) (j.chunk c).data
  let base := rUnit j.man (cRegion j.man c) * unitBytes
  let ends (e : Dev) (d : Nat) : Prop := (∃ i, e.res.job = some i ∧ i.ending = some (5, d, now')) ∧ e.slotState j.slot = 0 ∧
    e.getF (WTR_SLOT_STATE_REASON j.slot) = 4
  (j.ending = none → c < j.chunks.length → (j.chunk c).st = 3 → cTile j.man c = n →
    (∀ y, y < c → (j.chunk y).st = 3 → cTile j.man y ≠ n) →
    (x.2.2 = none → cOffset j.man c % 64 = 0 → x.1.length % 64 = 0 → cOffset j.man c + x.1.length ≤ unitBytes →
      (rBytes j.man (cRegion j.man c) ≤ unitBytes ∧ rBytes j.man (cRegion j.man c) % 64 = 0 ∧
        cOffset j.man c + x.1.length ≤ rBytes j.man (cRegion j.man c)) →
      ∃ (e : Dev) (i : LoadJob), exec (.chunkWring n now) s = .next (s.put e) ∧ e.res.job = some i ∧
        i.chunk c = { j.chunk c with st := 4, data := [] } ∧
        memBytes (e.tile n).dram (base + cOffset j.man c) x.1.length = x.1 ∧
        (∀ a, a < base ∨ base + unitBytes ≤ a → memGet (e.tile n).dram a = memGet (s.dev.tile n).dram a) ∧
        e.getPair (WRG_LOAD_BYTES_LO n) (WRG_LOAD_BYTES_HI n) =
          (s.dev.getPair (WRG_LOAD_BYTES_LO n) (WRG_LOAD_BYTES_HI n) + x.1.length) % 2 ^ 64 ∧
        e.getN WTR_LOAD_DONE = (s.dev.getN WTR_LOAD_DONE + 1) % 2 ^ 32 ∧ s.dev.onlyTile e n ∧ (e.tile n).store = (s.dev.tile n).store ∧
        e.out = s.dev.out) ∧
    (∀ d, x.2.2 = some d → ∃ e : Dev, exec (.chunkWring n now) s = .next (s.put e) ∧ ends e d)) ∧
  (j.ending = none → r < mRegions j.man → r < j.regions.length → j.regionWritten r = true → (j.regions.getD r (0, 0)).1 = 3 → rTile j.man r = n →
    rUnit j.man r < unitsPerTile → rBytes j.man r % 64 = 0 → rBytes j.man r ≤ unitBytes → (∀ l, s.dev.poisoned n l = false) →
    let v := residentCrc n (rUnit j.man r) (memBytes (s.dev.tile n).dram (rUnit j.man r * unitBytes) (rBytes j.man r))
    (v = rCrc j.man r → v ≠ 0 →
      ∃ (e : Dev) (i : LoadJob), exec (.regionVerify r [] now) s = .next (s.put e) ∧ e.res.job = some i ∧ i.regions = j.regions.set r (0, v) ∧
        i.resBytes = j.resBytes + rBytes j.man r ∧ i.ending = none ∧
        memLe (e.tile n).dram (slotRec j.slot + 0x840 + 4 * rUnit j.man r) 4 = v ∧ s.dev.onlyTile e n ∧ e.out = s.dev.out) ∧
    (v ≠ rCrc j.man r → rCrc j.man r ≠ 0 →
      ∃ e : Dev, exec (.regionVerify r [] now) s = .next (s.put e) ∧ ends e 0x0C ∧ e.regBit (WRG_EVENT n) 2 = true)) ∧
  (j.ending = none → (∀ q, q < mRegions j.man → (j.regions.getD q (3, 0)).1 = 0 ∨ (j.regions.getD q (3, 0)).1 = 4) →
    ∃ (e : Dev) (i : LoadJob), exec (.loadCommit now) s = .next (s.put e) ∧ e.res.job = some i ∧ i.ending = some (2, 0, now') ∧
      e.slotState j.slot = 3 ∧ e.getPair (WTR_SLOT_USE_LO j.slot) (WTR_SLOT_USE_HI j.slot) = now' % 2 ^ 64 ∧
      e.getN WTR_LOAD_COUNT = min (s.dev.getN WTR_LOAD_COUNT + 1) 0xFFFFFFFF ∧
      (∀ t ∈ s.dev.maskTiles (mTileMask j.man), memBytes (e.tile t).dram (slotRec j.slot) 64 =
        commitRecord j t (s.dev.getN WTR_LOAD_SEQ) (s.dev.headOf j t)) ∧
      (∀ t, t ∉ s.dev.maskTiles (mTileMask j.man) → e.tile t = s.dev.tile t) ∧ e.out = s.dev.out) ∧
  (∀ st det t, j.ending = some (st, det, t) → st < 8 → det < 2 ^ 8 →
    (∃ e : Dev, exec (.loadReport true) s = .next (s.put e) ∧
      e.out = s.dev.out ++ [.hostWrite j.repAddr ((s.dev.loadReport j st det t).take j.repLen)] ∧ e.res.job = none ∧
      e.mbxBusy = false ∧ e.getF HUB_MBX_STATUS_STATUS = st ∧ e.getF HUB_MBX_STATUS_DETAIL = det ∧ e.isPending 0 = true ∧ e.tiles = s.dev.tiles) ∧
    (∃ e : Dev, exec (.loadReport false) s = .next (s.put e) ∧ e.out = s.dev.out ∧ e.res.job = none ∧ e.mbxBusy = false ∧
      e.getF HUB_MBX_STATUS_STATUS = (if st = 2 then 5 else st) ∧ e.getF HUB_MBX_STATUS_DETAIL = (if st = 2 then 0x12 else det) ∧
      e.tiles = s.dev.tiles))) ∧
  (∀ (s : State) (now : Nat) (slot : Fin 16), s.dev.rst.warm = none → s.dev.rst.fatal = none →
  s.dev.mbxBusy = false → s.dev.mbxRefusesAll = false →
  let P (k : Nat) := s.dev.getN (HUB_MBX_P k)
  let now' := max s.dev.now now
  let failed (e : Dev) (det : Nat) : Prop := e.getF HUB_MBX_STATUS_STATUS = 5 ∧ e.getF HUB_MBX_STATUS_DETAIL = det ∧ e.mbxBusy = false ∧
    e.tiles = s.dev.tiles ∧ e.res = s.dev.res ∧ e.out = s.dev.out
  let done (e : Dev) : Prop := e.getF HUB_MBX_STATUS_STATUS = 2 ∧ e.mbxBusy = false
  (∀ (m : List Byte), P 0 / 2 ^ 28 = slot → P 0 % 2 ^ 19 = 0 → m.length ≤ P 3 →
    (s.dev.loadCheck slot (P 0 / 2 ^ 19 % 2) (P 3) (P 7) (some m) = none → (∀ t, t < 16 → s.dev.slotState t = 0) →
      ∃ (e : Dev) (j : LoadJob), exec (.modelLoad now (some m) false) s = .next (s.put e) ∧ e.res.job = some j ∧ j.man = m ∧ j.slot = slot ∧
        j.ctx = P 0 / 2 ^ 20 % 256 ∧ j.region = none ∧ j.ending = none ∧ j.repAddr = P 4 + P 5 * 2 ^ 32 ∧ j.repLen = P 6 ∧ j.evicted = 0 ∧
        e.slotState slot = 1 ∧ e.getF (WTR_SLOT_STATE_CONTEXT slot) = P 0 / 2 ^ 20 % 256 ∧ e.getR (WTR_SLOT_TILES slot) = mTileMask m ∧
        e.getN WTR_LOAD_SEQ = (s.dev.getN WTR_LOAD_SEQ + 1) % 2 ^ 32 ∧ e.getN WTR_LOAD_CHUNKS = mChunks m % 2 ^ 32 ∧
        e.getN WTR_LOAD_DONE = 0 ∧ e.getF HUB_MBX_STATUS_STATUS = 1 ∧ e.mbxBusy = true) ∧
    (∀ det, s.dev.loadCheck slot (P 0 / 2 ^ 19 % 2) (P 3) (P 7) (some m) = some det → det < 2 ^ 8 →
      ∃ e : Dev, exec (.modelLoad now (some m) false) s = .next (s.put e) ∧ failed e det)) ∧
  (P 0 = slot * 2 ^ 28 → (∀ k, 1 ≤ k → k < 8 → P k = 0) →
    (s.dev.slotState slot = 0 → ∃ e : Dev, exec (.modelEvict now) s = .next (s.put e) ∧ done e ∧ e.tiles = s.dev.tiles) ∧
    (s.dev.slotState slot = 3 → ∃ e : Dev, exec (.modelEvict now) s = .next (s.put e) ∧ done e ∧ e.slotState slot = 0 ∧
      e.getF (WTR_SLOT_STATE_REASON slot) = 1 ∧ e.getR (WTR_SLOT_TILES slot) = 0 ∧ e.regBit WTR_EVENT 2 = true ∧
      e.getN WTR_EVICT_COUNT = min (s.dev.getN WTR_EVICT_COUNT + 1) 0xFFFFFFFF ∧
      (∀ n ∈ s.dev.maskTiles (s.dev.getR (WTR_SLOT_TILES slot)), ∀ a, slotRec slot ≤ a → a < slotRec slot + 0x840 →
        memGet (e.tile n).dram a = 0)) ∧
    (s.dev.slotState slot = 4 → ∃ e : Dev, exec (.modelEvict now) s = .next (s.put e) ∧ failed e 0x0E)) ∧
  (∀ (n : Fin 32) (u : Nat) (m : List Byte), u < unitsPerTile → P 0 = slot * 2 ^ 28 + n * 2 ^ 23 + u * 2 ^ 9 →
    (∀ k, 1 ≤ k → k < 8 → P k = 0) →
    (∀ m' r, s.dev.rewriteCheck slot n u (some m) = .inr (m', r) →
      ∃ (e : Dev) (j : LoadJob), exec (.regionRewrite now (some m) false) s = .next (s.put e) ∧ e.res.job = some j ∧ j.man = m' ∧
        j.region = some r ∧ j.slot = slot ∧ j.ending = none ∧ e.mbxBusy = true ∧ e.tiles = s.dev.tiles ∧
        e.slotState slot = s.dev.slotState slot) ∧
    (∀ det, s.dev.rewriteCheck slot n u (some m) = .inl det → det < 2 ^ 8 →
      ∃ e : Dev, exec (.regionRewrite now (some m) false) s = .next (s.put e) ∧ failed e det)) ∧
  (∀ (k : Fin 2) (data : List Byte), P 0 = k * 2 ^ 31 → P 6 = 0 → P 7 = 0 → P 3 ≤ 0x4000000 → P 3 % 512 = 0 →
    let en := s.dev.flag (if k = 0 then WTR_DRIVE_CTRL_WRITE_EN_A else WTR_DRIVE_CTRL_WRITE_EN_B)
    (en = true → s.dev.driveOk k = true → ∃ e : Dev, exec (.driveImage now (some data) true none) s = .next (s.put e) ∧ done e ∧
      e.out = s.dev.out ++ [.signal "NVME_WRITE" [k, P 1 + P 2 * 2 ^ 32, P 3], .signal "NVME_FLUSH" [k]] ∧ e.tiles = s.dev.tiles) ∧
    (en = false → ∃ e : Dev, exec (.driveImage now (some data) true none) s = .next (s.put e) ∧ failed e 0x10) ∧
    (en = true → s.dev.driveOk k = false → ∃ e : Dev, exec (.driveImage now (some data) true none) s = .next (s.put e) ∧ failed e 0x05)) ∧
  (s.dev.frozen = false → s.dev.slotState slot = 2 → (∀ n l, s.dev.poisoned n l = false) →
    let good (n : Fin 32) (u : Nat) : Prop := residentCrc n u (memBytes (s.dev.tile n).dram (u * unitBytes)
      (64 * memLe (s.dev.tile n).dram (slotRec slot + 0x10840 + 2 * u) 2)) = memLe (s.dev.tile n).dram (slotRec slot + 0x840 + 4 * u) 4
    let all := ∀ n ∈ s.dev.maskTiles (s.dev.getR (WTR_SLOT_TILES slot)), ∀ u ∈ s.dev.slotUnits slot n, good n u
    (all → ∃ e : Dev, exec (.slotReverify slot [] now) s = .next (s.put e) ∧ e.slotState slot = 3 ∧
      e.getPair (WTR_SLOT_USE_LO slot) (WTR_SLOT_USE_HI slot) = now' % 2 ^ 64 ∧ (∀ n, (e.tile n).dram = (s.dev.tile n).dram)) ∧
    (¬ all → ∃ e : Dev, exec (.slotReverify slot [] now) s = .next (s.put e) ∧ e.slotState slot = 0 ∧
      e.getF (WTR_SLOT_STATE_REASON slot) = 7)))

/-- R328, R332, R334, R335: bring-up of link `j`. A DOWN link with signal on all eight wavelengths trains: its state is fresh and it sends IDENTITY. The
neighbour's IDENTITY is recorded, and the link in training goes on to qualification, or enters MISWIRED when its PEER port must lead to
this package's slice and the neighbour reports another. Qualification at this end records the errors, the bits and the result, sends it, and with
both results known the link is READY, or DOWN with QUAL_FAIL; after that a link with signal trains again. A READY link
of an enabled port joins it when the neighbour is the port's, else it enters MISWIRED. -/
def Obligations.LinkBringUp : Prop := ∀ (s : State) (j : Fin 64) (id : Word) (idx : Nat) (slice : BitVec 16) (errs : List Nat) (bits now : Nat)
    (b : Bool), s.dev.frozen = false →
  let k := j.val / 8
  let i := j.val % 8
  let st := OEC_LINK_STATUS k i
  let trains (c : Instr) (sig : Nat) : Prop := ∃ e : Dev, exec c s = .next (s.put e) ∧ e.linkState j = 2 ∧ e.link j = Link.reset ∧
    e.getF (OEC_LINK_STATUS_SIGNAL k i) = sig ∧ e.out = s.dev.out ++ [s.dev.identityFrame j] ∧ s.dev.keepsRegs e [st] ∧
    s.dev.onlyLink e j
  let judged (e : Dev) (pass : Bool) : Prop := e.linkState j = (if pass then 4 else 1) ∧
    (pass = false → e.getF (OEC_LINK_STATUS_CAUSE k i) = 6) ∧ s.dev.onlyLink e j
  (s.dev.linkState j = 1 → trains (.linkSignalDetect j) 0xFF) ∧
  (s.dev.linkState j ≠ 1 → exec (.linkSignalDetect j) s = .next (s.put (s.dev.setF (OEC_LINK_STATUS_SIGNAL k i) 0xFF))) ∧
  (s.dev.linkState j = 1 → s.dev.getF (OEC_LINK_STATUS_CAUSE k i) = 6 → s.dev.getF (OEC_LINK_STATUS_SIGNAL k i) = 0xFF →
    trains (.qualRetryTimer j) 0xFF) ∧
  (s.dev.linkState j ≠ 1 ∨ s.dev.getF (OEC_LINK_STATUS_CAUSE k i) ≠ 6 ∨ s.dev.getF (OEC_LINK_STATUS_SIGNAL k i) ≠ 0xFF →
    exec (.qualRetryTimer j) s = .next s) ∧
  (s.dev.linkState j = 2 →
    let wrong := (s.dev.portOf j).any fun p => s.dev.portPeer p && slice.toNat != s.dev.getF FAB_CTRL_SLICE
    ∃ e : Dev, exec (.identity j id idx slice) s = .next (s.put e) ∧ e.getR (OEC_LINK_PEER k i) = id ∧
      e.getF (OEC_LINK_PEER_INFO_SLICE k i) = slice.toNat ∧ e.getF (OEC_LINK_PEER_INFO_LINK k i) = idx % 256 ∧
      e.linkState j = (if wrong then 7 else 3) ∧ (wrong = true → e.regBit (OEC_EVENT k) 2 = true) ∧ e.fab = s.dev.fab ∧ e.out = s.dev.out ∧
      s.dev.onlyLink e j) ∧
  (s.dev.linkState j = 3 → (s.dev.link j).qualFar = some b → ∃ e : Dev, exec (.qualifyEnd j errs bits) s = .next (s.put e) ∧
    e.getF (OEC_LINK_BERT_INFO_KIND k i) = 1 ∧ e.getF (OEC_LINK_BERT_INFO_RESULT k i) = (if berPass errs bits then 0 else 1) ∧
    (∀ w, w < 8 → e.getN (OEC_LINK_BERT_ERR k i w) = min (errs.getD w 0) 0xFFFFFFFF) ∧
    e.getPair (OEC_LINK_BERT_BITS_LO k i) (OEC_LINK_BERT_BITS_HI k i) = bits % 2 ^ 64 ∧
    e.out = s.dev.out ++ [.frame j (ctrlFrame (leBytes 4 2 ++ leBytes 1 (if berPass errs bits then 1 else 0)))] ∧
    judged e (berPass errs bits && b)) ∧
  (s.dev.linkState j = 3 → (s.dev.link j).qualOwn = some b → ∀ far : Bool, ∃ e : Dev, exec (.qualResult j far) s = .next (s.put e) ∧
    judged e (b && far) ∧ s.dev.keepsRegs e [st]) ∧
  (∀ p, s.dev.portOf j = some p → s.dev.linkState j = 4 → s.dev.flag FAB_CTRL_AUTO_JOIN = true → s.dev.portEn p = true →
    (s.dev.neighbourOk p j = true → s.dev.fab.paths = [] → ∃ e : Dev, exec (.linkJoin j now) s = .next (s.put e) ∧ e.linkState j = 5 ∧
      e.getN (FAB_PORT_NEIGHBOUR p) = s.dev.peerId j ∧ (e.link j).goodAt = max s.dev.now now ∧
      (e.activeLinks p).length = (s.dev.activeLinks p).length + 1 ∧
      e.getF (FAB_PORT_STATUS_LINKS p) = (s.dev.activeLinks p).length + 1 ∧
      e.portActive p = decide (max 1 (s.dev.getF (FAB_PORT_CFG_MIN_LINKS p)) ≤ (s.dev.activeLinks p).length + 1) ∧
      e.regBit (if j.val < 32 then FAB_LINK_ACTIVE_LO else FAB_LINK_ACTIVE_HI) (j.val % 32) = true ∧ e.out = s.dev.out ∧
      s.dev.onlyLink e j) ∧
    (s.dev.neighbourOk p j = false → ∃ e : Dev, exec (.linkJoin j now) s = .next (s.put e) ∧ e.linkState j = 7 ∧
      e.regBit (OEC_EVENT k) 2 = true ∧ e.fab = s.dev.fab ∧ e.out = s.dev.out ∧ s.dev.onlyLink e j))

/-- R328, R333, R349, R350, R32: link `j` goes down. An ACTIVE link that leaves for DOWN records the cause and the departure, latches both
events, leaves FAB_LINK_ACTIVE, and loses its unacknowledged frames. So it is with LINK_DOWN of any cause, with fewer than eight wavelengths
(cause 1), with 8 uncorrectable codewords (2), with 2 µs of silence (4), with the loss of its laser (5, an event of the engine), and with an
engine that no tile reaches (9). DISABLE takes a link to DISABLED with cause 7 and holds it there until it is cleared. -/
def Obligations.LinkFailures : Prop := ∀ (s : State) (j : Fin 64) (cause : Fin 10) (signal : BitVec 8) (corr uncorr now : Nat) (fibre : Fin 2)
    (m : Master) (en : Fin 8), s.dev.frozen = false → s.dev.fab.paths = [] →
  let k := j.val / 8
  let i := j.val % 8
  let quiet : Prop := ∀ a : Fin 64, unbegun (s.dev.link a) = []
  (s.dev.linkState j = 5 → unbegun (s.dev.link j) = [] →
    (∃ e : Dev, exec (.linkDown j cause now) s = .next (s.put e) ∧ s.dev.linkGone e j cause ∧ e.out = s.dev.out) ∧
    (signal ≠ 0xFF → ∃ e : Dev, exec (.linkLos j signal now) s = .next (s.put e) ∧ s.dev.linkGone e j 1 ∧
      e.getF (OEC_LINK_STATUS_SIGNAL k i) = signal.toNat ∧ e.out = s.dev.out) ∧
    ((s.dev.link j).goodAt + 2000 ≤ now → ∃ e : Dev, exec (.linkSilentTimeout j now) s = .next (s.put e) ∧
      s.dev.linkGone e j 4 ∧ e.out = s.dev.out) ∧
    (∃ e : Dev, exec (.fecFailure j corr uncorr now) s = .next (s.put e) ∧
      e.getN (OEC_LINK_FEC_CORR k i) = min (s.dev.getN (OEC_LINK_FEC_CORR k i) + corr) 0xFFFFFFFF ∧
      e.getN (OEC_LINK_FEC_UNCORR k i) = min (s.dev.getN (OEC_LINK_FEC_UNCORR k i) + uncorr) 0xFFFFFFFF ∧ e.out = s.dev.out ∧
      (8 ≤ uncorr → s.dev.linkGone e j 2) ∧
      (uncorr < 8 → e.linkState j = 5 ∧ e.fab = s.dev.fab ∧ s.dev.keepsRegs e [OEC_LINK_FEC_CORR k i, OEC_LINK_FEC_UNCORR k i]))) ∧
  (s.dev.linkState j ≠ 5 → exec (.linkDown j cause now) s = .next s) ∧
  (signal = 0xFF → exec (.linkLos j signal now) s =
    .next (s.put ((s.dev.at_ now).setF (OEC_LINK_STATUS_SIGNAL k i) 0xFF))) ∧
  (max s.dev.now now < (s.dev.link j).goodAt + 2000 → exec (.linkSilentTimeout j now) s = .next (s.put (s.dev.at_ now))) ∧
  (s.dev.privileged m = true → s.dev.linkState j = 4 → s.dev.mbx.run = none → (s.dev.link j).test = none →
    ∃ e : Dev, exec (.linkDisable m j now) s = .next (s.put e) ∧ e.linkState j = 0 ∧ e.getF (OEC_LINK_STATUS_CAUSE k i) = 7 ∧
      e.flag (OEC_LINK_CTRL_DISABLE k i) = true ∧ s.dev.keepsRegs e [OEC_LINK_STATUS k i, OEC_LINK_CTRL k i] ∧ e.out = s.dev.out ∧
      e.tiles = s.dev.tiles) ∧
  (s.dev.privileged m = true → exec (.linkEnable m j) s =
    .next (s.put (if s.dev.linkState j = 0 then (s.dev.setF (OEC_LINK_CTRL_DISABLE k i) 0).setF (OEC_LINK_STATUS_STATE k i) 1
      else s.dev.setF (OEC_LINK_CTRL_DISABLE k i) 0))) ∧
  (s.dev.privileged m = false → exec (.linkEnable m j) s = .next s) ∧
  (s.dev.mbx.run = none → quiet → (∀ a : Fin 64, (s.dev.link a).test = none) →
    (∃ e : Dev, exec (.laserLoss en fibre now) s = .next (s.put e) ∧ e.getF (laserOk en fibre) = 0 ∧ e.regBit (OEC_EVENT en) 1 = true ∧
      (∀ a ∈ fibreLinks en fibre, (s.dev.linkState a ≠ 0 → e.linkState a = 1 ∧ e.getF (OEC_LINK_STATUS_CAUSE (a / 8) (a % 8)) = 5) ∧
        (s.dev.linkState a = 0 → e.linkState a = 0)) ∧
      (∀ a : Fin 64, a ∉ fibreLinks en fibre → e.linkState a = s.dev.linkState a) ∧ e.out = s.dev.out ∧ e.tiles = s.dev.tiles) ∧
    (s.dev.engineServed en = false → ∃ e : Dev, exec (.oeSeamLinksDown en now) s = .next (s.put e) ∧
      (∀ a ∈ engineLinks en, (2 ≤ s.dev.linkState a → e.linkState a = 1 ∧ e.getF (OEC_LINK_STATUS_CAUSE (a / 8) (a % 8)) = 9) ∧
        (s.dev.linkState a < 2 → e.linkState a = s.dev.linkState a)) ∧
      (∀ a : Fin 64, a ∉ engineLinks en → e.linkState a = s.dev.linkState a) ∧ e.out = s.dev.out ∧ e.tiles = s.dev.tiles)) ∧
  (s.dev.engineServed en = true → exec (.oeSeamLinksDown en now) s = .next (s.put (s.dev.at_ now))) ∧
  (∃ e : Dev, exec (.laserRestore en fibre) s = .next (s.put e) ∧ e.getF (laserOk en fibre) = 1 ∧
    (∀ a : Fin 64, e.linkState a = if a ∈ fibreLinks en fibre ∧ s.dev.linkState a = 1 ∧ s.dev.fullSignal a = true then 2 else s.dev.linkState a) ∧
    e.tiles = s.dev.tiles)

/-- R329, R330, R331: receiving. On a link that carries frames a frame whose CRC is wrong, and one whose SEQ does not follow the last accepted, is
discarded and a NAK is due. The frame that follows is accepted: its number becomes the last accepted, one credit is owed for its VC, the
acknowledged frames leave the transmitter, the credit returned is held, and its payload joins the message of its VC. A NAK, and 5 µs without
progress, set every unacknowledged frame to be resent, count a replay, and take the link down after more than 16 within 1 ms.

R329, R330, R331, R347: transmitting. Every frame carries the last number accepted, the NAK that is due and credit owed, under a CRC over its
header and payload. Frames to resend go first and take no number and no credit. Else on an ACTIVE link the head message of the VC that R347
selects gives the next 256 bytes in a numbered frame, kept until it is acknowledged, at the cost of a credit. Else an idle frame goes. -/
def Obligations.LinkFrames : Prop :=
  (∀ (s : State) (j : Fin 64) (f : Frame) (ack now : Nat), s.dev.frozen = false →
  let l := s.dev.link j
  let lo : Prop := s.dev.linkState j = 4 ∨ s.dev.linkState j = 5
  let others (e : Dev) : Prop := (∀ i, i ≠ j → e.link i = s.dev.link i) ∧ e.tiles = s.dev.tiles
  let resent (e : Dev) (u : List Frame) : Prop := (e.link j).unacked = u ∧ (e.link j).resend = u ∧
    e.getN (OEC_LINK_REPLAY (j / 8) (j % 8)) = min (s.dev.getN (OEC_LINK_REPLAY (j / 8) (j % 8)) + 1) 0xFFFFFFFF ∧
    e.linkState j = s.dev.linkState j ∧ e.out = s.dev.out ∧ others e
  let few : Prop := (l.resends.filter fun t => max s.dev.now now < t + 1000000).length < 16
  (¬ lo → exec (.frameReceive j f now) s = .next (s.put (s.dev.at_ now)) ∧ exec (.nakReceive j ack now) s = .next s ∧
    exec (.replayTimeout j now) s = .next (s.put (s.dev.at_ now))) ∧
  (lo → f.crc ≠ frameCrc f → ∃ e : Dev, exec (.frameReceive j f now) s = .next (s.put e) ∧ e.link j = { l with nakDue := true } ∧
    e.regs = s.dev.regs ∧ e.out = s.dev.out ∧ others e) ∧
  (lo → f.crc = frameCrc f → f.ctrl = true → ∃ e : Dev, exec (.frameReceive j f now) s = .next (s.put e) ∧
    e.link j = { l with goodAt := max s.dev.now now } ∧ e.regs = s.dev.regs ∧ e.out = s.dev.out ∧ others e) ∧
  (lo → f.crc = frameCrc f → f.ctrl = false → f.idle = false → f.nak = false → f.seq ≠ (l.rxSeq + 1) % 4096 →
    ∃ e : Dev, exec (.frameReceive j f now) s = .next (s.put e) ∧ (e.link j).nakDue = true ∧ (e.link j).rxSeq = l.rxSeq ∧
      (e.link j).rx = l.rx ∧ (e.link j).unacked = ackFrames f.ack l.unacked ∧
      (e.link j).credit[vcIdx f.credVc] = l.credit[vcIdx f.credVc] + f.credit ∧ e.regs = s.dev.regs ∧ e.out = s.dev.out ∧ others e) ∧
  (lo → f.crc = frameCrc f → f.ctrl = false → f.idle = false → f.nak = false → f.seq = (l.rxSeq + 1) % 4096 →
    msgOfBytes (l.rx[vcIdx f.vc] ++ f.payload.take 256) = none →
    ∃ e : Dev, exec (.frameReceive j f now) s = .next (s.put e) ∧ (e.link j).rxSeq = f.seq ∧
      (e.link j).owed[vcIdx f.vc] = l.owed[vcIdx f.vc] + 1 ∧ (e.link j).rx[vcIdx f.vc] = l.rx[vcIdx f.vc] ++ f.payload.take 256 ∧
      (e.link j).unacked = ackFrames f.ack l.unacked ∧ (e.link j).credit[vcIdx f.credVc] = l.credit[vcIdx f.credVc] + f.credit ∧
      (e.link j).nakDue = l.nakDue ∧ e.out = s.dev.out ∧ e.fab.net = s.dev.fab.net ∧ others e) ∧
  (∀ t : Dmsg, lo → f.crc = frameCrc f → f.ctrl = false → f.idle = false → f.nak = false → f.seq = (l.rxSeq + 1) % 4096 →
    msgOfBytes (l.rx[vcIdx f.vc] ++ f.payload.take 256) = some t → t.op ≠ 7 → s.dev.entValid (s.dev.entryOf t.src.pkg) = true →
    s.dev.entLost (s.dev.entryOf t.src.pkg) = false → (s.dev.at_ now).expired t = false →
    ∃ (e : Dev) (x : Transit), exec (.frameReceive j f now) s = .next (s.put e) ∧ (e.link j).rx[vcIdx f.vc] = [] ∧
      e.fab.net = s.dev.fab.net ++ [x] ∧ x.msg = t ∧ x.vc = f.vc ∧ x.dst = nodeEndpt t.dst ∧ x.src = .oe (Fin.ofNat 8 (j / 8)) ∧
      e.out = s.dev.out ∧ others e) ∧
  (lo → few → ∃ e : Dev, exec (.nakReceive j ack now) s = .next (s.put e) ∧ resent e (ackFrames ack l.unacked)) ∧
  (lo → few → l.unacked ≠ [] → l.ackAt + 5000 ≤ now → ∃ e : Dev, exec (.replayTimeout j now) s = .next (s.put e) ∧ resent e l.unacked) ∧
  (lo → ¬ few → s.dev.fab.paths = [] → unbegun l = [] → ∃ e : Dev, exec (.nakReceive j ack now) s = .next (s.put e) ∧
    e.linkState j = 1 ∧ e.getF (OEC_LINK_STATUS_CAUSE (j / 8) (j % 8)) = 3 ∧ e.out = s.dev.out ∧ others e)) ∧
  (∀ (s : State) (j : Fin 64) (now : Nat), s.dev.frozen = false →
  let l := s.dev.link j
  let others (e : Dev) : Prop := (∀ i, i ≠ j → e.link i = s.dev.link i) ∧ e.tiles = s.dev.tiles
  let headed (f : Frame) : Prop := f.ack = l.rxSeq ∧ f.nak = l.nakDue ∧ f.crc = frameCrc f ∧ f.credit = min 255 l.owed[vcIdx f.credVc]
  ((s.dev.linkState j = 4 ∨ s.dev.linkState j = 5) →
    (∀ r rest, l.resend = r :: rest → ∃ (e : Dev) (f : Frame), exec (.frameTransmit j now) s = .next (s.put e) ∧ headed f ∧ f.seq = r.seq ∧
      f.vc = r.vc ∧ f.payload = r.payload ∧ e.out = s.dev.out ++ [.frame j f] ∧ (e.link j).resend = rest ∧ (e.link j).txSeq = l.txSeq ∧
      (e.link j).unacked = l.unacked ∧ (e.link j).credit = l.credit ∧ (e.link j).nakDue = false ∧ others e) ∧
    (l.resend = [] → s.dev.linkState j = 4 ∨ nextVc l = none → ∃ (e : Dev) (f : Frame), exec (.frameTransmit j now) s = .next (s.put e) ∧
      headed f ∧ f.idle = true ∧ f.payload = [] ∧ e.out = s.dev.out ++ [.frame j f] ∧ (e.link j).txSeq = l.txSeq ∧
      (e.link j).unacked = l.unacked ∧ (e.link j).credit = l.credit ∧ (e.link j).txq = l.txq ∧ (e.link j).nakDue = false ∧
      e.regs = s.dev.regs ∧ others e) ∧
    (∀ v w t q, l.resend = [] → s.dev.linkState j = 5 → nextVc l = some (v, w) → l.txq[v] = t :: q →
      ∃ (e : Dev) (f : Frame), exec (.frameTransmit j now) s = .next (s.put e) ∧ headed f ∧ f.seq = l.txSeq ∧ f.vc = vcOf v ∧
        f.idle = false ∧ f.ctrl = false ∧ f.payload = ((msgBytes t.msg).drop t.sent).take 256 ∧ e.out = s.dev.out ++ [.frame j f] ∧
        (e.link j).txSeq = (l.txSeq + 1) % 4096 ∧ (e.link j).unacked = l.unacked ++ [f] ∧ (e.link j).wrr = w ∧
        (e.link j).credit[v] = l.credit[v] - 1 ∧
        (e.link j).txq[v] = (if t.sent + 256 < (msgBytes t.msg).length then { t with sent := t.sent + 256 } :: q else q) ∧
        (e.link j).nakDue = false ∧ others e) ∧
    (∀ v w, nextVc l = some (v, w) → l.txq[v] ≠ [] ∧ 0 < l.credit[v] ∧ l.unacked.length < 2048)) ∧
  (s.dev.linkState j ≠ 4 → s.dev.linkState j ≠ 5 → exec (.frameTransmit j now) s = .next (s.put (s.dev.at_ now))))

/-- R337, R338, R341, R343, R344: ports, routing entries, reachability and fences, where no pair has taken a path yet. An enabled port is
ACTIVE with at least MIN_LINKS links; disabled it drains, takes no new pair, and its links return to READY once everything is acknowledged. A port's links
change only while it is disabled, and a link in two ports is refused with an event-log entry. A write of word 0 of an entry clears LOST.
A switch's notice sets or clears UNREACH of its port in the entry of its target; a PEER port's is ignored. A fence whose hold is over
lets its messages go.

R351: an entry that is valid and has had no eligible port is lost: LOST is set in it, FAB_LAST_LOST names it, FAB_EVENT.PEER_LOST latches, the
log takes it, and the pages lent to the packages lost are free. While a port is eligible, or the entry is not valid, or LOST is set, nothing is. -/
def Obligations.PortsAndRoutes : Prop :=
  (∀ (s : State) (m : Master) (p : Fin 16) (e0 : RouteEnt) (v : Word) (hi unreach stage : Bool)
    (target now : Nat) (src : Node) (dst : Nat), s.dev.frozen = false → s.dev.fab.paths = [] → s.dev.privileged m = true →
  let st := s.dev.getF (FAB_PORT_STATUS_STATE p)
  let lnk := if hi then FAB_PORT_LINKS_HI p else FAB_PORT_LINKS_LO p
  let base := if hi then 32 else 0
  let shared (b : Nat) : Bool := v.getLsbD b && (List.range 16).any fun q => q != p.val && s.dev.portHas q (base + b)
  (s.dev.flag FAB_CTRL_AUTO_JOIN = false → ∃ e : Dev, exec (.portEnable m p now) s = .next (s.put e) ∧ e.portEn p = true ∧
    e.getF (FAB_PORT_STATUS_LINKS p) = (s.dev.activeLinks p).length ∧
    e.portActive p = decide (max 1 (s.dev.getF (FAB_PORT_CFG_MIN_LINKS p)) ≤ (s.dev.activeLinks p).length) ∧
    e.fab = s.dev.fab ∧ e.out = s.dev.out ∧ e.tiles = s.dev.tiles) ∧
  (s.dev.portEn p = true → ∃ e : Dev, exec (.portDisable m p now) s = .next (s.put e) ∧ e.portEn p = false ∧
    e.getF (FAB_PORT_STATUS_STATE p) = 3 ∧ e.portActive p = false ∧ (∀ x, p.val ∉ e.eligible x) ∧
    s.dev.keepsRegs e [FAB_PORT_CFG p, FAB_PORT_STATUS p, FAB_PORT_ACTIVE] ∧ e = { s.dev with regs := e.regs, now := max s.dev.now now }) ∧
  (s.dev.portEn p = false → exec (.portDisable m p now) s = .next s) ∧
  (st = 3 → s.dev.portEn p = false → s.dev.portDrained p = true →
    ∃ e : Dev, exec (.portDrainDone p now) s = .next (s.put e) ∧ e.getF (FAB_PORT_STATUS_STATE p) = 0 ∧ e.activeLinks p = [] ∧
      (∀ j ∈ s.dev.activeLinks p, e.linkState j = 4 ∧ (e.link j).txSeq = (s.dev.link j).txSeq ∧ (e.link j).rxSeq = (s.dev.link j).rxSeq) ∧
      (∀ j, j ∉ s.dev.activeLinks p → e.linkState j = s.dev.linkState j ∧ e.link j = s.dev.link j) ∧ e.out = s.dev.out ∧
      e.tiles = s.dev.tiles) ∧
  (st ≠ 3 ∨ s.dev.portDrained p = false → exec (.portDrainDone p now) s = .next (s.put (s.dev.at_ now))) ∧
  (s.dev.portEn p = true → exec (.portLinksWrite m p hi v) s = .next s) ∧
  (s.dev.portEn p = false → (∀ b, b < 32 → shared b = false) →
    exec (.portLinksWrite m p hi v) s = .next (s.put (s.dev.setR lnk v))) ∧
  (∀ b, s.dev.portEn p = false → s.dev.getN HUB_LOG_HEAD ≠ 0 → b < 32 → shared b = true → (∀ c, c < b → shared c = false) →
    ∃ e : Dev, exec (.portLinksWrite m p hi v) s = .next (s.put e) ∧ e.getR lnk = s.dev.getR lnk ∧ e.lastLog.code = 8 ∧
      e.lastLog.arg0 = p.val ∧ e.lastLog.arg1 = base + b) ∧
  (∃ e : Dev, exec (.routeEntryWrite m e0 v now) s = .next (s.put e) ∧ e.getR (entW0 e0) = v &&& 0x8000FFFF ∧ e.entLost e0 = false ∧
    s.dev.keepsRegs e [entW0 e0, entW1 e0] ∧ e = { s.dev with regs := e.regs, now := max s.dev.now now }) ∧
  (s.dev.portPeer p = false →
    (stage = true → exec (.reachabilityNotice p unreach stage target now) s =
      .next (s.put ((s.dev.at_ now).setBit (FAB_RROUTE1 (stageOf target)) p unreach))) ∧
    (stage = false → s.dev.sameStage target = true → exec (.reachabilityNotice p unreach stage target now) s =
      .next (s.put ((s.dev.at_ now).setBit (FAB_LROUTE1 (memberOf target)) p unreach)))) ∧
  (s.dev.portPeer p = true → exec (.reachabilityNotice p unreach stage target now) s = .next (s.put (s.dev.at_ now))) ∧
  (∀ (f : Fence) (vc : Vc) (x : Dmsg) (j : Nat), s.dev.fab.fences = [f] → f.src = src → f.dst = dst → f.until_ ≤ now → f.peer = none →
    f.held = [(vc, x)] → x.src = src → x.dst.pkg = dst → s.dev.entValid (s.dev.entryOf dst) = true →
    s.dev.entLost (s.dev.entryOf dst) = false → s.dev.pathLink src dst = some j →
    ∃ (e : Dev) (t : Transit), exec (.fenceEnd src dst now) s = .next (s.put e) ∧ e.fab.fences = [] ∧ e.fab.net = s.dev.fab.net ++ [t] ∧
      t.dst = .oe (Fin.ofNat 8 (j / 8)) ∧ t.link = j ∧ t.vc = vc ∧ t.msg.data = x.data ∧ t.msg.stamp = max s.dev.now now ∧
      e.regs = s.dev.regs ∧ e.out = s.dev.out ∧ e.tiles = s.dev.tiles) ∧
  (∀ f : Fence, s.dev.fab.fences = [f] → f.src = src → f.dst = dst → max s.dev.now now < f.until_ →
    exec (.fenceEnd src dst now) s = .next (s.put (s.dev.at_ now)))) ∧
  (∀ (s : State) (e0 : RouteEnt) (now : Nat), s.dev.frozen = false →
  (s.dev.entValid e0 = true → s.dev.entLost e0 = false → s.dev.eligible e0 = [] →
    (s.dev.source none).txns = [] → (∀ n : Fin 32, (s.dev.source (some n)).txns = []) → (∀ g : Fin 4, s.dev.gstate g ≠ 2 ∧ s.dev.gstate g ≠ 5) →
    ∃ e : Dev, exec (.destinationLost e0 now) s = .next (s.put e) ∧ e.entLost e0 = true ∧ e.regBit FAB_EVENT 3 = true ∧
      e.getN FAB_LAST_LOST = (match e0 with
        | .loc m => stageOf s.dev.self * 64 + m.val
        | .rem st => 2 ^ 31 + st.val * 64) ∧
      (∀ n : Fin 32, s.dev.lends n = true → ∀ r ∈ (e.tile n).pool, s.dev.entryOf r.pkg = e0 → r.pkg = s.dev.self) ∧
      (∀ n : Fin 32, s.dev.lends n = false → e.tile n = s.dev.tile n) ∧ (∀ x, x ≠ e0 → e.entLost x = s.dev.entLost x) ∧
      e.fab = s.dev.fab ∧ e.out = s.dev.out ∧ e.srv = s.dev.srv) ∧
  (s.dev.entValid e0 = false ∨ s.dev.entLost e0 = true ∨ s.dev.eligible e0 ≠ [] →
    exec (.destinationLost e0 now) s = .next (s.put (s.dev.at_ now))))

/-- R353, R354, R355, R356, R360: bit-error tests. LINK_BERT checks its parameters and asks the far end of each link named. A far end that carries frames
accepts, and its link leaves its port for TEST. No answer gives NO_PEER and a refusal STOPPED, and the link requalifies. A
test's end leaves the errors, the bits and the result, PASS within the criterion; a link under LINK_BERT requalifies, one under a passed
periodic test rejoins, one under a failed test goes DOWN with cause 8. A periodic test takes the first link that its port can spare; it yields to
foreground work until its link has yielded STARVE times. -/
def Obligations.LinkTests : Prop := ∀ (s : State) (j : Fin 64) (k : Fin 8) (errs : List Nat) (bits ms now : Nat) (pattern accepted : Bool)
    (t : LinkTest), s.dev.frozen = false → s.dev.fab.paths = [] →
  let i := j.val % 8
  let en := j.val / 8
  let kept (e : Dev) : Prop := (∀ a, a ≠ j → e.link a = s.dev.link a ∧ e.linkState a = s.dev.linkState a) ∧ e.tiles = s.dev.tiles
  let result (e : Dev) (kind res : Nat) : Prop := e.getF (OEC_LINK_BERT_INFO_KIND en i) = kind ∧ e.getF (OEC_LINK_BERT_INFO_RESULT en i) = res
  let endFrame : Output := .frame j (ctrlFrame (leBytes 4 5))
  ((s.dev.linkState j = 4 ∨ s.dev.linkState j = 5) → unbegun (s.dev.link j) = [] →
    ∃ e : Dev, exec (.testReq j ms pattern now) s = .next (s.put e) ∧ e.linkState j = 6 ∧
      (e.link j).test = some ⟨2, true, ms, pattern, max s.dev.now now⟩ ∧
      e.out = s.dev.out ++ [.frame j (ctrlFrame (leBytes 4 4 ++ [1]))] ∧ kept e) ∧
  (s.dev.linkState j ≠ 4 → s.dev.linkState j ≠ 5 → exec (.testReq j ms pattern now) s =
    .next (s.put ((s.dev.at_ now).emit (.frame j (ctrlFrame (leBytes 4 4 ++ [0])))))) ∧
  ((s.dev.link j).ackDue = true → ∃ e : Dev, exec (.testAck j true) s = .next (s.put e) ∧ e.link j = { s.dev.link j with ackDue := false } ∧
    kept e ∧ e.regs = s.dev.regs ∧ e.out = s.dev.out) ∧
  ((s.dev.link j).ackDue = false → exec (.testAck j accepted) s = .next s ∧ exec (.testAckTimeout j) s = .next s) ∧
  ((s.dev.link j).ackDue = true → (s.dev.link j).test = some t → t.byFar = false → t.kind = 2 → s.dev.mbx.run = none →
    let ends (c : Instr) (res : Nat) : Prop := ∃ e : Dev, exec c s = .next (s.put e) ∧ result e 2 res ∧ e.linkState j = 3 ∧
      e.link j = Link.reset ∧ e.out = s.dev.out ++ [endFrame] ∧ kept e ∧
      s.dev.keepsRegs e [OEC_LINK_BERT_INFO en i, OEC_LINK_STATUS en i]
    ends (.testAckTimeout j) 2 ∧ ends (.testAck j false) 3) ∧
  (∀ q, s.dev.mbx.run = none → q ≤ 1 → s.dev.getN (HUB_MBX_P 0) + s.dev.getN (HUB_MBX_P 1) * 2 ^ 32 = 2 ^ j.val →
    s.dev.getN (HUB_MBX_P 2) = ms → s.dev.getN (HUB_MBX_P 3) = q → (∀ a, 4 ≤ a → a < 8 → s.dev.getN (HUB_MBX_P a) = 0) →
    (∀ a : Fin 64, (s.dev.link a).test = none) →
    ((s.dev.linkState j = 4 ∨ s.dev.linkState j = 5) → 1 ≤ ms → ms ≤ 3600000 → unbegun (s.dev.link j) = [] →
      ∃ e : Dev, exec (.linkBert now) s = .next (s.put e) ∧ e.mbxBusy = true ∧ e.getF HUB_MBX_STATUS_STATUS = 1 ∧
        e.getF HUB_MBX_STATUS_CODE = 0x0301 ∧ e.linkState j = 6 ∧ (e.link j).test = some ⟨2, false, ms, q == 1, max s.dev.now now⟩ ∧
        (e.link j).ackDue = true ∧ e.out = s.dev.out ++ [.frame j (ctrlFrame (leBytes 4 3 ++ leBytes 4 ms ++ leBytes 1 q))] ∧ kept e) ∧
    (ms = 0 ∨ 3600000 < ms → ∃ e : Dev, exec (.linkBert now) s = .next (s.put e) ∧ e.mbxBusy = false ∧
      e.getF HUB_MBX_STATUS_STATUS = 5 ∧ e.getF HUB_MBX_STATUS_DETAIL = 0x41 ∧ e.fab = s.dev.fab ∧ e.out = s.dev.out) ∧
    (1 ≤ ms → ms ≤ 3600000 → s.dev.linkState j = 0 ∨ s.dev.linkState j = 7 → ∃ e : Dev, exec (.linkBert now) s = .next (s.put e) ∧
      e.mbxBusy = false ∧ e.getF HUB_MBX_STATUS_STATUS = 5 ∧ e.getF HUB_MBX_STATUS_DETAIL = 0x40 ∧ e.fab = s.dev.fab ∧ e.out = s.dev.out)) ∧
  (s.dev.linkState j = 6 → (s.dev.link j).test = some t → t.byFar = false → s.dev.mbx.run = none → s.dev.fab.bertWait = false →
    t.kind = 2 ∨ t.kind = 3 →
    let p := berPass errs bits
    ∃ e : Dev, exec (.testEnd j errs bits) s = .next (s.put e) ∧ result e t.kind (if p then 0 else 1) ∧
      (∀ w, w < 8 → e.getN (OEC_LINK_BERT_ERR en i w) = min (errs.getD w 0) 0xFFFFFFFF) ∧
      e.getPair (OEC_LINK_BERT_BITS_LO en i) (OEC_LINK_BERT_BITS_HI en i) = bits % 2 ^ 64 ∧
      (t.kind = 2 → e.linkState j = 3 ∧ e.out = s.dev.out ++ [endFrame]) ∧
      (t.kind = 3 → e.getF (OEC_STATUS_PBERT_NEXT en) = (i + 1) % 8 ∧ e.getF (OEC_LINK_PBERT_YIELD_RUN en i) = 0) ∧
      (t.kind = 3 → p = true → e.linkState j = 4 ∧ e.out = s.dev.out ++ [endFrame, s.dev.identityFrame j]) ∧
      (t.kind = 3 → p = false → e.linkState j = 1 ∧ e.getF (OEC_LINK_STATUS_CAUSE en i) = 8 ∧ e.regBit (OEC_EVENT en) 3 = true) ∧ kept e) ∧
  ((s.dev.link j).test = some t → t.byFar = true → ∃ e : Dev, exec (.testEnd j errs bits) s = .next (s.put e) ∧ e.linkState j = 3 ∧
    (e.link j).afterFar = true ∧ (e.link j).test = none ∧ e.out = s.dev.out ∧ kept e) ∧
  (s.dev.flag FAB_CTRL_PBERT_EN = true → s.dev.periodicLink en = none → s.dev.foreground en = false →
    s.dev.getF (OEC_STATUS_PBERT_NEXT en) = i → s.dev.portSpare j = true → unbegun (s.dev.link j) = [] →
    ∃ e : Dev, exec (.periodicTestStart (Fin.ofNat 8 en) now) s = .next (s.put e) ∧ e.linkState j = 6 ∧
      (e.link j).test = some ⟨3, false, max 1 (s.dev.getF FAB_PBERT_MS), false, max s.dev.now now⟩ ∧ (e.link j).ackDue = true ∧
      e.out = s.dev.out ++ [.frame j (ctrlFrame (leBytes 4 3 ++ leBytes 4 (max 1 (s.dev.getF FAB_PBERT_MS)) ++ [0]))] ∧ kept e) ∧
  (s.dev.flag FAB_CTRL_PBERT_EN = false ∨ s.dev.foreground k = true →
    exec (.periodicTestStart k now) s = .next (s.put (s.dev.at_ now))) ∧
  (s.dev.periodicLink en = some j → s.dev.foreground en = true → s.dev.fab.bertWait = false →
    s.dev.getF (OEC_LINK_PBERT_YIELD_RUN en i) < max 1 (s.dev.getF FAB_PBERT_STARVE) →
    ∃ e : Dev, exec (.periodicTestYield (Fin.ofNat 8 en)) s = .next (s.put e) ∧ e.linkState j = 4 ∧ (e.link j).test = none ∧
      e.getF (OEC_LINK_PBERT_YIELD_RUN en i) = (s.dev.getF (OEC_LINK_PBERT_YIELD_RUN en i) + 1) % 256 ∧
      e.out = s.dev.out ++ [endFrame, s.dev.identityFrame j] ∧ kept e) ∧
  (s.dev.periodicLink en = some j → max 1 (s.dev.getF FAB_PBERT_STARVE) ≤ s.dev.getF (OEC_LINK_PBERT_YIELD_RUN en i) →
    exec (.periodicTestYield (Fin.ofNat 8 en)) s = .next s)

/-- R28, R29, R31, R38, R40, R43: transfers inside the package. The oldest transfer for a hop goes over the next seam of its route, counted where it
passes through a tile and where a CRC error made it repeat; over a seam that is down it is lost, and the seam island of its source tile answers a
lost load, store or atomic at once. Over a crossing it enters its source's seam island, or reaches its endpoint: an in-service tile
and the hub take it, an engine's waits at its ACTIVE link, a request for a tile out of service is answered TILE_OUT. A full queue holds it. A time
message loads every copy of global time.

R30, R31, R32, R44: seams. A trained seam that fails leaves HUB_SEAM_UP; each tile it joins records the event and counts it at its port, and
nothing else changes when no transfer was on it. A seam that returns is up; the links that its engine lost for it, and that have signal, train. Route
classes follow the seams once the routes are updated, while every pair keeps a path; else the highest-numbered tile of a blocked pair leaves
service. -/
def Obligations.PackageNetwork : Prop :=
  (∀ (s : State) (idx now : Nat) (retry : Bool) (t : Transit), s.dev.frozen = false →
  s.dev.fab.net[idx]? = some t →
  let gone := s.dev.fab.net.eraseIdx idx
  let moved (c : Instr) (w : NetAt) : Prop := ∃ e : Dev, exec c s = .next (s.put e) ∧ e.fab = { s.dev.fab with net := gone ++ [{ t with where_ := w }] } ∧
    e.out = s.dev.out ∧ e.tiles = s.dev.tiles
  (∀ sm w, s.dev.hopOf t = some (sm, w) → s.dev.hopBlocked idx t = false →
    (s.dev.seamUp sm = true → moved (.seamTransfer idx retry) w ∧
      (∀ n : Fin 32, t.where_ = .seam n → ∃ e : Dev, exec (.seamTransfer idx retry) s = .next (s.put e) ∧
        e.getN (SEAM_PORT_RETRY n ((portOfSeam n sm).getD 0)) = (if retry = true then
          min (s.dev.getN (SEAM_PORT_RETRY n ((portOfSeam n sm).getD 0)) + 1) 0xFFFFFFFF
          else s.dev.getN (SEAM_PORT_RETRY n ((portOfSeam n sm).getD 0))) ∧
        e.getPair (SEAM_PASS_LO n) (SEAM_PASS_HI n) = (if t.src = .tile n then s.dev.getPair (SEAM_PASS_LO n) (SEAM_PASS_HI n)
          else min (s.dev.getPair (SEAM_PASS_LO n) (SEAM_PASS_HI n) + 1) (2 ^ 64 - 1)))) ∧
    (∀ n : Fin 32, s.dev.seamUp sm = false → t.src = .tile n → 1 ≤ t.msg.op → t.msg.op ≤ 4 → t.msg.src.pkg = s.dev.self →
      ∃ (e : Dev) (r : Dmsg), exec (.seamTransfer idx retry) s = .next (s.put e) ∧ e.fab = { s.dev.fab with net := gone } ∧
        e.out = s.dev.out ++ [.arrive (nodeEndpt t.msg.src) r] ∧ r.op = 0x0B ∧ r.txn = t.msg.txn ∧ r.dst = t.msg.src ∧
        r.err = Config.seamLostErr ∧ e.regBit (SEAM_EVENT n) 1 = true ∧ e.tiles = s.dev.tiles) ∧
    (s.dev.seamUp sm = false → t.msg.op = 7 → exec (.seamTransfer idx retry) s =
      .next (s.put { s.dev with fab := { s.dev.fab with net := gone } }))) ∧
  (s.dev.hopOf t = none ∨ s.dev.hopBlocked idx t = true → exec (.seamTransfer idx retry) s = .next s) ∧
  exec (.crossingTransfer idx true) s = .next s ∧
  (s.dev.crossingHead idx t = true →
    (∀ n, t.where_ = .launch → t.src = .tile n → moved (.crossingTransfer idx false) (.seam n)) ∧
    (∀ n : Fin 32, t.where_ = .seam n → t.dst = .tile n → s.dev.inService n = true → exec (.crossingTransfer idx false) s =
      .next (s.put { s.dev with fab := { s.dev.fab with net := gone }, out := s.dev.out ++ [.arrive (.tile n) t.msg] })) ∧
    (∀ n : Fin 32, t.where_ = .seam n → t.dst = .tile n → s.dev.inService n = false → 1 ≤ t.msg.op → t.msg.op ≤ 4 →
      t.msg.src.pkg = s.dev.self → ∃ (e : Dev) (r : Dmsg), exec (.crossingTransfer idx false) s = .next (s.put e) ∧
        e.out = s.dev.out ++ [.arrive (nodeEndpt t.msg.src) r] ∧ r.op = 0x0B ∧ r.err = 5 ∧ r.txn = t.msg.txn ∧ r.dst = t.msg.src ∧
        e.regBit (SEAM_EVENT n) 1 = true ∧ e.fab = { s.dev.fab with net := gone } ∧ e.tiles = s.dev.tiles) ∧
    (t.where_ = .arrived → t.dst = .hub → s.dev.crosses t.msg = false ∨ t.msg.op = 7 → exec (.crossingTransfer idx false) s =
      .next (s.put { s.dev with fab := { s.dev.fab with net := gone }, out := s.dev.out ++ [.arrive .hub t.msg] })) ∧
    (∀ k, t.where_ = .arrived → t.dst = .oe k → s.dev.linkState (Fin.ofNat 64 t.link) = 5 →
      ∃ e : Dev, exec (.crossingTransfer idx false) s = .next (s.put e) ∧ e.fab.net = gone ∧
        (e.link (Fin.ofNat 64 t.link)).txq[vcIdx t.vc] = (s.dev.link (Fin.ofNat 64 t.link)).txq[vcIdx t.vc] ++ [⟨t.msg.src, t.msg.dst.pkg, t.msg, 0⟩] ∧
        (∀ j, j ≠ Fin.ofNat 64 t.link → e.link j = s.dev.link j) ∧ e.regs = s.dev.regs ∧ e.out = s.dev.out ∧ e.tiles = s.dev.tiles)) ∧
  exec (.timeMessage now) s = .next (s.put { s.dev.at_ now with fab := { s.dev.fab with copies := Vector.replicate 40 (max s.dev.now now) } })) ∧
  (∀ (s : State) (sm : Fin 72) (now : Nat), s.dev.frozen = false →
  let r := HUB_SEAM_UP0 + 4 * (sm.val / 32)
  (s.dev.seamUp sm = true → ∃ e : Dev, exec (.seamDown sm [] now) s = .next (s.put e) ∧ e.seamUp sm = false ∧
    (∀ i : Fin 72, i ≠ sm → e.seamUp i = s.dev.seamUp i) ∧
    (∀ n ∈ seamTiles sm, e.regBit (SEAM_EVENT n) 0 = true ∧ e.getN (SEAM_PORT_DOWN_COUNT n ((portOfSeam n sm).getD 0)) =
      min (s.dev.getN (SEAM_PORT_DOWN_COUNT n ((portOfSeam n sm).getD 0)) + 1) 0xFFFFFFFF) ∧
    (∀ n : Fin 32, n ∉ seamTiles sm → e.getR (SEAM_EVENT n) = s.dev.getR (SEAM_EVENT n)) ∧
    e = { s.dev with regs := e.regs, ages := e.ages, now := max s.dev.now now }) ∧
  (∀ (i : Nat) (t : Transit) (w : NetAt), s.dev.seamUp sm = true → s.dev.fab.net[i]? = some t → s.dev.hopOf t = some (sm.val, w) →
    t.msg.op = 7 → ∃ e : Dev, exec (.seamDown sm [i] now) s = .next (s.put e) ∧ e.seamUp sm = false ∧
      e.fab = { s.dev.fab with net := s.dev.fab.net.eraseIdx i } ∧ e.out = s.dev.out ∧ e.tiles = s.dev.tiles) ∧
  (∀ l, s.dev.seamUp sm = false → exec (.seamDown sm l now) s = .next (s.put (s.dev.at_ now))) ∧
  (sm.val < 56 → exec (.seamUp sm now) s = .next (s.put ((s.dev.at_ now).setBit r (sm.val % 32) true))) ∧
  (∀ k : Fin 8, seamEngine sm = some k → ∃ e : Dev, exec (.seamUp sm now) s = .next (s.put e) ∧ e.seamUp sm = true ∧
    (∀ j : Fin 64, e.linkState j = (if j ∈ engineLinks k ∧ s.dev.linkState j = 1 ∧
      s.dev.getF (OEC_LINK_STATUS_CAUSE (j / 8) (j % 8)) = 9 ∧ s.dev.fullSignal j = true then 2 else s.dev.linkState j)) ∧
    (∀ i : Fin 72, i ≠ sm → e.seamUp i = s.dev.seamUp i) ∧ e.tiles = s.dev.tiles) ∧
  ((∀ n : Fin 32, s.dev.pathBlocked n = false) → s.dev.getN HUB_TILE_INSERVICE ≠ 0 → ∃ e : Dev,
    exec (.routeClassUpdate now) s = .next (s.put e) ∧ (∀ i : Fin 72, e.routeUp i = s.dev.seamUp i) ∧
    e = { s.dev with fab := { s.dev.fab with routeSeams := e.fab.routeSeams }, now := max s.dev.now now }) ∧
  (∀ n : Fin 32, s.dev.pathBlocked n = true → (∀ m, m ≠ n → s.dev.pathBlocked m = false) → (∃ m : Fin 32, m ≠ n ∧ s.dev.inService m = true) →
    s.dev.groupOf n = none → s.dev.res.job = none → (∀ k, k < 16 → s.dev.regBit (WTR_SLOT_TILES k) n = false) →
    ∃ e : Dev, exec (.routeClassUpdate now) s = .next (s.put e) ∧ e.inService n = false ∧ e.regBit HUB_TILE_EXIT n = true ∧
      (∀ m : Fin 32, m ≠ n → e.inService m = s.dev.inService m) ∧ (∀ i : Fin 72, e.seamUp i = s.dev.seamUp i)))

/-- R42, R43: tile `n`, in no serving group, in no model slot and in no load, leaves service while another stays and its compute island holds
nothing of others. It leaves HUB_TILE_INSERVICE, HUB_TILE_EXIT latches its bit, the event log takes the cause, its contents are gone. With its
seam island healthy no seam falls; else every seam of the tile does. A tile out of service stays as it is. -/
def Obligations.TileLeaves : Prop := ∀ (s : State) (n : Fin 32) (cause : Fin 3) (ok : Bool) (now : Nat), s.dev.frozen = false →
  (s.dev.inService n = true → s.dev.groupOf n = none → (∃ m : Fin 32, m ≠ n ∧ s.dev.inService m = true) → s.dev.delud n = Delud.reset →
    (s.dev.router n).early = [] → s.dev.res.job = none → (∀ k, k < 16 → s.dev.regBit (WTR_SLOT_TILES k) n = false) →
    ∃ e : Dev, exec (.tileExit n cause ok now) s = .next (s.put e) ∧ e.inService n = false ∧ e.regBit HUB_TILE_EXIT n = true ∧
      e.isPending 1 = true ∧ (∀ m : Fin 32, m ≠ n → e.inService m = s.dev.inService m ∧ e.tile m = s.dev.tile m) ∧
      e.tile n = Tile.reset ∧ e.getF (MEM_STATUS_MODE n) = 3 ∧
      smGet (fun _ => LogEntry.empty) e.log (s.dev.getN HUB_LOG_HEAD % 8192) =
        ⟨max s.dev.now now, s.dev.getN HUB_LOG_HEAD, 4, 0, n, 3 + cause, 0, 0⟩ ∧
      (ok = true → ∀ i : Fin 72, e.seamUp i = s.dev.seamUp i) ∧
      (ok = false → ∀ i : Fin 72, e.seamUp i = (s.dev.seamUp i && (portOfSeam n i).isNone)) ∧ e.out = s.dev.out) ∧
  (s.dev.inService n = false → exec (.tileExit n cause ok now) s = .next (s.put (s.dev.at_ now)))

/-- R471 to R475: a host job of a Stitch unit. GO of an idle unit with a kind of R473 starts it; while it is busy, and with a reserved kind,
nothing happens. A job of the hub's unit over host memory leaves the CRC of R471 in STC_RESULT, with STATE DONE and its event; a source the host did not
deliver ends it ERROR 3. A tile's unit reads its tile store, and ends ERROR 4 when the tile is out of service. With FOLD 0 the CRC is over the source alone.

R471: the check values of the two polynomials that the package uses, over the nine ASCII digits 1 to 9. -/
def Obligations.StitchJobs : Prop :=
  (∀ (s : State) (u : StcUnit) (kind : BitVec 2) (own : Bool) (data : List Byte) (now : Nat),
  let b := stcBase u
  let done (e : Dev) (l : List Byte) : Prop := e.getF (STC_STATUS_STATE b) = 3 ∧ e.regBit (STC_EVENT b) 0 = true ∧
    e.getPair (STC_RESULT_LO b) (STC_RESULT_HI b) = crcRun (s.dev.stcParams b) l % 2 ^ 64 ∧ e.tiles = s.dev.tiles ∧ e.out = s.dev.out
  let failed (e : Dev) (code : Nat) : Prop := e.getF (STC_STATUS_STATE b) = 4 ∧ e.getF (STC_STATUS_ERR b) = code ∧
    e.regBit (STC_EVENT b) 1 = true ∧ e.getR (STC_RESULT_LO b) = s.dev.getR (STC_RESULT_LO b) ∧ e.tiles = s.dev.tiles ∧ e.out = s.dev.out
  (s.dev.barOpen b = true → s.dev.stcBusy b = false → kind.toNat ≤ 1 → ∃ e : Dev, exec (.stitchGo u kind own) s = .next (s.put e) ∧
    e.stcBusy b = true ∧ e.getF (STC_CMD_KIND b) = kind.toNat ∧ e.getF (STC_STATUS_ERR b) = 0 ∧
    e.getF (STC_STATUS_STATE b) = (if own = true then 2 else 1) ∧ s.dev.keepsRegs e [STC_CMD b, STC_STATUS b] ∧ e = { s.dev with regs := e.regs }) ∧
  (s.dev.stcBusy b = true ∨ 1 < kind.toNat → exec (.stitchGo u kind own) s = .next s) ∧
  (s.dev.frozen = false → s.dev.stcBusy b = true → s.dev.stcFold b = 0 →
    (∀ v, u = .hub v → s.dev.getF (STC_CMD_KIND b) = 0 → s.dev.getN (STC_LEN b) = data.length → s.dev.stcSrc b + data.length ≤ 2 ^ 64 →
      (∃ e : Dev, exec (.stitchJobDone u (some data) [] now) s = .next (s.put e) ∧ done e data) ∧
      ∃ e : Dev, exec (.stitchJobDone u none [] now) s = .next (s.put e) ∧ failed e 3) ∧
    (∀ n : Fin 32, u = .tile n → s.dev.getF (STC_CMD_KIND b) = 1 →
      (s.dev.inService n = true → s.dev.lends n = false → s.dev.stcSrc b + s.dev.getN (STC_LEN b) ≤ 0x4000000 →
        ∃ e : Dev, exec (.stitchJobDone u none [] now) s = .next (s.put e) ∧
          done e (memBytes (s.dev.tile n).store (s.dev.stcSrc b) (s.dev.getN (STC_LEN b)))) ∧
      (s.dev.inService n = true → s.dev.lends n = false → 0x4000000 < s.dev.stcSrc b + s.dev.getN (STC_LEN b) →
        ∃ e : Dev, exec (.stitchJobDone u none [] now) s = .next (s.put e) ∧ failed e 1) ∧
      (s.dev.inService n = false → ∃ e : Dev, exec (.stitchJobDone u none [] now) s = .next (s.put e) ∧ failed e 4))) ∧
  (s.dev.frozen = false → s.dev.stcBusy b = false → exec (.stitchJobDone u (some data) [] now) s = .next (s.put (s.dev.at_ now)))) ∧
  (crc32c [0x31, 0x32, 0x33, 0x34, 0x35, 0x36, 0x37, 0x38, 0x39] = 0xE3069283 ∧
  crcRun ⟨32, 0x04C11DB7, 0xFFFFFFFF, true, true, 0xFFFFFFFF⟩ [0x31, 0x32, 0x33, 0x34, 0x35, 0x36, 0x37, 0x38, 0x39] = 0xCBF43926)

/-- R300, R303, R324: the doorbells and the queues' configuration. A tail doorbell of an enabled queue sets the tail, a value at or past the size latches
SRV_EVENT.BAD_DOORBELL, and a disabled queue takes none. A head doorbell frees what the host has consumed, and an entry that waited is posted
then, with its vector. BAR2's doorbell pages do the same; its ring takes the bytes written, a write of another size is Unsupported
Request. A queue is sized while it is disabled, and enabling it empties it.

R301, R303, R304, R318: the dispatcher cores read the entry at the head of a submission queue. A SUBMIT joins the admission list; one for a
group that this package does not lead is refused with status 0x21, detail 8, and an unknown opcode with detail 1, at once where its
completion queue has room. An entry for a disabled completion queue latches SRV_EVENT. A CANCEL marks every live request of its number; one that
names none is counted and latches. A sequence held for CQ_FULL past the bound latches CQ_STALL once. -/
def Obligations.SubmissionQueues : Prop :=
  (∀ (s : State) (q : Fin 64) (v : Word) (off : BitVec 25) (data : List Byte) (now : Nat), s.dev.frozen = false →
  let t := max s.dev.now now
  let size := s.dev.cqSize q
  let head := wordField v 15 0
  let used := (s.dev.cqTail q + size - head) % size
  (s.dev.sqOn q = false → exec (.sqTailDoorbell q v) s = .next s) ∧
  (s.dev.sqOn q = true → wordField v 11 0 < s.dev.sqSize q → exec (.sqTailDoorbell q v) s =
    .next (s.put { s.dev with srv := { s.dev.srv with sqTail := s.dev.srv.sqTail.set q (wordField v 11 0) } })) ∧
  (s.dev.sqOn q = true → s.dev.sqSize q ≤ wordField v 11 0 → ∃ e : Dev, exec (.sqTailDoorbell q v) s = .next (s.put e) ∧
    e.regBit SRV_EVENT 0 = true ∧ e = { s.dev with regs := e.regs, ages := e.ages }) ∧
  (s.dev.cqOn q = false → exec (.cqHeadDoorbell q v now) s = .next (s.put (s.dev.at_ now))) ∧
  (s.dev.cqOn q = true → size ≤ head → ∃ e : Dev, exec (.cqHeadDoorbell q v now) s = .next (s.put e) ∧ e.regBit SRV_EVENT 0 = true ∧
    e = { s.dev with regs := e.regs, ages := e.ages, now := t }) ∧
  (s.dev.cqOn q = true → head < size → (head + size - s.dev.srv.cqHead[q]) % size ≤ s.dev.cqUsed q →
    (s.dev.srv.due = [] → ∃ e : Dev, exec (.cqHeadDoorbell q v now) s = .next (s.put e) ∧
      e = { s.dev with regs := e.regs, srv := { s.dev.srv with cqHead := s.dev.srv.cqHead.set q head }, now := t }) ∧
    (∀ c : Comp, s.dev.srv.due = [c] → c.cq = q.val → s.dev.rst.hostDown = false → s.dev.cqHeld q = 0 → used < size - 1 →
      ∃ e : Dev, exec (.cqHeadDoorbell q v now) s = .next (s.put e) ∧ e.out = s.dev.out ++ [s.dev.compWrite c t] ∧ e.srv.due = [] ∧
        e.srv.cqHead[q] = head ∧ e.cqTail q = (if s.dev.cqTail q + 1 = size then 0 else (s.dev.cqTail q + 1) % 2 ^ 16) ∧
        e.isPending (64 + q) = true ∧ e.tiles = s.dev.tiles)) ∧
  (∀ w : Word, w.toNat = leVal data → data.length = 4 →
    (off.toNat = 0x1000000 + 0x1000 * q.val → exec (.bar2Write off data now) s = exec (.sqTailDoorbell q w) (s.put (s.dev.at_ now))) ∧
    (off.toNat = 0x1000000 + 0x1000 * q.val + 4 → exec (.bar2Write off data now) s = exec (.cqHeadDoorbell q w now) s)) ∧
  (off.toNat < 0x1000000 →
    ([4, 8, 16, 32, 64].contains data.length = true → off.toNat % data.length = 0 → ∃ e : Dev, exec (.bar2Write off data now) s = .next (s.put e) ∧
      (∀ a, memGet e.srv.ring a = if off.toNat ≤ a ∧ a < off.toNat + data.length then data.getD (a - off.toNat) 0 else memGet s.dev.srv.ring a) ∧
      e = { s.dev with srv := { s.dev.srv with ring := e.srv.ring }, now := t }) ∧
    ([4, 8, 16, 32, 64].contains data.length = false → exec (.bar2Write off data now) s = .next (s.put ((s.dev.at_ now).emit .unsupported)))) ∧
  (0x1040000 ≤ off.toNat → exec (.bar2Write off data now) s = .next (s.put (s.dev.at_ now))) ∧
  (s.dev.sqOn q = true → exec (.sqCfgWrite q v) s = .next (s.put (s.dev.setF (SRV_SQ_CFG_ENABLE q) (if v.getLsbD 31 then 1 else 0)))) ∧
  (s.dev.sqOn q = false → v.getLsbD 31 = false → exec (.sqCfgWrite q v) s = .next (s.put (s.dev.setF (SRV_SQ_CFG_SIZE q) (wordField v 2 0)))) ∧
  (s.dev.sqOn q = false → v.getLsbD 31 = true → ∃ e : Dev, exec (.sqCfgWrite q v) s = .next (s.put e) ∧ e.sqOn q = true ∧
    e.getF (SRV_SQ_CFG_SIZE q) = wordField v 2 0 ∧ e.getR (SRV_SQ_HEAD q) = 0 ∧ e.srv.sqTail[q] = 0 ∧
    s.dev.keepsRegs e [SRV_SQ_CFG q, SRV_SQ_HEAD q] ∧ e = { s.dev with regs := e.regs, srv := e.srv } ∧ e.srv.adm = s.dev.srv.adm) ∧
  (s.dev.cqOn q = true → ∃ e : Dev, exec (.cqCfgWrite q v now) s = .next (s.put e) ∧ e.cqOn q = v.getLsbD 31 ∧
    e.getF (SRV_CQ_CFG_VECTOR q) = wordField v 26 16 ∧ e.getF (SRV_CQ_CFG_SIZE q) = s.dev.getF (SRV_CQ_CFG_SIZE q) ∧
    s.dev.keepsRegs e [SRV_CQ_CFG q] ∧ e = { s.dev with regs := e.regs, now := t }) ∧
  (s.dev.cqOn q = false → s.dev.srv.due = [] → ∃ e : Dev, exec (.cqCfgWrite q v now) s = .next (s.put e) ∧ e.cqOn q = v.getLsbD 31 ∧
    e.getF (SRV_CQ_CFG_VECTOR q) = wordField v 26 16 ∧ e.getF (SRV_CQ_CFG_SIZE q) = wordField v 3 0 ∧
    (v.getLsbD 31 = true → e.getR (SRV_CQ_TAIL q) = 0x80000000 ∧ e.srv.cqHead[q] = 0) ∧
    (v.getLsbD 31 = false → e.getR (SRV_CQ_TAIL q) = s.dev.getR (SRV_CQ_TAIL q) ∧ e.srv = s.dev.srv) ∧
    e = { s.dev with regs := e.regs, srv := e.srv, now := t })) ∧
  (∀ (s : State) (q : Fin 64) (now : Nat) (e0 : SubEnt) (x : SeqEnt), s.dev.frozen = false →
  let t := max s.dev.now now
  let taken (e : Dev) : Prop := e.getF (SRV_SQ_HEAD_HEAD q) = e0.sqHead % 4096
  let refused (c : Instr) (det : Nat) : Prop := ∃ (e : Dev) (k : Comp), exec c s = .next (s.put e) ∧ taken e ∧ e.out = s.dev.out ++ [s.dev.compWrite k t] ∧
    k.cq = e0.cq.val ∧ k.req = e0.req ∧ k.status = 0x21 ∧ k.detail = det ∧ k.final = true ∧ k.tokenValid = false ∧ k.time = 0 ∧
    e.isPending (64 + e0.cq) = true ∧ e.srv.adm = s.dev.srv.adm ∧ e.tiles = s.dev.tiles
  let noQueue (c : Instr) : Prop := ∃ e : Dev, exec c s = .next (s.put e) ∧ taken e ∧ e.regBit SRV_EVENT 1 = true ∧ e.srv = s.dev.srv ∧
    e.out = s.dev.out ∧ e.tiles = s.dev.tiles
  ((s.dev.at_ now).nextSub q = none → ∀ c, c = .submit q now ∨ c = .badSubmissionOpcode q now ∨ c = .cancel q now →
    exec c s = .next (s.put (s.dev.at_ now))) ∧
  ((s.dev.at_ now).nextSub q = some e0 →
    (e0.op = 1 → s.dev.cqOn e0.cq = true → s.dev.flag (SRV_GROUP_STATE_LEAD e0.group) = true →
      ∃ e : Dev, exec (.submit q now) s = .next (s.put e) ∧ taken e ∧ s.dev.keepsRegs e [SRV_SQ_HEAD q] ∧
        e = { s.dev with regs := e.regs, srv := { s.dev.srv with adm := s.dev.srv.adm ++ [e0] }, now := t }) ∧
    (e0.op = 1 → s.dev.cqOn e0.cq = false → noQueue (.submit q now)) ∧
    (e0.op = 1 → s.dev.flag (SRV_GROUP_STATE_LEAD e0.group) = false → s.dev.cqRoom e0.cq ≠ 0 → s.dev.srv.due = [] →
      refused (.submit q now) 8) ∧
    (e0.op ≠ 1 → e0.op ≠ 2 → s.dev.cqOn e0.cq = false → noQueue (.badSubmissionOpcode q now)) ∧
    (e0.op ≠ 1 → e0.op ≠ 2 → s.dev.cqRoom e0.cq ≠ 0 → s.dev.srv.due = [] → refused (.badSubmissionOpcode q now) 1) ∧
    (e0.op = 2 → (∃ y ∈ s.dev.srv.seqs, y.sub.req = e0.req) ∨ (∃ y ∈ s.dev.srv.adm, y.req = e0.req) →
      ∃ e : Dev, exec (.cancel q now) s = .next (s.put e) ∧ taken e ∧ (∀ y ∈ e.srv.seqs, y.sub.req = e0.req → y.cancel.isSome = true) ∧
        (∀ y ∈ e.srv.adm, y.req = e0.req → y.cancel.isSome = true) ∧ e.srv.seqs.length = s.dev.srv.seqs.length ∧
        e.srv.adm.length = s.dev.srv.adm.length ∧ s.dev.keepsRegs e [SRV_SQ_HEAD q] ∧ e.out = s.dev.out ∧ e.tiles = s.dev.tiles) ∧
    (e0.op = 2 → (∀ y ∈ s.dev.srv.seqs, y.sub.req ≠ e0.req) → (∀ y ∈ s.dev.srv.adm, y.req ≠ e0.req) →
      ∃ e : Dev, exec (.cancel q now) s = .next (s.put e) ∧ taken e ∧ e.regBit SRV_EVENT 3 = true ∧ e.srv = s.dev.srv ∧
        e.getN SRV_CANCEL_UNKNOWN_COUNT = min (s.dev.getN SRV_CANCEL_UNKNOWN_COUNT + 1) 0xFFFFFFFF ∧ e.out = s.dev.out ∧ e.tiles = s.dev.tiles)) ∧
  (s.dev.seqEnt x.idx = some x →
    (∀ u, x.hold = 5 → x.stalled = false → x.cqSince = some u → u + s.dev.getF SRV_CQ_BOUND_MS * 1000000 < t →
      ∃ e : Dev, exec (.cqStall x.idx now) s = .next (s.put e) ∧ e.regBit SRV_EVENT 2 = true ∧
        (∀ y ∈ e.srv.seqs, y.idx = x.idx → y.stalled = true) ∧ e.srv.adm = s.dev.srv.adm ∧ e.out = s.dev.out ∧ e.tiles = s.dev.tiles) ∧
    (x.hold ≠ 5 ∨ x.stalled = true → exec (.cqStall x.idx now) s = .next (s.put (s.dev.at_ now)))))

/-- R302, R308, R314, R316: a boundary of a group whose only member is this package, with one sequence, in decode, that sampled a token. Its completion
is written to its queue's ring with the token and its new position, and the queue's vector is raised. The sequence goes on with one more
token, or ends LENGTH_LIMIT at MAX_LEN, leaves the table, and has an END entry in the order composed, which is of the next step. -/
def Obligations.TokenDelivered : Prop := ∀ (s : State) (g : Fin 4) (q : SeqEnt) (rp : StepRep) (tok now : Nat) (noRoom notReady prompt : List Nat),
  s.dev.frozen = false → s.dev.leadsRunning g = true → s.dev.followers g = [] → (s.dev.group g).report = some rp → (s.dev.group g).stop = none →
  s.dev.mbx.run = none → s.dev.rwb = [] → s.dev.srv.adm = [] → s.dev.srv.due = [] → s.dev.srv.seqs = [q] → q.group = g → q.state = 3 →
  (∃ r, q.run = some r ∧ r.prefill = false) → q.cancel = none → q.sub.deadline = 0 → q.idx < 16384 → s.dev.customers = [] →
  s.dev.exhausted q.sub.cust = false → rp.recs = [(1, q.idx, tok)] → s.dev.cqFree q.cq = true →
  let t := max s.dev.now now
  ∃ (e : Dev) (c : Comp) (o : StepOrder), exec (.stepBoundary g [] false noRoom notReady prompt now) s = .next (s.put e) ∧
    e.out = s.dev.out ++ [s.dev.compWrite c t] ∧ c.cq = q.cq.val ∧ c.req = q.sub.req ∧ c.tokenValid = true ∧ c.token = tok ∧ c.pos = q.pos + 1 ∧
    c.time = t ∧ e.isPending (64 + q.cq) = true ∧ (e.group g).report = none ∧ (e.group g).order = some o ∧ o.step = s.dev.gstep g + 1 ∧
    o.epoch = s.dev.groupEpoch g ∧
    (q.pos + 1 ≠ q.sub.maxLen → tok ≠ q.sub.stopTok → c.final = false ∧ ∃ x : SeqEnt, e.srv.seqs = [x] ∧ x.idx = q.idx ∧ x.sub = q.sub ∧
      x.state = 3 ∧ x.tokens = q.tokens + 1 ∧ x.prompt = q.prompt ∧ x.last = tok ∧ x.lastAt = t) ∧
    (q.pos + 1 = q.sub.maxLen → c.final = true ∧ c.status = 4 ∧ e.srv.seqs = [] ∧ plainEnt 2 q.idx ∈ o.entries) ∧ e.tiles = s.dev.tiles

/-- R307, R314, R315: boundaries of a group without a running step, 100 µs after one that composed nothing, and the order that a boundary leads to.
With nothing live and nothing submitted the boundary composes an order without a sequence, and the next try is 100 µs away. A submission that
passes every test of R307 becomes a QUEUED sequence, counted; one that fails a test is refused with its status and detail. A composed order goes to
every member no earlier than MINPERIOD, and at least 1 ms, after the one before. -/
def Obligations.RetriedBoundary : Prop := ∀ (s : State) (g : Fin 4) (e0 : SubEnt) (u now : Nat) (noRoom notReady prompt : List Nat),
  s.dev.frozen = false → s.dev.leadsRunning g = true →
  let t := max s.dev.now now
  let c : Instr := .boundaryRetry g false noRoom notReady prompt now
  ((s.dev.group g).retryAt = some u → (s.dev.group g).stop = none → s.dev.mbx.run = none → s.dev.rwb = [] → s.dev.srv.due = [] →
    s.dev.srv.seqs = [] →
    (t < u + 100000 → exec c s = .next (s.put (s.dev.at_ now))) ∧
    (u + 100000 ≤ t → s.dev.srv.adm = [] → ∃ (e : Dev) (o : StepOrder), exec c s = .next (s.put e) ∧ (e.group g).order = some o ∧
      o.step = s.dev.gstep g + 1 ∧ o.entries = ((s.dev.group g).order.map StepOrder.entries).getD [] ∧ (e.group g).retryAt = some t ∧
      e.srv.seqs = [] ∧ e = { s.dev with regs := e.regs, srv := e.srv, now := t }) ∧
    (u + 100000 ≤ t → s.dev.srv.adm = [e0] → e0.group = g → e0.cancel = none → e0.sq < 64 → s.dev.customers = [] →
      (s.dev.admissionTest e0 noRoom = none → ∃ (e : Dev) (x : SeqEnt), exec c s = .next (s.put e) ∧ e.srv.seqs = [x] ∧ x.sub = e0 ∧
        x.state = 1 ∧ x.prompt = 0 ∧ x.tokens = 0 ∧ x.idx = 0 ∧ e.srv.adm = [] ∧
        e.getN SRV_ADMIT_COUNT = (min (s.dev.getN SRV_ADMIT_COUNT + 1) 0xFFFFFFFF) ∧ e.out = s.dev.out ∧ e.tiles = s.dev.tiles) ∧
      (∀ st det, s.dev.admissionTest e0 noRoom = some (st, det) → s.dev.cqRoom e0.cq ≠ 0 → ∃ (e : Dev) (k : Comp), exec c s = .next (s.put e) ∧
        e.out = s.dev.out ++ [s.dev.compWrite k t] ∧ k.cq = e0.cq.val ∧ k.req = e0.req ∧ k.status = st ∧ k.detail = det ∧ k.final = true ∧
        k.tokenValid = false ∧ k.time = t ∧ e.srv.seqs = [] ∧ e.srv.adm = [] ∧ e.isPending (64 + e0.cq) = true ∧
        e.getN SRV_REFUSE_COUNT = min (s.dev.getN SRV_REFUSE_COUNT + 1) 0xFFFFFFFF ∧ e.tiles = s.dev.tiles))) ∧
  (∀ o, (s.dev.group g).order = some o → (s.dev.group g).retryAt = none →
    let due := (s.dev.group g).lastOrder + max 1000 (s.dev.getN (SRV_GROUP_MINPERIOD g)) * 1000
    (due ≤ t → ∃ e : Dev, exec (.stepOrderSend g now) s = .next (s.put e) ∧
      e.out = s.dev.out ++ (s.dev.group g).memberList.map (fun p => .mgmt p "STEP_ORDER" (orderArgs o)) ∧ (e.group g).order = none ∧
      (e.group g).lastOrder = t ∧ e.getN (SRV_GROUP_STEP_NS g) = min 0xFFFFFFFF (t - (s.dev.group g).lastOrder) ∧
      s.dev.keepsRegs e [SRV_GROUP_STEP_NS g] ∧ (∀ k, k ≠ g → e.group k = s.dev.group k) ∧ e.tiles = s.dev.tiles) ∧
    (t < due → exec (.stepOrderSend g now) s = .next (s.put (s.dev.at_ now))))

/-- R296, R298: GROUP_START and the joins. An unread descriptor ends the command with 0x57, one that breaks R296 with 0x30, a group that is STARTING,
RUNNING or PAUSED with 0x33. Where every check passes and the slot may be bound, the tiles of the mask hold their image; a follower is STARTING and
sends JOIN, a lead without other members is RUNNING at once under the next EPOCH, and the command ends DONE. A JOIN is held; the last
one that a lead awaits starts the group and sends the start order. Still STARTING after 1 s, the group is IDLE and the command fails 0x32. -/
def Obligations.GroupStart : Prop := ∀ (s : State) (g : Fin 4) (b i : List Byte) (img : Option (List Byte)) (now : Nat) (pkg : BitVec 17)
    (epoch : BitVec 16), s.dev.frozen = false →
  let t := max s.dev.now now
  let failed (e : Dev) (det : Nat) : Prop := e.mbxBusy = false ∧ e.getF HUB_MBX_STATUS_STATUS = 5 ∧ e.getF HUB_MBX_STATUS_DETAIL = det
  let d0 := (s.dev.mbxStart 0x0201).at_ now
  let secs : List (Fin 32 × List Byte × List (List Byte)) := ((List.finRange 32).filter fun n : Fin 32 => (descMask b).getLsbD n).filterMap
    fun n => (tileSection i n).map fun x => (n, x)
  (s.dev.mbxBusy = false → (∀ a, 3 ≤ a → a < 8 → s.dev.getN (HUB_MBX_P a) = 0) →
    (∃ e : Dev, exec (.groupStart now none img) s = .next (s.put e) ∧ failed e 0x57 ∧ e.srv = s.dev.srv ∧ e.tiles = s.dev.tiles) ∧
    (s.dev.descOk b (s.dev.getN (HUB_MBX_P 2)) = false → ∃ e : Dev, exec (.groupStart now (some b) img) s = .next (s.put e) ∧ failed e 0x30 ∧
      e.srv = s.dev.srv ∧ e.tiles = s.dev.tiles) ∧
    (s.dev.descOk b (s.dev.getN (HUB_MBX_P 2)) = true → g.val = bLe b 4 1 →
      (s.dev.gstate g = 1 ∨ s.dev.gstate g = 2 ∨ s.dev.gstate g = 5 → ∃ e : Dev, exec (.groupStart now (some b) img) s = .next (s.put e) ∧
        failed e 0x33 ∧ e.gstate g = s.dev.gstate g ∧ e.srv = s.dev.srv ∧ e.tiles = s.dev.tiles) ∧
      (s.dev.gstate g = 0 → d0.startCheck g b (some i) = none →
        (secs.foldl (fun d x => d.loadTile x.1 x.2.2) d0).bindOk (bLe b 5 1) (bLe b 0x2A 1) = true →
        ∃ e : Dev, exec (.groupStart now (some b) (some i)) s = .next (s.put e) ∧
          (∃ c : GroupCfg, (e.group g).cfg = some c ∧ c.lead = bLe b 8 4 ∧ c.members = descMembers b ∧ c.tiles = descMask b ∧
            c.slot = bLe b 5 1 ∧ c.ctx = bLe b 0x2A 1) ∧ e.slotState (bLe b 5 1) = 4 ∧
          (∀ x ∈ secs, ∀ (a f c r st : List Byte), x.2.2 = [a, f, c, r, st] → (e.tile x.1).imem = memOf 0 a ++ memOf 0x400000 f ∧
            (e.tile x.1).pages = [] ∧ e.getF (TCTL_PASS_STATUS_STATE x.1) = 0 ∧ e.getR (QNT_LFSR_STATE x.1) = s.dev.getR (QNT_LFSR_SEED x.1)) ∧
          (bLe b 8 4 ≠ s.dev.self → e.gstate g = 1 ∧ e.isLead g = false ∧ e.mbxBusy = true ∧ (e.group g).startAt = t ∧
            ∃ l, e.out = l ++ [.mgmt (bLe b 8 4) "JOIN" [g, s.dev.self, s.dev.groupEpoch g]]) ∧
          (descMembers b = [s.dev.self] → e.gstate g = 2 ∧ e.isLead g = true ∧ e.groupEpoch g = (s.dev.groupEpoch g + 1) % 65536 ∧
            e.mbxBusy = false ∧ e.getF HUB_MBX_STATUS_STATUS = 2 ∧ (e.group g).retryAt = some t ∧
            (∀ n ∈ e.groupTiles g, e.getF (XPT_CTRL_EPOCH n) = (s.dev.groupEpoch g + 1) % 65536))))) ∧
  (s.dev.gstate g = 0 → ∃ e : Dev, exec (.join g pkg epoch now) s = .next (s.put e) ∧ (pkg.toNat, epoch.toNat) ∈ (e.group g).joins ∧
    e.regs = s.dev.regs ∧ e.out = s.dev.out ∧ e.tiles = s.dev.tiles ∧ ∀ k, k ≠ g → e.group k = s.dev.group k) ∧
  (s.dev.gstate g = 1 → s.dev.isLead g = true → s.dev.followers g = [pkg.toNat] → (s.dev.group g).joins = [] →
    ∃ (e : Dev) (o : StepOrder), exec (.join g pkg epoch now) s = .next (s.put e) ∧ e.gstate g = 2 ∧
      e.groupEpoch g = (max (s.dev.groupEpoch g) epoch.toNat + 1) % 65536 ∧ o.epoch = e.groupEpoch g ∧ o.flags = 4 ∧ o.entries = [] ∧
      e.out = s.dev.out ++ [.mgmt pkg.toNat "STEP_ORDER" (orderArgs o)] ∧ e.getF HUB_MBX_STATUS_STATUS = 2 ∧ e.mbxBusy = false ∧
      e.getF (SRV_GROUP_SHARE_S g) = s.dev.getF (SRV_GROUP_SHARE_S_MIN g) ∧ e.tiles = s.dev.tiles) ∧
  (s.dev.gstate g = 2 → exec (.join g pkg epoch now) s = .next (s.put (s.dev.at_ now))) ∧
  (s.dev.gstate g = 1 → (s.dev.group g).startAt + 1000000000 ≤ t → ∃ e : Dev, exec (.joinTimeout g now) s = .next (s.put e) ∧
    e.gstate g = 0 ∧ e.isLead g = false ∧ failed e 0x32 ∧ (e.group g) = Group.reset ∧ e.tiles = s.dev.tiles ∧ e.out = s.dev.out) ∧
  (s.dev.gstate g ≠ 1 ∨ t < (s.dev.group g).startAt + 1000000000 → exec (.joinTimeout g now) s = .next (s.put (s.dev.at_ now)))

/-- R297, R299, R320: how a group stops. GROUP_STOP of a STOPPED or HALTED group makes it IDLE, of an IDLE or STARTING one ends DONE with nothing done,
and of one that still holds sequences or submissions fails 0x34 without FORCE. With FORCE a follower's group is IDLE at once, and a lead's running
group waits for its boundary. A stop order, and the lead's silence past LEAD_TIMEOUT, take a follower's group out of RUNNING: STOPPED, or HALTED where the
order says so, and its tiles' passes with it. The lead takes no stop order. -/
def Obligations.GroupStop : Prop := ∀ (s : State) (g : Fin 4) (now : Nat) (force halt : Bool), s.dev.frozen = false →
  let t := max s.dev.now now
  let cmd : Instr := if force then .groupStopForce now else .groupStop now
  (s.dev.mbxBusy = false → s.dev.getN (HUB_MBX_P 0) = g.val * 2 ^ 30 + (if force then 2 ^ 29 else 0) →
    (∀ a, 1 ≤ a → a < 8 → s.dev.getN (HUB_MBX_P a) = 0) →
    let ends (e : Dev) : Prop := e.mbxBusy = false ∧ e.getF HUB_MBX_STATUS_STATUS = 2 ∧ e.getF HUB_MBX_STATUS_CODE = 0x0202
    exec (if force then .groupStop now else .groupStopForce now) s = .next s ∧
    (s.dev.gstate g = 3 ∨ s.dev.gstate g = 4 → ∃ e : Dev, exec cmd s = .next (s.put e) ∧ ends e ∧ e.gstate g = 0 ∧ e.isLead g = false ∧
      e.group g = Group.reset ∧ (∀ k, k ≠ g → e.group k = s.dev.group k) ∧ e.tiles = s.dev.tiles ∧ e.out = s.dev.out) ∧
    (s.dev.gstate g < 2 → ∃ e : Dev, exec cmd s = .next (s.put e) ∧ ends e ∧ e.gstate g = s.dev.gstate g ∧ e.srv = s.dev.srv ∧
      e.tiles = s.dev.tiles ∧ e.out = s.dev.out) ∧
    (s.dev.gstate g = 2 ∨ s.dev.gstate g = 5 →
      (force = false → s.dev.groupHolds g = true → ∃ e : Dev, exec cmd s = .next (s.put e) ∧ e.mbxBusy = false ∧
        e.getF HUB_MBX_STATUS_STATUS = 5 ∧ e.getF HUB_MBX_STATUS_DETAIL = 0x34 ∧ e.gstate g = s.dev.gstate g ∧ e.srv = s.dev.srv ∧
        e.tiles = s.dev.tiles) ∧
      (s.dev.isLead g = false → (force = true ∨ s.dev.groupHolds g = false) → ∃ e : Dev, exec cmd s = .next (s.put e) ∧ ends e ∧
        e.gstate g = 0 ∧ e.group g = Group.reset ∧ (∀ k, k ≠ g → e.group k = s.dev.group k)) ∧
      (force = true → s.dev.leadsRunning g = true → ∃ e : Dev, exec cmd s = .next (s.put e) ∧ e.mbxBusy = true ∧ e.stopPending g = true ∧
        e.gstate g = 2 ∧ e.srv = s.dev.srv ∧ e.tiles = s.dev.tiles))) ∧
  let left (e : Dev) (st : Nat) : Prop := e.gstate g = st ∧ (e.group g).cfg = (s.dev.group g).cfg ∧ (e.group g).order = none ∧
    (∀ n ∈ s.dev.groupTiles g, (e.seq n).released = none ∧ e.getF (TCTL_PASS_STATUS_STATE n) = (if st = 4 then 3 else 0) ∧ (e.tile n).pages = [] ∧
      (e.tile n).binTab = [] ∧ e.getN (MEM_KV_RESERVED n) = 0) ∧ (∀ k, k ≠ g → e.group k = s.dev.group k)
  (s.dev.isLead g = false → s.dev.gstate g = 2 ∨ s.dev.gstate g = 5 → ∃ e : Dev, exec (.stopOrder g halt now) s = .next (s.put e) ∧
    left e (if halt then 4 else 3)) ∧
  (s.dev.isLead g = true → exec (.stopOrder g halt now) s = .next (s.put (s.dev.at_ now)) ∧
    exec (.leadTimeout g now) s = .next (s.put (s.dev.at_ now))) ∧
  (∀ u, s.dev.isLead g = false → s.dev.gstate g = 2 → (s.dev.group g).waitFrom = some u →
    let bound := u + max 10 (s.dev.getF (SRV_GROUP_LEAD_TIMEOUT_MS g)) * 1000000
    (bound ≤ t → ∃ e : Dev, exec (.leadTimeout g now) s = .next (s.put e) ∧ left e 3 ∧ e.regBit SRV_EVENT 4 = true) ∧
    (t < bound → exec (.leadTimeout g now) s = .next (s.put (s.dev.at_ now))))

/-- R298, R312, R313, R314, R512: a step at a member. The accepted pass gives one step report: the tiles' overflow values and records, which a follower sends to
the lead. A start order makes a STARTING follower RUNNING under the order's EPOCH. The order of a step sets the group's step number and the
sequences that take part, and releases every tile of the group for pass 0; one of another EPOCH does nothing. A pause order makes a
follower PAUSED without releasing a tile; the last report that damage is cleared makes the lead's group RUNNING. -/
def Obligations.StepAtMember : Prop := ∀ (s : State) (g : Fin 4) (o : StepOrder) (recs : List (Nat × Nat × Nat)) (pkg : BitVec 17) (now : Nat)
    (v : Vote), s.dev.frozen = false →
  let t := max s.dev.now now
  let idle (c : Instr) : Prop := exec c s = .next (s.put (s.dev.at_ now))
  (s.dev.gstate g = 2 → (s.dev.group g).reported = false → (s.dev.group g).decision = some (0, v) →
    ∃ (e : Dev) (r : StepRep), exec (.stepReport g recs now) s = .next (s.put e) ∧ (e.group g).report = some r ∧ (e.group g).reported = true ∧
      r.pkg = s.dev.self ∧ (∀ x ∈ recs, x ∈ r.recs) ∧ (∀ n ∈ s.dev.groupTiles g, (e.tile n).recs = [] ∧
        (∀ x ∈ (s.dev.tile n).recs, (x.1, x.2, 0) ∈ r.recs) ∧ (e.tile n).store = (s.dev.tile n).store) ∧
      (s.dev.isLead g = true → e.out = s.dev.out) ∧
      (s.dev.isLead g = false → e.out = s.dev.out ++ [.mgmt (s.dev.group g).leadPkg "STEP_REPORT" (reportArgs g r)] ∧
        (e.group g).waitFrom = some t) ∧ (∀ k, k ≠ g → e.group k = s.dev.group k) ∧ e.regs = s.dev.regs) ∧
  (s.dev.gstate g ≠ 2 ∨ (s.dev.group g).reported = true → idle (.stepReport g recs now)) ∧
  (o.group = g.val →
    (o.flags = 4 → s.dev.gstate g = 1 → s.dev.isLead g = false → ∃ e : Dev, exec (.stepOrder o [] [] [] now) s = .next (s.put e) ∧
      e.gstate g = 2 ∧ e.groupEpoch g = o.epoch % 65536 ∧ (∀ n ∈ s.dev.groupTiles g, e.getF (XPT_CTRL_EPOCH n) = o.epoch % 65536) ∧
      e.getF HUB_MBX_STATUS_STATUS = 2 ∧ e.mbxBusy = false ∧ e.tiles = s.dev.tiles ∧ e.out = s.dev.out) ∧
    (o.flags < 2 → s.dev.gstate g = 2 → o.epoch = s.dev.groupEpoch g → s.dev.rwb = [] → ∃ e : Dev,
      exec (.stepOrder o [] [] [] now) s = .next (s.put e) ∧ e.gstep g = o.step % 2 ^ 48 ∧ (e.group g).part = ordSeqs o 0 ++ ordSeqs o 1 ∧
      (e.group g).pass = 0 ∧ (e.group g).decision = none ∧ (e.group g).reported = false ∧ e.gstate g = 2 ∧
      (∀ n ∈ s.dev.groupTiles g, (e.seq n).released = some ⟨false, false⟩ ∧ e.getF (QNT_STEP_STATUS_PASS n) = 0 ∧
        (∀ q ∈ ordSeqs o 2, ∀ p ∈ (e.tile n).pages, p.seq ≠ q) ∧ (e.tile n).imem = (s.dev.tile n).imem) ∧
      (∀ k, k ≠ g → e.group k = s.dev.group k)) ∧
    (o.flags = 0 → s.dev.gstate g ≠ 2 ∨ o.epoch ≠ s.dev.groupEpoch g → idle (.stepOrder o [] [] [] now)) ∧
    (s.dev.isLead g = false → s.dev.gstate g = 2 → o.epoch = s.dev.groupEpoch g → ∃ e : Dev,
      exec (.pauseOrder o now) s = .next (s.put e) ∧ e.gstate g = 5 ∧ (e.group g).waitFrom = none ∧
      (∀ n ∈ s.dev.groupTiles g, (e.seq n).released = (s.dev.seq n).released ∧ (∀ b ∈ (e.tile n).binTab, b.again = true) ∧
        (∀ q ∈ ordSeqs o 2, ∀ p ∈ (e.tile n).pages, p.seq ≠ q)) ∧ (∀ k, k ≠ g → e.group k = s.dev.group k)) ∧
    (s.dev.isLead g = true → idle (.pauseOrder o now))) ∧
  (4 ≤ o.group → idle (.stepOrder o [] [] [] now) ∧ idle (.pauseOrder o now)) ∧
  (s.dev.gstate g ≠ 5 ∨ s.dev.isLead g = false → idle (.damageClearedReport g pkg [] [] [] now)) ∧
  (s.dev.gstate g = 5 → s.dev.isLead g = true → ∀ m, m ∈ (s.dev.group g).memberList → m ≠ s.dev.self → m ≠ pkg.toNat →
    m ∉ (s.dev.group g).cleared → ∃ e : Dev, exec (.damageClearedReport g pkg [] [] [] now) s = .next (s.put e) ∧
      (e.group g).cleared = (s.dev.group g).cleared ++ [pkg.toNat] ∧ e.regs = s.dev.regs ∧ e.out = s.dev.out ∧ e.tiles = s.dev.tiles) ∧
  (s.dev.gstate g = 5 → s.dev.isLead g = true → (s.dev.group g).memberList = [s.dev.self, pkg.toNat] → pkg.toNat ≠ s.dev.self →
    s.dev.flag (WTR_SLOT_STATE_DAMAGED (s.dev.gcfg g).slot) = false → (s.dev.group g).stop = none → s.dev.mbx.run = none → s.dev.rwb = [] →
    s.dev.srv.adm = [] → s.dev.srv.seqs = [] → s.dev.srv.due = [] → ∃ (e : Dev) (x : StepOrder),
      exec (.damageClearedReport g pkg [] [] [] now) s = .next (s.put e) ∧ e.gstate g = 2 ∧ (e.group g).cleared = [] ∧
      (e.group g).order = some x ∧ x.step = s.dev.gstep g + 1 ∧ e.out = s.dev.out ∧ e.tiles = s.dev.tiles)
end

