-- ==== Sys2Proof/Laws/State.lean ====
section
/-! SUPPORT. One lemma per field and update of the state, each true by rfl. -/

namespace Sys2Proof.Laws.State

open Sys2Proof.Machine

@[simp] theorem regs_set (d : Dev) (v : SMap Word) : ({ d with regs := v } : Dev).regs = v := rfl
@[simp] theorem rwb_set (d : Dev) (v : List RwbVal) : ({ d with rwb := v } : Dev).rwb = v := rfl
@[simp] theorem ages_set (d : Dev) (v : SMap Nat) : ({ d with ages := v } : Dev).ages = v := rfl
@[simp] theorem log_set (d : Dev) (v : SMap LogEntry) : ({ d with log := v } : Dev).log = v := rfl
@[simp] theorem now_set (d : Dev) (v : Nat) : ({ d with now := v } : Dev).now = v := rfl
@[simp] theorem msix_set (d : Dev) (v : Msix) : ({ d with msix := v } : Dev).msix = v := rfl
@[simp] theorem maskOld_set (d : Dev) (v : SMap Word) : ({ d with maskOld := v } : Dev).maskOld = v := rfl
@[simp] theorem msixOld_set (d : Dev) (v : Option Msix) : ({ d with msixOld := v } : Dev).msixOld = v := rfl
@[simp] theorem out_set (d : Dev) (v : List Output) : ({ d with out := v } : Dev).out = v := rfl
@[simp] theorem pw_set (d : Dev) (v : Power) : ({ d with pw := v } : Dev).pw = v := rfl
@[simp] theorem sb_set (d : Dev) (v : Sideband) : ({ d with sb := v } : Dev).sb = v := rfl
@[simp] theorem panel_set (d : Dev) (v : Panel) : ({ d with panel := v } : Dev).panel = v := rfl
@[simp] theorem boot_set (d : Dev) (v : Boot) : ({ d with boot := v } : Dev).boot = v := rfl
@[simp] theorem trust_set (d : Dev) (v : Trust) : ({ d with trust := v } : Dev).trust = v := rfl
@[simp] theorem mbx_set (d : Dev) (v : Mailbox) : ({ d with mbx := v } : Dev).mbx = v := rfl
@[simp] theorem jtag_set (d : Dev) (v : Jtag) : ({ d with jtag := v } : Dev).jtag = v := rfl
@[simp] theorem tiles_set (d : Dev) (v : Vector Tile 32) : ({ d with tiles := v } : Dev).tiles = v := rfl
@[simp] theorem fab_set (d : Dev) (v : Fabric) : ({ d with fab := v } : Dev).fab = v := rfl
@[simp] theorem gw_set (d : Dev) (v : Gateway) : ({ d with gw := v } : Dev).gw = v := rfl
@[simp] theorem hubBufs_set (d : Dev) (v : List (Owner × Nat × List Byte)) : ({ d with hubBufs := v } : Dev).hubBufs = v := rfl
@[simp] theorem srv_set (d : Dev) (v : Serve) : ({ d with srv := v } : Dev).srv = v := rfl
@[simp] theorem res_set (d : Dev) (v : Resid) : ({ d with res := v } : Dev).res = v := rfl
@[simp] theorem rst_set (d : Dev) (v : Rst) : ({ d with rst := v } : Dev).rst = v := rfl
@[simp] theorem free_set (d : Dev) (v : Nat) : ({ d with free := v } : Dev).free = v := rfl
@[simp] theorem state_pending_of_pending (s : State) (v : List Instr) : ({ s with pending := v } : State).pending = v := rfl
@[simp] theorem state_flash_of_pending (s : State) (v : List Instr) : ({ s with pending := v } : State).flash = s.flash := rfl
@[simp] theorem state_dev_of_pending (s : State) (v : List Instr) : ({ s with pending := v } : State).dev = s.dev := rfl
@[simp] theorem state_pending_of_flash (s : State) (v : Flash) : ({ s with flash := v } : State).pending = s.pending := rfl
@[simp] theorem state_flash_of_flash (s : State) (v : Flash) : ({ s with flash := v } : State).flash = v := rfl
@[simp] theorem state_dev_of_flash (s : State) (v : Flash) : ({ s with flash := v } : State).dev = s.dev := rfl
@[simp] theorem state_pending_of_dev (s : State) (v : Dev) : ({ s with dev := v } : State).pending = s.pending := rfl
@[simp] theorem state_flash_of_dev (s : State) (v : Dev) : ({ s with dev := v } : State).flash = s.flash := rfl
@[simp] theorem state_dev_of_dev (s : State) (v : Dev) : ({ s with dev := v } : State).dev = v := rfl

end Sys2Proof.Laws.State
end

section
/-! What a plain write of a register does field by field (R12, R13, R15, R455), the read of a register pair (R9), an unmapped
write (R11, R491) and a malformed BAR0 request (R8). -/

namespace Sys2Proof.Machine

open Reg

/-! The fields of one register. -/

/-- Two fields of a register share no bit. -/
def FieldDesc.apart (f g : FieldDesc) : Prop := g.hi < f.lo ∨ f.hi < g.lo

theorem fieldsOk_iff (l : List FieldDesc) :
    fieldsOk l = true ↔ (∀ f ∈ l, f.hi < 32 ∧ f.lo ≤ f.hi) ∧ l.Pairwise FieldDesc.apart := by
  induction l with
  | nil => simp [fieldsOk]
  | cons f t ih =>
    simp only [fieldsOk, Bool.and_eq_true, decide_eq_true_eq, List.all_eq_true, Bool.or_eq_true, ih, List.forall_mem_cons,
      List.pairwise_cons, FieldDesc.apart]
    tauto

/-- A field of a register is apart from those before it and those after it. -/
theorem fieldsOk_split {a b : List FieldDesc} {f : FieldDesc} (h : fieldsOk (a ++ f :: b) = true) :
    (∀ g ∈ a, f.apart g) ∧ (∀ g ∈ b, f.apart g) := by
  obtain ⟨-, hp⟩ := (fieldsOk_iff _).mp h
  obtain ⟨-, hfb, hab⟩ := List.pairwise_append.mp hp
  exact ⟨fun g hg => (hab g hg f (by simp)).symm, (List.pairwise_cons.mp hfb).1⟩

/-! What BAR0 shows of a field: its value and the values pending for it. -/

/-- The pending values of field `f` of the register at `o`. -/
def Dev.pendingOf (d : Dev) (o : Nat) (f : FieldDesc) : List RwbVal :=
  d.rwb.filter fun x => x.off == o && x.hi == f.hi && x.lo == f.lo

/-- The value of field `f` of the register at `o`, and its pending values. -/
def Dev.fieldView (d : Dev) (o : Nat) (f : FieldDesc) : Nat × List RwbVal := (d.getF ⟨o, f.hi, f.lo⟩, d.pendingOf o f)

/-- A field takes the value written, and its pending values stay. -/
theorem fieldView_setF_self (d : Dev) (o : Nat) (f : FieldDesc) (v : Nat) (hf : f.hi < 32) :
    (d.setF ⟨o, f.hi, f.lo⟩ v).fieldView o f = (v % 2 ^ (f.hi + 1 - f.lo), d.pendingOf o f) := by
  simp only [Dev.fieldView, Dev.pendingOf, rwb_setF]
  rw [getF_setF_self d ⟨o, f.hi, f.lo⟩ v hf]

/-- A value held for a field replaces those held before (R13). -/
theorem fieldView_hold_self (d : Dev) (o : Nat) (f : FieldDesc) (v t : Nat) :
    (d.hold ⟨o, f.hi, f.lo⟩ v t).fieldView o f = (d.getF ⟨o, f.hi, f.lo⟩, [⟨o, f.hi, f.lo, v, t⟩]) := by
  have hearlier : (d.rwb.filter fun e => ¬ (e.off = o ∧ e.hi = f.hi ∧ e.lo = f.lo)).filter
      (fun x => x.off == o && x.hi == f.hi && x.lo == f.lo) = [] := by
    simp only [List.filter_filter, List.filter_eq_nil_iff]
    intro x _
    simp
    tauto
  simp only [Dev.fieldView, Dev.pendingOf, Dev.hold, List.filter_append, hearlier]
  simp [Dev.getF, Dev.getR]

theorem fieldView_setF_apart (d : Dev) (o : Nat) (f g : FieldDesc) (v : Nat) (hf : f.hi < 32) (h : f.apart g) :
    (d.setF ⟨o, g.hi, g.lo⟩ v).fieldView o f = d.fieldView o f := by
  simp only [Dev.fieldView, Dev.pendingOf, rwb_setF]
  rw [getF_setF_ne d ⟨o, g.hi, g.lo⟩ ⟨o, f.hi, f.lo⟩ v hf (.inr h.symm)]

theorem fieldView_hold_apart (d : Dev) (o : Nat) (f g : FieldDesc) (v t : Nat) (hf : f.lo ≤ f.hi) (h : f.apart g) :
    (d.hold ⟨o, g.hi, g.lo⟩ v t).fieldView o f = d.fieldView o f := by
  have hne : ¬ (g.hi = f.hi ∧ g.lo = f.lo) := by unfold FieldDesc.apart at h; omega
  simp only [Dev.fieldView, Dev.pendingOf, Dev.hold, List.filter_append, List.filter_filter, Prod.mk.injEq]
  refine ⟨rfl, ?_⟩
  rw [List.filter_cons_of_neg (by simp; omega), List.filter_nil, List.append_nil]
  refine List.filter_congr fun x _ => ?_
  by_cases hx : x.hi = f.hi ∧ x.lo = f.lo
  · have : ¬ (x.hi = g.hi ∧ x.lo = g.lo) := by omega
    simp [this]
  · simp; tauto

/-! One field of a plain write. -/

/-- What a write can do to one field: nothing, take the value, or hold it as pending. -/
theorem writeField_cases (d : Dev) (o : Nat) (f : FieldDesc) (v : Nat) :
    d.writeField o f v = d ∨ (f.acc = .rw ∨ f.acc = .rwb) ∧
      (d.writeField o f v = d.setF ⟨o, f.hi, f.lo⟩ v ∨ d.writeField o f v = d.hold ⟨o, f.hi, f.lo⟩ v d.now) := by
  unfold Dev.writeField
  split
  · exact .inl rfl
  · cases hacc : f.acc with
    | rw => exact .inr ⟨by simp, .inl rfl⟩
    | rwb =>
      dsimp only
      split
      · exact .inr ⟨by simp, .inl rfl⟩
      · exact .inr ⟨by simp, .inr rfl⟩
    | ro | wo | sqc => exact .inl rfl

section Unlocked
variable {o : Nat} {f : FieldDesc} {v : Nat} (d : Dev) (hown : ownField o f.hi = false) (hlock : fieldLocked o f v = false)
include hown hlock

theorem writeField_of_takesNow (h : takesNow o f) : d.writeField o f v = d.setF ⟨o, f.hi, f.lo⟩ v := by
  unfold Dev.writeField
  obtain h | ⟨h, h8⟩ := h <;> simp [*]

theorem writeField_of_rwb (h : f.acc = .rwb) (h8 : o / 0x100000 ≠ 8) :
    d.writeField o f v = d.hold ⟨o, f.hi, f.lo⟩ v d.now := by
  unfold Dev.writeField
  simp [*]

end Unlocked

/-- The part of a plain write of `v` at `o` that meets field `f`: a PRV- field takes it from a privileged master only (R15). -/
def Dev.putField (ok : Bool) (o : Nat) (v : Word) (d : Dev) (f : FieldDesc) : Dev :=
  if f.prv ∧ ¬ ok then d else d.writeField o f (wordField v f.hi f.lo)

/-- A field that discards what is written: it has no writable code, or it is PRV- and the master is not privileged. -/
def FieldDesc.discards (f : FieldDesc) (ok : Bool) : Prop :=
  f.acc = .ro ∨ f.acc = .wo ∨ f.acc = .sqc ∨ (f.prv = true ∧ ok = false)

theorem putField_of_discards (ok : Bool) (o : Nat) (v : Word) (d : Dev) {f : FieldDesc} (h : f.discards ok) :
    d.putField ok o v f = d := by
  unfold Dev.putField
  split
  · rfl
  · next hprv =>
    obtain hd | ⟨hacc, -⟩ := writeField_cases d o f (wordField v f.hi f.lo)
    · exact hd
    · obtain h | h | h | h := h <;> simp_all

theorem putField_of_allowed {ok : Bool} (o : Nat) (v : Word) (d : Dev) {f : FieldDesc} (h : f.prv = true → ok = true) :
    d.putField ok o v f = d.writeField o f (wordField v f.hi f.lo) := by
  unfold Dev.putField
  exact if_neg fun hp => hp.2 (h hp.1)

/-- What a write can do where it meets one field. -/
theorem putField_cases (ok : Bool) (o : Nat) (v : Word) (d : Dev) (f : FieldDesc) :
    d.putField ok o v f = d ∨ (∃ x, d.putField ok o v f = d.setF ⟨o, f.hi, f.lo⟩ x) ∨
      ∃ x t, d.putField ok o v f = d.hold ⟨o, f.hi, f.lo⟩ x t := by
  unfold Dev.putField
  split
  · exact .inl rfl
  · obtain h | ⟨-, h | h⟩ := writeField_cases d o f (wordField v f.hi f.lo)
    · exact .inl h
    · exact .inr (.inl ⟨_, h⟩)
    · exact .inr (.inr ⟨_, _, h⟩)

theorem putField_view_apart (ok : Bool) (o : Nat) (v : Word) (d : Dev) {f g : FieldDesc} (hf : f.hi < 32 ∧ f.lo ≤ f.hi)
    (h : f.apart g) : (d.putField ok o v g).fieldView o f = d.fieldView o f := by
  obtain hp | ⟨x, hp⟩ | ⟨x, t, hp⟩ := putField_cases ok o v d g <;> rw [hp]
  · exact fieldView_setF_apart d o f g x hf.1 h
  · exact fieldView_hold_apart d o f g x t hf.2 h

/-! What a write leaves unchanged. -/

/-- Beside registers, pending values and the masking window, `e` is `d`. -/
def Dev.sameBesideRegs (d e : Dev) : Prop := e = { d with regs := e.regs, rwb := e.rwb, maskOld := e.maskOld }

theorem Dev.sameBesideRegs.refl {d : Dev} : d.sameBesideRegs d := by cases d; exact Eq.refl _

theorem Dev.sameBesideRegs.trans {d e x : Dev} (h : d.sameBesideRegs e) (g : e.sameBesideRegs x) : d.sameBesideRegs x := by
  unfold Dev.sameBesideRegs at *
  rw [g, h]

theorem Dev.sameBesideRegs.fields {d e : Dev} (h : d.sameBesideRegs e) :
    e.now = d.now ∧ e.out = d.out ∧ e.tiles = d.tiles ∧ e.srv = d.srv ∧ e.log = d.log := by
  unfold Dev.sameBesideRegs at h
  rw [h]
  simp

theorem sameBesideRegs_setF (d : Dev) (f : Fld) (v : Nat) : d.sameBesideRegs (d.setF f v) := by cases d; rfl
theorem sameBesideRegs_hold (d : Dev) (f : Fld) (v t : Nat) : d.sameBesideRegs (d.hold f v t) := by cases d; rfl
theorem sameBesideRegs_deny (d : Dev) (o : Nat) : d.sameBesideRegs (d.deny o) := by cases d; rfl

theorem putField_frame (ok : Bool) (o : Nat) (v : Word) (d : Dev) (f : FieldDesc) :
    d.sameBesideRegs (d.putField ok o v f) ∧ ∀ p, p ≠ o → (d.putField ok o v f).getR p = d.getR p := by
  obtain h | ⟨x, h⟩ | ⟨x, t, h⟩ := putField_cases ok o v d f <;> rw [h]
  · exact ⟨.refl, fun _ _ => rfl⟩
  · exact ⟨sameBesideRegs_setF _ _ _, fun p hp => by rw [getR_setF, if_neg hp]⟩
  · exact ⟨sameBesideRegs_hold _ _ _ _, fun _ _ => rfl⟩

/-! All fields of a plain write. -/

/-- A plain write of `v` at `o` meets the fields `l` one after the other. -/
def Dev.putFields (ok : Bool) (o : Nat) (v : Word) (l : List FieldDesc) (d : Dev) : Dev := l.foldl (Dev.putField ok o v) d

theorem putFields_frame (ok : Bool) (o : Nat) (v : Word) (l : List FieldDesc) (d : Dev) :
    d.sameBesideRegs (d.putFields ok o v l) ∧ ∀ p, p ≠ o → (d.putFields ok o v l).getR p = d.getR p := by
  induction l generalizing d with
  | nil => exact ⟨.refl, fun _ _ => rfl⟩
  | cons f t ih =>
    obtain ⟨h1, h2⟩ := putField_frame ok o v d f
    obtain ⟨h3, h4⟩ := ih (d.putField ok o v f)
    exact ⟨h1.trans h3, fun p hp => (h4 p hp).trans (h2 p hp)⟩

theorem putFields_view_apart (ok : Bool) (o : Nat) (v : Word) (l : List FieldDesc) (d : Dev) {f : FieldDesc}
    (hf : f.hi < 32 ∧ f.lo ≤ f.hi) (h : ∀ g ∈ l, f.apart g) : (d.putFields ok o v l).fieldView o f = d.fieldView o f := by
  induction l generalizing d with
  | nil => rfl
  | cons g t ih =>
    rw [List.forall_mem_cons] at h
    exact (ih (d.putField ok o v g) h.2).trans (putField_view_apart ok o v d hf h.1)

/-- What a field shows after the write of its register is what it shows after its own part of the write. -/
theorem putFields_view (ok : Bool) (o : Nat) (v : Word) {l : List FieldDesc} (d : Dev) {f : FieldDesc} (hl : fieldsOk l = true)
    (hf : f ∈ l) : ∃ x : Dev, x.fieldView o f = d.fieldView o f ∧ x.now = d.now ∧
      (d.putFields ok o v l).fieldView o f = (x.putField ok o v f).fieldView o f := by
  have hw := ((fieldsOk_iff l).mp hl).1 f hf
  obtain ⟨a, b, rfl⟩ := List.append_of_mem hf
  obtain ⟨ha, hb⟩ := fieldsOk_split hl
  refine ⟨d.putFields ok o v a, putFields_view_apart ok o v a d hw ha, (putFields_frame ok o v a d).1.fields.1, ?_⟩
  have hsplit : d.putFields ok o v (a ++ f :: b) = ((d.putFields ok o v a).putField ok o v f).putFields ok o v b := by
    simp [Dev.putFields]
  rw [hsplit]
  exact putFields_view_apart ok o v b _ hw hb

section Fields
variable {ok : Bool} {o : Nat} {v : Word} {l : List FieldDesc} {f : FieldDesc} (d : Dev) (hl : fieldsOk l = true) (hf : f ∈ l)
include hl hf

/-- A field that discards the write keeps what it shows. -/
theorem putFields_view_of_discards (h : f.discards ok) : (d.putFields ok o v l).fieldView o f = d.fieldView o f := by
  obtain ⟨x, hx, -, he⟩ := putFields_view ok o v d hl hf
  rw [he, putField_of_discards ok o v x h, hx]

section Allowed
variable (hprv : f.prv = true → ok = true) (hown : ownField o f.hi = false) (hlock : fieldLocked o f (wordField v f.hi f.lo) = false)
include hprv hown hlock

theorem putFields_view_of_takesNow (h : takesNow o f) :
    (d.putFields ok o v l).fieldView o f = (wordField v f.hi f.lo, d.pendingOf o f) := by
  obtain ⟨x, hx, -, he⟩ := putFields_view ok o v d hl hf
  have hw : f.hi < 32 := (((fieldsOk_iff l).mp hl).1 f hf).1
  rw [he, putField_of_allowed o v x hprv, writeField_of_takesNow x hown hlock h, fieldView_setF_self x o f _ hw]
  have hp : x.pendingOf o f = d.pendingOf o f := congrArg Prod.snd hx
  simp only [wordField, Nat.mod_mod, hp]

theorem putFields_view_of_rwb (h : f.acc = .rwb) (h8 : o / 0x100000 ≠ 8) :
    (d.putFields ok o v l).fieldView o f =
      (d.getF ⟨o, f.hi, f.lo⟩, [⟨o, f.hi, f.lo, wordField v f.hi f.lo, d.now⟩]) := by
  obtain ⟨x, hx, hnow, he⟩ := putFields_view ok o v d hl hf
  rw [he, putField_of_allowed o v x hprv, writeField_of_rwb x hown hlock h h8, fieldView_hold_self, hnow]
  have hg : x.getF ⟨o, f.hi, f.lo⟩ = d.getF ⟨o, f.hi, f.lo⟩ := congrArg Prod.fst hx
  rw [hg]

end Allowed
end Fields

/-! The parts of a plain write around its fields: the count of a denied one, the masking window, the LED. -/

theorem getR_deny_ne (d : Dev) (o p : Nat) (h1 : p ≠ HUB_PRV_DENY_COUNT) (h2 : p ≠ HUB_PRV_DENY_LAST) :
    (d.deny o).getR p = d.getR p := by
  rw [Dev.deny, getR_setN, if_neg h2, Dev.satInc, getR_satAdd_ne d 1 h1]

/-- A denied write counts once, and its offset is kept (R455). -/
theorem getN_deny (d : Dev) (o : Nat) :
    (d.deny o).getN HUB_PRV_DENY_COUNT = min (d.getN HUB_PRV_DENY_COUNT + 1) 0xFFFFFFFF ∧
      (d.deny o).getN HUB_PRV_DENY_LAST = o % 2 ^ 26 := by
  constructor
  · rw [Dev.deny, getN_setN, if_neg (by decide), Dev.satInc, getN_satAdd]
  · rw [Dev.deny, getN_setN, if_pos rfl]
    omega

/-- The write carries a value in a PRV- field. -/
def RegDesc.prvWritten (r : RegDesc) (v : Word) : Bool := r.fields.any fun f => f.prv && wordField v f.hi f.lo != 0

theorem prvWritten_iff (r : RegDesc) (v : Word) :
    r.prvWritten v = true ↔ ∃ f ∈ r.fields, f.prv = true ∧ wordField v f.hi f.lo ≠ 0 := by
  simp [RegDesc.prvWritten]

/-- A write by a master that is not privileged counts when it carries a value in a PRV- field (R455). -/
def Dev.countDenied (d : Dev) (ok : Bool) (r : RegDesc) (o : Nat) (v : Word) : Dev :=
  if ¬ ok ∧ r.prvWritten v then d.deny o else d

theorem countDenied_frame (d : Dev) (ok : Bool) (r : RegDesc) (o : Nat) (v : Word) :
    d.sameBesideRegs (d.countDenied ok r o v) ∧ (d.countDenied ok r o v).rwb = d.rwb ∧
      ∀ p, p ≠ HUB_PRV_DENY_COUNT → p ≠ HUB_PRV_DENY_LAST → (d.countDenied ok r o v).getR p = d.getR p := by
  unfold Dev.countDenied
  split
  · exact ⟨sameBesideRegs_deny d o, by simp [Dev.deny], getR_deny_ne d o⟩
  · exact ⟨.refl, rfl, fun _ _ _ => rfl⟩

theorem countDenied_privileged (d : Dev) (r : RegDesc) (o : Nat) (v : Word) : d.countDenied true r o v = d := by
  simp [Dev.countDenied]

theorem countDenied_prvWritten (d : Dev) {r : RegDesc} (o : Nat) {v : Word} (h : r.prvWritten v = true) :
    d.countDenied false r o v = d.deny o := by
  simp [Dev.countDenied, h]

theorem openWindow_frame (d : Dev) (o : Nat) :
    d.sameBesideRegs (d.openWindow o) ∧ (d.openWindow o).rwb = d.rwb ∧ (d.openWindow o).regs = d.regs := by
  unfold Dev.openWindow
  split
  · exact ⟨rfl, rfl, rfl⟩
  · exact ⟨.refl, rfl, rfl⟩

@[simp] theorem getR_openWindow (d : Dev) (o p : Nat) : (d.openWindow o).getR p = d.getR p := by
  rw [Dev.getR, (openWindow_frame d o).2.2, Dev.getR]

/-- A write of HUB_PANEL_CTRL moves the LED (R449). -/
def Dev.ledAfter (d : Dev) (o : Nat) : Dev := if o = HUB_PANEL_CTRL then d.updLed else d

theorem ledAfter_frame (d : Dev) (o : Nat) :
    d.sameBesideRegs (d.ledAfter o) ∧ (d.ledAfter o).rwb = d.rwb ∧
      ∀ p, p ≠ HUB_PANEL_STATUS ∨ p = o → (d.ledAfter o).getR p = d.getR p := by
  unfold Dev.ledAfter
  split
  · next h =>
    refine ⟨sameBesideRegs_setF d _ _, by simp [Dev.updLed], fun p hp => ?_⟩
    rw [Dev.updLed, getR_setF, if_neg]
    obtain hp | rfl := hp
    · exact hp
    · rw [h]; decide
  · exact ⟨.refl, rfl, fun _ _ => rfl⟩

/-- What discards a write whole is read from no register of the count of denied writes. -/
theorem writeLocked_congr {d e : Dev} (o : Nat)
    (h : ∀ p, p ≠ HUB_PRV_DENY_COUNT → p ≠ HUB_PRV_DENY_LAST → e.getR p = d.getR p) : e.writeLocked o = d.writeLocked o := by
  have habove : ∀ p, 0x645 ≤ p → e.getR p = d.getR p := fun p hp =>
    h p (Nat.ne_of_gt (show 0x640 < p by omega)) (Nat.ne_of_gt (show 0x644 < p by omega))
  have hport : ∀ p, e.portEn p = d.portEn p := fun p => by
    simp only [Dev.portEn, Dev.flag, Dev.getF]
    rw [habove _ (by simp only [FAB_PORT_CFG]; omega)]
  have hcq : ∀ q, e.cqOn q = d.cqOn q := fun q => by
    simp only [Dev.cqOn, Dev.flag, Dev.getF]
    rw [habove _ (by simp only [SRV_CQ_CFG]; omega)]
  have hgone : e.pmcGone o = d.pmcGone o := by
    unfold Dev.pmcGone Dev.inService Dev.regBit
    rw [h _ (by decide) (by decide)]
  have hstc : e.stcBusy o = d.stcBusy o := by
    have hstate : ∀ b, 0x645 ≤ b → e.getF (STC_STATUS_STATE b) = d.getF (STC_STATUS_STATE b) := fun b hb => by
      simp only [Dev.getF]
      rw [habove _ (by simp only [STC_STATUS]; omega)]
    unfold Dev.stcBusy
    dsimp only
    split
    · next b hb =>
      rw [hstate b]
      split_ifs at hb <;> cases hb <;> omega
    · rfl
  simp only [Dev.writeLocked, hport, hcq, hgone, hstc]

/-- A plain write of a register that takes it: the count of a denied write, the masking window, the fields, the LED. -/
theorem writeWord_eq {d : Dev} (m : Master) {o : Nat} (v : Word) {r : RegDesc} (hr : regDesc o = some r)
    (hl : d.writeLocked o = false) :
    d.writeWord m o v =
      (((d.countDenied (d.privileged m) r o v).openWindow o).putFields (d.privileged m) o v r.fields).ledAfter o := by
  have hl' : (d.countDenied (d.privileged m) r o v).writeLocked o = false :=
    (writeLocked_congr o (countDenied_frame d _ r o v).2.2).trans hl
  unfold Dev.writeWord
  rw [hr]
  exact if_neg (by simpa [Dev.countDenied, RegDesc.prvWritten] using hl')

/-- What a plain write leaves beside its own register, the count of denied writes and the panel's status. -/
theorem writeWord_frame {d : Dev} (m : Master) {o : Nat} (v : Word) {r : RegDesc} (hr : regDesc o = some r)
    (hl : d.writeLocked o = false) :
    d.sameBesideRegs (d.writeWord m o v) ∧
      ∀ p, p ≠ o → p ≠ HUB_PANEL_STATUS →
        (d.writeWord m o v).getR p = (d.countDenied (d.privileged m) r o v).getR p := by
  rw [writeWord_eq m v hr hl]
  obtain ⟨hc, -, -⟩ := countDenied_frame d (d.privileged m) r o v
  obtain ⟨hw, -, -⟩ := openWindow_frame (d.countDenied (d.privileged m) r o v) o
  obtain ⟨hp, hpr⟩ := putFields_frame (d.privileged m) o v r.fields ((d.countDenied (d.privileged m) r o v).openWindow o)
  obtain ⟨ha, -, har⟩ :=
    ledAfter_frame (((d.countDenied (d.privileged m) r o v).openWindow o).putFields (d.privileged m) o v r.fields) o
  refine ⟨hc.trans (hw.trans (hp.trans ha)), fun p hpo hps => ?_⟩
  rw [har p (.inl hps), hpr p hpo, getR_openWindow]

/-- A field shows after a plain write what the write's part for it leaves. -/
theorem writeWord_view {d : Dev} (m : Master) {o : Nat} (v : Word) {r : RegDesc} (hr : regDesc o = some r)
    (hl : d.writeLocked o = false) (hc : o ≠ HUB_PRV_DENY_COUNT) (hd : o ≠ HUB_PRV_DENY_LAST) :
    ∃ x : Dev, (∀ f, x.fieldView o f = d.fieldView o f) ∧ x.now = d.now ∧
      ∀ f, (d.writeWord m o v).fieldView o f = (x.putFields (d.privileged m) o v r.fields).fieldView o f := by
  obtain ⟨hcs, hcb, hcr⟩ := countDenied_frame d (d.privileged m) r o v
  obtain ⟨hws, hwb, -⟩ := openWindow_frame (d.countDenied (d.privileged m) r o v) o
  refine ⟨(d.countDenied (d.privileged m) r o v).openWindow o, fun f => ?_, (hcs.trans hws).fields.1, fun f => ?_⟩
  · simp only [Dev.fieldView, Dev.pendingOf, Dev.getF, getR_openWindow, hcr o hc hd, hwb, hcb]
  · obtain ⟨-, hab, har⟩ :=
      ledAfter_frame (((d.countDenied (d.privileged m) r o v).openWindow o).putFields (d.privileged m) o v r.fields) o
    rw [writeWord_eq m v hr hl]
    simp only [Dev.fieldView, Dev.pendingOf, Dev.getF, har o (.inr rfl), hab]

/-! The commands. -/

@[simp] theorem getN_at_ (d : Dev) (t o : Nat) : (d.at_ t).getN o = d.getN o := congrArg BitVec.toNat (getR_at_ d t o)

theorem barOpen_at_ (d : Dev) (t o : Nat) : (d.at_ t).barOpen o = d.barOpen o := by
  simp [Dev.barOpen, Dev.getF]

theorem privileged_at_ (d : Dev) (t : Nat) (m : Master) : (d.at_ t).privileged m = d.privileged m := by
  cases m <;> simp [Dev.privileged, Dev.flag, Dev.getF]

theorem fieldView_at_ (d : Dev) (t o : Nat) (f : FieldDesc) : (d.at_ t).fieldView o f = d.fieldView o f := by
  simp [Dev.fieldView, Dev.pendingOf, Dev.getF]

theorem lastLog_at_ (d : Dev) (t : Nat) : (d.at_ t).lastLog = d.lastLog := by cases d; rfl

theorem exec_registerWrite (m : Master) {off : Nat} (v : Word) (now : Nat) {s : State} (hb : s.dev.barOpen off = true)
    (ho : ownRow off = false) :
    exec (.registerWrite m off v now) s = .next (s.put ((s.dev.at_ now).writeWord m off v)) := by
  have h : (s.dev.at_ now).barOpen off = true ∧ ¬ ownRow off = true := by simp [barOpen_at_, hb, ho]
  exact congrArg (fun d => Host.Outcome.next (s.put d)) (if_pos h)

theorem exec_regPairLowRead (m : Master) {off q : Nat} {s : State} (hq : snapOf off = some q) (hb : s.dev.barOpen off = true) :
    exec (.regPairLowRead m off) s =
      .next (s.put ((s.dev.setR q (s.dev.getR (off + 4))).emit (.readData (s.dev.readWord m off)))) := by
  simp [exec, execRegPairLowRead, onDev, hq, hb]

/-- The latest entry of the log stands for writes of `off`, and is no older than 1 ms (R491). -/
def Dev.mergesUnmapped (d : Dev) (off : Nat) : Prop :=
  d.lastLog.logseq ≠ 0 ∧ d.lastLog.code = 3 ∧ d.lastLog.arg0 = off ∧ d.now ≤ d.lastLog.time + 1000000

section Unmapped
variable {off : Nat} (now : Nat) {s : State} (hr : regDesc off = none) (hb : s.dev.barOpen off = true)
include hr hb

theorem exec_unmappedWrite_new (h : ¬ (s.dev.at_ now).mergesUnmapped off) :
    exec (.unmappedWrite off now) s = .next (s.put ((s.dev.at_ now).logHub 3 off 1)) := by
  have hb' : (s.dev.at_ now).barOpen off = true := (barOpen_at_ _ _ _).trans hb
  have hu : ¬ ((regDesc off).isSome = true ∨ ¬ (s.dev.at_ now).barOpen off = true) := by simp [hr, hb']
  exact congrArg (fun d => Host.Outcome.next (s.put d)) ((if_neg hu).trans (if_neg h))

theorem exec_unmappedWrite_merge (h : (s.dev.at_ now).mergesUnmapped off) :
    exec (.unmappedWrite off now) s = .next (s.put { s.dev.at_ now with
      log := smPut (fun _ => LogEntry.empty) s.dev.log (s.dev.lastLog.logseq % 8192)
        { s.dev.lastLog with arg1 := min (s.dev.lastLog.arg1 + 1) 0xFFFFFFFF } }) := by
  have hb' : (s.dev.at_ now).barOpen off = true := (barOpen_at_ _ _ _).trans hb
  have hu : ¬ ((regDesc off).isSome = true ∨ ¬ (s.dev.at_ now).barOpen off = true) := by simp [hr, hb']
  refine congrArg (fun d => Host.Outcome.next (s.put d)) ((if_neg hu).trans ((if_pos h).trans ?_))
  simp only [lastLog_at_, log_at_]

end Unmapped

/-! A log entry (R489). -/

/-- The entry stands at the slot of its number. -/
theorem smGet_log_logEntry (d : Dev) (c s a b e : Nat) :
    smGet (fun _ => LogEntry.empty) (d.logEntry c s a b e).log (d.getN HUB_LOG_HEAD % 8192) =
      ⟨d.now, d.getN HUB_LOG_HEAD, c, s, a, b, e, 0⟩ := by
  have hlog : (d.logEntry c s a b e).log = smPut (fun _ => LogEntry.empty) d.log (d.getN HUB_LOG_HEAD % 8192)
      ⟨d.now, d.getN HUB_LOG_HEAD, c, s, a, b, e, 0⟩ := by simp [Dev.logEntry]
  rw [hlog, smGet_smPut_self]

/-- The next number follows; 1 follows 0xFFFF_FFFF. -/
theorem getN_logEntry_head (d : Dev) (c s a b e : Nat) :
    (d.logEntry c s a b e).getN HUB_LOG_HEAD =
      if d.getN HUB_LOG_HEAD = 0xFFFFFFFF then 1 else d.getN HUB_LOG_HEAD + 1 := by
  have hq : d.getN HUB_LOG_HEAD < 2 ^ 32 := (d.getR HUB_LOG_HEAD).isLt
  rw [Dev.getN, Dev.logEntry, getR_edge_ne _ _ _ (by decide), ← Dev.getN, getN_setN, if_pos rfl]
  split <;> omega

theorem isPending_logEntry (d : Dev) (c s a b e : Nat) : (d.logEntry c s a b e).isPending 14 = true :=
  isPending_edge _ 14 rfl

theorem logEntry_only (d : Dev) (c s a b e : Nat) :
    d.logEntry c s a b e = { d with regs := (d.logEntry c s a b e).regs, log := (d.logEntry c s a b e).log } := by
  apply dev_ext
  simp

/-! A plain write as a command. -/

/-- A plain write of a register, field by field. -/
theorem registerWrite_fields {s : State} (m : Master) {off : Nat} (v : Word) (now : Nat) {r : RegDesc}
    (hr : regDesc off = some r) (hl : s.dev.writeLocked off = false) (hc : off ≠ HUB_PRV_DENY_COUNT)
    (hd : off ≠ HUB_PRV_DENY_LAST) {f : FieldDesc} (hf : f ∈ r.fields) :
    let e := (s.dev.at_ now).writeWord m off v
    (f.discards (s.dev.privileged m) → e.fieldView off f = s.dev.fieldView off f) ∧
    (ownField off f.hi = false → fieldLocked off f (wordField v f.hi f.lo) = false →
      (f.prv = true → s.dev.privileged m = true) →
      (takesNow off f → e.fieldView off f = (wordField v f.hi f.lo, s.dev.pendingOf off f)) ∧
      (f.acc = .rwb → off / 0x100000 ≠ 8 → e.fieldView off f =
        (s.dev.getF ⟨off, f.hi, f.lo⟩, [⟨off, f.hi, f.lo, wordField v f.hi f.lo, max s.dev.now now⟩]))) := by
  have hok := regDesc_fieldsOk off r hr
  have hl' : (s.dev.at_ now).writeLocked off = false :=
    (writeLocked_congr off fun p _ _ => getR_at_ s.dev now p).trans hl
  obtain ⟨x, hx, hnow, he⟩ := writeWord_view m v hr hl' hc hd
  have hxf : x.fieldView off f = s.dev.fieldView off f := (hx f).trans (fieldView_at_ _ _ _ _)
  have hval : x.getF ⟨off, f.hi, f.lo⟩ = s.dev.getF ⟨off, f.hi, f.lo⟩ := congrArg Prod.fst hxf
  have hpend : x.pendingOf off f = s.dev.pendingOf off f := congrArg Prod.snd hxf
  rw [privileged_at_] at he
  rw [now_at_] at hnow
  dsimp only
  rw [he f]
  refine ⟨fun h => (putFields_view_of_discards x hok hf h).trans hxf, fun hown hlock hprv => ⟨fun h => ?_, fun h h8 => ?_⟩⟩
  · rw [putFields_view_of_takesNow x hok hf hprv hown hlock h, hpend]
  · rw [putFields_view_of_rwb x hok hf hprv hown hlock h h8, hval, hnow]

/-- Beside its own register a plain write counts a denied one, moves the panel's LED, and changes nothing else. -/
theorem registerWrite_frame {s : State} (m : Master) {off : Nat} (v : Word) (now : Nat) {r : RegDesc}
    (hr : regDesc off = some r) (hl : s.dev.writeLocked off = false) :
    let e := (s.dev.at_ now).writeWord m off v
    (s.dev.at_ now).sameBesideRegs e ∧
    (∀ p, p ≠ off → p ≠ HUB_PANEL_STATUS →
      e.getR p = ((s.dev.at_ now).countDenied (s.dev.privileged m) r off v).getR p) := by
  have hl' : (s.dev.at_ now).writeLocked off = false :=
    (writeLocked_congr off fun p _ _ => getR_at_ s.dev now p).trans hl
  have h := writeWord_frame m v hr hl'
  rwa [privileged_at_] at h

/-- The count of denied writes and the offset kept after a plain write (R455). -/
theorem registerWrite_denied {s : State} (m : Master) {off : Nat} (v : Word) (now : Nat) {r : RegDesc}
    (hr : regDesc off = some r) (hl : s.dev.writeLocked off = false) (hc : off ≠ HUB_PRV_DENY_COUNT)
    (hd : off ≠ HUB_PRV_DENY_LAST) (hm : s.dev.privileged m = false) (hv : r.prvWritten v = true) :
    let e := (s.dev.at_ now).writeWord m off v
    e.getN HUB_PRV_DENY_COUNT = min (s.dev.getN HUB_PRV_DENY_COUNT + 1) 0xFFFFFFFF ∧
      e.getN HUB_PRV_DENY_LAST = off % 2 ^ 26 := by
  obtain ⟨-, hregs⟩ := registerWrite_frame m v now hr hl
  rw [hm, countDenied_prvWritten _ off hv] at hregs
  obtain ⟨hcount, hlast⟩ := getN_deny (s.dev.at_ now) off
  rw [getN_at_] at hcount
  exact ⟨(congrArg BitVec.toNat (hregs _ hc.symm (by decide))).trans hcount,
    (congrArg BitVec.toNat (hregs _ hd.symm (by decide))).trans hlast⟩

/-! The statements. -/

/-- Settles O12: a request that is not a naturally aligned 32-bit one takes the refusing branch of R8. -/
theorem badAccessRefused : Obligations.BadAccessRefused := by
  intro s off len w hbad
  exact congrArg (fun d => Host.Outcome.next (s.put d)) (if_neg hbad)

/-- Settles O13: the read of a pair and the unmapped write by their one command each; the plain write by the view of each field after
its own part of the write, the fields of a register being apart from each other. -/
theorem registerAccess : Obligations.RegisterAccess := by
  unfold Obligations.RegisterAccess
  refine ⟨fun s m off now q => ⟨fun hq hb => ?_, fun hr hb hnew => ?_, fun hr hb hseq hcode harg htime => ?_⟩,
    fun s m off v now r hr hb ho hl hc hd => ?_⟩
  · refine ⟨_, exec_regPairLowRead m hq hb, by simp, by simp, fun p hp => ?_, ?_⟩
    · rw [getR_emit, getR_setR_ne _ _ (by simpa using hp)]
    · apply dev_ext
      simp
  · have hno : ¬ (s.dev.at_ now).mergesUnmapped off := by
      rintro ⟨hseq, hcode, harg, htime⟩
      rw [lastLog_at_] at *
      rw [now_at_] at htime
      omega
    refine ⟨_, exec_unmappedWrite_new now hr hb hno, ?_, ?_, isPending_logEntry _ _ _ _ _ _, fun p hp => ?_, ?_⟩
    · simpa [Dev.logHub] using smGet_log_logEntry (s.dev.at_ now) 3 0 off 1 0
    · simpa [Dev.logHub] using getN_logEntry_head (s.dev.at_ now) 3 0 off 1 0
    · simp only [List.mem_cons, List.not_mem_nil, or_false, not_or] at hp
      rw [Dev.logHub, getR_logEntry_ne _ _ _ _ _ _ _ hp.1 hp.2, getR_at_]
    · exact logEntry_only (s.dev.at_ now) 3 0 off 1 0
  · have hmerge : (s.dev.at_ now).mergesUnmapped off := by
      unfold Dev.mergesUnmapped
      rw [lastLog_at_, now_at_]
      exact ⟨hseq, hcode, harg, htime⟩
    exact ⟨_, exec_unmappedWrite_merge now hr hb hmerge, smGet_smPut_self _ _ _ _, rfl⟩
  · obtain ⟨hframe, hregs⟩ := registerWrite_frame m v now hr hl
    obtain ⟨-, hout, htiles, hsrv, hlog⟩ := hframe.fields
    refine ⟨_, exec_registerWrite m v now hb ho, fun f hf hown hlock hprv => ?_, fun f hf hdisc => ?_, fun hm hv => ?_, fun hm => ?_,
      fun p hp hpc hpl hps => ?_, ?_, ?_, ?_, ?_⟩
    · obtain ⟨-, htakes⟩ := registerWrite_fields m v now hr hl hc hd hf
      obtain ⟨hnow, hheld⟩ := htakes hown hlock hprv
      exact ⟨fun h => congrArg Prod.fst (hnow h),
        fun h h8 => ⟨congrArg Prod.fst (hheld h h8), congrArg Prod.snd (hheld h h8)⟩⟩
    · exact congrArg Prod.fst ((registerWrite_fields m v now hr hl hc hd hf).1 hdisc)
    · exact registerWrite_denied m v now hr hl hc hd hm ((prvWritten_iff r v).mpr hv)
    · rw [hregs _ hc.symm (by decide), hm, countDenied_privileged, getR_at_]
    · rw [hregs p hp hps, (countDenied_frame _ _ r off v).2.2 p hpc hpl, getR_at_]
    · rw [hout, out_at_]
    · rw [htiles, tiles_at_]
    · rw [hsrv, srv_at_]
    · rw [hlog, log_at_]

/-! States that meet the hypotheses. -/

/-- The host, without a grant, writes DLD_CTRL of a package after reset: TXN_TIMEOUT takes its value, GW_EN does not, and the write
counts. -/
theorem registerAccess_plainWrite_after_reset : ∃ e : Dev,
    exec (.registerWrite .host DLD_CTRL 0x80000005 0) State.reset = .next (State.reset.put e) ∧
      e.getF DLD_CTRL_TXN_TIMEOUT = 5 ∧ e.getF DLD_CTRL_GW_EN = State.reset.dev.getF DLD_CTRL_GW_EN ∧
      e.getN HUB_PRV_DENY_COUNT = 1 := by
  obtain ⟨r, hr, htime, hgw⟩ : ∃ r, regDesc DLD_CTRL = some r ∧ ⟨15, 0, .rw, false, 0x3e8, .none⟩ ∈ r.fields ∧
      ⟨31, 31, .rw, true, 0x1, .none⟩ ∈ r.fields := ⟨_, rfl, by decide, by decide⟩
  have hm : State.reset.dev.privileged .host = false := by decide +kernel
  obtain ⟨e, he, htakes, hdisc, hdenied, -⟩ := registerAccess.2 State.reset .host DLD_CTRL 0x80000005 0 r hr (by decide +kernel)
    (by decide +kernel) (by decide +kernel) (by decide) (by decide)
  refine ⟨e, he, ?_, hdisc _ hgw (.inr (.inr (.inr ⟨rfl, hm⟩))), ?_⟩
  · exact (htakes _ htime (by decide +kernel) (by decide +kernel) (by simp)).1 (.inl rfl)
  · exact (hdenied hm ⟨_, hgw, rfl, by decide⟩).1.trans (by decide +kernel)

/-- A write of an offset that no block defines, to a package after reset, is the log's new entry; the same write 1 ms later counts in
it. -/
theorem registerAccess_unmapped_after_reset : ∃ e x : Dev,
    exec (.unmappedWrite 0x1C 0) State.reset = .next (State.reset.put e) ∧
      exec (.unmappedWrite 0x1C 1000000) (State.reset.put e) = .next (State.reset.put x) ∧ x.lastLog.arg1 = 2 := by
  have hq : State.reset.dev.getN HUB_LOG_HEAD = 1 := by decide +kernel
  have hrst : State.reset.dev.rst.warm = none ∧ State.reset.dev.rst.fatal = none := by decide +kernel
  obtain ⟨e, he, hslot, hhead, -, -, honly⟩ := (registerAccess.1 State.reset .host 0x1C 0 0).2.1 (by decide +kernel)
    (by decide +kernel) (.inl (by decide +kernel))
  rw [hq] at hslot hhead
  have hlast : e.lastLog = ⟨max State.reset.dev.now 0, 1, 3, 0, 0x1C, 1, 0, 0⟩ := by
    rw [Dev.lastLog, hhead]
    exact hslot
  have hopen : e.barOpen 0x1C = true := by
    rw [honly]
    simp [Dev.barOpen, hrst]
  have hnow : e.now = max State.reset.dev.now 0 := by rw [honly]
  obtain ⟨x, hx, hslot', honly'⟩ := (registerAccess.1 (State.reset.put e) .host 0x1C 1000000 0).2.2 (by decide +kernel) hopen
    (by simp [hlast]) (by simp [hlast]) (by simp [hlast]) (by simp [hlast, hnow])
  refine ⟨e, x, he, hx, ?_⟩
  have hhead' : x.getN HUB_LOG_HEAD = e.getN HUB_LOG_HEAD := by rw [honly']; rfl
  rw [hlast] at hslot'
  rw [Dev.lastLog, hhead', hhead]
  exact congrArg LogEntry.arg1 hslot'

end Sys2Proof.Machine
end

section
/-! Transfers on the package network (R28, R29, R31, R38, R43): what a hop, a lost transfer and an arrival do. -/

namespace Sys2Proof.Machine

open Reg

/-! Folds of package operations. -/

/-- A view that no step of a fold changes holds after it. -/
theorem foldl_view_same {α β γ : Type} (g : β → γ) (f : β → α → β) (l : List α) (h : ∀ d, ∀ a ∈ l, g (f d a) = g d) (d : β) :
    g (l.foldl f d) = g d := by
  induction l generalizing d with
  | nil => rfl
  | cons a t ih => exact (ih (fun x b hb => h x b (by simp [hb])) (f d a)).trans (h d a (by simp))

/-- A view that only the step of `n` changes is what that step leaves, where `n` comes once. -/
theorem foldl_view_at {α β γ : Type} (g : β → γ) (f : β → α → β) {l : List α} {n : α} (hn : n ∈ l) (hl : l.Nodup)
    (h : ∀ d, ∀ a, a ≠ n → g (f d a) = g d) (d : β) : ∃ x, g x = g d ∧ g (l.foldl f d) = g (f x n) := by
  obtain ⟨a, b, rfl⟩ := List.append_of_mem hn
  obtain ⟨hout, -⟩ := List.nodup_cons.mp (List.nodup_middle.mp hl)
  rw [List.mem_append, not_or] at hout
  refine ⟨a.foldl f d, foldl_view_same g f a (fun x m hm => h x m fun he => hout.1 (he ▸ hm)) d, ?_⟩
  rw [List.foldl_append, List.foldl_cons]
  exact foldl_view_same g f b (fun x m hm => h x m fun he => hout.2 (he ▸ hm)) _

/-! Reads that depend on registers only. -/

theorem getN_congr {d e : Dev} {p : Nat} (h : e.getR p = d.getR p) : e.getN p = d.getN p := congrArg BitVec.toNat h

theorem getF_congr {d e : Dev} {f : Fld} (h : e.getR f.off = d.getR f.off) : e.getF f = d.getF f := by
  simp only [Dev.getF, h]

theorem regBit_congr {d e : Dev} {p : Nat} (h : e.getR p = d.getR p) (b : Nat) : e.regBit p b = d.regBit p b := by
  simp only [Dev.regBit, h]

theorem getR_satInc_ne (d : Dev) {o p : Nat} (h : p ≠ o) : (d.satInc o).getR p = d.getR p := getR_satAdd_ne d 1 h

/-- A register that is neither half of a pair keeps its value when the pair is written. -/
theorem getR_setPair_ne (d : Dev) {lo hi p : Nat} (v : Nat) (h1 : p ≠ lo) (h2 : p ≠ hi) : (d.setPair lo hi v).getR p = d.getR p := by
  rw [getR_setPair, if_neg h2, if_neg h1]

/-- A command of a part that acts while the package is not frozen. -/
theorem onRun_eq {f : Dev → Dev} {s : State} {e : Dev} (hf : s.dev.frozen = false) (he : f s.dev = e) :
    onRun f s = .next (s.put e) := by
  simp [onRun, hf, he]

/-! An entry of the network. -/

theorem netSet_none (d : Dev) (i : Nat) : d.netSet i none = { d with fab := { d.fab with net := d.fab.net.eraseIdx i } } := by
  simp [Dev.netSet]

/-- What counts in a hop from the seam island of tile `n` over seam `sm`: a CRC retry, and the pass of a transfer that `n` did not send. -/
def Dev.hopCounted (d : Dev) (t : Transit) (n : Fin 32) (sm : Nat) (retry : Bool) : Dev :=
  let e := if retry then d.satInc (SEAM_PORT_RETRY n ((portOfSeam n sm).getD 0)) else d
  if t.src = .tile n then e else e.setPair (SEAM_PASS_LO n) (SEAM_PASS_HI n)
    (min (e.getPair (SEAM_PASS_LO n) (SEAM_PASS_HI n) + 1) (2 ^ 64 - 1))

theorem hop_seam (d : Dev) (i : Nat) (t : Transit) (n : Fin 32) (sm : Nat) (w : NetAt) (retry : Bool) :
    d.hop i t (some n) sm w retry = (d.hopCounted t n sm retry).netSet i (some { t with where_ := w }) := rfl

/-- The registers of a hop's counts. -/
theorem getN_hopCounted (d : Dev) (t : Transit) (n : Fin 32) (sm : Nat) (retry : Bool) :
    (d.hopCounted t n sm retry).getN (SEAM_PORT_RETRY n ((portOfSeam n sm).getD 0)) =
      if retry = true then min (d.getN (SEAM_PORT_RETRY n ((portOfSeam n sm).getD 0)) + 1) 0xFFFFFFFF
        else d.getN (SEAM_PORT_RETRY n ((portOfSeam n sm).getD 0)) := by
  have hpass (e : Dev) (v : Nat) : (e.setPair (SEAM_PASS_LO n) (SEAM_PASS_HI n) v).getN
      (SEAM_PORT_RETRY n ((portOfSeam n sm).getD 0)) = e.getN (SEAM_PORT_RETRY n ((portOfSeam n sm).getD 0)) :=
    getN_congr (getR_setPair_ne e v (by simp only [SEAM_PORT_RETRY, SEAM_PASS_LO]; omega)
      (by simp only [SEAM_PORT_RETRY, SEAM_PASS_HI]; omega))
  unfold Dev.hopCounted
  dsimp only
  split <;> split <;> simp only [hpass, Dev.satInc, getN_satAdd]

theorem getPair_hopCounted (d : Dev) (t : Transit) (n : Fin 32) (sm : Nat) (retry : Bool) :
    (d.hopCounted t n sm retry).getPair (SEAM_PASS_LO n) (SEAM_PASS_HI n) =
      if t.src = .tile n then d.getPair (SEAM_PASS_LO n) (SEAM_PASS_HI n)
        else min (d.getPair (SEAM_PASS_LO n) (SEAM_PASS_HI n) + 1) (2 ^ 64 - 1) := by
  have hretry (e : Dev) : (e.satInc (SEAM_PORT_RETRY n ((portOfSeam n sm).getD 0))).getPair (SEAM_PASS_LO n) (SEAM_PASS_HI n) =
      e.getPair (SEAM_PASS_LO n) (SEAM_PASS_HI n) := by
    rw [Dev.getPair, getN_congr (getR_satInc_ne e (by simp only [SEAM_PORT_RETRY, SEAM_PASS_LO]; omega)),
      getN_congr (getR_satInc_ne e (by simp only [SEAM_PORT_RETRY, SEAM_PASS_HI]; omega)), Dev.getPair]
  have hself (e : Dev) (v : Nat) : (e.setPair (SEAM_PASS_LO n) (SEAM_PASS_HI n) (min v (2 ^ 64 - 1))).getPair (SEAM_PASS_LO n)
      (SEAM_PASS_HI n) = min v (2 ^ 64 - 1) := by
    rw [getPair_setPair_self _ _ _ _ (by simp only [SEAM_PASS_LO, SEAM_PASS_HI]; omega)]
    exact Nat.mod_eq_of_lt (by omega)
  unfold Dev.hopCounted
  dsimp only
  split <;> split <;> simp only [hself, hretry]

theorem hopCounted_frame (d : Dev) (t : Transit) (n : Fin 32) (sm : Nat) (retry : Bool) :
    (d.hopCounted t n sm retry).fab = d.fab ∧ (d.hopCounted t n sm retry).out = d.out ∧
      (d.hopCounted t n sm retry).tiles = d.tiles := by
  unfold Dev.hopCounted
  dsimp only
  split <;> split <;> simp

/-- A transfer that its source launches counts at most a CRC retry. -/
theorem hop_launch (d : Dev) (i : Nat) (t : Transit) (sm : Nat) (w : NetAt) (retry : Bool) :
    ∃ x : Dev, d.hop i t none sm w retry = x.netSet i (some { t with where_ := w }) ∧ x.fab = d.fab ∧ x.out = d.out ∧
      x.tiles = d.tiles := by
  cases retry with
  | false => exact ⟨d, rfl, rfl, rfl, rfl⟩
  | true =>
    cases w with
    | seam n => exact ⟨_, rfl, fab_satInc _ _, out_satInc _ _, tiles_satInc _ _⟩
    | launch | arrived => exact ⟨d, rfl, rfl, rfl, rfl⟩

/-- A hop moves its entry behind the others, and sends nothing. -/
theorem hop_frame (d : Dev) (i : Nat) (t : Transit) (h : Option (Fin 32)) (sm : Nat) (w : NetAt) (retry : Bool) :
    (d.hop i t h sm w retry).fab = { d.fab with net := d.fab.net.eraseIdx i ++ [{ t with where_ := w }] } ∧
      (d.hop i t h sm w retry).out = d.out ∧ (d.hop i t h sm w retry).tiles = d.tiles := by
  obtain ⟨x, hx, hfab, hout, htiles⟩ : ∃ x : Dev, d.hop i t h sm w retry = x.netSet i (some { t with where_ := w }) ∧
      x.fab = d.fab ∧ x.out = d.out ∧ x.tiles = d.tiles := by
    cases h with
    | some n => exact ⟨_, hop_seam d i t n sm w retry, hopCounted_frame d t n sm retry⟩
    | none => exact hop_launch d i t sm w retry
  rw [hx]
  exact ⟨by simp [Dev.netSet, hfab], hout, htiles⟩

/-! Errors that a seam island answers (R31, R43). -/

theorem asksAnswer_of_request {m : Dmsg} (h1 : 1 ≤ m.op) (h4 : m.op ≤ 4) : asksAnswer m = true := by
  simp [asksAnswer, h1, h4]

/-- A load, a store or an atomic of this package is answered at once. -/
theorem answerErr_own (d : Dev) {m : Dmsg} (code : Nat) (h1 : 1 ≤ m.op) (h4 : m.op ≤ 4) (hs : m.src.pkg = d.self) :
    d.answerErr m code = d.emit (.arrive (nodeEndpt m.src) (errAnswer m code)) := by
  have h5 : m.op ≠ 5 := by omega
  simp [Dev.answerErr, asksAnswer_of_request h1 h4, hs, h5]

/-- A lost request of a tile is recorded in the tile's seam island and answered. -/
theorem seamLose_request (d : Dev) (i : Nat) {t : Transit} (sm : Nat) {n : Fin 32} (hn : t.src = .tile n) (h1 : 1 ≤ t.msg.op)
    (h4 : t.msg.op ≤ 4) : ∃ port, d.seamLose i t sm =
      (((d.netSet i none).latch (egSeam n) 1).satInc (SEAM_PORT_ERR_RESP n port)).answerErr t.msg Config.seamLostErr := by
  refine ⟨(portOfSeam n sm).getD ((d.netSet i none).portLeft t n), ?_⟩
  have hasks : ¬ (¬ asksAnswer t.msg = true ∧ t.msg.op ≠ 5) := by simp [asksAnswer_of_request h1 h4]
  unfold Dev.seamLose
  dsimp only
  rw [if_neg hasks, hn]

/-- A lost message that asks for no answer leaves no trace. -/
theorem seamLose_silent (d : Dev) (i : Nat) {t : Transit} (sm : Nat) (h : t.msg.op = 7) : d.seamLose i t sm = d.netSet i none := by
  simp [Dev.seamLose, asksAnswer, h]

/-! The seam islands' event groups. -/

theorem egSeam_pend (n : Fin 32) : 0x100120 ≤ INT_PEND ((egSeam n).src / 32) ∧ INT_PEND ((egSeam n).src / 32) < 0x100200 := by
  simp only [egSeam, INT_PEND]
  omega

/-- An event of a seam island changes its two event registers and a word of pending sources. -/
theorem getR_latch_egSeam (d : Dev) (n : Fin 32) (b : Nat) {p : Nat} (h1 : p ≠ SEAM_EVENT n) (h2 : p ≠ SEAM_EVENT_SEQ n)
    (h3 : p < 0x100120 ∨ 0x100200 ≤ p) : (d.latch (egSeam n) b).getR p = d.getR p := by
  have := egSeam_pend n
  exact getR_latch_ne d _ b p h1 h2 (by omega)

theorem regBit_latch_egSeam (d : Dev) (n : Fin 32) {b : Nat} (hb : b < 32) : (d.latch (egSeam n) b).regBit (SEAM_EVENT n) b = true := by
  have hp := egSeam_pend n
  have hlarge : 0x1000000 ≤ SEAM_EVENT n := by simp only [SEAM_EVENT, tileBase]; omega
  exact regBit_latch_self d (egSeam n) b hb (by show SEAM_EVENT n ≠ _; omega)

theorem self_latch_egSeam (d : Dev) (n : Fin 32) (b : Nat) : (d.latch (egSeam n) b).self = d.self :=
  getF_congr (getR_latch_egSeam d n b (by simp only [FAB_SELF, SEAM_EVENT, tileBase]; omega)
    (by simp only [FAB_SELF, SEAM_EVENT_SEQ, tileBase]; omega) (by simp only [FAB_SELF]; omega))

/-- What a seam island's recorded loss and its answer leave. -/
theorem seamLose_request_effect (d : Dev) (i : Nat) {t : Transit} (sm : Nat) {n : Fin 32} (hn : t.src = .tile n) (h1 : 1 ≤ t.msg.op)
    (h4 : t.msg.op ≤ 4) (hs : t.msg.src.pkg = d.self) :
    let e := d.seamLose i t sm
    e.fab = { d.fab with net := d.fab.net.eraseIdx i } ∧
      e.out = d.out ++ [.arrive (nodeEndpt t.msg.src) (errAnswer t.msg Config.seamLostErr)] ∧
      e.regBit (SEAM_EVENT n) 1 = true ∧ e.tiles = d.tiles := by
  obtain ⟨port, he⟩ := seamLose_request d i sm hn h1 h4
  have hself : (((d.netSet i none).latch (egSeam n) 1).satInc (SEAM_PORT_ERR_RESP n port)).self = d.self :=
    (getF_congr (getR_satInc_ne _ (by simp only [FAB_SELF, SEAM_PORT_ERR_RESP, tileBase]; omega))).trans (self_latch_egSeam _ n 1)
  have hevent : (((d.netSet i none).latch (egSeam n) 1).satInc (SEAM_PORT_ERR_RESP n port)).regBit (SEAM_EVENT n) 1 = true :=
    (regBit_congr (getR_satInc_ne _ (by simp only [SEAM_EVENT, SEAM_PORT_ERR_RESP]; omega)) 1).trans
      (regBit_latch_egSeam _ n (by decide))
  dsimp only
  rw [he, answerErr_own _ _ h1 h4 (hs.trans hself.symm)]
  exact ⟨by simp [netSet_none], by simp [netSet_none, Dev.emit], (regBit_congr (getR_emit _ _ _) 1).trans hevent, by simp [netSet_none]⟩

/-! The two transfer commands. -/

/-- The seam island from which a transfer leaves. -/
def Transit.fromTile (t : Transit) : Option (Fin 32) := match t.where_ with
  | .seam n => some n
  | _ => none

section Transfer
variable {s : State} {idx : Nat} {t : Transit} (hf : s.dev.frozen = false) (ht : s.dev.fab.net[idx]? = some t)
include hf ht

/-- The oldest transfer for a hop goes over a seam that is up, and is lost on one that is down. -/
theorem exec_seamTransfer (retry : Bool) {sm : Nat} {w : NetAt} (hop : s.dev.hopOf t = some (sm, w))
    (hb : s.dev.hopBlocked idx t = false) :
    exec (.seamTransfer idx retry) s = .next (s.put (if s.dev.seamUp sm = true then s.dev.hop idx t t.fromTile sm w retry
      else s.dev.seamLose idx t sm)) := by
  change execSeamTransfer idx retry s = _
  rw [execSeamTransfer]
  refine onRun_eq hf ?_
  simp only [ht, hop, hb]
  cases s.dev.seamUp sm <;> rfl

theorem exec_seamTransfer_idle (retry : Bool) (h : s.dev.hopOf t = none ∨ s.dev.hopBlocked idx t = true) :
    exec (.seamTransfer idx retry) s = .next s := by
  change execSeamTransfer idx retry s = _
  rw [execSeamTransfer]
  refine onRun_eq (e := s.dev) hf ?_
  simp only [ht]
  cases hop : s.dev.hopOf t with
  | none => rfl
  | some h' =>
    have hb : s.dev.hopBlocked idx t = true := h.resolve_left (by simp [hop])
    simp [hb]

theorem exec_crossingTransfer_full : exec (.crossingTransfer idx true) s = .next s := by
  change execCrossingTransfer idx true s = _
  rw [execCrossingTransfer]
  refine onRun_eq (e := s.dev) hf ?_
  simp [ht]

section Head
variable (hh : s.dev.crossingHead idx t = true)
include hh

theorem exec_crossingTransfer_launch {n : Fin 32} (hw : t.where_ = .launch) (hn : t.src = .tile n) :
    exec (.crossingTransfer idx false) s = .next (s.put (s.dev.netSet idx (some { t with where_ := .seam n }))) := by
  change execCrossingTransfer idx false s = _
  rw [execCrossingTransfer]
  refine onRun_eq hf ?_
  simp [ht, hh, hw, hn]

/-- The oldest transfer of a crossing to its endpoint reaches it. -/
theorem exec_crossingTransfer_reach (hw : t.where_ = .arrived ∨ ∃ n, t.where_ = .seam n ∧ t.dst = .tile n) :
    exec (.crossingTransfer idx false) s = .next (s.put ((s.dev.netSet idx none).reach t)) := by
  change execCrossingTransfer idx false s = _
  rw [execCrossingTransfer]
  refine onRun_eq hf ?_
  obtain hw | ⟨n, hw, hn⟩ := hw
  · simp [ht, hh, hw]
  · simp [ht, hh, hw, hn]

end Head
end Transfer

/-! What a transfer does at its endpoint (R38, R43, R384). -/

theorem reach_tile (d : Dev) {t : Transit} {n : Fin 32} (hn : t.dst = .tile n) (h : d.inService n = true) :
    d.reach t = d.emit (.arrive (.tile n) t.msg) := by
  simp [Dev.reach, hn, h, Dev.deliver]

theorem reach_hub (d : Dev) {t : Transit} (hd : t.dst = .hub) (h : d.crosses t.msg = false ∨ t.msg.op = 7) :
    d.reach t = d.emit (.arrive .hub t.msg) := by
  have hstays : ¬ (d.crosses t.msg = true ∧ t.msg.op ≠ 7) := by obtain h | h := h <;> simp [h]
  unfold Dev.reach
  rw [hd]
  exact if_neg hstays

theorem reach_link (d : Dev) {t : Transit} {k : Fin 8} (hd : t.dst = .oe k) (h : d.linkState (Fin.ofNat 64 t.link) = 5) :
    d.reach t = d.linkPut (Fin.ofNat 64 t.link) t.vc t.msg := by
  unfold Dev.reach
  rw [hd]
  exact if_pos h

/-- A request for a tile out of service is recorded in the tile's seam island and answered TILE_OUT. -/
theorem reach_tileOut (d : Dev) {t : Transit} {n : Fin 32} (hn : t.dst = .tile n) (h : d.inService n = false) (h1 : 1 ≤ t.msg.op)
    (h4 : t.msg.op ≤ 4) (hs : t.msg.src.pkg = d.self) :
    d.reach t = (d.latch (egSeam n) 1).emit (.arrive (nodeEndpt t.msg.src) (errAnswer t.msg 5)) := by
  rw [← answerErr_own _ 5 h1 h4 (hs.trans (self_latch_egSeam d n 1).symm)]
  simp [Dev.reach, hn, h, asksAnswer_of_request h1 h4]

/-- A message that a link's transmitter takes waits behind the others of its VC; no other link changes. -/
theorem linkPut_effect (d : Dev) (j : Fin 64) (vc : Vc) (m : Dmsg) :
    (d.linkPut j vc m).fab.net = d.fab.net ∧
      ((d.linkPut j vc m).link j).txq[vcIdx vc] = (d.link j).txq[vcIdx vc] ++ [⟨m.src, m.dst.pkg, m, 0⟩] ∧
      (∀ i, i ≠ j → (d.linkPut j vc m).link i = d.link i) ∧ (d.linkPut j vc m).regs = d.regs ∧
      (d.linkPut j vc m).out = d.out ∧ (d.linkPut j vc m).tiles = d.tiles := by
  refine ⟨rfl, ?_, fun i hi => ?_, rfl, rfl, rfl⟩
  · simp [Dev.linkPut, Dev.onLink, Dev.link]
  · have hne : j.val ≠ i.val := fun h => hi (Fin.ext h.symm)
    simp [Dev.linkPut, Dev.onLink, Dev.link, hne]

end Sys2Proof.Machine
end

section
/-! Seams that fail and return (R31, R32, R44): HUB_SEAM_UP, the record that each joined tile makes, the links of an engine's seams. -/

namespace Sys2Proof.Machine

open Reg

/-! HUB_SEAM_UP. -/

theorem seamUp_congr {d e : Dev} {i : Nat} (h : e.getR (HUB_SEAM_UP0 + 4 * (i / 32)) = d.getR (HUB_SEAM_UP0 + 4 * (i / 32))) :
    e.seamUp i = d.seamUp i := regBit_congr h _

theorem seamUp_setSeam (d : Dev) (sm i : Nat) (v : Bool) : (d.setSeam sm v).seamUp i = if i = sm then v else d.seamUp i := by
  rw [Dev.setSeam, Dev.seamUp, regBit_setBit _ _ _ _ _ _ (Nat.mod_lt i (by decide))]
  exact if_congr (by omega) rfl rfl

theorem getR_setSeam_ne (d : Dev) {sm p : Nat} (v : Bool) (h : p ≠ HUB_SEAM_UP0 + 4 * (sm / 32)) :
    (d.setSeam sm v).getR p = d.getR p := getR_setBit_ne d _ v h

/-! The record of a failed seam at a tile that it joins. -/

theorem portOfSeam_lt (n sm : Nat) : (portOfSeam n sm).getD 0 < 4 := by
  cases h : portOfSeam n sm with
  | none => decide
  | some p => exact List.mem_range.mp (List.mem_of_find?_eq_some h)

/-- Tile `n` records that seam `sm` failed: its event, and its port's count. -/
def seamRecord (sm : Nat) (d : Dev) (n : Fin 32) : Dev :=
  (d.latch (egSeam n) 0).satInc (SEAM_PORT_DOWN_COUNT n ((portOfSeam n sm).getD 0))

theorem seamFail_of_up {d : Dev} {sm : Nat} (h : d.seamUp sm = true) :
    d.seamFail sm = (seamTiles sm).foldl (seamRecord sm) (d.setSeam sm false) := by
  have hup : ¬ ¬ d.seamUp sm = true := not_not.mpr h
  have htiles : (do let n ← seamTiles sm; pure n.val) = (seamTiles sm).map Fin.val := by
    rw [bind_pure_comp, List.map_eq_map]
  rw [Dev.seamFail, if_neg hup, htiles, List.foldl_map]
  rfl

theorem seamFail_of_down {d : Dev} {sm : Nat} (h : d.seamUp sm = false) : d.seamFail sm = d := by
  simp [Dev.seamFail, h]

/-- The registers of the seam island of tile `n` that count and record. -/
def inSeamIsland (n p : Nat) : Prop := tileBase n + 0x80000 ≤ p ∧ p < tileBase n + 0x80140

/-- A record changes no register but those of its seam island and the words of pending sources. -/
theorem getR_seamRecord_ne (sm : Nat) (d : Dev) (n : Fin 32) {p : Nat} (h : ¬ inSeamIsland n p) (hp : p < 0x100120 ∨ 0x100200 ≤ p) :
    (seamRecord sm d n).getR p = d.getR p := by
  have hport := portOfSeam_lt n sm
  unfold inSeamIsland at h
  rw [seamRecord, getR_satInc_ne _ (by simp only [SEAM_PORT_DOWN_COUNT]; omega)]
  exact getR_latch_egSeam d n 0 (by simp only [SEAM_EVENT]; omega) (by simp only [SEAM_EVENT_SEQ]; omega) hp

/-- A tile's record at the two registers that it changes. -/
theorem seamRecord_self (sm : Nat) (d : Dev) (n : Fin 32) :
    (seamRecord sm d n).regBit (SEAM_EVENT n) 0 = true ∧
      (seamRecord sm d n).getN (SEAM_PORT_DOWN_COUNT n ((portOfSeam n sm).getD 0)) =
        min (d.getN (SEAM_PORT_DOWN_COUNT n ((portOfSeam n sm).getD 0)) + 1) 0xFFFFFFFF := by
  constructor
  · rw [seamRecord, regBit_congr (getR_satInc_ne _ (by simp only [SEAM_EVENT, SEAM_PORT_DOWN_COUNT]; omega))]
    exact regBit_latch_egSeam d n (by decide)
  · rw [seamRecord, Dev.satInc, getN_satAdd]
    rw [getN_congr (getR_latch_egSeam d n 0 (by simp only [SEAM_EVENT, SEAM_PORT_DOWN_COUNT]; omega)
      (by simp only [SEAM_EVENT_SEQ, SEAM_PORT_DOWN_COUNT]; omega) (by simp only [SEAM_PORT_DOWN_COUNT, tileBase]; omega))]

/-- Beside registers and ages a package is as it was. -/
def Dev.sameBesideAges (d e : Dev) : Prop := e = { d with regs := e.regs, ages := e.ages }

theorem Dev.sameBesideAges.refl (d : Dev) : d.sameBesideAges d := by cases d; exact Eq.refl _

theorem Dev.sameBesideAges.trans {d e x : Dev} (h : d.sameBesideAges e) (g : e.sameBesideAges x) : d.sameBesideAges x := by
  unfold Dev.sameBesideAges at *
  rw [g, h]

theorem sameBesideAges_foldl {α : Type} {f : Dev → α → Dev} (hstep : ∀ (d : Dev) (a : α), d.sameBesideAges (f d a)) (l : List α)
    (d : Dev) : d.sameBesideAges (l.foldl f d) := by
  induction l generalizing d with
  | nil => exact .refl d
  | cons a t ih => exact (hstep d a).trans (ih (f d a))

theorem sameBesideAges_setSeam (d : Dev) (sm : Nat) (v : Bool) : d.sameBesideAges (d.setSeam sm v) := by
  cases d
  exact Eq.refl _

theorem sameBesideAges_seamRecord (sm : Nat) (d : Dev) (n : Fin 32) : d.sameBesideAges (seamRecord sm d n) := by
  refine Dev.sameBesideAges.trans (latch_only d (egSeam n) 0) ?_
  rw [seamRecord]
  cases d.latch (egSeam n) 0
  exact Eq.refl _

theorem Dev.sameBesideAges.fields {d e : Dev} (h : d.sameBesideAges e) :
    e.fab = d.fab ∧ e.out = d.out ∧ e.tiles = d.tiles ∧ e.log = d.log ∧ e.res = d.res := by
  unfold Dev.sameBesideAges at h
  rw [h]
  simp

/-! A seam that fails. -/

theorem sameBesideAges_seamFail (d : Dev) (sm : Nat) : d.sameBesideAges (d.seamFail sm) := by
  cases h : d.seamUp sm with
  | false => rw [seamFail_of_down h]; exact .refl d
  | true =>
    rw [seamFail_of_up h]
    exact (sameBesideAges_setSeam d sm false).trans (sameBesideAges_foldl (sameBesideAges_seamRecord sm) _ _)

/-- The failure of a seam changes its own bit of HUB_SEAM_UP, the records of the tiles that it joins, and pending sources. -/
theorem getR_seamFail_ne (d : Dev) (sm : Nat) {p : Nat} (hs : p ≠ HUB_SEAM_UP0 + 4 * (sm / 32))
    (h : ∀ n ∈ seamTiles sm, ¬ inSeamIsland n p) (hp : p < 0x100120 ∨ 0x100200 ≤ p) : (d.seamFail sm).getR p = d.getR p := by
  cases hup : d.seamUp sm with
  | false => rw [seamFail_of_down hup]
  | true =>
    rw [seamFail_of_up hup, foldl_view_same (fun e => e.getR p) _ _ fun e n hn => getR_seamRecord_ne sm e n (h n hn) hp]
    exact getR_setSeam_ne d false hs

/-- A register of the hub is in no seam island. -/
theorem not_inSeamIsland_of_lt {n p : Nat} (h : p < 0x1000000) : ¬ inSeamIsland n p := by
  simp only [inSeamIsland, tileBase]
  omega

/-- A seam that fails is down; every other seam is as it was. -/
theorem seamUp_seamFail (d : Dev) (sm : Nat) {i : Nat} (hi : i < 128) :
    (d.seamFail sm).seamUp i = (d.seamUp i && i != sm) := by
  cases hup : d.seamUp sm with
  | false =>
    rw [seamFail_of_down hup]
    by_cases h : i = sm <;> simp [h, hup]
  | true =>
    have hsm : (d.seamFail sm).seamUp i = (d.setSeam sm false).seamUp i := by
      rw [seamFail_of_up hup]
      exact foldl_view_same (fun e => e.seamUp i) _ _ (fun e n _ => seamUp_congr
        (getR_seamRecord_ne sm e n (not_inSeamIsland_of_lt (by simp only [HUB_SEAM_UP0]; omega)) (by simp only [HUB_SEAM_UP0]; omega))) _
    rw [hsm, seamUp_setSeam]
    by_cases h : i = sm <;> simp [h]

theorem seamTiles_nodup (sm : Nat) : (seamTiles sm).Nodup := (List.nodup_finRange 32).filter _

/-- The seam islands of two tiles share no register. -/
theorem inSeamIsland_inj {n m : Nat} {p : Nat} (hn : inSeamIsland n p) (hm : inSeamIsland m p) : n = m := by
  simp only [inSeamIsland, tileBase] at *
  omega

/-- Each tile that a trained seam joins records its failure once. -/
theorem seamFail_records {d : Dev} {sm : Nat} (hsm : sm < 128) (hup : d.seamUp sm = true) {n : Fin 32} (hn : n ∈ seamTiles sm) :
    (d.seamFail sm).regBit (SEAM_EVENT n) 0 = true ∧
      (d.seamFail sm).getN (SEAM_PORT_DOWN_COUNT n ((portOfSeam n sm).getD 0)) =
        min (d.getN (SEAM_PORT_DOWN_COUNT n ((portOfSeam n sm).getD 0)) + 1) 0xFFFFFFFF := by
  have hport := portOfSeam_lt n sm
  have hev : inSeamIsland n (SEAM_EVENT n) := by simp only [inSeamIsland, SEAM_EVENT]; omega
  have hcount : inSeamIsland n (SEAM_PORT_DOWN_COUNT n ((portOfSeam n sm).getD 0)) := by
    simp only [inSeamIsland, SEAM_PORT_DOWN_COUNT]
    omega
  have hlarge {p : Nat} (h : inSeamIsland n p) : 0x1000000 ≤ p := by
    simp only [inSeamIsland, tileBase] at h
    omega
  have hother (e : Dev) (m : Fin 32) (hm : m ≠ n) {p : Nat} (h : inSeamIsland n p) : (seamRecord sm e m).getR p = e.getR p :=
    getR_seamRecord_ne sm e m (fun h' => hm (Fin.ext (inSeamIsland_inj h' h))) (.inr (by have := hlarge h; omega))
  rw [seamFail_of_up hup]
  obtain ⟨x, hx, hfold⟩ := foldl_view_at
    (fun e => (e.regBit (SEAM_EVENT n) 0, e.getN (SEAM_PORT_DOWN_COUNT n ((portOfSeam n sm).getD 0)))) (seamRecord sm) hn
    (seamTiles_nodup sm) (fun e m hm => Prod.ext (regBit_congr (hother e m hm hev) 0) (getN_congr (hother e m hm hcount)))
    (d.setSeam sm false)
  have hbefore : x.getN (SEAM_PORT_DOWN_COUNT n ((portOfSeam n sm).getD 0)) =
      d.getN (SEAM_PORT_DOWN_COUNT n ((portOfSeam n sm).getD 0)) := by
    have hbit := hlarge hcount
    exact (congrArg Prod.snd hx).trans (getN_congr (getR_setSeam_ne d false (by simp only [HUB_SEAM_UP0]; omega)))
  obtain ⟨h1, h2⟩ := seamRecord_self sm x n
  rw [hbefore] at h2
  exact ⟨(congrArg Prod.fst hfold).trans h1, (congrArg Prod.snd hfold).trans h2⟩

/-! The commands of a failed seam. -/

theorem hopOf_congr {d e : Dev} (h : e.fab = d.fab) (t : Transit) : e.hopOf t = d.hopOf t := by
  have hr : e.routeUp = d.routeUp := by funext i; simp only [Dev.routeUp, h]
  simp only [Dev.hopOf, hr]

theorem exec_seamDown_empty {s : State} {sm : Fin 72} (now : Nat) (hf : s.dev.frozen = false) (h : s.dev.seamUp sm = true) :
    exec (.seamDown sm [] now) s = .next (s.put ((s.dev.at_ now).seamFail sm)) := by
  have hup : ¬ ¬ (s.dev.at_ now).seamUp sm = true := not_not.mpr ((seamUp_congr (getR_at_ _ _ _)).trans h)
  change execSeamDown sm [] now s = _
  rw [execSeamDown]
  refine onRun_eq hf ?_
  dsimp only
  rw [if_neg hup, List.dedup_nil, List.mergeSort_nil, List.foldl_nil]

/-- A transfer on the seam that asks for no answer is lost. -/
theorem exec_seamDown_silent {s : State} {sm : Fin 72} (now : Nat) {i : Nat} {t : Transit} {w : NetAt} (hf : s.dev.frozen = false)
    (h : s.dev.seamUp sm = true) (ht : s.dev.fab.net[i]? = some t) (hop : s.dev.hopOf t = some (sm.val, w)) (h7 : t.msg.op = 7) :
    exec (.seamDown sm [i] now) s = .next (s.put (((s.dev.at_ now).seamFail sm).netSet i none)) := by
  have hup : ¬ ¬ (s.dev.at_ now).seamUp sm = true := not_not.mpr ((seamUp_congr (getR_at_ _ _ _)).trans h)
  obtain ⟨hfab, -, -, -, -⟩ := (sameBesideAges_seamFail (s.dev.at_ now) sm).fields
  have hnet : ((s.dev.at_ now).seamFail sm).fab.net[i]? = some t := by rw [hfab, fab_at_, ht]
  have hhop : ((s.dev.at_ now).seamFail sm).hopOf t = some (sm.val, w) := by
    rw [hopOf_congr (hfab.trans (fab_at_ _ _)), hop]
  change execSeamDown sm [i] now s = _
  rw [execSeamDown]
  refine onRun_eq hf ?_
  dsimp only
  rw [if_neg hup]
  rw [(List.nodup_singleton i).dedup, List.mergeSort_singleton, List.foldl_cons, List.foldl_nil]
  simp only [hnet, hhop, Option.any_some, beq_self_eq_true, if_true, seamLose_silent _ i sm.val h7]

theorem exec_seamDown_down {s : State} {sm : Fin 72} (l : List Nat) (now : Nat) (hf : s.dev.frozen = false)
    (h : s.dev.seamUp sm = false) : exec (.seamDown sm l now) s = .next (s.put (s.dev.at_ now)) := by
  have hdown : ¬ (s.dev.at_ now).seamUp sm = true := by rw [seamUp_congr (getR_at_ _ _ _), h]; decide
  change execSeamDown sm l now s = _
  rw [execSeamDown]
  exact onRun_eq hf (if_pos hdown)

/-! A seam that returns. -/

/-- Link `j` trains again where the loss of its engine's seams took it down and signal is present. -/
def linkRetrain (d : Dev) (j : Fin 64) : Dev :=
  if d.linkState j = 1 ∧ d.getF (OEC_LINK_STATUS_CAUSE (j / 8) (j % 8)) = 9 ∧ d.fullSignal j then d.linkTrain j else d

theorem exec_seamUp_plain {s : State} {sm : Fin 72} (now : Nat) (hf : s.dev.frozen = false) (h : sm.val < 56) :
    exec (.seamUp sm now) s = .next (s.put ((s.dev.at_ now).setSeam sm true)) := by
  have hk : seamEngine sm = none := if_neg (by omega)
  change execSeamUp sm now s = _
  rw [execSeamUp]
  refine onRun_eq hf ?_
  dsimp only
  rw [hk]

theorem exec_seamUp_engine {s : State} {sm : Fin 72} {k : Fin 8} (now : Nat) (hf : s.dev.frozen = false) (h : seamEngine sm = some k) :
    exec (.seamUp sm now) s = .next (s.put ((engineLinks k).foldl linkRetrain ((s.dev.at_ now).setSeam sm true))) := by
  change execSeamUp sm now s = _
  rw [execSeamUp]
  refine onRun_eq hf ?_
  dsimp only
  rw [h]
  rfl

theorem engineLinks_nodup : ∀ k : Fin 8, (engineLinks k).Nodup := by decide

/-- The register that holds the state, the cause and the signal of a link. -/
def linkReg (j : Fin 64) : Nat := OEC_LINK_STATUS (j / 8) (j % 8)

theorem linkReg_inj {i j : Fin 64} (h : linkReg i = linkReg j) : i = j := by
  simp only [linkReg, OEC_LINK_STATUS, oeBase] at h
  omega

theorem linkReg_ge (j : Fin 64) : 0x3000000 ≤ linkReg j := by
  simp only [linkReg, OEC_LINK_STATUS, oeBase]
  omega

theorem getR_linkTrain_ne (d : Dev) {j : Fin 64} {p : Nat} (h : p ≠ linkReg j) : (d.linkTrain j).getR p = d.getR p := by
  rw [Dev.linkTrain, Dev.sendIdentity, Dev.sendCtrl, getR_emit, Dev.setLinkState, getR_setF]
  exact (if_neg h).trans rfl

/-- A link that starts training is in TRAINING. -/
theorem linkState_linkTrain (d : Dev) (j : Fin 64) : (d.linkTrain j).linkState j = 2 := by
  rw [Dev.linkTrain, Dev.sendIdentity, Dev.sendCtrl, Dev.linkState, getF_congr (getR_emit _ _ _), Dev.setLinkState,
    getF_setF_self _ _ _ (show 31 < 32 by decide)]
  rfl

theorem getR_linkRetrain_ne (d : Dev) {j : Fin 64} {p : Nat} (h : p ≠ linkReg j) : (linkRetrain d j).getR p = d.getR p := by
  unfold linkRetrain
  split
  · exact getR_linkTrain_ne d h
  · rfl

theorem tiles_linkRetrain (d : Dev) (j : Fin 64) : (linkRetrain d j).tiles = d.tiles := by
  unfold linkRetrain
  split
  · simp [Dev.linkTrain, Dev.sendIdentity, Dev.sendCtrl, Dev.setLinkState, Dev.onLink]
  · rfl

/-- Where a link's register reads alike, so do its state and what decides on its training. -/
theorem linkRetrain_state (d : Dev) {x : Dev} {j : Fin 64} (h : x.getR (linkReg j) = d.getR (linkReg j)) :
    (linkRetrain x j).linkState j = if d.linkState j = 1 ∧ d.getF (OEC_LINK_STATUS_CAUSE (j / 8) (j % 8)) = 9 ∧ d.fullSignal j = true
      then 2 else d.linkState j := by
  have hstate : x.linkState j = d.linkState j := getF_congr h
  have hcause : x.getF (OEC_LINK_STATUS_CAUSE (j / 8) (j % 8)) = d.getF (OEC_LINK_STATUS_CAUSE (j / 8) (j % 8)) := getF_congr h
  have hsignal : x.fullSignal j = d.fullSignal j := congrArg (· == 0xFF) (getF_congr h)
  simp only [linkRetrain, hstate, hcause, hsignal]
  split
  · exact linkState_linkTrain x j
  · exact hstate

/-- The links of an engine whose seam returns: each is decided by its own register, as it read in `d`. -/
theorem linkState_retrained {d e : Dev} (k : Fin 8) {j : Fin 64} (h : e.getR (linkReg j) = d.getR (linkReg j)) :
    ((engineLinks k).foldl linkRetrain e).linkState j =
      if j ∈ engineLinks k ∧ d.linkState j = 1 ∧ d.getF (OEC_LINK_STATUS_CAUSE (j / 8) (j % 8)) = 9 ∧ d.fullSignal j = true
        then 2 else d.linkState j := by
  by_cases hj : j ∈ engineLinks k
  · obtain ⟨x, hx, hfold⟩ := foldl_view_at (fun e => e.getR (linkReg j)) linkRetrain hj (engineLinks_nodup k)
      (fun x i hi => getR_linkRetrain_ne x fun h => hi (linkReg_inj h).symm) e
    have hstate : ((engineLinks k).foldl linkRetrain e).linkState j = (linkRetrain x j).linkState j := getF_congr hfold
    rw [hstate, linkRetrain_state d (hx.trans h)]
    simp only [hj, true_and]
  · have hstate : ((engineLinks k).foldl linkRetrain e).linkState j = d.linkState j :=
      getF_congr ((foldl_view_same (fun e => e.getR (linkReg j)) linkRetrain _
        (fun x i hi => getR_linkRetrain_ne x fun h => hj ((linkReg_inj h : j = i) ▸ hi)) e).trans h)
    simp only [hstate, hj, false_and, if_false]

theorem seamUp_retrained (d : Dev) (k : Fin 8) {i : Nat} (hi : i < 128) :
    ((engineLinks k).foldl linkRetrain d).seamUp i = d.seamUp i :=
  foldl_view_same (fun e => e.seamUp i) linkRetrain _ (fun e j _ => seamUp_congr (getR_linkRetrain_ne e (by
    have := linkReg_ge j
    simp only [HUB_SEAM_UP0]
    omega))) d

end Sys2Proof.Machine
end

section
/-! A tile that leaves service (R42, R43): what the errors of its compute island leave of the hub's registers, and what its exit does. -/

namespace Sys2Proof.Machine

open Reg

/-! What error answers leave of the hub: the registers of tiles in service, exits and seams, and those of residency. -/

/-- The registers that no error answer changes. -/
def hubKept (p : Nat) : Prop := p < 0x500 ∨ (0x700000 ≤ p ∧ p < 0x800000)

/-- A step that keeps those registers and the residency engine's job. -/
def Dev.keepsHub (d e : Dev) : Prop := e.res = d.res ∧ ∀ p, hubKept p → e.getR p = d.getR p

theorem Dev.keepsHub.refl (d : Dev) : d.keepsHub d := ⟨rfl, fun _ _ => rfl⟩

theorem Dev.keepsHub.trans {d e x : Dev} (h : d.keepsHub e) (g : e.keepsHub x) : d.keepsHub x :=
  ⟨g.1.trans h.1, fun p hp => (g.2 p hp).trans (h.2 p hp)⟩

theorem keepsHub_foldl {α : Type} {f : Dev → α → Dev} (hstep : ∀ (d : Dev) (a : α), d.keepsHub (f d a)) (l : List α) (d : Dev) :
    d.keepsHub (l.foldl f d) := by
  induction l generalizing d with
  | nil => exact .refl d
  | cons a t ih => exact (hstep d a).trans (ih (f d a))

theorem keepsHub_of_regs {d e : Dev} (hr : e.regs = d.regs) (hs : e.res = d.res) : d.keepsHub e :=
  ⟨hs, fun p _ => by simp only [Dev.getR, hr]⟩

theorem not_hubKept_tile {p : Nat} (h : 0x1000000 ≤ p) : ¬ hubKept p := by
  unfold hubKept
  omega

theorem ne_of_hubKept {o p : Nat} (ho : ¬ hubKept o) (hp : hubKept p) : p ≠ o := fun h => ho (h ▸ hp)

theorem keepsHub_satInc (d : Dev) {o : Nat} (ho : ¬ hubKept o) : d.keepsHub (d.satInc o) :=
  ⟨res_satInc d o, fun _ hp => getR_satInc_ne d (ne_of_hubKept ho hp)⟩

theorem keepsHub_setPair (d : Dev) {lo hi : Nat} (v : Nat) (hlo : ¬ hubKept lo) (hhi : ¬ hubKept hi) :
    d.keepsHub (d.setPair lo hi v) :=
  ⟨res_setPair d lo hi v, fun _ hp => getR_setPair_ne d v (ne_of_hubKept hlo hp) (ne_of_hubKept hhi hp)⟩

theorem keepsHub_latch (d : Dev) {g : EvGroup} (b : Nat) (hev : ¬ hubKept g.ev) (hseq : ¬ hubKept g.seq) (hsrc : g.src < 1024) :
    d.keepsHub (d.latch g b) := by
  have hpend : ¬ hubKept (INT_PEND (g.src / 32)) := by
    simp only [hubKept, INT_PEND]
    omega
  exact ⟨res_latch d g b, fun p hp => getR_latch_ne d g b p (ne_of_hubKept hev hp) (ne_of_hubKept hseq hp) (ne_of_hubKept hpend hp)⟩

theorem keepsHub_emit (d : Dev) (o : Output) : d.keepsHub (d.emit o) := keepsHub_of_regs rfl rfl
theorem keepsHub_onTile (d : Dev) (n : Fin 32) (f : Tile → Tile) : d.keepsHub (d.onTile n f) := keepsHub_of_regs rfl rfl

theorem keepsHub_onSource (d : Dev) (h : Option (Fin 32)) (f : Source → Source) : d.keepsHub (d.onSource h f) := by
  cases h <;> exact keepsHub_of_regs rfl rfl

/-- A launch onto the fabric changes no register: the message waits at its fence or enters the network. -/
theorem fabLaunch_keepsHub {d e : Dev} {vc : Vc} {m : Dmsg} (h : d.fabLaunch vc m = some e) : d.keepsHub e := by
  unfold Dev.fabLaunch at h
  dsimp only at h
  split at h
  · cases h
  · split at h
    · cases h
    · split at h <;> (cases h; exact keepsHub_of_regs rfl rfl)

theorem sendOut_keepsHub {d e : Dev} {vc : Vc} {m : Dmsg} (h : d.sendOut vc m = some e) : d.keepsHub e := by
  unfold Dev.sendOut at h
  dsimp only at h
  split at h
  · split at h <;> (cases h; exact keepsHub_of_regs rfl rfl)
  · split at h
    · split at h <;> (cases h; exact keepsHub_of_regs rfl rfl)
    · exact fabLaunch_keepsHub h

theorem sendMsg_keepsHub (d : Dev) (vc : Vc) (m : Dmsg) : d.keepsHub (d.sendMsg vc m) := by
  unfold Dev.sendMsg
  split
  · next h => exact sendOut_keepsHub h
  · exact keepsHub_satInc d (by simp [hubKept, FAB_UNREACH_COUNT])

/-! A tile's performance counters. -/

/-- A counter's step writes the counter, and latches its overflow where it wraps. -/
theorem pmcStep_package (d : Dev) (b : PmcBlock) (c k : Nat) :
    let e := d.setPair (PMC_CNT_LO (pmcBase b) c) (PMC_CNT_HI (pmcBase b) c) ((d.pmc b c + k) % 2 ^ 40)
    (d.pmcStep b c k).2 = e ∨ (d.pmcStep b c k).2 = e.latch (pmcGroup b) c := by
  dsimp only
  rw [Dev.pmcStep]
  exact (ite_eq_or_eq _ _ _).symm.imp (congrArg Prod.snd) (congrArg Prod.snd)

theorem pmcStep_keepsHub (d : Dev) (n : Fin 32) (c k : Nat) : d.keepsHub (d.pmcStep (.tile n) c k).2 := by
  have hpair := keepsHub_setPair d (lo := PMC_CNT_LO (pmcBase (.tile n)) c) (hi := PMC_CNT_HI (pmcBase (.tile n)) c)
    ((d.pmc (.tile n) c + k) % 2 ^ 40)
    (not_hubKept_tile (by simp only [PMC_CNT_LO, pmcBase, tilePmc, tileBase]; omega))
    (not_hubKept_tile (by simp only [PMC_CNT_HI, pmcBase, tilePmc, tileBase]; omega))
  obtain h | h := pmcStep_package d (.tile n) c k <;> rw [h]
  · exact hpair
  · exact hpair.trans (keepsHub_latch _ c
      (not_hubKept_tile (by simp only [pmcGroup, egTilePmc, PMC_OVF, tilePmc, tileBase]; omega))
      (not_hubKept_tile (by simp only [pmcGroup, egTilePmc, PMC_OVF_SEQ, tilePmc, tileBase]; omega))
      (by simp only [pmcGroup, egTilePmc]; omega))

theorem count_keepsHub (d : Dev) (n : Fin 32) (ev k : Nat) : d.keepsHub (d.count (.tile n) ev k) := by
  refine keepsHub_foldl (fun e c => ?_) _ d
  split
  · unfold Dev.pmcAdd
    dsimp only
    split
    · exact (pmcStep_keepsHub e n c k).trans (pmcStep_keepsHub _ n _ _)
    · exact pmcStep_keepsHub e n c k
  · exact .refl e

/-! Errors of operations. -/

theorem latch_egDld_keepsHub (d : Dev) (b : Nat) : d.keepsHub (d.latch egDld b) :=
  keepsHub_latch d b (by simp [egDld, hubKept, DLD_EVENT]) (by simp [egDld, hubKept, DLD_EVENT_SEQ]) (by simp [egDld])

/-- An ERROR that answers a token is recorded at its tile. -/
theorem tokenErr_keepsHub (d : Dev) (n : Fin 32) (m : Dmsg) : d.keepsHub (d.tokenErr n m) := by
  have hcount : d.keepsHub (((d.latch egDld 2).satInc DLD_ERR_RESP_COUNT).countSrc (some n) 0x16) :=
    ((latch_egDld_keepsHub d 2).trans (keepsHub_satInc _ (by simp [hubKept, DLD_ERR_RESP_COUNT]))).trans (count_keepsHub _ n 0x16 1)
  refine Dev.keepsHub.trans ?_ (keepsHub_latch _ 4 (not_hubKept_tile (by simp only [egTctl, TCTL_EVENT, tileBase]; omega))
    (not_hubKept_tile (by simp only [egTctl, TCTL_EVENT_SEQ, tileBase]; omega)) (by simp only [egTctl]; omega))
  unfold Dev.opError
  dsimp only
  split
  · exact (hcount.trans (latch_egDld_keepsHub _ 0)).trans (keepsHub_onSource _ _ _)
  · exact hcount.trans (keepsHub_onSource _ _ _)

theorem answerErr_keepsHub (d : Dev) (m : Dmsg) (code : Nat) : d.keepsHub (d.answerErr m code) := by
  unfold Dev.answerErr
  split_ifs
  · exact .refl d
  · exact sendMsg_keepsHub d _ _
  · exact keepsHub_emit d _
  · exact .refl d
  · exact tokenErr_keepsHub d _ _

/-- The answers for a lost compute island leave the hub's registers and the residency engine's job. -/
theorem tileOut_keepsHub (d : Dev) (n : Fin 32) : d.keepsHub (d.tileOut n) := by
  unfold Dev.tileOut
  exact ((keepsHub_onTile d n _).trans (keepsHub_foldl (fun e m => answerErr_keepsHub e m 5) _ _)).trans
    (keepsHub_foldl (fun e r => sendMsg_keepsHub e _ _) _ _)

/-- A compute island that holds nothing of others has nothing to answer. -/
theorem tileOut_of_empty {d : Dev} {n : Fin 32} (hd : d.delud n = Delud.reset) (he : (d.router n).early = []) : d.tileOut n = d := by
  have hsame : d.onDelud n (fun _ => Delud.reset) = d := by
    have htile : ({ d.tile n with delud := Delud.reset } : Tile) = d.tiles[n.val] := by rw [← hd]; rfl
    rw [Dev.onDelud, Dev.onTile, htile, Vector.set_getElem_self]
  have hreqs : (d.delud n).adm ++ (d.delud n).jobs.map HomeJob.msg ++ (d.router n).early = [] := by rw [hd, he]; rfl
  have hheld : (d.delud n).held.flatMap HeldLine.resps = [] := by rw [hd]; rfl
  rw [Dev.tileOut, hreqs, hheld, List.foldl_nil, List.foldl_nil, hsame]

/-! The steps of an exit. -/

theorem tile_onTile (d : Dev) (n m : Fin 32) (f : Tile → Tile) : (d.onTile n f).tile m = if m = n then f (d.tile n) else d.tile m := by
  by_cases h : m = n
  · subst h
    simp [Dev.onTile, Dev.tile]
  · have hne : n.val ≠ m.val := fun h' => h (Fin.ext h'.symm)
    simp [Dev.onTile, Dev.tile, h, hne]

/-- Tile `n` leaves HUB_TILE_INSERVICE, HUB_TILE_EXIT latches its bit and the log takes the cause. -/
def Dev.tileGone (d : Dev) (n : Fin 32) (cause : Nat) : Dev :=
  ((d.setBit HUB_TILE_INSERVICE n false).latch egTileExit n).logHub 0x0004 n cause

/-- Its contents are gone. -/
def Dev.tileEmptied (d : Dev) (n : Fin 32) : Dev := (d.onTile n fun _ => Tile.reset).setF (MEM_STATUS_MODE n) 3

/-- Its seams fail with its seam island. -/
def Dev.tileSeamsFail (d : Dev) (n : Fin 32) : Dev :=
  (List.range 4).foldl (fun d p => if seamOfPort n p < 72 then d.seamFail (seamOfPort n p) else d) d

/-- A step that leaves `d` at each entry of a list leaves it over the list. -/
theorem foldl_fixed_of_mem {α β : Type} {f : β → α → β} {d : β} {l : List α} (h : ∀ a ∈ l, f d a = d) : l.foldl f d = d := by
  induction l with
  | nil => rfl
  | cons a t ih => rw [List.foldl_cons, h a (by simp), ih fun b hb => h b (by simp [hb])]

/-- With no load and no model slot on the tile the residency engine loses nothing. -/
theorem slotsTileLost_of_free {d : Dev} {n : Fin 32} (hj : d.res.job = none)
    (hs : ∀ k, k < 16 → d.regBit (WTR_SLOT_TILES k) n = false) : d.slotsTileLost n = d := by
  simp only [Dev.slotsTileLost, hj, Option.any_none, Bool.false_eq_true, if_false]
  refine foldl_fixed_of_mem fun k hk => if_neg ?_
  simp [hs k (List.mem_range.mp hk)]

theorem getR_tileGone_ne (d : Dev) (n : Fin 32) (cause : Nat) {p : Nat} (h1 : p ≠ HUB_TILE_INSERVICE) (h2 : p ≠ HUB_TILE_EXIT)
    (h3 : p ≠ HUB_TILE_EXIT_SEQ) (h4 : p ≠ HUB_LOG_HEAD) (h5 : p ≠ INT_PEND 0) : (d.tileGone n cause).getR p = d.getR p := by
  rw [Dev.tileGone, Dev.logHub, getR_logEntry_ne _ _ _ _ _ _ _ h4 h5, getR_latch_ne _ egTileExit _ p h2 h3 h5,
    getR_setBit_ne _ _ _ h1]

theorem res_tileGone (d : Dev) (n : Fin 32) (cause : Nat) : (d.tileGone n cause).res = d.res := by
  simp [Dev.tileGone, Dev.logHub]

/-- The tile alone leaves HUB_TILE_INSERVICE. -/
theorem inService_tileGone (d : Dev) (n m : Fin 32) (cause : Nat) :
    (d.tileGone n cause).inService m = if m = n then false else d.inService m := by
  have hafter : (d.tileGone n cause).inService m = (d.setBit HUB_TILE_INSERVICE n false).inService m := by
    refine regBit_congr ?_ m
    rw [Dev.tileGone, Dev.logHub, getR_logEntry_ne _ _ _ _ _ _ _ (by decide) (by decide),
      getR_latch_ne _ egTileExit _ _ (by decide) (by decide) (by decide)]
  rw [hafter, Dev.inService, regBit_setBit _ _ _ _ _ _ m.isLt]
  exact if_congr (by rw [Fin.ext_iff]; simp) rfl rfl

theorem regBit_exit_tileGone (d : Dev) (n : Fin 32) (cause : Nat) : (d.tileGone n cause).regBit HUB_TILE_EXIT n = true := by
  rw [Dev.tileGone, Dev.logHub, regBit_congr (getR_logEntry_ne _ _ _ _ _ _ _ (by decide) (by decide))]
  exact regBit_latch_self _ egTileExit n n.isLt (by decide)

/-- The source of HUB_TILE_EXIT stays pending through the log's own edge. -/
theorem isPending_tileGone (d : Dev) (n : Fin 32) (cause : Nat) : (d.tileGone n cause).isPending 1 = true := by
  have hlatched : ((d.setBit HUB_TILE_INSERVICE n false).latch egTileExit n).isPending 1 = true := isPending_latch _ egTileExit _ rfl
  rw [Dev.tileGone, Dev.logHub, Dev.logEntry, Dev.isPending, regBit_edge _ _ _ _ (by decide) (by decide)]
  refine (regBit_congr ?_ _).trans hlatched
  rw [getR_setN, if_neg (by decide)]
  rfl

/-- The log's entry of an exit. -/
theorem log_tileGone (d : Dev) (n : Fin 32) (cause : Nat) :
    smGet (fun _ => LogEntry.empty) (d.tileGone n cause).log (d.getN HUB_LOG_HEAD % 8192) =
      ⟨d.now, d.getN HUB_LOG_HEAD, 4, 0, n, cause, 0, 0⟩ := by
  have hhead : ((d.setBit HUB_TILE_INSERVICE n false).latch egTileExit n).getN HUB_LOG_HEAD = d.getN HUB_LOG_HEAD := by
    refine getN_congr ?_
    rw [getR_latch_ne _ egTileExit _ _ (by decide) (by decide) (by decide), getR_setBit_ne _ _ _ (by decide)]
  have hentry := smGet_log_logEntry ((d.setBit HUB_TILE_INSERVICE n false).latch egTileExit n) 4 0 n cause 0
  rwa [hhead, now_latch, now_setBit] at hentry

/-- What the exit of a tile without groups, slots and loads leaves while its seams hold. -/
def Dev.tileStopped (d : Dev) (n : Fin 32) (cause : Nat) : Dev := ((d.tileGone n cause).tileOut n).tileEmptied n

theorem getR_tileEmptied_ne (d : Dev) (n : Fin 32) {p : Nat} (h : p ≠ MEM_STATUS n) : (d.tileEmptied n).getR p = d.getR p := by
  rw [Dev.tileEmptied, getR_setF]
  exact (if_neg h).trans rfl

theorem tileEmptied_keepsHub (d : Dev) (n : Fin 32) : d.keepsHub (d.tileEmptied n) :=
  ⟨by simp [Dev.tileEmptied, Dev.onTile], fun _ hp => getR_tileEmptied_ne d n
    (ne_of_hubKept (not_hubKept_tile (by simp only [MEM_STATUS, tileBase]; omega)) hp)⟩

/-- Beside its exit's own registers the hub keeps what it held. -/
theorem tileStopped_keepsHub (d : Dev) (n : Fin 32) (cause : Nat) : (d.tileGone n cause).keepsHub (d.tileStopped n cause) :=
  (tileOut_keepsHub _ n).trans (tileEmptied_keepsHub _ n)

theorem inService_tileStopped (d : Dev) (n m : Fin 32) (cause : Nat) :
    (d.tileStopped n cause).inService m = if m = n then false else d.inService m :=
  (regBit_congr ((tileStopped_keepsHub d n cause).2 _ (.inl (by decide))) m).trans (inService_tileGone d n m cause)

theorem regBit_exit_tileStopped (d : Dev) (n : Fin 32) (cause : Nat) : (d.tileStopped n cause).regBit HUB_TILE_EXIT n = true :=
  (regBit_congr ((tileStopped_keepsHub d n cause).2 _ (.inl (by decide))) n).trans (regBit_exit_tileGone d n cause)

theorem seamUp_tileStopped (d : Dev) (n : Fin 32) (cause : Nat) {i : Nat} (hi : i < 128) :
    (d.tileStopped n cause).seamUp i = d.seamUp i := by
  refine seamUp_congr (((tileStopped_keepsHub d n cause).2 _ (.inl ?_)).trans (getR_tileGone_ne d n cause ?_ ?_ ?_ ?_ ?_)) <;>
    (simp only [HUB_SEAM_UP0, HUB_TILE_INSERVICE, HUB_TILE_EXIT, HUB_TILE_EXIT_SEQ, HUB_LOG_HEAD, INT_PEND]; omega)

/-- A tile whose seam island fails loses every seam that one of its ports joins, and no other. -/
theorem seamUp_tileSeamsFail (d : Dev) (n : Fin 32) {i : Nat} (hi : i < 72) :
    (d.tileSeamsFail n).seamUp i = (d.seamUp i && (portOfSeam n i).isNone) := by
  have hfold (l : List Nat) (x : Dev) :
      (l.foldl (fun d p => if seamOfPort n p < 72 then d.seamFail (seamOfPort n p) else d) x).seamUp i =
        (x.seamUp i && (l.find? fun p => seamOfPort n p == i).isNone) := by
    induction l generalizing x with
    | nil => simp
    | cons p t ih =>
      rw [List.foldl_cons, ih]
      by_cases hp : seamOfPort n p = i
      · simp [hp, hi, seamUp_seamFail x i (show i < 128 by omega)]
      · have hstep : (if seamOfPort n p < 72 then x.seamFail (seamOfPort n p) else x).seamUp i = x.seamUp i := by
          split
          · simp [seamUp_seamFail x _ (show i < 128 by omega), Ne.symm hp]
          · rfl
        simp [hstep, hp]
  exact hfold (List.range 4) d

theorem sameBesideAges_tileSeamsFail (d : Dev) (n : Fin 32) : d.sameBesideAges (d.tileSeamsFail n) := by
  refine sameBesideAges_foldl (fun e p => ?_) _ d
  split
  · exact sameBesideAges_seamFail e _
  · exact .refl e

/-- The failure of a tile's seams changes HUB_SEAM_UP, the records of seam islands, and pending sources. -/
theorem getR_tileSeamsFail_ne (d : Dev) (n : Fin 32) {p : Nat} (h : p < 0x410 ∨ 0x41C ≤ p) (hi : ∀ m, ¬ inSeamIsland m p)
    (hp : p < 0x100120 ∨ 0x100200 ≤ p) : (d.tileSeamsFail n).getR p = d.getR p := by
  refine foldl_view_same (fun e => e.getR p) _ _ (fun e q _ => ?_) d
  split
  · exact getR_seamFail_ne e _ (by simp only [HUB_SEAM_UP0]; omega) (fun m _ => hi m) hp
  · rfl

/-- What the exit of a tile without groups, slots and loads leaves. -/
def Dev.tileExited (d : Dev) (n : Fin 32) (cause : Nat) (ok : Bool) : Dev :=
  if ok = true then d.tileStopped n cause else (d.tileStopped n cause).tileSeamsFail n

theorem tileExited_true (d : Dev) (n : Fin 32) (cause : Nat) : d.tileExited n cause true = d.tileStopped n cause := if_pos rfl

theorem tileExited_false (d : Dev) (n : Fin 32) (cause : Nat) :
    d.tileExited n cause false = (d.tileStopped n cause).tileSeamsFail n := if_neg Bool.false_ne_true

theorem tileExited_fields (d : Dev) (n : Fin 32) (cause : Nat) (ok : Bool) :
    (d.tileExited n cause ok).out = (d.tileStopped n cause).out ∧ (d.tileExited n cause ok).tiles = (d.tileStopped n cause).tiles ∧
      (d.tileExited n cause ok).log = (d.tileStopped n cause).log ∧ (d.tileExited n cause ok).res = (d.tileStopped n cause).res := by
  cases ok with
  | true => rw [tileExited_true]; exact ⟨rfl, rfl, rfl, rfl⟩
  | false =>
    rw [tileExited_false]
    obtain ⟨-, hrest⟩ := (sameBesideAges_tileSeamsFail (d.tileStopped n cause) n).fields
    exact hrest

theorem getR_tileExited (d : Dev) (n : Fin 32) (cause : Nat) (ok : Bool) {p : Nat} (h : p < 0x410 ∨ 0x41C ≤ p)
    (hi : ∀ m, ¬ inSeamIsland m p) (hp : p < 0x100120 ∨ 0x100200 ≤ p) :
    (d.tileExited n cause ok).getR p = (d.tileStopped n cause).getR p := by
  cases ok with
  | true => rw [tileExited_true]
  | false => rw [tileExited_false, getR_tileSeamsFail_ne _ n h hi hp]

/-- A seam falls where a port of the tile joins it and the tile's seam island fails. -/
theorem seamUp_tileExited (d : Dev) (n : Fin 32) (cause : Nat) (ok : Bool) {i : Nat} (hi : i < 72) :
    (d.tileExited n cause ok).seamUp i = (d.seamUp i && (ok || (portOfSeam n i).isNone)) := by
  have hup := seamUp_tileStopped d n cause (show i < 128 by omega)
  cases ok with
  | true => rw [tileExited_true, hup, Bool.true_or, Bool.and_true]
  | false => rw [tileExited_false, seamUp_tileSeamsFail _ n hi, hup, Bool.false_or]

theorem inService_tileExited (d : Dev) (n m : Fin 32) (cause : Nat) (ok : Bool) :
    (d.tileExited n cause ok).inService m = if m = n then false else d.inService m :=
  (regBit_congr (getR_tileExited d n cause ok (by decide) (fun _ => not_inSeamIsland_of_lt (by decide)) (by decide)) m).trans
    (inService_tileStopped d n m cause)

theorem regBit_exit_tileExited (d : Dev) (n : Fin 32) (cause : Nat) (ok : Bool) :
    (d.tileExited n cause ok).regBit HUB_TILE_EXIT n = true :=
  (regBit_congr (getR_tileExited d n cause ok (by decide) (fun _ => not_inSeamIsland_of_lt (by decide)) (by decide)) n).trans
    (regBit_exit_tileStopped d n cause)

/-- The exit of a tile in no serving group, no load and no model slot. -/
theorem tileExit_of_free {d : Dev} {n : Fin 32} (cause : Nat) (ok : Bool) (hg : d.groupOf n = none) (hj : d.res.job = none)
    (hs : ∀ k, k < 16 → d.regBit (WTR_SLOT_TILES k) n = false) : d.tileExit n cause ok = d.tileExited n cause ok := by
  have hexit : d.tileExit n cause ok = (d.tileExited n cause ok).slotsTileLost n := by
    unfold Dev.tileExit
    rw [hg]
    rfl
  obtain ⟨-, -, -, hres⟩ := tileExited_fields d n cause ok
  have hstopped : (d.tileStopped n cause).res = d.res := (tileStopped_keepsHub d n cause).1.trans (res_tileGone d n cause)
  rw [hexit]
  refine slotsTileLost_of_free ((congrArg Resid.job (hres.trans hstopped)).trans hj) fun k hk => ?_
  have hwtr : 0x700000 ≤ WTR_SLOT_TILES k ∧ WTR_SLOT_TILES k < 0x800000 := by
    simp only [WTR_SLOT_TILES]
    omega
  refine (regBit_congr ?_ n).trans (hs k hk)
  rw [getR_tileExited d n cause ok (by omega) (fun m => not_inSeamIsland_of_lt (by omega)) (by omega),
    (tileStopped_keepsHub d n cause).2 _ (.inr hwtr)]
  refine getR_tileGone_ne d n cause ?_ ?_ ?_ ?_ ?_ <;>
    (simp only [HUB_TILE_INSERVICE, HUB_TILE_EXIT, HUB_TILE_EXIT_SEQ, HUB_LOG_HEAD, INT_PEND]; omega)

/-- While a tile is in service the package does not end for want of one. -/
theorem noTile_of_inService {d : Dev} {m : Fin 32} (h : d.inService m = true) : d.noTile = d := by
  have hne : d.getN HUB_TILE_INSERVICE ≠ 0 := by
    intro h0
    have hz : d.getR HUB_TILE_INSERVICE = 0 := BitVec.eq_of_toNat_eq h0
    simp [Dev.inService, Dev.regBit, hz] at h
  exact if_neg fun h' => hne h'.2

/-! The command of an exit. -/

theorem exec_tileExit {s : State} (n : Fin 32) (cause : Fin 3) (ok : Bool) (now : Nat) (hf : s.dev.frozen = false) :
    exec (.tileExit n cause ok now) s = .next (s.put (if s.dev.inService n = true then
      ((s.dev.at_ now).tileExit n (3 + cause) ok).noTile else s.dev.at_ now)) := by
  change execTileExit n cause ok now s = _
  rw [execTileExit]
  have hin : (s.dev.at_ now).inService n = s.dev.inService n := regBit_congr (getR_at_ _ _ _) n
  exact onRun_eq hf (by simp only [hin])

theorem groupOf_at_ (d : Dev) (now : Nat) (n : Fin 32) : (d.at_ now).groupOf n = d.groupOf n := by
  simp [Dev.groupOf, Dev.gstate, Dev.getF, Dev.group]

/-- An exit that finds nothing of others in the compute island: all but the tile's seams. -/
theorem tileStopped_of_empty {d : Dev} {n : Fin 32} (cause : Nat) (hd : d.delud n = Delud.reset) (he : (d.router n).early = []) :
    d.tileStopped n cause = (d.tileGone n cause).tileEmptied n := by
  have htiles : (d.tileGone n cause).tiles = d.tiles := by simp [Dev.tileGone, Dev.logHub]
  have htile : (d.tileGone n cause).tile n = d.tile n := by rw [Dev.tile, Dev.tile, htiles]
  rw [Dev.tileStopped, tileOut_of_empty (by rw [Dev.delud, htile]; exact hd) (by rw [Dev.router, htile]; exact he)]

/-- The contents of a tile that leaves are gone; every other tile is as it was. -/
theorem tile_tileEmptied (d : Dev) (n m : Fin 32) : (d.tileEmptied n).tile m = if m = n then Tile.reset else d.tile m := by
  rw [← tile_onTile d n m fun _ => Tile.reset]
  simp [Dev.tile, Dev.tileEmptied]

theorem getF_mode_tileEmptied (d : Dev) (n : Fin 32) : (d.tileEmptied n).getF (MEM_STATUS_MODE n) = 3 := by
  rw [Dev.tileEmptied, getF_setF_self _ _ _ (show 31 < 32 by decide)]
  rfl

/-- The exit of a tile whose compute island holds nothing of others: its contents, its mode, the pending source, the log, and no output. -/
theorem tileExited_of_empty {d : Dev} {n : Fin 32} (cause : Nat) (ok : Bool) (hd : d.delud n = Delud.reset)
    (he : (d.router n).early = []) :
    let e := d.tileExited n cause ok
    e.isPending 1 = true ∧ (∀ m : Fin 32, e.tile m = if m = n then Tile.reset else d.tile m) ∧ e.getF (MEM_STATUS_MODE n) = 3 ∧
      smGet (fun _ => LogEntry.empty) e.log (d.getN HUB_LOG_HEAD % 8192) = ⟨d.now, d.getN HUB_LOG_HEAD, 4, 0, n, cause, 0, 0⟩ ∧
      e.out = d.out := by
  obtain ⟨hout, htiles, hlog, -⟩ := tileExited_fields d n cause ok
  have hstop := tileStopped_of_empty cause hd he
  have hlarge : 0x1040000 ≤ (MEM_STATUS_MODE n).off := by simp only [MEM_STATUS, tileBase]; omega
  have hisland (m : Nat) : ¬ inSeamIsland m (MEM_STATUS_MODE n).off := by
    simp only [inSeamIsland, MEM_STATUS, tileBase]
    omega
  dsimp only
  refine ⟨?_, fun m => ?_, ?_, ?_, ?_⟩
  · rw [Dev.isPending, regBit_congr (getR_tileExited d n cause ok (by decide) (fun _ => not_inSeamIsland_of_lt (by decide))
      (by decide)), hstop, regBit_congr (getR_tileEmptied_ne _ n (by simp only [INT_PEND, MEM_STATUS, tileBase]; omega))]
    exact isPending_tileGone d n cause
  · rw [Dev.tile, htiles, hstop, ← Dev.tile, tile_tileEmptied]
    simp [Dev.tile, Dev.tileGone, Dev.logHub]
  · rw [getF_congr (getR_tileExited d n cause ok (.inr (by omega)) hisland (.inr (by omega))), hstop, getF_mode_tileEmptied]
  · rw [hlog, hstop]
    exact log_tileGone d n cause
  · rw [hout, hstop]
    simp [Dev.tileEmptied, Dev.onTile, Dev.tileGone, Dev.logHub]

/-- Settles O53: the exit is its own registers and log entry, then the emptied tile, then (with a failed seam island) its seams one by one;
with no group, slot or load on the tile, and another tile in service, nothing else follows. -/
theorem tileLeaves : Obligations.TileLeaves := by
  unfold Obligations.TileLeaves
  intro s n cause ok now hf
  refine ⟨fun hin hg ⟨m, hmn, hm⟩ hd he hj hs => ?_, fun hout => ?_⟩
  · have hserv (i : Fin 32) : (s.dev.at_ now).inService i = s.dev.inService i := regBit_congr (getR_at_ _ _ _) i
    have hseam (i : Fin 72) : (s.dev.at_ now).seamUp i = s.dev.seamUp i := seamUp_congr (getR_at_ _ _ _)
    have hother (i : Fin 32) (hi : i ≠ n) : ((s.dev.at_ now).tileExited n (3 + cause) ok).inService i = s.dev.inService i := by
      rw [inService_tileExited, if_neg hi, hserv]
    have hrun : exec (.tileExit n cause ok now) s = .next (s.put ((s.dev.at_ now).tileExited n (3 + cause) ok)) := by
      rw [exec_tileExit n cause ok now hf, if_pos hin, tileExit_of_free _ ok ((groupOf_at_ _ _ _).trans hg) hj fun k hk =>
        (regBit_congr (getR_at_ _ _ _) n).trans (hs k hk), noTile_of_inService ((hother m hmn).trans hm)]
    obtain ⟨hpend, htile, hmode, hlog, hout⟩ := tileExited_of_empty (d := s.dev.at_ now) (3 + cause) ok hd he
    rw [getN_at_, now_at_] at hlog
    refine ⟨_, hrun, ?_, regBit_exit_tileExited _ n _ ok, hpend, fun i hi => ⟨hother i hi, ?_⟩, ?_, hmode, hlog, fun hok i => ?_,
      fun hok i => ?_, hout⟩
    · rw [inService_tileExited, if_pos rfl]
    · rw [htile, if_neg hi]
      rfl
    · rw [htile, if_pos rfl]
    · rw [seamUp_tileExited _ n _ ok i.isLt, hseam, hok, Bool.true_or, Bool.and_true]
    · rw [seamUp_tileExited _ n _ ok i.isLt, hseam, hok, Bool.false_or]
  · rw [exec_tileExit n cause ok now hf, if_neg (by simp [hout])]

end Sys2Proof.Machine
end

section
/-! Route classes after a change of the seams (R30, R32): which tiles leave so that every pair keeps a path. -/

namespace Sys2Proof.Machine

open Reg

/-! A path reads no seam beyond the 128 that a port can name. -/

theorem seamOfPort_lt {n : Nat} (hn : n < 32) (p : Nat) : seamOfPort n p < 128 := by
  unfold seamOfPort
  dsimp only
  split <;> split <;> omega

theorem oeNear_le (k : Fin 8) (col : Nat) : oeNear k col ≤ 1 := by
  unfold oeNear
  split <;> omega

theorem oeTarget_le (up : Nat → Bool) (k : Fin 8) (col : Nat) : oeTarget up k col ≤ 1 := by
  have := oeNear_le k col
  unfold oeTarget
  dsimp only
  split <;> omega

theorem oeSeam_lt (k : Fin 8) {j : Nat} (h : j ≤ 1) : oeSeam k j < 128 := by
  unfold oeSeam
  omega

theorem nextHop_lt {up : Nat → Bool} {n : Fin 32} {dst : EndPt} {yx : Bool} {sm : Nat} {w : NetAt}
    (h : nextHop up n dst yx = some (sm, w)) : sm < 128 := by
  cases dst with
  | tile t =>
    simp only [nextHop] at h
    split at h <;> cases h
    exact seamOfPort_lt n.isLt _
  | hub =>
    simp only [nextHop] at h
    split at h <;> cases h
    · omega
    · exact seamOfPort_lt n.isLt _
  | oe k =>
    simp only [nextHop] at h
    split at h <;> cases h
    · exact oeSeam_lt k (oeTarget_le up k _)
    · exact seamOfPort_lt n.isLt _

theorem pathSeams_lt (up : Nat → Bool) (dst : EndPt) (yx : Bool) (fuel : Nat) (w : NetAt) :
    ∀ sm ∈ pathSeams up dst yx fuel w, sm < 128 := by
  induction fuel generalizing w with
  | zero => simp [pathSeams]
  | succ fuel ih =>
    cases w with
    | launch | arrived => simp [pathSeams]
    | seam n =>
      simp only [pathSeams]
      split
      · next h => simpa using ⟨nextHop_lt h, ih _⟩
      · simp

section Congr
variable {up up' : Nat → Bool} (h : ∀ i, i < 128 → up i = up' i)
include h

theorem nextHop_congr (n : Nat) (dst : EndPt) (yx : Bool) : nextHop up n dst yx = nextHop up' n dst yx := by
  cases dst with
  | tile | hub => rfl
  | oe k =>
    have htarget : oeTarget up k (n % 8) = oeTarget up' k (n % 8) := by
      simp only [oeTarget, h _ (oeSeam_lt k (oeNear_le k _))]
    simp only [nextHop, htarget]

theorem pathSeams_congr (dst : EndPt) (yx : Bool) (fuel : Nat) (w : NetAt) :
    pathSeams up dst yx fuel w = pathSeams up' dst yx fuel w := by
  induction fuel generalizing w with
  | zero => rfl
  | succ fuel ih =>
    cases w with
    | launch | arrived => rfl
    | seam n => simp only [pathSeams, nextHop_congr h, ih]

/-- Whether a tile reaches an endpoint is read from the seams alone. -/
theorem reachable_congr (n : Fin 32) (dst : EndPt) : reachable up (.tile n) dst = reachable up' (.tile n) dst := by
  have hpath (yx : Bool) : pathUp up (.tile n) dst yx = pathUp up' (.tile n) dst yx := by
    simp only [pathUp, routeOf, pathSeams_congr h]
    refine Bool.eq_iff_iff.mpr ?_
    simp only [List.all_eq_true]
    exact forall₂_congr fun sm hs => by rw [h sm (pathSeams_lt up' dst yx 16 _ sm hs)]
  simp only [reachable, hpath]

end Congr

/-! Blocked pairs. -/

section Fewer
variable {d e : Dev} (hup : ∀ i, i < 128 → e.seamUp i = d.seamUp i) (hin : ∀ m : Fin 32, e.inService m = true → d.inService m = true)
include hup hin

theorem engineServed_of_fewer {k : Fin 8} (h : e.engineServed k = true) : d.engineServed k = true := by
  simp only [Dev.engineServed, Bool.and_eq_true, List.any_eq_true, hup _ (oeSeam_lt k (Nat.zero_le 1)), hup _ (oeSeam_lt k (le_refl 1)),
    reachable_congr hup] at h ⊢
  obtain ⟨hseam, n, hn, hserv, hreach⟩ := h
  exact ⟨hseam, n, hn, hin n hserv, hreach⟩

/-- With the same seams and no more tiles in service no more pairs are blocked. -/
theorem pathBlocked_of_fewer {n : Fin 32} (h : e.pathBlocked n = true) : d.pathBlocked n = true := by
  simp only [Dev.pathBlocked, Bool.and_eq_true, Bool.or_eq_true, List.any_eq_true, reachable_congr hup] at h ⊢
  obtain ⟨hn, (⟨m, hm, ⟨hserv, hne⟩, hno⟩ | hhub) | ⟨k, hk, hserved, hno⟩⟩ := h
  · exact ⟨hin n hn, .inl (.inl ⟨m, hm, ⟨hin m hserv, hne⟩, hno⟩)⟩
  · exact ⟨hin n hn, .inl (.inr hhub)⟩
  · exact ⟨hin n hn, .inr ⟨k, hk, engineServed_of_fewer hup hin hserved, hno⟩⟩

end Fewer

theorem pathBlocked_out {d : Dev} {n : Fin 32} (h : d.inService n = false) : d.pathBlocked n = false := by
  simp [Dev.pathBlocked, h]

/-- Where the registers of tiles and seams read alike, the same pairs are blocked. -/
theorem pathBlocked_congr {d e : Dev} (h : ∀ p, e.getR p = d.getR p) (n : Fin 32) : e.pathBlocked n = d.pathBlocked n := by
  have hup (i : Nat) (_ : i < 128) : e.seamUp i = d.seamUp i := seamUp_congr (h _)
  have hin (m : Fin 32) : e.inService m = d.inService m := regBit_congr (h _) m
  exact Bool.eq_iff_iff.mpr ⟨pathBlocked_of_fewer hup (fun m hm => hin m ▸ hm),
    pathBlocked_of_fewer (fun i hi => (hup i hi).symm) fun m hm => (hin m).symm ▸ hm⟩

theorem restorePaths_of_unblocked {d : Dev} (h : ∀ n, d.pathBlocked n = false) (k : Nat) : d.restorePaths k = d := by
  cases k with
  | zero => rfl
  | succ k =>
    have hfind : ((List.finRange 32).reverse.find? fun n => d.pathBlocked n) = none := by simp [h]
    rw [Dev.restorePaths, hfind]

/-- The one blocked tile leaves. -/
theorem restorePaths_of_one {d : Dev} {n : Fin 32} (hn : d.pathBlocked n = true) (h : ∀ m, m ≠ n → d.pathBlocked m = false) (k : Nat) :
    d.restorePaths (k + 1) = (d.tileExit n 6 true).restorePaths k := by
  have hfind : ((List.finRange 32).reverse.find? fun m => d.pathBlocked m) = some n := by
    cases hf : (List.finRange 32).reverse.find? fun m => d.pathBlocked m with
    | none => exact absurd hn (List.find?_eq_none.mp hf n (by simp))
    | some m =>
      have hm : d.pathBlocked m = true := List.find?_some hf
      by_contra hne
      have hmn : m ≠ n := fun h' => hne (congrArg some h')
      rw [h m hmn] at hm
      cases hm
  rw [Dev.restorePaths, hfind]

/-! ROUTE_CLASS_UPDATE. -/

/-- The set of the seams that are up. -/
def Dev.upSeams (d : Dev) : BitVec 72 := (List.range 72).foldl (fun b i => if d.seamUp i then b ||| BitVec.ofNat 72 (2 ^ i) else b) 0

theorem getLsbD_or_bit (b : BitVec 72) (i : Nat) {j : Nat} (hj : j < 72) :
    (b ||| BitVec.ofNat 72 (2 ^ i)).getLsbD j = (b.getLsbD j || decide (i = j)) := by
  rw [BitVec.getLsbD_or, BitVec.getLsbD_ofNat, Nat.testBit_two_pow]
  simp [hj]

theorem getLsbD_upSeams (d : Dev) {j : Nat} (hj : j < 72) : d.upSeams.getLsbD j = d.seamUp j := by
  have hfold (l : List Nat) (b : BitVec 72) :
      (l.foldl (fun b i => if d.seamUp i then b ||| BitVec.ofNat 72 (2 ^ i) else b) b).getLsbD j =
        (b.getLsbD j || (decide (j ∈ l) && d.seamUp j)) := by
    induction l generalizing b with
    | nil => simp
    | cons i t ih =>
      have hstep : (if d.seamUp i then b ||| BitVec.ofNat 72 (2 ^ i) else b).getLsbD j =
          (b.getLsbD j || (decide (i = j) && d.seamUp j)) := by
        cases hup : d.seamUp i with
        | true =>
          rw [if_pos rfl, getLsbD_or_bit b i hj]
          by_cases hi : i = j
          · simp [← hi, hup]
          · simp [hi]
        | false =>
          rw [if_neg Bool.false_ne_true]
          by_cases hi : i = j
          · simp [← hi, hup]
          · simp [hi]
      rw [List.foldl_cons, ih, hstep, Bool.or_assoc, ← Bool.and_or_distrib_right]
      simp [List.mem_cons, eq_comm]
  rw [Dev.upSeams, hfold]
  simp [hj]

/-- The package as the route update finds it: the classes follow the seams. -/
def Dev.classed (d : Dev) (now : Nat) : Dev := { d.at_ now with fab := { d.fab with routeSeams := d.upSeams } }

theorem getR_classed (d : Dev) (now p : Nat) : (d.classed now).getR p = d.getR p := getR_at_ d now p

theorem exec_routeClassUpdate {s : State} (now : Nat) (hf : s.dev.frozen = false) :
    exec (.routeClassUpdate now) s = .next (s.put ((s.dev.classed now).restorePaths 32).noTile) := by
  have hup : (s.dev.at_ now).upSeams = s.dev.upSeams := by
    simp only [Dev.upSeams, fun i : Nat => seamUp_congr (getR_at_ s.dev now (HUB_SEAM_UP0 + 4 * (i / 32)))]
  change execRouteClassUpdate now s = _
  rw [execRouteClassUpdate, Dev.classed, ← hup]
  exact onRun_eq hf rfl

theorem groupOf_classed (d : Dev) (now : Nat) (n : Fin 32) : (d.classed now).groupOf n = d.groupOf n := groupOf_at_ d now n

/-! The statement on the package network. -/

/-- A seam after its failure: its bit, the other seams, the tiles that it does not join. -/
theorem seamFail_effect (d : Dev) (sm : Fin 72) :
    (d.seamFail sm).seamUp sm = false ∧ (∀ i : Fin 72, i ≠ sm → (d.seamFail sm).seamUp i = d.seamUp i) ∧
      ∀ n : Fin 32, n ∉ seamTiles sm → (d.seamFail sm).getR (SEAM_EVENT n) = d.getR (SEAM_EVENT n) := by
  refine ⟨?_, fun i hi => ?_, fun n hn => ?_⟩
  · simp [seamUp_seamFail d sm (show sm.val < 128 by omega)]
  · have hne : i.val ≠ sm.val := fun h => hi (Fin.ext h)
    simp [seamUp_seamFail d sm (show i.val < 128 by omega), hne]
  · have hisland : inSeamIsland n (SEAM_EVENT n) := by simp only [inSeamIsland, SEAM_EVENT]; omega
    refine getR_seamFail_ne d sm ?_ (fun m hm h => hn (Fin.ext (inSeamIsland_inj h hisland) ▸ hm)) ?_ <;>
      (simp only [SEAM_EVENT, tileBase, HUB_SEAM_UP0]; omega)

/-- A route update with every pair connected: the classes take the seams that are up. -/
theorem exec_routeClassUpdate_unblocked {s : State} (now : Nat) (hf : s.dev.frozen = false)
    (hb : ∀ n : Fin 32, s.dev.pathBlocked n = false) (hin : s.dev.getN HUB_TILE_INSERVICE ≠ 0) :
    exec (.routeClassUpdate now) s = .next (s.put (s.dev.classed now)) := by
  have hblocked (n : Fin 32) : (s.dev.classed now).pathBlocked n = false :=
    (pathBlocked_congr (getR_classed s.dev now) n).trans (hb n)
  have htiles : (s.dev.classed now).noTile = s.dev.classed now :=
    if_neg fun h => hin ((getN_congr (getR_classed s.dev now _)).symm.trans h.2)
  rw [exec_routeClassUpdate now hf, restorePaths_of_unblocked hblocked, htiles]

/-- A route update with one tile blocked, in no serving group, no load and no model slot: that tile leaves, and the others stay. -/
theorem exec_routeClassUpdate_one {s : State} {n : Fin 32} (now : Nat) (hf : s.dev.frozen = false) (hn : s.dev.pathBlocked n = true)
    (hb : ∀ m, m ≠ n → s.dev.pathBlocked m = false) (hin : ∃ m : Fin 32, m ≠ n ∧ s.dev.inService m = true)
    (hg : s.dev.groupOf n = none) (hj : s.dev.res.job = none) (hs : ∀ k, k < 16 → s.dev.regBit (WTR_SLOT_TILES k) n = false) :
    exec (.routeClassUpdate now) s = .next (s.put ((s.dev.classed now).tileExited n 6 true)) := by
  set d := s.dev.classed now with hd
  have hregs (p : Nat) : d.getR p = s.dev.getR p := getR_classed s.dev now p
  have hexit : d.tileExit n 6 true = d.tileExited n 6 true := tileExit_of_free 6 true ((groupOf_classed s.dev now n).trans hg) hj
    fun k hk => (regBit_congr (hregs _) n).trans (hs k hk)
  have hup (i : Nat) (hi : i < 128) : (d.tileExited n 6 true).seamUp i = s.dev.seamUp i := by
    rw [tileExited_true, seamUp_tileStopped d n 6 hi, seamUp_congr (hregs _)]
  have hserv (m : Fin 32) : (d.tileExited n 6 true).inService m = if m = n then false else s.dev.inService m := by
    rw [inService_tileExited, Dev.inService, regBit_congr (hregs _), ← Dev.inService]
  have hafter (m : Fin 32) : (d.tileExited n 6 true).pathBlocked m = false := by
    by_cases hm : m = n
    · exact pathBlocked_out (by rw [hserv, if_pos hm])
    · refine Bool.eq_false_iff.mpr fun h => Bool.eq_false_iff.mp (hb m hm) (pathBlocked_of_fewer hup (fun i hi => ?_) h)
      rw [hserv] at hi
      split at hi
      · cases hi
      · exact hi
  obtain ⟨m, hmn, hm⟩ := hin
  rw [exec_routeClassUpdate now hf, ← hd, restorePaths_of_one ((pathBlocked_congr hregs n).trans hn)
    (fun m hm => (pathBlocked_congr hregs m).trans (hb m hm)), hexit, restorePaths_of_unblocked hafter,
    noTile_of_inService (m := m) (by rw [hserv, if_neg hmn, hm])]

/-- Settles O52: each transfer command by the place and the seam of its transfer; the seams by their bit of HUB_SEAM_UP and the records of
the tiles that they join; the route update by the pairs that it finds blocked. -/
theorem packageNetwork : Obligations.PackageNetwork := by
  unfold Obligations.PackageNetwork
  refine ⟨fun s idx now retry t hf ht => ⟨fun sm w hop hb => ⟨fun hup => ⟨?_, fun n hw => ?_⟩, fun n hdown hsrc h1 h4 hself => ?_,
    fun hdown h7 => ?_⟩, exec_seamTransfer_idle hf ht retry, exec_crossingTransfer_full hf ht, fun hh => ⟨fun n hw hn => ?_,
    fun n hw hn hin => ?_, fun n hw hn hin h1 h4 hself => ?_, fun hw hd hstay => ?_, fun k hw hd hlink => ?_⟩, ?_⟩,
    fun s sm now hf => ⟨fun hup => ?_, fun i t w hup ht hop h7 => ?_, fun l hdown => exec_seamDown_down l now hf hdown,
    exec_seamUp_plain now hf, fun k hk => ?_, fun hb hin => ?_, fun n hn hb hin hg hj hs => ?_⟩⟩
  · have hrun := exec_seamTransfer hf ht retry hop hb
    rw [if_pos hup] at hrun
    exact ⟨_, hrun, hop_frame s.dev idx t _ sm w retry⟩
  · have hrun := exec_seamTransfer hf ht retry hop hb
    have hfrom : t.fromTile = some n := by rw [Transit.fromTile, hw]
    rw [if_pos hup, hfrom, hop_seam] at hrun
    exact ⟨_, hrun, getN_hopCounted s.dev t n sm retry, getPair_hopCounted s.dev t n sm retry⟩
  · have hrun := exec_seamTransfer hf ht retry hop hb
    rw [if_neg (by simp [hdown])] at hrun
    obtain ⟨hfab, hout, hevent, htiles⟩ := seamLose_request_effect s.dev idx sm hsrc h1 h4 hself
    exact ⟨_, _, hrun, hfab, hout, rfl, rfl, rfl, rfl, hevent, htiles⟩
  · rw [exec_seamTransfer hf ht retry hop hb, if_neg (by simp [hdown]), seamLose_silent _ _ _ h7, netSet_none]
  · exact ⟨_, exec_crossingTransfer_launch hf ht hh hw hn, rfl, rfl, rfl⟩
  · rw [exec_crossingTransfer_reach hf ht hh (.inr ⟨n, hw, hn⟩), reach_tile (s.dev.netSet idx none) hn hin, netSet_none]
    rfl
  · have hrun := exec_crossingTransfer_reach hf ht hh (.inr ⟨n, hw, hn⟩)
    rw [reach_tileOut (s.dev.netSet idx none) hn hin h1 h4 hself] at hrun
    refine ⟨_, errAnswer t.msg 5, hrun, ?_, rfl, rfl, rfl, rfl,
      (regBit_congr (getR_emit _ _ _) 1).trans (regBit_latch_egSeam _ n (by decide)), ?_, ?_⟩
    · simp [Dev.emit, netSet_none]
    · simp [netSet_none]
    · simp [netSet_none]
  · rw [exec_crossingTransfer_reach hf ht hh (.inl hw), reach_hub (s.dev.netSet idx none) hd hstay, netSet_none]
    rfl
  · have hrun := exec_crossingTransfer_reach hf ht hh (.inl hw)
    rw [reach_link (s.dev.netSet idx none) hd hlink] at hrun
    obtain ⟨hnet, hq, hrest⟩ := linkPut_effect (s.dev.netSet idx none) (Fin.ofNat 64 t.link) t.vc t.msg
    refine ⟨_, hrun, ?_, hq, hrest⟩
    rw [hnet, netSet_none]
  · change execTimeMessage now s = _
    rw [execTimeMessage]
    exact onRun_eq hf rfl
  · have hup' : (s.dev.at_ now).seamUp sm = true := (seamUp_congr (getR_at_ _ _ _)).trans hup
    obtain ⟨hdown, hothers, houtside⟩ := seamFail_effect (s.dev.at_ now) sm
    refine ⟨_, exec_seamDown_empty now hf hup, hdown, fun i hi => (hothers i hi).trans (seamUp_congr (getR_at_ _ _ _)),
      fun n hn => ?_, fun n hn => (houtside n hn).trans (getR_at_ _ _ _), ?_⟩
    · have hrec := seamFail_records (show sm.val < 128 by omega) hup' hn
      rwa [getN_at_] at hrec
    · exact sameBesideAges_seamFail (s.dev.at_ now) sm
  · obtain ⟨hfab, hout, htiles, -, -⟩ := (sameBesideAges_seamFail (s.dev.at_ now) sm).fields
    refine ⟨_, exec_seamDown_silent now hf hup ht hop h7, (seamFail_effect (s.dev.at_ now) sm).1, ?_, hout, htiles⟩
    rw [netSet_none, hfab]
    rfl
  · have hset (i : Fin 72) : ((engineLinks k).foldl linkRetrain ((s.dev.at_ now).setSeam sm true)).seamUp i =
        if i.val = sm.val then true else s.dev.seamUp i := by
      rw [seamUp_retrained _ k (by omega), seamUp_setSeam, seamUp_congr (getR_at_ _ _ _)]
    have hlink (j : Fin 64) : ((s.dev.at_ now).setSeam sm true).getR (linkReg j) = s.dev.getR (linkReg j) := by
      have := linkReg_ge j
      rw [getR_setSeam_ne _ _ (by simp only [HUB_SEAM_UP0]; omega), getR_at_]
    refine ⟨_, exec_seamUp_engine now hf hk, ?_, fun j => linkState_retrained k (hlink j), fun i hi => ?_,
      foldl_view_same (fun e => e.tiles) linkRetrain _ (fun e j _ => tiles_linkRetrain e j) _⟩
    · rw [hset, if_pos rfl]
    · rw [hset, if_neg fun h => hi (Fin.ext h)]
  · refine ⟨_, exec_routeClassUpdate_unblocked now hf hb hin, fun i => getLsbD_upSeams s.dev i.isLt, rfl⟩
  · have hclassed (i : Nat) : (s.dev.classed now).seamUp i = s.dev.seamUp i := seamUp_congr (getR_classed _ _ _)
    have hserv (m : Fin 32) : (s.dev.classed now).inService m = s.dev.inService m := regBit_congr (getR_classed _ _ _) m
    refine ⟨_, exec_routeClassUpdate_one now hf hn hb hin hg hj hs, ?_, regBit_exit_tileExited _ n 6 true, fun m hm => ?_, fun i => ?_⟩
    · rw [inService_tileExited, if_pos rfl]
    · rw [inService_tileExited, if_neg hm, hserv]
    · rw [seamUp_tileExited _ n 6 true i.isLt, Bool.true_or, Bool.and_true, hclassed]

/-! States that meet the hypotheses. -/

/-- A package after reset with the tiles of a mask in service, and the seams of a mask up among the first 32 and all the others up. -/
def netWitness (tiles seams : Nat) (net : List Transit) : State :=
  let d := (((State.reset.dev.setN HUB_TILE_INSERVICE tiles).setN HUB_SEAM_UP0 seams).setN HUB_SEAM_UP1 0xFFFFFFFF).setN HUB_SEAM_UP2 0xFF
  State.reset.put { d with fab := { d.fab with net := net } }

/-- A load of tile 0 from tile 2 that stands in the seam island of tile 1. -/
def loadWitness : Transit := ⟨⟨1, 0, 0, 0, ⟨0, 0, false⟩, ⟨0, 2, false⟩, 0, 0, 0, 0, 64, []⟩, .req, .tile 0, .tile 2, false, .seam 1, 0⟩

/-- Tile 1 leaves with its seam island, and tile 0 stays: seam S0 between them falls, seam S2 does not. -/
theorem tileLeaves_two_tiles : ∃ e : Dev,
    exec (.tileExit 1 0 false 5) (netWitness 3 0xFFFFFFFF []) = .next ((netWitness 3 0xFFFFFFFF []).put e) ∧
      e.inService 1 = false ∧ e.inService 0 = true ∧ e.isPending 1 = true ∧ e.seamUp 0 = false ∧ e.seamUp 2 = true := by
  obtain ⟨e, he, hgone, -, hpend, hothers, -, -, -, -, hseams, -⟩ :=
    (tileLeaves (netWitness 3 0xFFFFFFFF []) 1 0 false 5 (by decide +kernel)).1 (by decide +kernel) (by decide +kernel)
      ⟨0, by decide, by decide +kernel⟩ rfl rfl rfl (by decide +kernel)
  exact ⟨e, he, hgone, (hothers 0 (by decide)).1.trans (by decide +kernel), hpend, (hseams rfl 0).trans (by decide +kernel),
    (hseams rfl 2).trans (by decide +kernel)⟩

/-- The load goes on from tile 1 to tile 2 over seam S1; the pass and the CRC retry count at tile 1. -/
theorem packageNetwork_hop : ∃ e : Dev,
    exec (.seamTransfer 0 true) (netWitness 7 0xFFFFFFFF [loadWitness]) = .next ((netWitness 7 0xFFFFFFFF [loadWitness]).put e) ∧
      e.getN (SEAM_PORT_RETRY 1 1) = 1 ∧ e.getPair (SEAM_PASS_LO 1) (SEAM_PASS_HI 1) = 1 := by
  obtain ⟨hseam, -⟩ := packageNetwork.1 (netWitness 7 0xFFFFFFFF [loadWitness]) 0 0 true loadWitness (by decide +kernel) rfl
  obtain ⟨hup, -⟩ := hseam 1 (.seam 2) (by decide +kernel) (by decide +kernel)
  obtain ⟨e, he, hretry, hpass⟩ := (hup (by decide +kernel)).2 1 rfl
  exact ⟨e, he, hretry.trans (by decide +kernel), hpass.trans (by decide +kernel)⟩

/-- Over a seam that is down the load is lost, and tile 0 has its answer. -/
theorem packageNetwork_lost : ∃ (e : Dev) (r : Dmsg),
    exec (.seamTransfer 0 false) (netWitness 7 0xFFFFFFFD [loadWitness]) = .next ((netWitness 7 0xFFFFFFFD [loadWitness]).put e) ∧
      e.fab.net = [] ∧ e.out = (netWitness 7 0xFFFFFFFD [loadWitness]).dev.out ++ [.arrive (.tile 0) r] ∧ r.op = 0x0B := by
  obtain ⟨hseam, -⟩ := packageNetwork.1 (netWitness 7 0xFFFFFFFD [loadWitness]) 0 0 false loadWitness (by decide +kernel) rfl
  obtain ⟨-, hlost, -⟩ := hseam 1 (.seam 2) (by decide +kernel) (by decide +kernel)
  obtain ⟨e, r, he, hfab, hout, hop, -⟩ := hlost 0 (by decide +kernel) rfl (by decide) (by decide) (by decide +kernel)
  exact ⟨e, r, he, congrArg Fabric.net hfab, hout, hop⟩

/-- With S0 down tile 1 has no path to the hub: it leaves, and tile 8, which reaches the hub, stays. -/
theorem packageNetwork_blocked : ∃ e : Dev,
    exec (.routeClassUpdate 5) (netWitness 0x102 0xFFFFFFFE []) = .next ((netWitness 0x102 0xFFFFFFFE []).put e) ∧
      e.inService 1 = false ∧ e.inService 8 = true := by
  obtain ⟨-, -, -, -, -, -, hblocked⟩ := packageNetwork.2 (netWitness 0x102 0xFFFFFFFE []) 0 5 (by decide +kernel)
  obtain ⟨e, he, hgone, -, hothers, -⟩ := hblocked 1 (by decide +kernel) (by decide +kernel) ⟨8, by decide, by decide +kernel⟩
    (by decide +kernel) rfl (by decide +kernel)
  exact ⟨e, he, hgone, (hothers 8 (by decide)).trans (by decide +kernel)⟩

end Sys2Proof.Machine
end

section
/-! Reads and updates of a tile and of a serving group, beside every register write: one lemma per reader and update. -/

namespace Sys2Proof.Machine

open Reg

/-! A tile. -/

theorem tile_onTile_self (d : Dev) (n : Fin 32) (f : Tile → Tile) : (d.onTile n f).tile n = f (d.tile n) := by
  rw [tile_onTile, if_pos rfl]

theorem tile_onTile_ne (d : Dev) {n m : Fin 32} (f : Tile → Tile) (h : m ≠ n) : (d.onTile n f).tile m = d.tile m := by
  rw [tile_onTile, if_neg h]

@[simp] theorem regs_onTile (d : Dev) (n : Fin 32) (f : Tile → Tile) : (d.onTile n f).regs = d.regs := rfl
@[simp] theorem srv_onTile (d : Dev) (n : Fin 32) (f : Tile → Tile) : (d.onTile n f).srv = d.srv := rfl
@[simp] theorem out_onTile (d : Dev) (n : Fin 32) (f : Tile → Tile) : (d.onTile n f).out = d.out := rfl
@[simp] theorem getR_onTile (d : Dev) (n : Fin 32) (f : Tile → Tile) (p : Nat) : (d.onTile n f).getR p = d.getR p := rfl

/-- Packages with the same tiles have the same tile `n`. -/
theorem tile_congr {d e : Dev} (h : e.tiles = d.tiles) (n : Fin 32) : e.tile n = d.tile n := by rw [Dev.tile, Dev.tile, h]

/-! Reads that depend on the registers and the groups only. -/

theorem getR_of_regs {d e : Dev} (h : e.regs = d.regs) (p : Nat) : e.getR p = d.getR p := by simp only [Dev.getR, h]

theorem gstate_congr {d e : Dev} {g : Nat} (h : e.getR (SRV_GROUP_STATE g) = d.getR (SRV_GROUP_STATE g)) : e.gstate g = d.gstate g :=
  getF_congr h

theorem isLead_congr {d e : Dev} {g : Fin 4} (h : e.getR (SRV_GROUP_STATE g) = d.getR (SRV_GROUP_STATE g)) : e.isLead g = d.isLead g :=
  congrArg (· == 1) (getF_congr h)

/-- The tiles of a group are those that its configuration names and that are in service. -/
theorem groupTiles_congr {d e : Dev} {g : Fin 4} (ht : (e.group g).tileSet = (d.group g).tileSet)
    (hr : e.getR HUB_TILE_INSERVICE = d.getR HUB_TILE_INSERVICE) : e.groupTiles g = d.groupTiles g := by
  have hin : ∀ n : Fin 32, e.inService n = d.inService n := fun n => regBit_congr hr n
  simp only [Dev.groupTiles, ht, hin]

/-! A group. -/

theorem group_onGroup_self (d : Dev) (g : Fin 4) (f : Group → Group) : (d.onGroup g f).group g = f (d.group g) := by
  simp [Dev.onGroup, Dev.group]

theorem group_onGroup_ne (d : Dev) {g k : Fin 4} (f : Group → Group) (h : k ≠ g) : (d.onGroup g f).group k = d.group k := by
  have hne : g.val ≠ k.val := fun h' => h (Fin.ext h'.symm)
  simp [Dev.onGroup, Dev.group, hne]

theorem group_congr {d e : Dev} (h : e.srv = d.srv) (g : Fin 4) : e.group g = d.group g := by rw [Dev.group, Dev.group, h]

@[simp] theorem group_at_ (d : Dev) (t : Nat) (g : Fin 4) : (d.at_ t).group g = d.group g := group_congr (srv_at_ d t) g
@[simp] theorem gstate_at_ (d : Dev) (t : Nat) (g : Nat) : (d.at_ t).gstate g = d.gstate g := gstate_congr (getR_at_ d t _)
@[simp] theorem isLead_at_ (d : Dev) (t : Nat) (g : Fin 4) : (d.at_ t).isLead g = d.isLead g := isLead_congr (getR_at_ d t _)
@[simp] theorem groupTiles_at_ (d : Dev) (t : Nat) (g : Fin 4) : (d.at_ t).groupTiles g = d.groupTiles g :=
  groupTiles_congr (by simp) (getR_at_ d t _)
@[simp] theorem self_at_ (d : Dev) (t : Nat) : (d.at_ t).self = d.self := getF_congr (getR_at_ d t _)
@[simp] theorem leadsRunning_at_ (d : Dev) (t : Nat) (g : Fin 4) : (d.at_ t).leadsRunning g = d.leadsRunning g := by
  have hlead : (d.at_ t).flag (SRV_GROUP_STATE_LEAD g) = d.flag (SRV_GROUP_STATE_LEAD g) := isLead_at_ d t g
  rw [Dev.leadsRunning, Dev.leadsRunning, gstate_at_, hlead]
@[simp] theorem followers_at_ (d : Dev) (t : Nat) (g : Fin 4) : (d.at_ t).followers g = d.followers g := by simp [Dev.followers]
@[simp] theorem voteTimeout_at_ (d : Dev) (t : Nat) : (d.at_ t).voteTimeout = d.voteTimeout := by
  rw [Dev.voteTimeout, Dev.voteTimeout, getF_congr (getR_at_ d t _)]

@[simp] theorem regs_onGroup (d : Dev) (g : Fin 4) (f : Group → Group) : (d.onGroup g f).regs = d.regs := rfl
@[simp] theorem tiles_onGroup (d : Dev) (g : Fin 4) (f : Group → Group) : (d.onGroup g f).tiles = d.tiles := rfl
@[simp] theorem out_onGroup (d : Dev) (g : Fin 4) (f : Group → Group) : (d.onGroup g f).out = d.out := rfl
@[simp] theorem now_onGroup (d : Dev) (g : Fin 4) (f : Group → Group) : (d.onGroup g f).now = d.now := rfl
@[simp] theorem getR_onGroup (d : Dev) (g : Fin 4) (f : Group → Group) (p : Nat) : (d.onGroup g f).getR p = d.getR p := rfl
@[simp] theorem isLead_onGroup (d : Dev) (g k : Fin 4) (f : Group → Group) : (d.onGroup g f).isLead k = d.isLead k := rfl

/-! What is sent. -/

@[simp] theorem regs_emits (d : Dev) (l : List Output) : (d.emits l).regs = d.regs := rfl
@[simp] theorem tiles_emits (d : Dev) (l : List Output) : (d.emits l).tiles = d.tiles := rfl
@[simp] theorem srv_emits (d : Dev) (l : List Output) : (d.emits l).srv = d.srv := rfl
@[simp] theorem out_emits (d : Dev) (l : List Output) : (d.emits l).out = d.out ++ l := rfl
@[simp] theorem getR_emits (d : Dev) (l : List Output) (p : Nat) : (d.emits l).getR p = d.getR p := rfl
@[simp] theorem group_emits (d : Dev) (l : List Output) (g : Fin 4) : (d.emits l).group g = d.group g := rfl
@[simp] theorem group_emit (d : Dev) (o : Output) (g : Fin 4) : (d.emit o).group g = d.group g := rfl
@[simp] theorem isLead_emit (d : Dev) (o : Output) (g : Fin 4) : (d.emit o).isLead g = d.isLead g := rfl

end Sys2Proof.Machine
end

section
/-! Vote records and the package's vote (R66, R77, R78). -/

namespace Sys2Proof.Machine

open Reg

/-! Bytes of a memory. -/

/-- Bytes written read back. -/
theorem memBytes_memPutBytes_self (m : Mem) (a : Nat) {k : Nat} {l : List Byte} (h : l.length = k) :
    memBytes (memPutBytes m a l) a k = l := by
  subst h
  apply List.ext_getElem
  · simp [memBytes]
  · intro i h1 h2
    simp [memBytes, memGet_memPutBytes, h2]

theorem voteBytes_length (step pass tile decision : Nat) (v : Vote) : (voteBytes step pass tile decision v).length = 16960 := by
  simp only [voteBytes, List.length_append, leBytes_length, List.length_replicate, List.length_map, List.length_range,
    List.length_flatMap, List.map_const', List.sum_replicate, smul_eq_mul]

/-- The number of the step that a tile's record names: 0 for a tile in no group. -/
theorem optionStep_eq (step : Nat → Nat) (o : Option (Fin 4)) :
    (match o with | some g => step g | none => 0) = (o.map fun g => step g).getD 0 := by
  cases o <;> rfl

/-- The vote record of a tile's pass, in the layout of R77. -/
def Dev.voteRecord (d : Dev) (n : Fin 32) : List Byte :=
  voteBytes (((d.groupOf n).map fun g => d.gstep g).getD 0) (d.getF (QNT_STEP_STATUS_PASS n)) n 0 (d.tileVote n)

theorem voteRecord_length (d : Dev) (n : Fin 32) : (d.voteRecord n).length = 16960 := voteBytes_length _ _ _ _ _

/-- The tile's vote record stands in tile store, not yet sent. -/
def Dev.voteWritten (d : Dev) (n : Fin 32) : Dev :=
  (d.tsWrite n (d.getN (QNT_VOTE_BASE n)) (d.voteRecord n)).onTile n fun t => { t with voteDue := false, voteReady := true }

theorem tile_voteWritten (d : Dev) (n : Fin 32) : (d.voteWritten n).tile n = { d.tile n with
    store := memPutBytes (d.tile n).store (d.getN (QNT_VOTE_BASE n)) (d.voteRecord n), voteDue := false, voteReady := true } := by
  rw [Dev.voteWritten, tile_onTile_self, Dev.tsWrite, tile_onTile_self]

theorem tsRead_voteWritten (d : Dev) (n : Fin 32) :
    (d.voteWritten n).tsRead n (d.getN (QNT_VOTE_BASE n)) 16960 = d.voteRecord n := by
  rw [Dev.tsRead, tile_voteWritten, memBytes_memPutBytes_self _ _ (voteRecord_length d n)]

/-! The commands. -/

section
variable {s : State} (hf : s.dev.frozen = false)
include hf

theorem voteRecordWrite_effect {n : Fin 32} (h : (s.dev.tile n).voteDue = true) :
    ∃ e : Dev, exec (.voteRecordWrite n) s = .next (s.put e) ∧
      e.tsRead n (s.dev.getN (QNT_VOTE_BASE n)) 16960 = s.dev.voteRecord n ∧
      (e.tile n).voteDue = false ∧ (e.tile n).voteReady = true ∧
      (∀ x, x < s.dev.getN (QNT_VOTE_BASE n) ∨ s.dev.getN (QNT_VOTE_BASE n) + 16960 ≤ x →
        memGet (e.tile n).store x = memGet (s.dev.tile n).store x) ∧ s.dev.onlyTile e n ∧ e = { s.dev with tiles := e.tiles } := by
  have hexec : exec (.voteRecordWrite n) s = .next (s.put (s.dev.voteWritten n)) := by
    change execVoteRecordWrite n s = _
    refine onRun_eq hf ?_
    rw [if_pos h]
    exact congrArg (fun step => (s.dev.tsWrite n (s.dev.getN (QNT_VOTE_BASE n)) (voteBytes step (s.dev.getF (QNT_STEP_STATUS_PASS n)) n 0
      (s.dev.tileVote n))).onTile n fun t => { t with voteDue := false, voteReady := true }) (optionStep_eq s.dev.gstep (s.dev.groupOf n))
  refine ⟨s.dev.voteWritten n, hexec, tsRead_voteWritten _ _, ?_, ?_, fun x hx => ?_, fun m hm => ?_, rfl⟩
  · rw [tile_voteWritten]
  · rw [tile_voteWritten]
  · rw [tile_voteWritten, memGet_memPutBytes, voteRecord_length, if_neg (by omega)]
  · rw [Dev.voteWritten, tile_onTile_ne _ _ hm, Dev.tsWrite, tile_onTile_ne _ _ hm]

theorem voteRecordSend_effect {n : Fin 32} {g : Fin 4} (h : (s.dev.tile n).voteReady = true) (hg : s.dev.groupOf n = some g)
    (hs : s.dev.gstate g = 2) :
    ∃ e : Dev, exec (.voteRecordSend n) s = .next (s.put e) ∧ (e.tile n).voteReady = false ∧
      (e.group g).votes = (s.dev.group g).votes ++ [(n.val, voteOfBytes (s.dev.tsRead n (s.dev.getN (QNT_VOTE_BASE n)) 16960))] ∧
      (e.tile n).store = (s.dev.tile n).store ∧ (∀ k, k ≠ g → e.group k = s.dev.group k) ∧ s.dev.onlyTile e n ∧
      e.regs = s.dev.regs := by
  let d := s.dev.onTile n fun t => { t with voteReady := false }
  have hgroup : d.groupOf n = some g := hg
  have hstate : d.gstate g = 2 := hs
  refine ⟨d.onGroup g fun x => { x with
    votes := x.votes ++ [(n.val, voteOfBytes (s.dev.tsRead n (s.dev.getN (QNT_VOTE_BASE n)) 16960))] },
    ?_, ?_, ?_, ?_, fun k hk => ?_, fun m hm => ?_, rfl⟩
  · change execVoteRecordSend n s = _
    refine onRun_eq hf ?_
    rw [if_pos h]
    change (match d.groupOf n with | none => d | some k => if d.gstate k = 2 then _ else d) = _
    rw [hgroup]
    exact if_pos hstate
  · rw [tile_congr (tiles_onGroup _ _ _), tile_onTile_self]
  · rw [group_onGroup_self]
    rfl
  · rw [tile_congr (tiles_onGroup _ _ _), tile_onTile_self]
  · rw [group_onGroup_ne _ _ hk]
    rfl
  · rw [tile_congr (tiles_onGroup _ _ _), tile_onTile_ne _ _ hm]

theorem packageVote_effect {g : Fin 4} (now : Nat) (hs : s.dev.gstate g = 2) (hp : (s.dev.group g).pkgVote = none)
    (hv : (s.dev.group g).votes ≠ []) (ha : (s.dev.group g).abortAt = none)
    (hall : ∀ m ∈ s.dev.groupTiles g, ∃ v, (m.val, v) ∈ (s.dev.group g).votes) :
    ∃ (e : Dev) (l : List Nat), exec (.packageVote g now) s = .next (s.put e) ∧
      (e.group g).pkgVote = some (voteJoin s.dev.self ((s.dev.group g).votes.map Prod.snd)) ∧ (e.group g).voteAt = max s.dev.now now ∧
      (s.dev.isLead g = false → (e.group g).waitFrom = some (max s.dev.now now)) ∧
      e.out = s.dev.out ++ [.mgmt (s.dev.group g).leadPkg "PACKAGE_VOTE" l] ∧ e.tiles = s.dev.tiles ∧ e.regs = s.dev.regs := by
  let v := voteJoin s.dev.self ((s.dev.group g).votes.map Prod.snd)
  let l := (voteBytes ((s.dev.at_ now).gstep g) (s.dev.group g).pass 0xFF 0 v).map BitVec.toNat
  let d := ((s.dev.at_ now).onGroup g fun x => { x with pkgVote := some v, voteAt := max s.dev.now now }).emit
    (.mgmt (s.dev.group g).leadPkg "PACKAGE_VOTE" l)
  have hvotes : ((s.dev.groupTiles g).all fun n => (s.dev.group g).votes.any fun v => v.1 == n.val) = true := by
    rw [List.all_eq_true]
    intro m hm
    obtain ⟨v, hv⟩ := hall m hm
    exact List.any_eq_true.mpr ⟨_, hv, beq_self_eq_true _⟩
  have hgroup : d.group g = { s.dev.group g with pkgVote := some v, voteAt := max s.dev.now now } := by
    rw [group_emit, group_onGroup_self, group_at_]
  have hexec : exec (.packageVote g now) s = .next (s.put (d.awaitLead g)) := by
    change execPackageVote g now s = _
    refine onRun_eq hf ?_
    dsimp only
    rw [gstate_at_, group_at_, groupTiles_at_, self_at_, if_pos ⟨hs, by rw [hp]; rfl, hv, by rw [ha]; rfl, hvotes⟩]
    rw [Dev.toLead, group_onGroup_self]
    rfl
  have hlead : d.isLead g = s.dev.isLead g := by simp [d]
  refine ⟨d.awaitLead g, l, hexec, ?_⟩
  rw [Dev.awaitLead, hlead]
  cases hl : s.dev.isLead g
  · rw [if_neg Bool.false_ne_true, group_onGroup_self, hgroup]
    simp [d, v]
  · rw [if_pos rfl, hgroup]
    simp [d, v]

end

end Sys2Proof.Machine
end

section
/-! What the operations that a tile's instructions share leave unchanged: writes of tile store, counted events, schedule faults. -/

namespace Sys2Proof.Machine

open Reg

/-! Tile store. -/

/-- Nothing but the tile store of tile `n` differs. -/
def Dev.storeOnly (n : Fin 32) (d e : Dev) : Prop := ∃ m : Mem, e = d.onTile n fun t => { t with store := m }

theorem onTile_onTile (d : Dev) (n : Fin 32) (f g : Tile → Tile) : (d.onTile n f).onTile n g = d.onTile n fun t => g (f t) := by
  simp [Dev.onTile, Dev.tile]

theorem onTile_tile (d : Dev) (n : Fin 32) : (d.onTile n fun _ => d.tile n) = d := by
  have hset : d.tiles.set n (d.tile n) = d.tiles := Vector.set_getElem_self n.isLt
  rw [Dev.onTile, hset]

theorem storeOnly_of_write (d : Dev) (n : Fin 32) (f : Mem → Mem) :
    d.storeOnly n (d.onTile n fun t => { t with store := f t.store }) := ⟨f (d.tile n).store, rfl⟩

theorem Dev.storeOnly.refl (n : Fin 32) (d : Dev) : d.storeOnly n d := by
  obtain ⟨m, hm⟩ := storeOnly_of_write d n id
  exact ⟨m, hm ▸ (onTile_tile d n).symm⟩

theorem Dev.storeOnly.trans {n : Fin 32} {d e x : Dev} (h : d.storeOnly n e) (g : e.storeOnly n x) : d.storeOnly n x := by
  obtain ⟨m, rfl⟩ := h
  obtain ⟨m', rfl⟩ := g
  exact ⟨m', onTile_onTile d n _ _⟩

theorem storeOnly_foldl {α : Type} {n : Fin 32} {f : Dev → α → Dev} (hstep : ∀ (d : Dev) (a : α), d.storeOnly n (f d a))
    (l : List α) (d : Dev) : d.storeOnly n (l.foldl f d) := by
  induction l generalizing d with
  | nil => exact .refl n d
  | cons a t ih => exact (hstep d a).trans (ih (f d a))

theorem storeOnly_tsWrite (d : Dev) (n : Fin 32) (a : Nat) (l : List Byte) : d.storeOnly n (d.tsWrite n a l) :=
  storeOnly_of_write d n fun m => memPutBytes m a l

theorem storeOnly_tsPutLe (d : Dev) (n : Fin 32) (a k v : Nat) : d.storeOnly n (d.tsPutLe n a k v) :=
  storeOnly_of_write d n fun m => memPutLe m a k v

theorem storeOnly_clearStatFlag (d : Dev) (n : Fin 32) (t b : Nat) : d.storeOnly n (d.clearStatFlag n t b) := by
  unfold Dev.clearStatFlag
  split
  · exact storeOnly_tsPutLe d n _ _ _
  · exact .refl n d

/-- What else a tile and the package hold after a change of tile store. -/
theorem Dev.storeOnly.fields {n : Fin 32} {d e : Dev} (h : d.storeOnly n e) :
    (∃ m, e.tile n = { d.tile n with store := m }) ∧ d.onlyTile e n ∧ e.regs = d.regs ∧ e.srv = d.srv ∧ e.out = d.out := by
  obtain ⟨m, rfl⟩ := h
  exact ⟨⟨m, tile_onTile_self d n _⟩, fun k hk => tile_onTile_ne d _ hk, rfl, rfl, rfl⟩

/-! Counted events (R465 to R467). -/

/-- The registers of a tile's counters, and those of pending interrupts. -/
def counterRegs (n p : Nat) : Prop := (tilePmc n ≤ p ∧ p < tilePmc n + 0x10000) ∨ (0x100100 ≤ p ∧ p < 0x100200)

/-- Nothing but those registers and the ages of latched events differs. -/
def Dev.countOnly (n : Nat) (d e : Dev) : Prop := d.sameBesideAges e ∧ ∀ p, ¬ counterRegs n p → e.getR p = d.getR p

theorem Dev.countOnly.refl (n : Nat) (d : Dev) : d.countOnly n d := ⟨.refl d, fun _ _ => rfl⟩

theorem Dev.countOnly.trans {n : Nat} {d e x : Dev} (h : d.countOnly n e) (g : e.countOnly n x) : d.countOnly n x :=
  ⟨h.1.trans g.1, fun p hp => (g.2 p hp).trans (h.2 p hp)⟩

theorem sameBesideAges_setPair (d : Dev) (lo hi v : Nat) : d.sameBesideAges (d.setPair lo hi v) := by cases d; rfl

theorem countOnly_pmcStep (d : Dev) (n : Fin 32) {c : Nat} (k : Nat) (hc : c < 17) : d.countOnly n (d.pmcStep (.tile n) c k).2 := by
  have hpair : ∀ v, d.countOnly n (d.setPair (PMC_CNT_LO (pmcBase (.tile n)) c) (PMC_CNT_HI (pmcBase (.tile n)) c) v) := by
    refine fun v => ⟨sameBesideAges_setPair d _ _ v, fun p hp => ?_⟩
    unfold counterRegs at hp
    exact getR_setPair_ne d _ (by simp only [pmcBase, PMC_CNT_LO]; omega) (by simp only [pmcBase, PMC_CNT_HI]; omega)
  have hlatch : ∀ x : Dev, x.countOnly n (x.latch (pmcGroup (.tile n)) c) := by
    refine fun x => ⟨latch_only _ _ _, fun p hp => ?_⟩
    have hn := n.isLt
    unfold counterRegs at hp
    refine getR_latch_ne _ _ _ p ?_ ?_ ?_
    · simp only [pmcGroup, egTilePmc, PMC_OVF]; omega
    · simp only [pmcGroup, egTilePmc, PMC_OVF_SEQ]; omega
    · simp only [pmcGroup, egTilePmc, INT_PEND]; omega
  obtain h | h := pmcStep_package d (.tile n) c k <;> rw [h]
  · exact hpair _
  · exact (hpair _).trans (hlatch _)

theorem countOnly_pmcAdd (d : Dev) (n : Fin 32) {c : Nat} (k : Nat) (hc : c < 16) : d.countOnly n (d.pmcAdd (.tile n) c k) := by
  have hstep := countOnly_pmcStep d n k (c := c) (by omega)
  unfold Dev.pmcAdd
  dsimp only
  split
  · exact hstep.trans (countOnly_pmcStep _ n 1 (by omega))
  · exact hstep

/-- A counted event of a tile changes its counters, and latches their overflows. -/
theorem countOnly_count (d : Dev) (n : Fin 32) (ev k : Nat) : d.countOnly n (d.count (.tile n) ev k) := by
  have hfold : ∀ (l : List Nat) (x : Dev), (∀ c ∈ l, c < 16) → x.countOnly n
      (l.foldl (fun e c => if d.pmcEvent (.tile n) c = ev ∧ ev ≠ 0 ∧ k ≠ 0 then e.pmcAdd (.tile n) c k else e) x) := by
    intro l
    induction l with
    | nil => exact fun x _ => .refl n x
    | cons c t ih =>
      intro x hl
      rw [List.foldl_cons]
      refine Dev.countOnly.trans ?_ (ih _ fun a ha => hl a (List.mem_cons_of_mem _ ha))
      split
      · exact countOnly_pmcAdd x n k (hl c (List.mem_cons_self ..))
      · exact .refl n x
  exact hfold _ d fun c hc => List.mem_range.mp hc

theorem Dev.countOnly.fields {n : Nat} {d e : Dev} (h : d.countOnly n e) : e.tiles = d.tiles ∧ e.srv = d.srv ∧ e.out = d.out := by
  obtain ⟨hsame, -⟩ := h
  unfold Dev.sameBesideAges at hsame
  rw [hsame]
  exact ⟨rfl, rfl, rfl⟩

/-! Schedule faults (R152). -/

/-- The registers of a tile's TCTL block that a schedule fault does not write, and those of other blocks. -/
theorem getR_sfault (d : Dev) (n : Fin 32) (cause stream idx cyc arg : Nat) {p : Nat} (hp : ¬ counterRegs n p)
    (h : p < tileBase n + 0x10 ∨ tileBase n + 0x20 ≤ p) :
    (d.sfault n cause stream idx cyc arg).getR p = ((((d.setF (TCTL_PASS_STATUS_STATE n) 2).setF (TCTL_SFAULT_INFO_CAUSE n) cause).setF
      (TCTL_SFAULT_INFO_STREAM n) stream).setF (TCTL_SFAULT_INFO_INDEX n) idx).getR p := by
  have hn := n.isLt
  unfold Dev.sfault
  rw [(countOnly_count _ n 6 1).2 p hp, getR_latch_ne, getR_setN, if_neg, getR_setN, if_neg]
  · simp only [TCTL_SFAULT_CYCLE]; omega
  · simp only [TCTL_SFAULT_ARG]; omega
  · simp only [egTctl, TCTL_EVENT]; omega
  · simp only [egTctl, TCTL_EVENT_SEQ]; omega
  · unfold counterRegs at hp
    simp only [egTctl, INT_PEND]
    omega

theorem not_counterRegs_of_lt {n : Fin 32} {p : Nat} (h : tileBase n ≤ p) (hlt : p < tileBase n + 0x90000) : ¬ counterRegs n p := by
  unfold counterRegs
  simp only [tilePmc, tileBase] at *
  omega

/-- A schedule fault stops issue and records its cause; the other fields of PASS_STATUS stay. -/
theorem sfault_effect (d : Dev) (n : Fin 32) (cause stream idx cyc arg : Nat) :
    let e := d.sfault n cause stream idx cyc arg
    e.getF (TCTL_PASS_STATUS_STATE n) = 2 ∧ e.getF (TCTL_SFAULT_INFO_CAUSE n) = cause % 256 ∧
      (∀ f : Fld, f.off = TCTL_PASS_STATUS n → f.hi < 30 → e.getF f = d.getF f) ∧ e.tiles = d.tiles ∧ e.srv = d.srv ∧
      ∀ p, tileBase n + 0x20 ≤ p → ¬ counterRegs n p → e.getR p = d.getR p := by
  have hstatus : ∀ p, p = TCTL_PASS_STATUS n → _ := fun p hp =>
    have hbase : p = tileBase n := hp
    getR_sfault d n cause stream idx cyc arg (p := p) (not_counterRegs_of_lt (by omega) (by omega)) (.inl (by omega))
  have hinfo := getR_sfault d n cause stream idx cyc arg (p := TCTL_SFAULT_INFO n)
    (not_counterRegs_of_lt (by simp only [TCTL_SFAULT_INFO]; omega) (by simp only [TCTL_SFAULT_INFO]; omega))
    (.inl (by simp only [TCTL_SFAULT_INFO]; omega))
  have hcount := fun x : Dev => (countOnly_count x n 6 1).fields
  refine ⟨?_, ?_, fun f hf hlt => ?_, ?_, ?_, fun p hp hc => ?_⟩
  · rw [getF_congr (hstatus _ rfl), getF_setF_ne, getF_setF_ne, getF_setF_ne, getF_setF_self] <;> simp
  · rw [getF_congr hinfo, getF_setF_ne, getF_setF_ne, getF_setF_self] <;> simp
  · have hi : f.off ≠ TCTL_SFAULT_INFO n := by simp [hf]
    have h32 : f.hi < 32 := by omega
    rw [getF_congr (hstatus f.off hf), getF_setF_ne _ _ _ _ h32 (.inl hi), getF_setF_ne _ _ _ _ h32 (.inl hi),
      getF_setF_ne _ _ _ _ h32 (.inl hi), getF_setF_ne _ _ _ _ h32 (.inr (.inl hlt))]
  · simp only [Dev.sfault, (hcount _).1, tiles_latch, tiles_setN, tiles_setF]
  · simp only [Dev.sfault, (hcount _).2.1, srv_latch, srv_setN, srv_setF]
  · have h1 : p ≠ TCTL_PASS_STATUS n := by simp only [TCTL_PASS_STATUS]; omega
    have h2 : p ≠ TCTL_SFAULT_INFO n := by simp only [TCTL_SFAULT_INFO]; omega
    rw [getR_sfault d n cause stream idx cyc arg hc (.inr hp)]
    simp only [getR_setF, if_neg h1, if_neg h2]

end Sys2Proof.Machine
end

section
/-! The start of a pass (R65, R99, R110, R127, R129, R141): what each part of it does to the tile and to its registers. -/

namespace Sys2Proof.Machine

open Reg

/-! Registers of the tile controller. -/

/-- The fields of PASS_STATUS beside STATE: what a pass start writes and no later part of it changes. -/
def Dev.keepsStatus (n : Nat) (d e : Dev) : Prop := ∀ f : Fld, f.off = TCTL_PASS_STATUS n → f.hi < 30 → e.getF f = d.getF f

theorem Dev.keepsStatus.trans {n : Nat} {d e x : Dev} (h : d.keepsStatus n e) (g : e.keepsStatus n x) : d.keepsStatus n x :=
  fun f hf hlt => (g f hf hlt).trans (h f hf hlt)

theorem keepsStatus_of_getR {n : Nat} {d e : Dev} (h : e.getR (TCTL_PASS_STATUS n) = d.getR (TCTL_PASS_STATUS n)) :
    d.keepsStatus n e := fun _ hf _ => getF_congr (by rw [hf]; exact h)

theorem keepsStatus_setState (d : Dev) (n v : Nat) : d.keepsStatus n (d.setF (TCTL_PASS_STATUS_STATE n) v) :=
  fun f _ hlt => getF_setF_ne d _ f v (by omega) (.inr (.inl hlt))

/-- The registers that show what a pass does: PASS_STATUS and SFAULT_INFO. -/
def Dev.keepsRun (n : Nat) (d e : Dev) : Prop :=
  e.getR (TCTL_PASS_STATUS n) = d.getR (TCTL_PASS_STATUS n) ∧ e.getR (TCTL_SFAULT_INFO n) = d.getR (TCTL_SFAULT_INFO n)

theorem Dev.keepsRun.trans {n : Nat} {d e x : Dev} (h : d.keepsRun n e) (g : e.keepsRun n x) : d.keepsRun n x :=
  ⟨g.1.trans h.1, g.2.trans h.2⟩

/-- Parts that change nothing below the trip counts of the tile's registers. -/
theorem keepsRun_of_low {n : Nat} {d e : Dev} (h : ∀ p, tileBase n ≤ p → p < tileBase n + 0x10 → e.getR p = d.getR p) :
    d.keepsRun n e := by
  refine ⟨h _ ?_ ?_, h _ ?_ ?_⟩ <;> simp only [TCTL_PASS_STATUS, TCTL_SFAULT_INFO] <;> omega

theorem Dev.keepsRun.running {n : Fin 32} {d e : Dev} (h : d.keepsRun n e) : e.running n = d.running n :=
  congrArg (· == 1) (getF_congr h.1)

theorem getR_latch_egTctl (d : Dev) (n : Fin 32) (b : Nat) {p : Nat} (h1 : p ≠ TCTL_EVENT n) (h2 : p ≠ TCTL_EVENT_SEQ n)
    (h3 : p < 0x100100 ∨ 0x100200 ≤ p) : (d.latch (egTctl n) b).getR p = d.getR p :=
  getR_latch_ne d _ b p h1 h2 (by simp only [egTctl, INT_PEND]; omega)

theorem getR_latch_egXpt (d : Dev) (n : Fin 32) (b : Nat) {p : Nat} (h1 : p ≠ XPT_EVENT n) (h2 : p ≠ XPT_EVENT_SEQ n)
    (h3 : p < 0x100100 ∨ 0x100200 ≤ p) : (d.latch (egXpt n) b).getR p = d.getR p :=
  getR_latch_ne d _ b p h1 h2 (by simp only [egXpt, INT_PEND]; omega)

/-! TIER_LATE and TIER_ERR (R143, R195). -/

theorem tierBits_effect (d : Dev) (n : Fin 32) (later : Bool) :
    (∃ l, (d.tierBits n later).tile n = { d.tile n with lateToks := l }) ∧ d.onlyTile (d.tierBits n later) n ∧
      ∀ p, p < tileBase n + 0x200 ∨ tileBase n + 0x300 ≤ p → (d.tierBits n later).getR p = d.getR p := by
  unfold Dev.tierBits
  dsimp only
  have htiles := fun x : Dev => foldl_view_same Dev.tiles
    (fun (x : Dev) i => (x.setN (TCTL_TIER_LATE n i) 0).setN (TCTL_TIER_ERR n i) 0) (List.range 30) (fun x i _ => by simp) x
  refine ⟨⟨_, (tile_congr (htiles _) n).trans (tile_onTile_self _ _ _)⟩,
    fun m hm => (tile_congr (htiles _) m).trans (tile_onTile_ne _ _ hm), fun p hp => ?_⟩
  refine foldl_view_same (fun x : Dev => x.getR p) _ _ (fun x i hi => ?_) _
  have h30 : i < 30 := List.mem_range.mp hi
  simp only [getR_setN]
  rw [if_neg, if_neg]
  · simp only [TCTL_TIER_LATE]; omega
  · simp only [TCTL_TIER_ERR]; omega

/-! The sequencer (R99, R110, R123). -/

theorem getLsbD_orStreams (l : List Nat) (b : BitVec 5) {j : Nat} (hj : j < 5) :
    (l.foldl (fun (b : BitVec 5) st => b ||| BitVec.ofNat 5 (2 ^ st)) b).getLsbD j = (b.getLsbD j || decide (j ∈ l)) := by
  induction l generalizing b with
  | nil => simp
  | cons st t ih =>
    rw [List.foldl_cons, ih, BitVec.getLsbD_or, BitVec.getLsbD_ofNat, Nat.testBit_two_pow]
    simp [hj, Bool.or_assoc, eq_comm]

/-- A stream with instructions has not ended when its pass starts. -/
theorem ended_seqStart (d : Dev) (n : Fin 32) {half st : Nat} (hst : st < 5) (h : d.streamLen n half st ≠ 0) :
    ((d.seqStart n half).seq n).ended ≠ 31#5 := by
  intro hend
  have hbit : ((d.seqStart n half).seq n).ended.getLsbD st = false := by
    rw [Dev.seqStart, Dev.onSeq, Dev.seq, tile_onTile_self]
    rw [getLsbD_orStreams _ _ hst]
    simp [h]
  rw [hend] at hbit
  have hall : ∀ j < 5, (31#5).getLsbD j = true := by decide
  rw [hall st hst] at hbit
  exact Bool.noConfusion hbit

theorem fbMapWord_congr {d e : Dev} {n : Fin 32} (h : ∀ i < 128, e.getR (MGL_FB_MAP n i) = d.getR (MGL_FB_MAP n i)) :
    e.fbMapWord n = d.fbMapWord n := by
  have hfold := List.foldr_ext (fun i a => e.getN (MGL_FB_MAP n i) + 2 ^ 32 * a) (fun i a => d.getN (MGL_FB_MAP n i) + 2 ^ 32 * a) 0
    (l := List.range 128) fun i hi a => by rw [getN_congr (h i (List.mem_range.mp hi))]
  rw [Dev.fbMapWord, Dev.fbMapWord, hfold]

theorem headerBad_congr {d e : Dev} {n : Fin 32} (hi : (e.tile n).imem = (d.tile n).imem)
    (hr : e.getF (TCTL_ROTA_HOME_W n) = d.getF (TCTL_ROTA_HOME_W n)) (half : Nat) : e.headerBad n half = d.headerBad n half := by
  have himem : e.imemLe n = d.imemLe n := by
    funext a k
    rw [Dev.imemLe, Dev.imemLe, hi]
  unfold Dev.headerBad Dev.streamLen
  rw [himem, hr]

/-- PASS_STATUS of a pass that starts. -/
def Dev.passShown (d : Dev) (n : Fin 32) (r : Release) : Dev :=
  (((d.setF (TCTL_PASS_STATUS_PASS_SEQ n) (d.passSeq n + 1)).setF (TCTL_PASS_STATUS_STATE n) 1).setF
    (TCTL_PASS_STATUS_RERUN n) (if r.rerun then 1 else 0)).setF (TCTL_PASS_STATUS_FB_HALF n) (if r.fallback then 1 else 0)

theorem passShown_effect (d : Dev) (n : Fin 32) (r : Release) :
    (d.passShown n r).passSeq n = (d.passSeq n + 1) % 65536 ∧ (d.passShown n r).flag (TCTL_PASS_STATUS_RERUN n) = r.rerun ∧
      (d.passShown n r).flag (TCTL_PASS_STATUS_FB_HALF n) = r.fallback ∧ (d.passShown n r).getF (TCTL_PASS_STATUS_STATE n) = 1 ∧
      (d.passShown n r).tiles = d.tiles ∧ ∀ p, p ≠ TCTL_PASS_STATUS n → (d.passShown n r).getR p = d.getR p := by
  unfold Dev.passShown
  refine ⟨?_, ?_, ?_, ?_, by simp, fun p hp => by simp only [getR_setF, if_neg hp]⟩
  · rw [Dev.passSeq, getF_setF_ne, getF_setF_ne, getF_setF_ne, getF_setF_self] <;> simp
  · rw [Dev.flag, getF_setF_ne, getF_setF_self] <;> cases r.rerun <;> simp
  · rw [Dev.flag, getF_setF_self] <;> cases r.fallback <;> simp
  · rw [getF_setF_ne, getF_setF_ne, getF_setF_self] <;> simp

/-- The pass number, RERUN and FB_HALF are shown, the sequencer has latched, the tile's own operations have no error yet. -/
def Dev.passLatched (d : Dev) (n : Fin 32) (r : Release) : Dev :=
  (((d.passShown n r).tierBits n (r.rerun || (d.passShown n r).getF (QNT_STEP_STATUS_PASS n) != 0)).seqStart n
    (if r.fallback then 0x400000 else 0)).onSource (some n) fun x =>
      { x with errs := x.errs.filter fun e => e.owner != .mover && e.owner != .helper }

theorem getR_passLatched (d : Dev) (n : Fin 32) (r : Release) {p : Nat} (h : p < tileBase n + 0x200 ∨ tileBase n + 0x300 ≤ p) :
    (d.passLatched n r).getR p = (d.passShown n r).getR p := by
  obtain ⟨-, -, htier⟩ := tierBits_effect (d.passShown n r) n (r.rerun || (d.passShown n r).getF (QNT_STEP_STATUS_PASS n) != 0)
  have hregs : (d.passLatched n r).regs =
      ((d.passShown n r).tierBits n (r.rerun || (d.passShown n r).getF (QNT_STEP_STATUS_PASS n) != 0)).regs := by
    rw [Dev.passLatched, Dev.onSource, regs_onTile, Dev.seqStart, Dev.onSeq, regs_onTile]
  exact (getR_of_regs hregs p).trans (htier p h)

theorem keepsRun_passLatched (d : Dev) (n : Fin 32) (r : Release) : (d.passShown n r).keepsRun n (d.passLatched n r) :=
  keepsRun_of_low fun _ _ hp => getR_passLatched d n r (.inl (by omega))

/-- What the tile holds then. -/
theorem tile_passLatched (d : Dev) (n : Fin 32) (r : Release) :
    let t := (d.passLatched n r).tile n
    t.seq.released = none ∧ (∀ k : Fin 64, t.seq.trips[k] = d.getF (TCTL_TRIP_TRIP n k)) ∧ t.seq.fbMap = d.fbMapWord n ∧
      t.seq.next = (d.tile n).seq.next ∧ t.seq.nextOver = (d.tile n).seq.nextOver ∧ t.dram = (d.tile n).dram ∧
      t.imem = (d.tile n).imem ∧ t.router = (d.tile n).router ∧ d.onlyTile (d.passLatched n r) n ∧
      ∀ st < 5, d.streamLen n (if r.fallback then 0x400000 else 0) st ≠ 0 → t.seq.ended ≠ 31#5 := by
  obtain ⟨-, -, -, -, htiles, hshown⟩ := passShown_effect d n r
  obtain ⟨⟨l, htile⟩, hothers, htier⟩ := tierBits_effect (d.passShown n r) n
    (r.rerun || (d.passShown n r).getF (QNT_STEP_STATUS_PASS n) != 0)
  generalize hx : (d.passShown n r).tierBits n (r.rerun || (d.passShown n r).getF (QNT_STEP_STATUS_PASS n) != 0) = x at htile hothers htier
  rw [tile_congr htiles] at htile
  have hreg : ∀ p, p ≠ TCTL_PASS_STATUS n → p < tileBase n + 0x200 ∨ tileBase n + 0x300 ≤ p → x.getR p = d.getR p :=
    fun p h1 h2 => (htier p h2).trans (hshown p h1)
  have hlatched : (d.passLatched n r).tile n = { x.tile n with
      seq := (x.seqStart n (if r.fallback then 0x400000 else 0)).seq n
      delud := ((d.passLatched n r).tile n).delud } := by
    rw [Dev.passLatched, hx, Dev.onSource, tile_onTile_self, Dev.seqStart, Dev.onSeq, Dev.seq, tile_onTile_self]
  have hlen : ∀ st, x.streamLen n (if r.fallback then 0x400000 else 0) st = d.streamLen n (if r.fallback then 0x400000 else 0) st := by
    intro st
    rw [Dev.streamLen, Dev.streamLen, Dev.imemLe, Dev.imemLe, htile]
  have hseq : (x.seqStart n (if r.fallback then 0x400000 else 0)).seq n = { x.seq n with
      released := none, trips := Vector.ofFn fun i : Fin 64 => x.getF (TCTL_TRIP_TRIP n i), fbMap := x.fbMapWord n
      ended := ((x.seqStart n (if r.fallback then 0x400000 else 0)).seq n).ended
      wait := none, loops := [], resumeAt := 0, waitBeats := 0 } := by
    rw [Dev.seqStart, Dev.onSeq, Dev.seq, tile_onTile_self, Dev.seq]
  have hx' : x.seq n = (d.tile n).seq := by rw [Dev.seq, htile]
  refine ⟨?_, fun k => ?_, ?_, ?_, ?_, ?_, ?_, ?_, fun m hm => ?_, fun st hst h => ?_⟩
  · rw [hlatched, hseq]
  · rw [hlatched, hseq]
    simp only [Fin.getElem_fin, Vector.getElem_ofFn]
    exact getF_congr (hreg _ (by simp only [TCTL_TRIP, TCTL_PASS_STATUS]; omega) (.inl (by simp only [TCTL_TRIP]; omega)))
  · rw [hlatched, hseq]
    exact fbMapWord_congr fun i hi => hreg _ (by simp only [MGL_FB_MAP, TCTL_PASS_STATUS]; omega) (.inr (by simp only [MGL_FB_MAP]; omega))
  · rw [hlatched, hseq, hx']
  · rw [hlatched, hseq, hx']
  · rw [hlatched, htile]
  · rw [hlatched, htile]
  · rw [hlatched, htile]
  · rw [Dev.passLatched, hx, Dev.onSource, tile_onTile_ne _ _ hm, Dev.seqStart, Dev.onSeq, tile_onTile_ne _ _ hm, hothers m hm,
      tile_congr htiles]
  · rw [hlatched]
    exact ended_seqStart x n hst (by rw [hlen]; exact h)

/-! The token banks (R141) and the quantiser (R65). -/

theorem getR_tierErr (d : Dev) (n : Fin 32) (t : Nat) {p : Nat} (hp : tileBase n ≤ p) (h : p < tileBase n + 0x10) :
    (d.tierErr n t).getR p = d.getR p := by
  rw [Dev.tierErr, getR_latch_egTctl, getR_setBit_ne]
  · simp only [TCTL_TIER_ERR]; omega
  · simp only [TCTL_EVENT]; omega
  · simp only [TCTL_EVENT_SEQ]; omega
  · simp only [tileBase] at hp; omega

/-- A fault of a token whose count would have exceeded 255 in the bank that becomes the current one. -/
def Dev.overflowFault (d : Dev) (n : Fin 32) (l : List Nat) : Dev := match l with
  | t :: _ => if d.running n then d.sfault n 0x0E 7 0 0 t else d
  | [] => d

theorem overflowFault_effect (d : Dev) (n : Fin 32) (l : List Nat) :
    (d.overflowFault n l).tiles = d.tiles ∧ d.keepsStatus n (d.overflowFault n l) ∧
      (d.running n = false ∨ l = [] → d.overflowFault n l = d) := by
  unfold Dev.overflowFault
  cases l with
  | nil => exact ⟨rfl, fun _ _ _ => rfl, fun _ => rfl⟩
  | cons t l =>
    cases hrun : d.running n
    · exact ⟨rfl, fun _ _ _ => rfl, fun _ => rfl⟩
    · obtain ⟨-, -, hstatus, htiles, -⟩ := sfault_effect d n 0x0E 7 0 0 t
      exact ⟨htiles, hstatus, fun h => by simp at h⟩

/-- The next bank becomes the current one, and the next is empty. -/
theorem tokenShift_effect (d : Dev) (n : Fin 32) :
    (d.tokenShift n).tile n =
      { d.tile n with seq := { d.seq n with cur := (d.seq n).next, next := [], nextOver := [], nextErr := [] } } ∧
    d.onlyTile (d.tokenShift n) n ∧ d.keepsStatus n (d.tokenShift n) ∧
    (d.running n = false ∨ (d.seq n).nextOver = [] → d.keepsRun n (d.tokenShift n)) := by
  let x := d.onSeq n fun q => { q with cur := q.next, next := [], nextOver := [], nextErr := [] }
  let y := (d.seq n).nextErr.foldl (fun d t => d.tierErr n t) x
  have hshift : d.tokenShift n = y.overflowFault n (d.seq n).nextOver := by
    unfold Dev.tokenShift Dev.overflowFault
    dsimp only <;> cases (d.seq n).nextOver <;> rfl
  have hytiles : y.tiles = x.tiles := foldl_view_same Dev.tiles _ _ (fun e t _ => by simp [Dev.tierErr]) x
  have hyregs : d.keepsRun n y := keepsRun_of_low fun p h1 h2 =>
    foldl_view_same (fun e : Dev => e.getR p) _ _ (fun e t _ => getR_tierErr e n t h1 h2) x
  obtain ⟨htiles, hstatus, hsame⟩ := overflowFault_effect y n (d.seq n).nextOver
  have htile : ∀ m, (d.tokenShift n).tile m = x.tile m := fun m => tile_congr (by rw [hshift, htiles, hytiles]) m
  refine ⟨?_, fun m hm => ?_, ?_, fun h => ?_⟩
  · exact (htile n).trans (tile_onTile_self d n _)
  · exact (htile m).trans (tile_onTile_ne d _ hm)
  · rw [hshift]
    exact (keepsStatus_of_getR hyregs.1).trans hstatus
  · rw [hshift, hsame (by rw [hyregs.running]; exact h)]
    exact hyregs

theorem quantStart_effect (d : Dev) (n : Fin 32) :
    (∃ m, (d.quantStart n).tile n = { d.tile n with store := m, troubled := [], voteDue := false, voteReady := false }) ∧
    d.onlyTile (d.quantStart n) n ∧ (d.quantStart n).flag (QNT_STEP_STATUS_TROUBLE n) = false ∧
    ∀ p, p ≠ QNT_STEP_STATUS n → (d.quantStart n).getR p = d.getR p := by
  have hstore : d.storeOnly n ((d.flagged n 0).foldl (fun d t => d.clearStatFlag n t 0) d) :=
    storeOnly_foldl (fun e t => storeOnly_clearStatFlag e n t 0) _ d
  rw [Dev.quantStart]
  dsimp only
  generalize (d.flagged n 0).foldl (fun d t => d.clearStatFlag n t 0) d = x at hstore
  obtain ⟨⟨m, htile⟩, hothers, hregs, -⟩ := hstore.fields
  have htiles : ∀ (y : Dev) a b c e, ((((y.setF (QNT_STEP_STATUS_TROUBLE n) a).setF (QNT_STEP_STATUS_NAN_SEEN n) b).setF
    (QNT_STEP_STATUS_TSCALE_BAD n) c).setF (QNT_STEP_STATUS_TROUBLED_TENSORS n) e).tiles = y.tiles := fun _ _ _ _ _ => by simp
  refine ⟨⟨m, ?_⟩, fun k hk => ?_, ?_, fun p hp => ?_⟩
  · rw [tile_congr (htiles _ _ _ _ _), tile_onTile_self, htile]
  · rw [tile_congr (htiles _ _ _ _ _), tile_onTile_ne _ _ hk, hothers k hk]
  · rw [Dev.flag, getF_setF_ne, getF_setF_ne, getF_setF_ne, getF_setF_self] <;> simp
  · simp only [getR_setF, if_neg hp, getR_onTile]
    exact getR_of_regs hregs p

/-! The router (R276) and the barriers (R289). -/

theorem onRouter_effect (d : Dev) (n : Fin 32) (f : Router → Router) :
    (∃ r, (d.onRouter n f).tile n = { d.tile n with router := r }) ∧ d.onlyTile (d.onRouter n f) n ∧ (d.onRouter n f).regs = d.regs :=
  ⟨⟨_, tile_onTile_self d n _⟩, fun _ hm => tile_onTile_ne d _ hm, rfl⟩

theorem routerStart_effect (d : Dev) (n : Fin 32) (he : (d.router n).early = []) :
    (∃ r, (d.routerStart n).tile n = { d.tile n with router := r }) ∧ d.onlyTile (d.routerStart n) n ∧
    ∀ p, tileBase n ≤ p → p < tileBase n + 0x70000 → (d.routerStart n).getR p = d.getR p := by
  have hlatch : ∀ (c : Prop) [Decidable c], (if c then d.latch (egXpt n) 3 else d).tiles = d.tiles ∧
      ∀ p, tileBase n ≤ p → p < tileBase n + 0x70000 → (if c then d.latch (egXpt n) 3 else d).getR p = d.getR p := by
    intro c _
    split
    · refine ⟨tiles_latch _ _ _, fun p h1 h2 => getR_latch_egXpt d n 3 ?_ ?_ ?_⟩
      · simp only [XPT_EVENT]; omega
      · simp only [XPT_EVENT_SEQ]; omega
      · simp only [tileBase] at h1; omega
    · exact ⟨rfl, fun _ _ _ => rfl⟩
  rw [Dev.routerStart]
  dsimp only
  generalize hx : ite (4096 < _) (d.latch (egXpt n) 3) d = x
  obtain ⟨htiles, hregs⟩ := hx ▸ hlatch _
  have hearly : (x.router n).early = [] := by rw [Dev.router, tile_congr htiles]; exact he
  have hdemand : ∀ y : Dev, ((List.range 64).foldl (fun d i => d.setN (XPT_INTAKE_DEMAND n i) 0) y).tiles = y.tiles :=
    foldl_view_same Dev.tiles _ _ fun e i _ => by simp
  have hstat : ∀ y : Dev, (y.routerStat n).tiles = y.tiles := fun y => by simp [Dev.routerStat]
  rw [hearly, List.foldl_nil]
  generalize hy : x.onRouter n _ = y
  obtain ⟨⟨r, hytile⟩, hyothers, hyregs⟩ := hy ▸ onRouter_effect x n _
  refine ⟨⟨r, ?_⟩, fun m hm => ?_, fun p h1 h2 => ?_⟩
  · rw [tile_congr (hstat _), tile_congr (hdemand _), hytile, tile_congr htiles]
  · rw [tile_congr (hstat _), tile_congr (hdemand _), hyothers m hm, tile_congr htiles]
  · have hne : p ≠ XPT_STATUS n := by simp only [XPT_STATUS]; omega
    rw [Dev.routerStat]
    simp only [getR_setF, if_neg hne]
    refine (foldl_view_same (fun y : Dev => y.getR p) _ _ (fun y i _ => ?_) _).trans ((getR_of_regs hyregs p).trans (hregs p h1 h2))
    rw [getR_setN, if_neg (by simp only [XPT_INTAKE_DEMAND]; omega)]

theorem dropBarriers_effect (d : Dev) (n : Fin 32) : (d.dropBarriers n).tiles = d.tiles ∧ (d.dropBarriers n).regs = d.regs := by
  rw [Dev.dropBarriers]
  cases d.groupOf n <;> exact ⟨rfl, rfl⟩

/-! The end of a pass with no instruction. -/

/-- The registers of a pass that ends in cycle `e`. -/
def Dev.passClosed (d : Dev) (n : Fin 32) (e : Nat) : Dev :=
  ((d.setF (TCTL_PASS_STATUS_STATE n) 0).setN (TCTL_PASS_LEN n) e).setN (TCTL_WAIT_BEATS n) (d.seq n).waitBeats

theorem passClosed_effect (d : Dev) (n : Fin 32) (e : Nat) : (d.passClosed n e).tiles = d.tiles ∧
    d.keepsStatus n (d.passClosed n e) ∧ ∀ p, tileBase n + 0x28 ≤ p → (d.passClosed n e).getR p = d.getR p := by
  unfold Dev.passClosed
  generalize (d.seq n).waitBeats = beats
  refine ⟨by simp, (keepsStatus_setState d n 0).trans (keepsStatus_of_getR ?_), fun p hp => ?_⟩
  · rw [getR_setN, if_neg, getR_setN, if_neg]
    · simp only [TCTL_PASS_STATUS, TCTL_PASS_LEN]; omega
    · simp only [TCTL_PASS_STATUS, TCTL_WAIT_BEATS]; omega
  · rw [getR_setN, if_neg, getR_setN, if_neg, getR_setF, if_neg]
    · simp only [TCTL_PASS_STATUS]; omega
    · simp only [TCTL_PASS_LEN]; omega
    · simp only [TCTL_WAIT_BEATS]; omega

theorem passEnd_of_untroubled {d : Dev} {n : Fin 32} (e : Nat) (h : (d.tile n).troubled = []) :
    d.passEnd n e = (d.passClosed n e).onTile n fun t => { t with voteDue := true, seq := { t.seq with wait := none, loops := [] } } := by
  have htroubled : ((d.passClosed n e).tile n).troubled = [] := by rw [tile_congr (passClosed_effect d n e).1, h]
  rw [Dev.passEnd]
  refine if_neg ?_
  rw [tile_onTile_self]
  exact not_not.mpr htroubled

theorem passEnd_effect (d : Dev) (n : Fin 32) (e : Nat) (h : (d.tile n).troubled = []) :
    (d.passEnd n e).tile n = { d.tile n with voteDue := true, seq := { d.seq n with wait := none, loops := [] } } ∧
    d.onlyTile (d.passEnd n e) n ∧ d.keepsStatus n (d.passEnd n e) ∧
    ∀ p, tileBase n + 0x28 ≤ p → (d.passEnd n e).getR p = d.getR p := by
  obtain ⟨htiles, hstatus, hregs⟩ := passClosed_effect d n e
  rw [passEnd_of_untroubled e h]
  refine ⟨?_, fun m hm => ?_, hstatus.trans (keepsStatus_of_getR (getR_onTile _ _ _ _)),
    fun p hp => (getR_onTile _ _ _ _).trans (hregs p hp)⟩
  · rw [tile_onTile_self, tile_congr htiles, Dev.seq]
  · rw [tile_onTile_ne _ _ hm, tile_congr htiles]

end Sys2Proof.Machine
end

section
/-! The start of a pass as a command (R65, R99, R110, R127, R129, R141), and the statement on passes and votes. -/

namespace Sys2Proof.Machine

open Reg

/-- The check of the half's header (R129). -/
def Dev.passChecked (d : Dev) (n : Fin 32) (half : Nat) : Dev := if d.headerBad n half then d.sfault n 0x10 7 0 0 0 else d

/-- The tile's parts after the check: token banks, quantiser, send buffer, router, barriers, the counted start. -/
def Dev.passBegun (d : Dev) (n : Fin 32) : Dev :=
  (((((d.tokenShift n).quantStart n).onDelud n fun x => { x with sendBytes := 0 }).routerStart n).dropBarriers n).count (.tile n) 5 1

/-- A pass with no instruction ends as it starts. -/
def Dev.passSettled (d : Dev) (n : Fin 32) : Dev := if d.running n ∧ (d.seq n).ended = 31#5 then d.passEnd n 0 else d

theorem passStart_eq {d : Dev} (n : Fin 32) (r : Release) (h : d.rwb = []) :
    d.passStart n r = ((((d.passLatched n r).passChecked n (if r.fallback then 0x400000 else 0)).passBegun n)).passSettled n := by
  have hnone : ¬ (d.rwb.any fun e => e.ofTile n && e.bnd == .rotaIdle) = true := by rw [h]; exact Bool.false_ne_true
  rw [Dev.passStart, if_neg hnone]
  rfl

theorem exec_passStart {s : State} {n : Fin 32} {r : Release} (hf : s.dev.frozen = false) (hr : (s.dev.seq n).released = some r)
    (hrun : s.dev.running n = false) : exec (.passStart n) s = .next (s.put (s.dev.passStart n r)) := by
  change execPassStart n s = _
  refine onRun_eq hf ?_
  simp only [hr, hrun, Bool.false_eq_true, if_false]

theorem passChecked_effect (d : Dev) (n : Fin 32) (half : Nat) :
    (d.passChecked n half).tiles = d.tiles ∧ d.keepsStatus n (d.passChecked n half) ∧
    (d.headerBad n half = true → (d.passChecked n half).getF (TCTL_PASS_STATUS_STATE n) = 2 ∧
      (d.passChecked n half).getF (TCTL_SFAULT_INFO_CAUSE n) = 0x10) ∧
    (d.headerBad n half = false → d.passChecked n half = d) := by
  unfold Dev.passChecked
  cases hbad : d.headerBad n half
  · exact ⟨rfl, fun _ _ _ => rfl, fun h => by simp at h, fun _ => rfl⟩
  · obtain ⟨hstate, hcause, hstatus, htiles, -⟩ := sfault_effect d n 0x10 7 0 0 0
    exact ⟨htiles, hstatus, fun _ => ⟨hstate, hcause⟩, fun h => by simp at h⟩

theorem passBegun_effect (d : Dev) (n : Fin 32) (he : (d.router n).early = []) :
    (d.passBegun n).seq n = { d.seq n with cur := (d.seq n).next, next := [], nextOver := [], nextErr := [] } ∧
    ((d.passBegun n).tile n).troubled = [] ∧ ((d.passBegun n).tile n).dram = (d.tile n).dram ∧
    ((d.passBegun n).delud n).sendBytes = 0 ∧
    (d.passBegun n).flag (QNT_STEP_STATUS_TROUBLE n) = false ∧ d.onlyTile (d.passBegun n) n ∧ d.keepsStatus n (d.passBegun n) ∧
    (d.running n = false ∨ (d.seq n).nextOver = [] → d.keepsRun n (d.passBegun n)) := by
  obtain ⟨htok, htokOthers, htokStatus, htokRun⟩ := tokenShift_effect d n
  obtain ⟨⟨m, hquant⟩, hquantOthers, htrouble, hquantRegs⟩ := quantStart_effect (d.tokenShift n) n
  obtain ⟨q, hqdef⟩ : ∃ q, q = ((d.tokenShift n).quantStart n).onDelud n fun x => { x with sendBytes := 0 } := ⟨_, rfl⟩
  have hq : q.tile n = { ((d.tokenShift n).quantStart n).tile n with
      delud := { (((d.tokenShift n).quantStart n).tile n).delud with sendBytes := 0 } } := by
    rw [hqdef, Dev.onDelud, tile_onTile_self]
  have hqRegs : q.regs = ((d.tokenShift n).quantStart n).regs := by rw [hqdef, Dev.onDelud, regs_onTile]
  have hearly : (q.router n).early = [] := by rw [Dev.router, hq, hquant, htok]; exact he
  obtain ⟨⟨x, hrouter⟩, hrouterOthers, hrouterRegs⟩ := routerStart_effect q n hearly
  obtain ⟨hdropTiles, hdropRegs⟩ := dropBarriers_effect (q.routerStart n) n
  obtain ⟨-, hcountRegs⟩ := countOnly_count ((q.routerStart n).dropBarriers n) n 5 1
  have hbegun : d.passBegun n = ((q.routerStart n).dropBarriers n).count (.tile n) 5 1 := by rw [Dev.passBegun, hqdef]
  obtain ⟨hcountTiles, -⟩ := (countOnly_count ((q.routerStart n).dropBarriers n) n 5 1).fields
  have htiles : ∀ k, (d.passBegun n).tile k = (q.routerStart n).tile k := fun k => by
    rw [hbegun]; exact tile_congr (hcountTiles.trans hdropTiles) k
  have hregs : ∀ p, tileBase n ≤ p → p < tileBase n + 0x70000 → (d.passBegun n).getR p = q.getR p := fun p h1 h2 => by
    rw [hbegun, hcountRegs p (not_counterRegs_of_lt h1 (by omega)), getR_of_regs hdropRegs p, hrouterRegs p h1 h2]
  have hrun : (d.tokenShift n).keepsRun n (d.passBegun n) := keepsRun_of_low fun p h1 h2 =>
    (hregs p h1 (by omega)).trans <| (getR_of_regs hqRegs p).trans (hquantRegs p (by simp only [QNT_STEP_STATUS]; omega))
  refine ⟨?_, ?_, ?_, ?_, ?_, fun k hk => ?_, htokStatus.trans (keepsStatus_of_getR hrun.1), fun h => (htokRun h).trans hrun⟩
  · rw [Dev.seq, htiles, hrouter, hq, hquant, htok]
  · rw [htiles, hrouter, hq, hquant]
  · rw [htiles, hrouter, hq, hquant, htok]
  · rw [Dev.delud, htiles, hrouter, hq]
  · rw [← htrouble]
    refine congrArg (· == 1) (getF_congr ((hregs _ ?_ ?_).trans (getR_of_regs hqRegs _))) <;> simp only [QNT_STEP_STATUS] <;> omega
  · rw [htiles, hrouterOthers k hk, hqdef, Dev.onDelud, tile_onTile_ne _ _ hk, hquantOthers k hk, htokOthers k hk]

theorem passSettled_effect (d : Dev) (n : Fin 32) (h : (d.tile n).troubled = []) :
    (∃ w l v, (d.passSettled n).tile n = { d.tile n with voteDue := v, seq := { d.seq n with wait := w, loops := l } }) ∧
    d.onlyTile (d.passSettled n) n ∧ d.keepsStatus n (d.passSettled n) ∧
    (∀ p, tileBase n + 0x28 ≤ p → (d.passSettled n).getR p = d.getR p) ∧
    (d.running n = false ∨ (d.seq n).ended ≠ 31#5 → d.passSettled n = d) := by
  unfold Dev.passSettled
  split
  · next hend =>
    obtain ⟨htile, hothers, hstatus, hregs⟩ := passEnd_effect d n 0 h
    refine ⟨⟨none, [], true, htile⟩, hothers, hstatus, hregs, fun h => ?_⟩
    rw [hend.1] at h
    simp [hend.2] at h
  · exact ⟨⟨_, _, _, rfl⟩, fun _ _ => rfl, fun _ _ _ => rfl, fun _ _ => rfl, fun _ => rfl⟩

theorem passStart_effect {s : State} {n : Fin 32} {r : Release} (hf : s.dev.frozen = false) (hr : (s.dev.seq n).released = some r)
    (hrun : s.dev.running n = false) (hrwb : s.dev.rwb = []) (he : (s.dev.router n).early = []) :
    let half := if r.fallback then 0x400000 else 0
    ∃ e : Dev, exec (.passStart n) s = .next (s.put e) ∧ e.passSeq n = (s.dev.passSeq n + 1) % 65536 ∧
      e.flag (TCTL_PASS_STATUS_RERUN n) = r.rerun ∧ e.flag (TCTL_PASS_STATUS_FB_HALF n) = r.fallback ∧ (e.seq n).released = none ∧
      (∀ k : Fin 64, (e.seq n).trips[k] = s.dev.getF (TCTL_TRIP_TRIP n k)) ∧ (e.seq n).fbMap = s.dev.fbMapWord n ∧
      (∀ t, e.tokCur n t = s.dev.tokNext n t ∧ e.tokNext n t = 0) ∧ (e.tile n).troubled = [] ∧ (e.delud n).sendBytes = 0 ∧
      e.flag (QNT_STEP_STATUS_TROUBLE n) = false ∧ (e.tile n).dram = (s.dev.tile n).dram ∧ s.dev.onlyTile e n ∧
      (s.dev.headerBad n half = true → e.getF (TCTL_PASS_STATUS_STATE n) = 2 ∧ e.getF (TCTL_SFAULT_INFO_CAUSE n) = 0x10) ∧
      (s.dev.headerBad n half = false → (s.dev.seq n).nextOver = [] → (∃ st, st < 5 ∧ s.dev.streamLen n half st ≠ 0) →
        e.running n = true) := by
  intro half
  obtain ⟨hno, hrerun, hfb, hstate, -, hshownRegs⟩ := passShown_effect s.dev n r
  obtain ⟨hreleased, htrips, hmap, hnext, hover, hdram, himem, hrouter, hothers, hended⟩ := tile_passLatched s.dev n r
  have hlatched := keepsRun_passLatched s.dev n r
  have hbad : (s.dev.passLatched n r).headerBad n half = s.dev.headerBad n half := by
    refine headerBad_congr himem (getF_congr ?_) half
    exact (getR_passLatched s.dev n r (.inl (by simp only [TCTL_ROTA]; omega))).trans
      (hshownRegs _ (by simp only [TCTL_ROTA, TCTL_PASS_STATUS]; omega))
  obtain ⟨hcheckTiles, hcheckStatus, hcheckBad, hcheckOk⟩ := passChecked_effect (s.dev.passLatched n r) n half
  rw [hbad] at hcheckBad hcheckOk
  have hcheckTile := tile_congr hcheckTiles
  have hearly : (((s.dev.passLatched n r).passChecked n half).router n).early = [] := by
    rw [Dev.router, hcheckTile, hrouter]; exact he
  obtain ⟨hseq, htroubled, hbDram, hbytes, htrouble, hbOthers, hbStatus, hbRun⟩ :=
    passBegun_effect ((s.dev.passLatched n r).passChecked n half) n hearly
  generalize hb : ((s.dev.passLatched n r).passChecked n half).passBegun n = b at *
  obtain ⟨⟨w, l, v, htile⟩, hsOthers, hsStatus, hsRegs, hsSame⟩ := passSettled_effect b n htroubled
  have hexec : exec (.passStart n) s = .next (s.put (b.passSettled n)) := by
    rw [exec_passStart hf hr hrun, passStart_eq n r hrwb, hb]
  have hcSeq : ((s.dev.passLatched n r).passChecked n half).seq n = ((s.dev.passLatched n r).tile n).seq := by
    rw [Dev.seq, hcheckTile]
  have hstatus : (s.dev.passShown n r).keepsStatus n (b.passSettled n) :=
    (((keepsStatus_of_getR hlatched.1).trans hcheckStatus).trans hbStatus).trans hsStatus
  refine ⟨b.passSettled n, hexec, ?_, ?_, ?_, ?_, fun k => ?_, ?_, fun t => ?_, ?_, ?_, ?_, ?_, fun m hm => ?_, fun hh => ?_,
    fun hh ho hst => ?_⟩
  · rw [← hno]
    exact hstatus (TCTL_PASS_STATUS_PASS_SEQ n) rfl (by simp)
  · rw [← hrerun]
    exact congrArg (· == 1) (hstatus (TCTL_PASS_STATUS_RERUN n) rfl (by simp))
  · rw [← hfb]
    exact congrArg (· == 1) (hstatus (TCTL_PASS_STATUS_FB_HALF n) rfl (by simp))
  · rw [Dev.seq, htile, hseq, hcSeq, hreleased]
  · rw [← htrips k, Dev.seq, htile, hseq, hcSeq]
  · rw [← hmap, Dev.seq, htile, hseq, hcSeq]
  · constructor
    · rw [Dev.tokCur, Dev.tokNext, Dev.seq, htile, hseq, hcSeq, hnext, Dev.seq]
    · rw [Dev.tokNext, Dev.seq, htile, hseq, smGet]
  · rw [htile, htroubled]
  · rw [Dev.delud, htile]
    exact hbytes
  · rw [← htrouble]
    exact congrArg (· == 1) (getF_congr (hsRegs _ (by simp only [QNT_STEP_STATUS]; omega)))
  · rw [htile, hbDram, hcheckTile, hdram]
  · rw [hsOthers m hm, hbOthers m hm, hcheckTile, hothers m hm]
  · obtain ⟨hstate2, hcause⟩ := hcheckBad hh
    have hstop : ((s.dev.passLatched n r).passChecked n half).running n = false := by
      rw [Dev.running, hstate2]; rfl
    have hkeeps := hbRun (.inl hstop)
    rw [hsSame (.inl (hkeeps.running.trans hstop)), getF_congr (f := TCTL_PASS_STATUS_STATE n) hkeeps.1,
      getF_congr (f := TCTL_SFAULT_INFO_CAUSE n) hkeeps.2]
    exact ⟨hstate2, hcause⟩
  · have hlive : (b.seq n).ended ≠ 31#5 := by
      obtain ⟨st, hlt, hne⟩ := hst
      rw [hseq, hcSeq]
      exact hended st hlt hne
    have hkeeps := hbRun (.inr (by rw [hcSeq, hover]; exact ho))
    have hshown : (s.dev.passShown n r).running n = true := beq_iff_eq.mpr hstate
    rw [hsSame (.inr hlive), ← hshown, ← hlatched.running, hkeeps.running, hcheckOk hh]

/-- Settles O39: a pass start part by part (registers, sequencer, header check, token banks, quantiser, router), then the vote record
written, sent, and joined. -/
theorem passAndVotes : Obligations.PassAndVotes := by
  unfold Obligations.PassAndVotes
  refine ⟨fun s n r hf hr hrun hrwb he => passStart_effect hf hr hrun hrwb he, fun s n g now hf => ⟨?_, ?_, ?_⟩⟩
  · exact voteRecordWrite_effect hf
  · exact voteRecordSend_effect hf
  · exact packageVote_effect hf now

end Sys2Proof.Machine
end

section
/-! The step check point at the lead and at a member, and the orders of a schedule rerun (R73, R78, R83, R154). -/

namespace Sys2Proof.Machine

open Reg

theorem out_broadcast (d : Dev) (l : List Nat) (name : String) (args : List Nat) :
    (d.broadcast l name args).out = d.out ++ l.map fun p => .mgmt p name args := rfl

theorem group_satInc (d : Dev) (o : Nat) (g : Fin 4) : (d.satInc o).group g = d.group g := group_congr (srv_satInc d o) g

/-- A counter that counts one more, up to 0xFFFF_FFFF (R12). -/
theorem getN_satInc (d : Dev) (o : Nat) : (d.satInc o).getN o = min (d.getN o + 1) 0xFFFFFFFF := getN_satAdd d o 1

theorem getR_setF_ne (d : Dev) {f : Fld} {p : Nat} (v : Nat) (h : p ≠ f.off) : (d.setF f v).getR p = d.getR p := by
  rw [getR_setF, if_neg h]

theorem gstate_of_leadsRunning {d : Dev} {g : Fin 4} (h : d.leadsRunning g = true) : d.gstate g = 2 := by
  simp only [Dev.leadsRunning, Bool.and_eq_true, beq_iff_eq] at h
  exact h.1

theorem isLead_of_leadsRunning {d : Dev} {g : Fin 4} (h : d.leadsRunning g = true) : d.isLead g = true := by
  simp only [Dev.leadsRunning, Bool.and_eq_true] at h
  exact h.2

theorem leadsRunning_congr {d e : Dev} {g : Fin 4} (h : e.getR (SRV_GROUP_STATE g) = d.getR (SRV_GROUP_STATE g)) :
    e.leadsRunning g = d.leadsRunning g := by
  have hlead : e.flag (SRV_GROUP_STATE_LEAD g) = d.flag (SRV_GROUP_STATE_LEAD g) := isLead_congr h
  rw [Dev.leadsRunning, Dev.leadsRunning, gstate_congr h, hlead]

/-! The decision (R73, R78). -/

theorem decision73_eq (pass : Nat) (trouble : Bool) :
    decision73 pass trouble = if trouble = true ∧ pass < 2 then pass + 1 else 0 := by
  simp only [decision73, Bool.and_eq_true, decide_eq_true_eq]

/-- The count of a replay that the lead orders. -/
def Dev.replayCounted (d : Dev) (k : Nat) : Dev :=
  if k = 1 then d.satInc HUB_REPLAY1_COUNT else if k = 2 then d.satInc HUB_REPLAY2_COUNT else d

theorem replayCounted_effect (d : Dev) (k : Nat) :
    (k = 1 → (d.replayCounted k).getN HUB_REPLAY1_COUNT = min (d.getN HUB_REPLAY1_COUNT + 1) 0xFFFFFFFF) ∧
    (k = 2 → (d.replayCounted k).getN HUB_REPLAY2_COUNT = min (d.getN HUB_REPLAY2_COUNT + 1) 0xFFFFFFFF) ∧
    (k = 0 → (d.replayCounted k).regs = d.regs) ∧ (d.replayCounted k).tiles = d.tiles ∧ (d.replayCounted k).srv = d.srv ∧
    (d.replayCounted k).out = d.out := by
  unfold Dev.replayCounted
  refine ⟨?_, ?_, ?_, ?_, ?_, ?_⟩
  · rintro rfl
    exact getN_satInc d _
  · rintro rfl
    exact getN_satInc d _
  · rintro rfl
    rfl
  all_goals split_ifs <;> simp

/-! Schedule faults (R154). -/

/-- The lead orders the rerun of a step. -/
def Dev.rerunOrdered (d : Dev) (g : Fin 4) : Dev :=
  (d.onGroup g fun x => { x with rerun := true, abortAt := some d.now, readyTiles := [], readyPkgs := [] }).broadcast
    (d.group g).memberList "ABORT_ORDER" [g.val]

theorem leadFault_of_first {d : Dev} {g : Fin 4} (h : d.leadsRunning g = true) (hr : (d.group g).rerun = false) :
    d.leadFault g = d.rerunOrdered g := by
  rw [Dev.leadFault, if_neg (not_not.mpr h), if_neg (by rw [hr]; exact Bool.false_ne_true)]
  dsimp only
  rw [group_onGroup_self]
  rfl

/-- A tile stops issue for an abort. -/
def Dev.stopIssue (d : Dev) (n : Fin 32) : Dev := if d.running n then d.setF (TCTL_PASS_STATUS_STATE n) 2 else d

theorem passStatus_inj {n m : Fin 32} (h : TCTL_PASS_STATUS n = TCTL_PASS_STATUS m) : n = m := by
  simp only [TCTL_PASS_STATUS, tileBase] at h
  exact Fin.ext (by omega)

theorem stopIssue_effect (d : Dev) (n : Fin 32) : (d.stopIssue n).running n = false ∧ (d.stopIssue n).tiles = d.tiles ∧
    (d.stopIssue n).srv = d.srv ∧ (d.stopIssue n).out = d.out ∧ (d.stopIssue n).now = d.now ∧
    ∀ p, p ≠ TCTL_PASS_STATUS n → (d.stopIssue n).getR p = d.getR p := by
  unfold Dev.stopIssue
  cases hrun : d.running n
  · exact ⟨hrun, rfl, rfl, rfl, rfl, fun _ _ => rfl⟩
  · refine ⟨?_, tiles_setF _ _ _, srv_setF _ _ _, out_setF _ _ _, now_setF _ _ _, fun p hp => getR_setF_ne d 2 hp⟩
    have hstate : (d.setF (TCTL_PASS_STATUS_STATE n) 2).getF (TCTL_PASS_STATUS_STATE n) = 2 := getF_setF_self _ _ _ (by simp)
    rw [if_pos rfl, Dev.running, hstate]
    rfl

theorem running_stopIssue (d : Dev) (n m : Fin 32) : (d.stopIssue n).running m = (d.running m && decide (m ≠ n)) := by
  obtain ⟨hself, -, -, -, -, hregs⟩ := stopIssue_effect d n
  by_cases h : m = n
  · subst h
    simp [hself]
  · have hsame : (d.stopIssue n).running m = d.running m :=
      congrArg (· == 1) (getF_congr (hregs _ fun he => h (passStatus_inj he)))
    simp [hsame, h]

/-- Every tile of a list stops issue, and no other. -/
theorem running_stopIssues (l : List (Fin 32)) (d : Dev) (m : Fin 32) :
    (l.foldl Dev.stopIssue d).running m = (d.running m && decide (m ∉ l)) := by
  induction l generalizing d with
  | nil => simp
  | cons n t ih =>
    rw [List.foldl_cons, ih, running_stopIssue]
    by_cases hn : m = n <;> simp [hn]

section
variable {s : State} (hf : s.dev.frozen = false)
include hf

theorem voteDecision_effect {g : Fin 4} (vs : List Vote) (now : Nat) {own : Vote} (hown : (s.dev.group g).pkgVote = some own)
    (hlead : s.dev.leadsRunning g = true) (hall : ∀ p ∈ s.dev.followers g, ∃ x ∈ vs, x.pkg = p) :
    let u := voteJoin s.dev.self (own :: vs)
    let c := if u.trouble = true ∧ (s.dev.group g).pass < 2 then (s.dev.group g).pass + 1 else 0
    ∃ (e : Dev) (l : List Nat), exec (.voteDecision g vs now) s = .next (s.put e) ∧ (e.group g).pkgVote = none ∧
      e.out = s.dev.out ++ (s.dev.group g).memberList.map (fun p => .mgmt p "DECISION_RECORD" l) ∧ l.take 2 = [g.val, c] ∧
      (c = 1 → e.getN HUB_REPLAY1_COUNT = min (s.dev.getN HUB_REPLAY1_COUNT + 1) 0xFFFFFFFF) ∧
      (c = 2 → e.getN HUB_REPLAY2_COUNT = min (s.dev.getN HUB_REPLAY2_COUNT + 1) 0xFFFFFFFF) ∧ (c = 0 → e.regs = s.dev.regs) ∧
      e.tiles = s.dev.tiles := by
  intro u c
  have hc : decision73 (s.dev.group g).pass u.trouble = c := decision73_eq _ _
  have hvotes : ((s.dev.followers g).all fun p => vs.any fun v => v.pkg == p) = true := by
    rw [List.all_eq_true]
    intro p hp
    obtain ⟨x, hx, hpkg⟩ := hall p hp
    exact List.any_eq_true.mpr ⟨x, hx, by rw [hpkg, beq_self_eq_true]⟩
  obtain ⟨h1, h2, h0, htiles, hsrv, hout⟩ := replayCounted_effect (s.dev.at_ now) c
  obtain ⟨x, hx⟩ : ∃ x, x = ((s.dev.at_ now).replayCounted c).onGroup g fun x => { x with pkgVote := none } := ⟨_, rfl⟩
  obtain ⟨l, hl⟩ : ∃ l, l = [g.val, c] ++ (voteBytes (x.gstep g) (s.dev.group g).pass 0xFE c u).map BitVec.toNat := ⟨_, rfl⟩
  have hexec : exec (.voteDecision g vs now) s = .next (s.put (x.broadcast (s.dev.group g).memberList "DECISION_RECORD" l)) := by
    change execVoteDecision g vs now s = _
    refine onRun_eq hf ?_
    simp only [group_at_, hown, leadsRunning_at_, hlead, followers_at_, hvotes, and_self, if_true, self_at_]
    rw [hc, hl, hx]
    rfl
  refine ⟨_, l, hexec, ?_, ?_, by rw [hl]; rfl, fun h => ?_, fun h => ?_, fun h => ?_, ?_⟩
  · rw [Dev.broadcast, group_emits, hx, group_onGroup_self]
  · rw [out_broadcast, hx, out_onGroup, hout, out_at_]
  · rw [← getN_at_ s.dev now, ← h1 h, hx]
    rfl
  · rw [← getN_at_ s.dev now, ← h2 h, hx]
    rfl
  · rw [Dev.broadcast, regs_emits, hx, regs_onGroup, h0 h, regs_at_]
  · rw [Dev.broadcast, tiles_emits, hx, tiles_onGroup, htiles, tiles_at_]

theorem decisionRecord_effect {g : Fin 4} (k : Fin 3) (v : Vote) (now : Nat) (hs : s.dev.gstate g = 2) :
    ∃ e : Dev, exec (.decisionRecord g k v now) s = .next (s.put e) ∧ (e.group g).decision = some (k.val, v) ∧
      (e.group g).votes = [] ∧ (e.group g).pkgVote = none ∧ (k = 0 → e.getF HUB_VOTE_STAT_ACCEPTED_PASS = (s.dev.group g).pass % 4) ∧
      s.dev.keepsRegs e [HUB_VOTE_STAT] ∧ e.out = s.dev.out ++ (s.dev.groupTiles g).map (fun n => .signal "DECISION" [n.val, k.val]) ∧
      e.tiles = s.dev.tiles := by
  obtain ⟨x, hx⟩ : ∃ x : Dev, x =
    if k.val = 0 then (s.dev.at_ now).setF HUB_VOTE_STAT_ACCEPTED_PASS (s.dev.group g).pass else s.dev.at_ now := ⟨_, rfl⟩
  have hreg : s.dev.keepsRegs x [HUB_VOTE_STAT] := by
    intro p hp
    rw [hx]
    split
    · rw [getR_setF_ne _ _ (by simpa using hp), getR_at_]
    · exact getR_at_ _ _ _
  have hshown : k = 0 → x.getF HUB_VOTE_STAT_ACCEPTED_PASS = (s.dev.group g).pass % 4 := by
    rintro rfl
    rw [hx]
    exact getF_setF_self _ _ _ (by decide)
  have hsrv : x.srv = s.dev.srv := by rw [hx]; split <;> simp
  have htiles : x.tiles = s.dev.tiles := by rw [hx]; split <;> simp
  have hout : x.out = s.dev.out := by rw [hx]; split <;> simp
  obtain ⟨y, hy⟩ : ∃ y, y = x.onGroup g fun z =>
    { z with decision := some (k.val, v), votes := [], pkgVote := none, waitFrom := none } := ⟨_, rfl⟩
  have hgroup : y.group g = { s.dev.group g with decision := some (k.val, v), votes := [], pkgVote := none, waitFrom := none } := by
    rw [hy, group_onGroup_self, group_congr hsrv]
  have hyregs : y.regs = x.regs := by rw [hy, regs_onGroup]
  have hmembers : y.groupTiles g = s.dev.groupTiles g := by
    refine groupTiles_congr (by rw [hgroup]; rfl) ?_
    rw [getR_of_regs hyregs, hreg _ (by decide)]
  have hexec : exec (.decisionRecord g k v now) s =
      .next (s.put (y.emits ((s.dev.groupTiles g).map fun n => .signal "DECISION" [n.val, k.val]))) := by
    change execDecisionRecord g k v now s = _
    refine onRun_eq hf ?_
    rw [← hmembers, hy, hx, ← group_at_ s.dev now]
    exact if_pos (by rw [gstate_at_, hs])
  refine ⟨_, hexec, ?_, ?_, ?_, fun h => ?_, fun p hp => ?_, ?_, ?_⟩
  · rw [group_emits, hgroup]
  · rw [group_emits, hgroup]
  · rw [group_emits, hgroup]
  · rw [← hshown h]
    exact getF_congr ((getR_emits _ _ _).trans (getR_of_regs hyregs _))
  · rw [getR_emits, getR_of_regs hyregs, hreg p hp]
  · rw [out_emits, hy, out_onGroup, hout]
  · rw [tiles_emits, hy, tiles_onGroup, htiles]

/-! The first fault of a step at the lead. -/

/-- A fault that a tile of the group reports to the lead's hub, which counts it. -/
theorem exec_sfaultReport_lead {g : Fin 4} {n : Fin 32} (p : BitVec 17) (now : Nat) (hlead : s.dev.leadsRunning g = true)
    (ha : (s.dev.group g).abortAt = none) (hn : n ∈ s.dev.groupTiles g) (hst : s.dev.getF (TCTL_PASS_STATUS_STATE n) = 2) :
    exec (.sfaultReport g (some n) p now) s = .next (s.put (((s.dev.at_ now).satInc HUB_SFAULT_COUNT).leadFault g)) := by
  change execSfaultReport g (some n) p now s = _
  refine onRun_eq hf ?_
  have hstate : (s.dev.at_ now).getF (TCTL_PASS_STATUS_STATE n) = 2 := hst
  have hown : ((s.dev.at_ now).satInc HUB_SFAULT_COUNT).isLead g = true := by
    rw [← isLead_of_leadsRunning hlead]
    exact isLead_congr (by rw [getR_satInc_ne _ (by simp only [SRV_GROUP_STATE, HUB_SFAULT_COUNT]; omega), getR_at_])
  simp [gstate_of_leadsRunning hlead, ha, hn, hstate, hown]

theorem sfaultReport_first {g : Fin 4} {n : Fin 32} (p : BitVec 17) (now : Nat) (hlead : s.dev.leadsRunning g = true)
    (ha : (s.dev.group g).abortAt = none) (hn : n ∈ s.dev.groupTiles g) (hst : s.dev.getF (TCTL_PASS_STATUS_STATE n) = 2)
    (hr : (s.dev.group g).rerun = false) :
    ∃ e : Dev, exec (.sfaultReport g (some n) p now) s = .next (s.put e) ∧
      e.getN HUB_SFAULT_COUNT = min (s.dev.getN HUB_SFAULT_COUNT + 1) 0xFFFFFFFF ∧ s.dev.keepsRegs e [HUB_SFAULT_COUNT] ∧
      (e.group g).rerun = true ∧ (e.group g).abortAt = some (max s.dev.now now) ∧
      e.out = s.dev.out ++ (s.dev.group g).memberList.map (fun q => .mgmt q "ABORT_ORDER" [g.val]) ∧ e.tiles = s.dev.tiles := by
  obtain ⟨x, hx⟩ : ∃ x, x = (s.dev.at_ now).satInc HUB_SFAULT_COUNT := ⟨_, rfl⟩
  have hgroup : x.group g = s.dev.group g := by rw [hx, group_satInc, group_at_]
  have hregs : s.dev.keepsRegs x [HUB_SFAULT_COUNT] := fun p hp => by
    rw [hx, getR_satInc_ne _ (by simpa using hp), getR_at_]
  have hxlead : x.leadsRunning g = true := by
    rw [← hlead]
    exact leadsRunning_congr (hregs _ (by simp only [List.mem_singleton, SRV_GROUP_STATE, HUB_SFAULT_COUNT]; omega))
  refine ⟨x.rerunOrdered g, ?_, ?_, fun q hq => hregs q hq, ?_, ?_, ?_, ?_⟩
  · rw [exec_sfaultReport_lead hf p now hlead ha hn hst, ← hx, leadFault_of_first hxlead (by rw [hgroup, hr])]
  · have hcount : x.getN HUB_SFAULT_COUNT = min (s.dev.getN HUB_SFAULT_COUNT + 1) 0xFFFFFFFF := by rw [hx, getN_satInc, getN_at_]
    exact hcount
  · rw [Dev.rerunOrdered, Dev.broadcast, group_emits, group_onGroup_self]
  · rw [Dev.rerunOrdered, Dev.broadcast, group_emits, group_onGroup_self, hx]
    simp
  · rw [Dev.rerunOrdered, out_broadcast, out_onGroup, hgroup, hx]
    simp
  · rw [Dev.rerunOrdered, Dev.broadcast, tiles_emits, tiles_onGroup, hx]
    simp

theorem abortOrder_effect {g : Fin 4} (now : Nat) (hs : s.dev.gstate g = 2) :
    ∃ e : Dev, exec (.abortOrder g now) s = .next (s.put e) ∧ (∀ m ∈ s.dev.groupTiles g, e.running m = false) ∧
      (∀ m, m ∉ s.dev.groupTiles g → e.running m = s.dev.running m) ∧ (e.group g).abortAt.isSome = true ∧
      e.out = s.dev.out ++ (s.dev.groupTiles g).map (fun m => .signal "ABORT" [m.val]) ∧ e.tiles = s.dev.tiles := by
  obtain ⟨x, hx⟩ : ∃ x, x = (s.dev.groupTiles g).foldl Dev.stopIssue (s.dev.at_ now) := ⟨_, rfl⟩
  have hrun : ∀ m, x.running m = (s.dev.running m && decide (m ∉ s.dev.groupTiles g)) := fun m => by
    rw [hx, running_stopIssues]
    rfl
  have htiles : x.tiles = s.dev.tiles := by
    rw [hx, foldl_view_same Dev.tiles _ _ fun d n _ => (stopIssue_effect d n).2.1, tiles_at_]
  have hsrv : x.srv = s.dev.srv := by
    rw [hx, foldl_view_same Dev.srv _ _ fun d n _ => (stopIssue_effect d n).2.2.1, srv_at_]
  have hout : x.out = s.dev.out := by
    rw [hx, foldl_view_same Dev.out _ _ fun d n _ => (stopIssue_effect d n).2.2.2.1, out_at_]
  have hin : x.getR HUB_TILE_INSERVICE = s.dev.getR HUB_TILE_INSERVICE := by
    have hone : ∀ d : Dev, ∀ n ∈ s.dev.groupTiles g, (d.stopIssue n).getR HUB_TILE_INSERVICE = d.getR HUB_TILE_INSERVICE :=
      fun d n _ => (stopIssue_effect d n).2.2.2.2.2 _ (by simp only [HUB_TILE_INSERVICE, TCTL_PASS_STATUS, tileBase]; omega)
    rw [hx, foldl_view_same (fun d : Dev => d.getR HUB_TILE_INSERVICE) _ _ hone, getR_at_]
  obtain ⟨y, hy⟩ : ∃ y, y = x.onGroup g fun z => { z with abortAt := some (z.abortAt.getD x.now), waitFrom := none } := ⟨_, rfl⟩
  have hmembers : y.groupTiles g = s.dev.groupTiles g := by
    refine groupTiles_congr ?_ (by rw [hy, getR_onGroup, hin])
    rw [hy, group_onGroup_self, group_congr hsrv]
    rfl
  have hexec : exec (.abortOrder g now) s = .next (s.put (y.emits ((s.dev.groupTiles g).map fun m => .signal "ABORT" [m.val]))) := by
    change execAbortOrder g now s = _
    refine onRun_eq hf ?_
    rw [← hmembers, hy, hx, ← groupTiles_at_ s.dev now]
    exact if_pos (by rw [gstate_at_, hs])
  have hyrun : ∀ m, (y.emits ((s.dev.groupTiles g).map fun m => .signal "ABORT" [m.val])).running m = x.running m := fun m => by
    refine congrArg (· == 1) (getF_congr ?_)
    rw [getR_emits, hy, getR_onGroup]
  refine ⟨_, hexec, fun m hm => ?_, fun m hm => ?_, ?_, ?_, ?_⟩
  · simp [hyrun, hrun, hm]
  · simp [hyrun, hrun, hm]
  · rw [group_emits, hy, group_onGroup_self]
    rfl
  · rw [out_emits, hy, out_onGroup, hout]
  · rw [tiles_emits, hy, tiles_onGroup, htiles]

theorem abortReady_effect {g : Fin 4} (p : BitVec 17) (now : Nat) (hs : s.dev.gstate g = 2) (ha : (s.dev.group g).abortAt.isSome = true)
    (hl : s.dev.isLead g = true) (hp : p.toNat ∉ (s.dev.group g).readyPkgs) :
    ∃ e : Dev, exec (.abortReady g none p now) s = .next (s.put e) ∧ (e.group g).readyPkgs = (s.dev.group g).readyPkgs ++ [p.toNat] ∧
      e.out = s.dev.out ++ (if (s.dev.group g).memberList.all (fun q => ((s.dev.group g).readyPkgs ++ [p.toNat]).contains q) then
        (s.dev.group g).memberList.map (fun q => .mgmt q "RERUN_RELEASE" [g.val]) else []) ∧
      e.tiles = s.dev.tiles ∧ e.regs = s.dev.regs := by
  obtain ⟨x, hx⟩ : ∃ x, x = (s.dev.at_ now).onGroup g fun z => { z with readyPkgs := z.readyPkgs ++ [p.toNat] } := ⟨_, rfl⟩
  have hgroup : x.group g = { s.dev.group g with readyPkgs := (s.dev.group g).readyPkgs ++ [p.toNat] } := by
    rw [hx, group_onGroup_self, group_at_]
  have hmembers : (x.group g).memberList = (s.dev.group g).memberList := by rw [hgroup]; rfl
  have hready : (x.group g).readyPkgs = (s.dev.group g).readyPkgs ++ [p.toNat] := by rw [hgroup]
  have hexec : exec (.abortReady g none p now) s = .next (s.put ((s.dev.at_ now).pkgReady g p.toNat)) := by
    change execAbortReady g none p now s = _
    refine onRun_eq hf ?_
    have hsome : (s.dev.group g).abortAt.isNone = false := by rw [Option.isNone_eq_false_iff, ha]
    simp [hs, hsome, hl, hp]
  have hready' : (s.dev.at_ now).pkgReady g p.toNat = if (s.dev.group g).memberList.all (fun q =>
      ((s.dev.group g).readyPkgs ++ [p.toNat]).contains q) then x.broadcast (s.dev.group g).memberList "RERUN_RELEASE" [g.val] else x := by
    rw [← hmembers, ← hready, hx]
    rfl
  refine ⟨_, hexec, ?_⟩
  rw [hready']
  have hout : x.out = s.dev.out := by rw [hx, out_onGroup, out_at_]
  have htiles : x.tiles = s.dev.tiles := by rw [hx, tiles_onGroup, tiles_at_]
  have hregs : x.regs = s.dev.regs := by rw [hx, regs_onGroup, regs_at_]
  split
  · exact ⟨hready, by rw [out_broadcast, hout], htiles, hregs⟩
  · exact ⟨hready, by rw [hout, List.append_nil], htiles, hregs⟩

end

end Sys2Proof.Machine
end

section
/-! What tile firmware does with a tile between passes (R70, R73, R99, R154): the step state restored, the fallback map, the release. -/

namespace Sys2Proof.Machine

open Reg

/-! A step on one tile of the package. -/

/-- The BAR0 range of a tile. -/
def tileRange (n p : Nat) : Prop := tileBase n ≤ p ∧ p < tileBase n + 0x100000

theorem tileRange_inj {n m p : Nat} (hn : tileRange n p) (hm : tileRange m p) : n = m := by
  simp only [tileRange, tileBase] at hn hm
  omega

/-- Nothing but tile `n` and its registers differs. -/
def Dev.tileOnly (n : Fin 32) (d e : Dev) : Prop :=
  d.onlyTile e n ∧ e.srv = d.srv ∧ e.out = d.out ∧ ∀ p, ¬ tileRange n p → e.getR p = d.getR p

theorem Dev.tileOnly.trans {n : Fin 32} {d e x : Dev} (h : d.tileOnly n e) (g : e.tileOnly n x) : d.tileOnly n x := by
  obtain ⟨ht, hs, ho, hr⟩ := h
  obtain ⟨ht', hs', ho', hr'⟩ := g
  exact ⟨fun m hm => (ht' m hm).trans (ht m hm), hs'.trans hs, ho'.trans ho, fun p hp => (hr' p hp).trans (hr p hp)⟩

theorem Dev.storeOnly.tileOnly {n : Fin 32} {d e : Dev} (h : d.storeOnly n e) : d.tileOnly n e := by
  obtain ⟨-, ht, hr, hs, ho⟩ := h.fields
  exact ⟨ht, hs, ho, fun p _ => getR_of_regs hr p⟩

theorem tileOnly_onTile (d : Dev) (n : Fin 32) (f : Tile → Tile) : d.tileOnly n (d.onTile n f) :=
  ⟨fun _ hm => tile_onTile_ne d f hm, srv_onTile d n f, out_onTile d n f, fun p _ => getR_onTile d n f p⟩

/-- Writes of the tile's registers. -/
theorem tileOnly_of_regs {n : Fin 32} {d e : Dev} (ht : e.tiles = d.tiles) (hs : e.srv = d.srv) (ho : e.out = d.out)
    (hr : ∀ p, ¬ tileRange n p → e.getR p = d.getR p) : d.tileOnly n e := ⟨fun m _ => tile_congr ht m, hs, ho, hr⟩

/-- A step on each tile of a list: what it does to one of them, it does to the tile as it was before the first. -/
theorem foldl_tiles {f : Dev → Fin 32 → Dev} {P : Tile → Prop}
    (hstep : ∀ (x : Dev) (n : Fin 32), P (x.tile n) → x.tileOnly n (f x n)) {l : List (Fin 32)} (hl : l.Nodup) (d : Dev) (hP : ∀ n ∈ l, P (d.tile n)) :
    (∀ n ∈ l, ∃ x : Dev, x.tile n = d.tile n ∧ (l.foldl f d).tile n = (f x n).tile n ∧
      ∀ p, tileRange n p → (l.foldl f d).getR p = (f x n).getR p) ∧
    (∀ m, m ∉ l → (l.foldl f d).tile m = d.tile m) ∧ (l.foldl f d).srv = d.srv ∧ (l.foldl f d).out = d.out ∧
    ∀ p, (∀ n ∈ l, ¬ tileRange n p) → (l.foldl f d).getR p = d.getR p := by
  induction l generalizing d with
  | nil => exact ⟨fun n hn => absurd hn List.not_mem_nil, fun _ _ => rfl, rfl, rfl, fun _ _ => rfl⟩
  | cons a t ih =>
    obtain ⟨hat, hnd⟩ := List.nodup_cons.mp hl
    obtain ⟨hothers, hsrv, hout, hregs⟩ := hstep d a (hP a (List.mem_cons_self ..))
    have hne : ∀ n ∈ t, n ≠ a := fun n hn he => hat (he ▸ hn)
    have htail : ∀ n ∈ t, (f d a).tile n = d.tile n := fun n hn => hothers n (hne n hn)
    obtain ⟨hin, hnot, hsrv', hout', hregs'⟩ := ih hnd (f d a) fun n hn => by rw [htail n hn]; exact hP n (List.mem_cons_of_mem _ hn)
    rw [List.foldl_cons]
    refine ⟨fun n hn => ?_, fun m hm => ?_, hsrv'.trans hsrv, hout'.trans hout, fun p hp => ?_⟩
    · rcases List.mem_cons.mp hn with rfl | hn
      · exact ⟨d, rfl, hnot n hat, fun p hp => hregs' p fun m hm hr => hne m hm (Fin.ext (tileRange_inj hr hp))⟩
      · obtain ⟨x, hx, htile, hr⟩ := hin n hn
        exact ⟨x, hx.trans (htail n hn), htile, hr⟩
    · rw [List.mem_cons, not_or] at hm
      exact (hnot m hm.2).trans (hothers m hm.1)
    · exact (hregs' p fun n hn => hp n (List.mem_cons_of_mem _ hn)).trans (hregs p (hp a (List.mem_cons_self ..)))

/-! Tile store. -/

theorem storeOnly_setStatFlag (d : Dev) (n : Fin 32) (t b : Nat) : d.storeOnly n (d.setStatFlag n t b) := storeOnly_tsPutLe d n _ _ _

theorem storeOnly_writeScales (d : Dev) (n : Fin 32) (half : Nat) (amax : List (Nat × Nat)) :
    d.storeOnly n (d.writeScales n half amax) := by
  refine storeOnly_foldl (fun e x => ?_) _ d
  split
  · exact .refl n e
  · split
    · exact .refl n e
    · exact storeOnly_tsPutLe e n _ _ _

theorem storeOnly_headerPut (d : Dev) (n : Fin 32) (a fmt tid bytes : Nat) (scale : Word) :
    d.storeOnly n (d.headerPut n a fmt tid bytes scale) := storeOnly_tsWrite d n _ _

theorem storeOnly_pageHeaders (d : Dev) (n : Fin 32) (a ktid vtid : Nat) (ks vs : Word) :
    d.storeOnly n (d.pageHeaders n a ktid vtid ks vs) :=
  (storeOnly_foldl (fun e k => storeOnly_headerPut e n (a + kpAt k) 0 ktid 4416 ks) _ d).trans
    (storeOnly_foldl (fun e k => storeOnly_headerPut e n (a + vpAt k) 5 vtid 4160 vs) _ _)

theorem storeOnly_freshHeaders (d : Dev) (n : Fin 32) : d.storeOnly n (d.freshHeaders n) :=
  storeOnly_foldl (fun e _ => storeOnly_pageHeaders e n _ _ _ _ _) _ d

/-! The step state (R70). -/

/-- The generator and the trip counts hold what was saved; the bins' trailers stand in tile store. -/
theorem restoreStep_effect (d : Dev) (n : Fin 32) (h : (d.tile n).saved.trips.length ≤ 64) :
    (∃ m, (d.restoreStep n).tile n = { d.tile n with store := m }) ∧ d.tileOnly n (d.restoreStep n) ∧
    (d.restoreStep n).getR (QNT_LFSR_STATE n) = (d.tile n).saved.lfsr := by
  unfold Dev.restoreStep
  dsimp only
  obtain ⟨x, hx⟩ : ∃ x, x = (d.tile n).saved.trips.zipIdx.foldl (fun d x => d.setN (TCTL_TRIP n x.2) x.1)
    (d.setR (QNT_LFSR_STATE n) (d.tile n).saved.lfsr) := ⟨_, rfl⟩
  have hregs : ∀ p, p < tileBase n + 0x100 ∨ tileBase n + 0x200 ≤ p →
      x.getR p = (d.setR (QNT_LFSR_STATE n) (d.tile n).saved.lfsr).getR p := by
    intro p hp
    rw [hx]
    refine foldl_view_same (fun y : Dev => y.getR p) _ _ (fun y a ha => ?_) _
    have hidx := List.snd_lt_of_mem_zipIdx ha
    rw [getR_setN, if_neg]
    simp only [TCTL_TRIP]
    omega
  have htiles : x.tiles = d.tiles := by
    rw [hx, foldl_view_same Dev.tiles _ _ fun y a _ => tiles_setN _ _ _, tiles_setR]
  have hsrv : x.srv = d.srv := by
    rw [hx, foldl_view_same Dev.srv _ _ fun y a _ => srv_setN _ _ _, srv_setR]
  have hout : x.out = d.out := by
    rw [hx, foldl_view_same Dev.out _ _ fun y a _ => out_setN _ _ _, out_setR]
  have hbins : x.storeOnly n ((d.tile n).saved.bins.foldl (fun d x => d.tsWrite n (d.binAt n x.1 + trailerAt) x.2) x) :=
    storeOnly_foldl (fun e b => storeOnly_tsWrite e n _ _) _ x
  rw [← hx]
  obtain ⟨⟨m, htile⟩, -, hbinRegs, -⟩ := hbins.fields
  refine ⟨⟨m, by rw [htile, tile_congr htiles]⟩, (tileOnly_of_regs htiles hsrv hout fun p hp => ?_).trans hbins.tileOnly, ?_⟩
  · simp only [tileRange] at hp
    rw [hregs p (by omega), getR_setR_ne]
    simp only [QNT_LFSR_STATE]
    omega
  · rw [getR_of_regs hbinRegs, hregs _ (by simp only [QNT_LFSR_STATE]; omega), getR_setR_self]

/-! The fallback map (R73, R99). -/

theorem getR_clearMap (d : Dev) (n : Nat) {i : Nat} (hi : i < 128) :
    ((List.range 128).foldl (fun d i => d.setN (MGL_FB_MAP n i) 0) d).getR (MGL_FB_MAP n i) = 0#32 := by
  obtain ⟨x, -, h⟩ := foldl_view_at (fun y : Dev => y.getR (MGL_FB_MAP n i)) (fun (d : Dev) i => d.setN (MGL_FB_MAP n i) 0)
    (List.mem_range.mpr hi) List.nodup_range (fun y j hj => by
      rw [getR_setN, if_neg]
      simp only [MGL_FB_MAP]
      omega) d
  refine h.trans ?_
  rw [getR_setN, if_pos rfl]

theorem regBit_setMap (l : List Nat) (d : Dev) (n : Nat) (t : Nat) :
    (l.foldl (fun d t => d.setBit (MGL_FB_MAP n (t / 32)) (t % 32) true) d).regBit (MGL_FB_MAP n (t / 32)) (t % 32) =
      (d.regBit (MGL_FB_MAP n (t / 32)) (t % 32) || decide (t ∈ l)) := by
  induction l generalizing d with
  | nil => simp
  | cons u l ih =>
    rw [List.foldl_cons, ih, regBit_setBit _ _ _ _ _ _ (Nat.mod_lt t (by decide))]
    by_cases h : t = u
    · subst h
      simp
    · have hne : ¬ (MGL_FB_MAP n (t / 32) = MGL_FB_MAP n (u / 32) ∧ t % 32 = u % 32) := by
        simp only [MGL_FB_MAP]
        omega
      rw [if_neg hne]
      simp [h]

/-- The registers of the fallback map. -/
def mapRegs (n p : Nat) : Prop := tileBase n + 0x10100 ≤ p ∧ p < tileBase n + 0x10300

/-- The flags of the statistics records and the map follow the list. -/
theorem writeFallback_effect (d : Dev) (n : Fin 32) {l : List Nat} (hl : ∀ t ∈ l, t < 4096) :
    (∃ m, (d.writeFallback n l).tile n = { d.tile n with store := m }) ∧ d.tileOnly n (d.writeFallback n l) ∧
    (∀ p, ¬ mapRegs n p → (d.writeFallback n l).getR p = d.getR p) ∧
    ∀ t < 4096, (d.writeFallback n l).regBit (MGL_FB_MAP n (t / 32)) (t % 32) = decide (t ∈ l) := by
  have hflags : d.storeOnly n (l.foldl (fun d t => d.setStatFlag n t 2) ((d.flagged n 2).foldl (fun d t => d.clearStatFlag n t 2) d)) :=
    (storeOnly_foldl (fun e t => storeOnly_clearStatFlag e n t 2) _ d).trans
      (storeOnly_foldl (fun e t => storeOnly_setStatFlag e n t 2) _ _)
  unfold Dev.writeFallback
  dsimp only
  generalize l.foldl (fun d t => d.setStatFlag n t 2) ((d.flagged n 2).foldl (fun d t => d.clearStatFlag n t 2) d) = x at hflags
  obtain ⟨⟨m, htile⟩, -, hflagRegs, -⟩ := hflags.fields
  obtain ⟨y, hy⟩ : ∃ y, y = (List.range 128).foldl (fun d i => d.setN (MGL_FB_MAP n i) 0) x := ⟨_, rfl⟩
  obtain ⟨z, hz⟩ : ∃ z, z = l.foldl (fun d t => d.setBit (MGL_FB_MAP n (t / 32)) (t % 32) true) y := ⟨_, rfl⟩
  have htiles : z.tiles = x.tiles := by
    rw [hz, foldl_view_same Dev.tiles _ _ fun e t _ => tiles_setBit _ _ _ _, hy,
      foldl_view_same Dev.tiles _ _ fun e t _ => tiles_setN _ _ _]
  have hsrv : z.srv = x.srv := by
    rw [hz, foldl_view_same Dev.srv _ _ fun e t _ => srv_setBit _ _ _ _, hy, foldl_view_same Dev.srv _ _ fun e t _ => srv_setN _ _ _]
  have hout : z.out = x.out := by
    rw [hz, foldl_view_same Dev.out _ _ fun e t _ => out_setBit _ _ _ _, hy, foldl_view_same Dev.out _ _ fun e t _ => out_setN _ _ _]
  have hregs : ∀ p, ¬ mapRegs n p → z.getR p = x.getR p := by
    intro p hp
    simp only [mapRegs] at hp
    have hset : z.getR p = y.getR p := by
      rw [hz]
      refine foldl_view_same (fun e : Dev => e.getR p) _ _ (fun e t ht => getR_setBit_ne _ _ _ ?_) _
      have ht' := hl t ht
      simp only [MGL_FB_MAP]
      omega
    have hclear : y.getR p = x.getR p := by
      rw [hy]
      refine foldl_view_same (fun e : Dev => e.getR p) _ _ (fun e i hi => ?_) _
      have hi' := List.mem_range.mp hi
      rw [getR_setN, if_neg]
      simp only [MGL_FB_MAP]
      omega
    exact hset.trans hclear
  rw [← hy, ← hz]
  refine ⟨⟨m, by rw [tile_congr htiles, htile]⟩, hflags.tileOnly.trans (tileOnly_of_regs htiles hsrv hout fun p hp => hregs p ?_),
    fun p hp => (hregs p hp).trans (getR_of_regs hflagRegs p), fun t ht => ?_⟩
  · simp only [tileRange, mapRegs] at *
    omega
  · have hzero : y.regBit (MGL_FB_MAP n (t / 32)) (t % 32) = false := by
      rw [hy, Dev.regBit, getR_clearMap x n (by omega)]
      exact BitVec.getLsbD_zero
    rw [hz, regBit_setMap, hzero, Bool.false_or]

/-! A pass prepared, and the same pass released again. -/

/-- Tiles whose saved step state has the 64 trip counts of the sequencer at most. -/
def Tile.savedOk (t : Tile) : Prop := t.saved.trips.length ≤ 64

theorem releaseSeq_effect (d : Dev) (n : Fin 32) (fb rr : Bool) :
    (d.releaseSeq n fb rr).tile n = { d.tile n with seq := { d.seq n with released := some ⟨fb, rr⟩ } } ∧
    d.tileOnly n (d.releaseSeq n fb rr) ∧ (d.releaseSeq n fb rr).regs = d.regs :=
  ⟨tile_onTile_self d n _, tileOnly_onTile d n _, regs_onTile d n _⟩

theorem fwWrites_nil (d : Dev) (n : Fin 32) : d.fwWrites n [] = d := rfl

theorem prepareTile_effect (d : Dev) (n : Fin 32) (k : Fin 3) {v : Vote} (hv : ∀ t ∈ v.map, t < 4096) (hs : (d.tile n).savedOk) :
    let e := d.prepareTile n k.val v []
    d.tileOnly n e ∧ (e.seq n).released = some ⟨k == 2, false⟩ ∧ (e.tile n).dram = (d.tile n).dram ∧
    e.getF (QNT_STEP_STATUS_PASS n) = k.val ∧ e.getR (QNT_LFSR_STATE n) = (d.tile n).saved.lfsr ∧
    ∀ t, t < 4096 → e.regBit (MGL_FB_MAP n (t / 32)) (t % 32) = decide (k = 2 ∧ t ∈ v.map) := by
  obtain ⟨⟨m, htile⟩, honly, hlfsr⟩ := restoreStep_effect d n hs
  obtain ⟨⟨m', htile'⟩, honly', hregs', hmap⟩ := writeFallback_effect (d.restoreStep n) n (l := if k.val = 2 then v.map else [])
    (fun t ht => by split at ht; exacts [hv t ht, absurd ht List.not_mem_nil])
  have hstore := (storeOnly_writeScales ((d.restoreStep n).writeFallback n (if k.val = 2 then v.map else [])) n
    (if k.val = 2 then 0x400000 else 0) v.amax).trans (storeOnly_freshHeaders _ n)
  unfold Dev.prepareTile
  dsimp only
  rw [fwWrites_nil]
  generalize (d.restoreStep n).writeFallback n (if k.val = 2 then v.map else []) = x at *
  generalize (x.writeScales n (if k.val = 2 then 0x400000 else 0) v.amax).freshHeaders n = y at *
  obtain ⟨⟨m'', htile''⟩, -, hregs'', -⟩ := hstore.fields
  obtain ⟨hrel, honlyRel, hregsRel⟩ := releaseSeq_effect (y.setF (QNT_STEP_STATUS_PASS n) k.val) n (k.val == 2) false
  have hset : y.tileOnly n (y.setF (QNT_STEP_STATUS_PASS n) k.val) := by
    refine tileOnly_of_regs (tiles_setF _ _ _) (srv_setF _ _ _) (out_setF _ _ _) fun p hp => getR_setF_ne _ _ ?_
    simp only [tileRange, QNT_STEP_STATUS] at *
    omega
  have hreg : ∀ p, p ≠ QNT_STEP_STATUS n →
      ((y.setF (QNT_STEP_STATUS_PASS n) k.val).releaseSeq n (k.val == 2) false).getR p = x.getR p := fun p hp => by rw [getR_of_regs hregsRel, getR_setF_ne _ _ hp, getR_of_regs hregs'']
  refine ⟨(((honly.trans honly').trans hstore.tileOnly).trans hset).trans honlyRel, ?_, ?_, ?_, ?_, fun t ht => ?_⟩
  · have hk : ∀ k : Fin 3, (k.val == 2) = (k == 2) := by decide
    rw [Dev.seq, hrel, hk]
  · rw [hrel, tile_congr (tiles_setF _ _ _), htile'', htile', htile]
  · rw [getF_congr (getR_of_regs hregsRel _), getF_setF_self _ _ _ (by simp)]
    exact Nat.mod_eq_of_lt (by simp only; omega)
  · rw [hreg _ (by simp only [QNT_LFSR_STATE, QNT_STEP_STATUS]; omega), hregs' _ (by simp only [mapRegs, QNT_LFSR_STATE]; omega), hlfsr]
  · rw [regBit_congr (hreg _ (by simp only [MGL_FB_MAP, QNT_STEP_STATUS]; omega)), hmap t ht]
    have hk : k = 2 ↔ k.val = 2 := Fin.ext_iff
    by_cases h : k.val = 2 <;> simp [hk, h]

end Sys2Proof.Machine
end

section
/-! A replay prepared and a rerun released as commands (R70, R73, R79, R154). -/

namespace Sys2Proof.Machine

open Reg

theorem groupTiles_nodup (d : Dev) (g : Fin 4) : (d.groupTiles g).Nodup := (List.nodup_finRange 32).filter _

/-- A tile restores its step state and is released for the same pass; its vote is not due. -/
def Dev.rerunTile (d : Dev) (n : Fin 32) (fb : Bool) : Dev :=
  ((d.restoreStep n).onTile n fun t => { t with voteDue := false, voteReady := false }).releaseSeq n fb true

theorem rerunTile_effect (d : Dev) (n : Fin 32) (fb : Bool) (hs : (d.tile n).savedOk) :
    d.tileOnly n (d.rerunTile n fb) ∧ ((d.rerunTile n fb).seq n).released = some ⟨fb, true⟩ ∧
    (d.rerunTile n fb).getR (QNT_LFSR_STATE n) = (d.tile n).saved.lfsr ∧ ((d.rerunTile n fb).tile n).voteDue = false := by
  obtain ⟨-, honly, hlfsr⟩ := restoreStep_effect d n hs
  unfold Dev.rerunTile
  generalize d.restoreStep n = x at honly hlfsr
  obtain ⟨hrel, honlyRel, hregs⟩ := releaseSeq_effect (x.onTile n fun t => { t with voteDue := false, voteReady := false }) n fb true
  refine ⟨(honly.trans (tileOnly_onTile x n _)).trans honlyRel, ?_, ?_, ?_⟩
  · rw [Dev.seq, hrel]
  · rw [getR_of_regs hregs, getR_onTile, hlfsr]
  · rw [hrel, tile_onTile_self]

section
variable {s : State} (hf : s.dev.frozen = false)
include hf

theorem passPrepare_effect {g : Fin 4} {k : Fin 3} {v : Vote} (hs : s.dev.gstate g = 2)
    (hd : (s.dev.group g).decision = some (k.val, v)) (hk : k ≠ 0) (hv : ∀ t ∈ v.map, t < 4096)
    (hsaved : ∀ n ∈ s.dev.groupTiles g, (s.dev.tile n).saved.trips.length ≤ 64) :
    ∃ e : Dev, exec (.passPrepare g []) s = .next (s.put e) ∧ (e.group g).pass = k.val ∧ (e.group g).decision = none ∧
      (∀ n ∈ s.dev.groupTiles g, (e.seq n).released = some ⟨k == 2, false⟩ ∧ e.getF (QNT_STEP_STATUS_PASS n) = k.val ∧
        (∀ t, t < 4096 → e.regBit (MGL_FB_MAP n (t / 32)) (t % 32) = decide (k = 2 ∧ t ∈ v.map)) ∧
        e.getR (QNT_LFSR_STATE n) = (s.dev.tile n).saved.lfsr ∧ (e.tile n).dram = (s.dev.tile n).dram) ∧
      (∀ n, n ∉ s.dev.groupTiles g → e.tile n = s.dev.tile n) ∧ e.out = s.dev.out := by
  have hk0 : k.val ≠ 0 := fun h => hk (Fin.ext h)
  obtain ⟨hin, hnot, hsrv, hout, -⟩ := foldl_tiles (f := fun d n => d.prepareTile n k.val v []) (P := Tile.savedOk)
    (fun x n hx => (prepareTile_effect x n k hv hx).1) (groupTiles_nodup s.dev g) s.dev hsaved
  obtain ⟨x, hx⟩ : ∃ x, x = (s.dev.groupTiles g).foldl (fun d n => d.prepareTile n k.val v []) s.dev := ⟨_, rfl⟩
  rw [← hx] at hin hnot hsrv hout
  have hexec : exec (.passPrepare g []) s = .next (s.put (x.onGroup g fun x => { x with pass := k.val, decision := none })) := by
    change execPassPrepare g [] s = _
    refine onRun_eq hf ?_
    rw [hd, hx]
    exact if_pos ⟨hs, hk0⟩
  refine ⟨_, hexec, ?_, ?_, fun n hn => ?_, fun n hn => ?_, ?_⟩
  · rw [group_onGroup_self]
  · rw [group_onGroup_self]
  · obtain ⟨y, hy, htile, hreg⟩ := hin n hn
    obtain ⟨-, hrel, hdram, hpass, hlfsr, hmap⟩ := prepareTile_effect y n k hv (by rw [hy]; exact hsaved n hn)
    rw [hy] at hdram hlfsr
    refine ⟨?_, ?_, fun t ht => ?_, ?_, ?_⟩
    · rw [Dev.seq, tile_congr (tiles_onGroup _ _ _), htile, ← Dev.seq, hrel]
    · refine (getF_congr (f := QNT_STEP_STATUS_PASS n) ?_).trans hpass
      rw [getR_onGroup, hreg _ (by simp only [tileRange, QNT_STEP_STATUS]; omega)]
    · refine (regBit_congr (p := MGL_FB_MAP n (t / 32)) ?_ _).trans (hmap t ht)
      rw [getR_onGroup, hreg _ (by simp only [tileRange, MGL_FB_MAP]; omega)]
    · rw [← hlfsr, getR_onGroup, hreg _ (by simp only [tileRange, QNT_LFSR_STATE]; omega)]
    · rw [tile_congr (tiles_onGroup _ _ _), htile, hdram]
  · rw [tile_congr (tiles_onGroup _ _ _), hnot n hn]
  · rw [out_onGroup, hout]

theorem rerunRelease_effect {g : Fin 4} (hs : s.dev.gstate g = 2) (ha : (s.dev.group g).abortAt.isSome = true)
    (hsaved : ∀ m ∈ s.dev.groupTiles g, (s.dev.tile m).saved.trips.length ≤ 64) :
    ∃ e : Dev, exec (.rerunRelease g []) s = .next (s.put e) ∧ (e.group g).abortAt = none ∧ (e.group g).rerun = true ∧
      (e.group g).votes = [] ∧ (∀ m ∈ s.dev.groupTiles g, (e.seq m).released = some ⟨(s.dev.group g).pass == 2, true⟩ ∧
        e.getR (QNT_LFSR_STATE m) = (s.dev.tile m).saved.lfsr ∧ (e.tile m).voteDue = false) ∧
      (∀ m, m ∉ s.dev.groupTiles g → e.tile m = s.dev.tile m) ∧ e.out = s.dev.out := by
  obtain ⟨hin, hnot, hsrv, hout, -⟩ := foldl_tiles (f := fun d n => d.rerunTile n ((s.dev.group g).pass == 2)) (P := Tile.savedOk)
    (fun x n hx => (rerunTile_effect x n _ hx).1) (groupTiles_nodup s.dev g) s.dev hsaved
  obtain ⟨x, hx⟩ : ∃ x, x = (s.dev.groupTiles g).foldl (fun d n => d.rerunTile n ((s.dev.group g).pass == 2)) s.dev := ⟨_, rfl⟩
  rw [← hx] at hin hnot hsrv hout
  have hexec : exec (.rerunRelease g []) s = .next (s.put (x.onGroup g fun x =>
      { x with votes := [], pkgVote := none, abortAt := none, readyTiles := [], readyPkgs := [], rerun := true })) := by
    change execRerunRelease g [] s = _
    refine onRun_eq hf ?_
    rw [hx]
    exact if_pos ⟨hs, ha⟩
  refine ⟨_, hexec, ?_, ?_, ?_, fun n hn => ?_, fun n hn => ?_, ?_⟩
  · rw [group_onGroup_self]
  · rw [group_onGroup_self]
  · rw [group_onGroup_self]
  · obtain ⟨y, hy, htile, hreg⟩ := hin n hn
    obtain ⟨-, hrel, hlfsr, hdue⟩ := rerunTile_effect y n ((s.dev.group g).pass == 2) (by rw [hy]; exact hsaved n hn)
    rw [hy] at hlfsr
    refine ⟨?_, ?_, ?_⟩
    · rw [Dev.seq, tile_congr (tiles_onGroup _ _ _), htile, ← Dev.seq, hrel]
    · rw [← hlfsr, getR_onGroup, hreg _ (by simp only [tileRange, QNT_LFSR_STATE]; omega)]
    · rw [tile_congr (tiles_onGroup _ _ _), htile]
      exact hdue
  · rw [tile_congr (tiles_onGroup _ _ _), hnot n hn]
  · rw [out_onGroup, hout]

end

end Sys2Proof.Machine
end

section
/-! What the lead's boundary work changes beside the groups (R302 to R307, R316, R321 to R324): queues, completions, budgets, the
sequence table. -/

namespace Sys2Proof.Machine

open Reg

/-! Queues, completions and budgets. -/

/-- The serving registers beside those of the groups, and the pending interrupts. -/
def queueRegs (p : Nat) : Prop :=
  (0x200000 ≤ p ∧ p < 0x280000 ∧ ¬ (0x200100 ≤ p ∧ p < 0x200200)) ∨ (0x100100 ≤ p ∧ p < 0x100200)

/-- Groups, mailbox and the other registers stay, and nothing that was sent is taken back. -/
def Dev.queueOnly (d e : Dev) : Prop :=
  e.srv.groups = d.srv.groups ∧ e.mbx = d.mbx ∧ d.out <+: e.out ∧ ∀ p, ¬ queueRegs p → e.getR p = d.getR p

theorem Dev.queueOnly.refl (d : Dev) : d.queueOnly d := ⟨rfl, rfl, List.prefix_rfl, fun _ _ => rfl⟩

theorem Dev.queueOnly.trans {d e x : Dev} (h : d.queueOnly e) (g : e.queueOnly x) : d.queueOnly x := by
  obtain ⟨hg, hm, ho, hr⟩ := h
  obtain ⟨hg', hm', ho', hr'⟩ := g
  exact ⟨hg'.trans hg, hm'.trans hm, ho.trans ho', fun p hp => (hr' p hp).trans (hr p hp)⟩

theorem queueOnly_foldl {α : Type} {f : Dev → α → Dev} (l : List α) (hstep : ∀ (d : Dev), ∀ a ∈ l, d.queueOnly (f d a))
    (d : Dev) : d.queueOnly (l.foldl f d) := by
  induction l generalizing d with
  | nil => exact .refl d
  | cons a t ih => exact (hstep d a (List.mem_cons_self ..)).trans (ih (fun e b hb => hstep e b (List.mem_cons_of_mem _ hb)) (f d a))

theorem ne_of_queueRegs {o p : Nat} (ho : queueRegs o) (hp : ¬ queueRegs p) : p ≠ o := fun h => hp (h ▸ ho)

theorem queueOnly_setN (d : Dev) {o : Nat} (v : Nat) (ho : queueRegs o) : d.queueOnly (d.setN o v) :=
  ⟨by rw [srv_setN], mbx_setN d o v, by rw [out_setN], fun p hp => by rw [getR_setN, if_neg (ne_of_queueRegs ho hp)]⟩

theorem queueOnly_setF (d : Dev) {f : Fld} (v : Nat) (ho : queueRegs f.off) : d.queueOnly (d.setF f v) :=
  ⟨by rw [srv_setF], mbx_setF d f v, by rw [out_setF], fun p hp => getR_setF_ne d v (ne_of_queueRegs ho hp)⟩

theorem queueOnly_setPair (d : Dev) {lo hi : Nat} (v : Nat) (h1 : queueRegs lo) (h2 : queueRegs hi) : d.queueOnly (d.setPair lo hi v) :=
  ⟨by rw [srv_setPair], mbx_setPair d lo hi v, by rw [out_setPair],
    fun p hp => getR_setPair_ne d v (ne_of_queueRegs h1 hp) (ne_of_queueRegs h2 hp)⟩

theorem queueOnly_satInc (d : Dev) {o : Nat} (ho : queueRegs o) : d.queueOnly (d.satInc o) :=
  ⟨by rw [srv_satInc], mbx_satInc d o, by rw [out_satInc], fun p hp => getR_satInc_ne d (ne_of_queueRegs ho hp)⟩

theorem queueOnly_emit (d : Dev) (o : Output) : d.queueOnly (d.emit o) :=
  ⟨rfl, rfl, by rw [out_emit]; exact List.prefix_append _ _, fun p _ => getR_emit d o p⟩

theorem queueOnly_edge (d : Dev) {n : Nat} (h : n < 1024) : d.queueOnly (d.edge n) :=
  ⟨by rw [srv_edge], mbx_edge d n, by rw [out_edge], fun p hp => getR_edge_ne d n p (ne_of_queueRegs
    (by simp only [queueRegs, INT_PEND]; omega) hp)⟩

theorem queueOnly_onSrv (d : Dev) {f : Serve → Serve} (h : (f d.srv).groups = d.srv.groups) : d.queueOnly (d.onSrv f) :=
  ⟨h, rfl, List.prefix_rfl, fun _ _ => rfl⟩

theorem cust_lt (e : SubEnt) : e.cust < 4096 := Nat.mod_lt _ (by decide)

theorem queueRegs_cust {c o : Nat} (hc : c < 4096) (ho : o < 64) : queueRegs (custAt c + o) := by
  simp only [queueRegs, custAt]
  omega

/-! The sequence table. -/

/-- No entry is new. -/
def Dev.fewerSeqs (d e : Dev) : Prop := ∀ q ∈ e.srv.seqs, q ∈ d.srv.seqs

theorem Dev.fewerSeqs.refl (d : Dev) : d.fewerSeqs d := fun _ h => h
theorem Dev.fewerSeqs.trans {d e x : Dev} (h : d.fewerSeqs e) (g : e.fewerSeqs x) : d.fewerSeqs x := fun q hq => h q (g q hq)

theorem fewerSeqs_of_srv {d e : Dev} (h : e.srv.seqs = d.srv.seqs) : d.fewerSeqs e := fun _ hq => h ▸ hq

/-- The two together: what a completion does. -/
def Dev.postOnly (d e : Dev) : Prop := d.queueOnly e ∧ d.fewerSeqs e

theorem Dev.postOnly.refl (d : Dev) : d.postOnly d := ⟨.refl d, .refl d⟩
theorem Dev.postOnly.trans {d e x : Dev} (h : d.postOnly e) (g : e.postOnly x) : d.postOnly x := ⟨h.1.trans g.1, h.2.trans g.2⟩

theorem postOnly_foldl {α : Type} {f : Dev → α → Dev} (l : List α) (hstep : ∀ (d : Dev), ∀ a ∈ l, d.postOnly (f d a)) (d : Dev) :
    d.postOnly (l.foldl f d) := by
  induction l generalizing d with
  | nil => exact .refl d
  | cons a t ih => exact (hstep d a (List.mem_cons_self ..)).trans (ih (fun e b hb => hstep e b (List.mem_cons_of_mem _ hb)) (f d a))

theorem postOnly_setPair (d : Dev) {lo hi : Nat} (v : Nat) (h1 : queueRegs lo) (h2 : queueRegs hi) : d.postOnly (d.setPair lo hi v) :=
  ⟨queueOnly_setPair d v h1 h2, fewerSeqs_of_srv (by rw [srv_setPair])⟩

theorem postOnly_setN (d : Dev) {o : Nat} (v : Nat) (h : queueRegs o) : d.postOnly (d.setN o v) :=
  ⟨queueOnly_setN d v h, fewerSeqs_of_srv (by rw [srv_setN])⟩

theorem postOnly_onSrv (d : Dev) {f : Serve → Serve} (hg : (f d.srv).groups = d.srv.groups) (hs : (f d.srv).seqs = d.srv.seqs) :
    d.postOnly (d.onSrv f) := ⟨queueOnly_onSrv d hg, fewerSeqs_of_srv hs⟩

theorem postOnly_freeSeq (d : Dev) (i : Nat) : d.postOnly (d.freeSeq i) := by
  unfold Dev.freeSeq
  split
  · exact .refl d
  · next q _ =>
    have hcust := queueOnly_setN d (d.getN (custAt q.sub.cust + 0x28) - 1) (queueRegs_cust (cust_lt q.sub) (by decide : 0x28 < 64))
    refine ⟨hcust.trans (queueOnly_onSrv _ rfl), fun y hy => ?_⟩
    have hmem := List.mem_of_mem_filter hy
    rwa [srv_setN] at hmem

theorem postOnly_addDue (d : Dev) (c : Comp) : d.postOnly (d.addDue c) := postOnly_onSrv d rfl rfl

theorem postOnly_post (d : Dev) (c : Comp) : d.postOnly (d.post c) := by
  have htail : ∀ q : Fin 64, queueRegs (SRV_CQ_TAIL q) := fun q => by simp only [queueRegs, SRV_CQ_TAIL]; omega
  have hset : ∀ (e : Dev) (f : Fld) (v : Nat), f.off = SRV_CQ_TAIL (Fin.ofNat 64 c.cq) → e.postOnly (e.setF f v) := fun e f v hf =>
    ⟨queueOnly_setF e v (by rw [hf]; exact htail _), fewerSeqs_of_srv (by rw [srv_setF])⟩
  unfold Dev.post
  dsimp only
  refine Dev.postOnly.trans ?_ (postOnly_freeSeq _ _)
  have hemit : ∀ o, d.postOnly (d.emit o) := fun o => ⟨queueOnly_emit d o, fewerSeqs_of_srv rfl⟩
  have htokens : ∀ (e : Dev) (v : Nat), e.postOnly (if c.tokenValid then e.setPair SRV_TOKENS_LO SRV_TOKENS_HI v else e) := by
    intro e v
    split
    · exact postOnly_setPair e v (by simp [queueRegs, SRV_TOKENS_LO]) (by simp [queueRegs, SRV_TOKENS_HI])
    · exact .refl e
  refine Dev.postOnly.trans ?_ (htokens _ _)
  split
  · exact (hemit _).trans ((hset _ _ _ rfl).trans (hset _ _ _ rfl))
  · exact (hemit _).trans (hset _ _ _ rfl)

theorem postOnly_flushLoop (l : List Comp) (d : Dev) (left : List Comp) (blocked posted : List Nat) :
    d.postOnly (flushLoop l d left blocked posted).1 := by
  induction l generalizing d left blocked posted with
  | nil => exact .refl d
  | cons c t ih =>
    rw [flushLoop]
    split
    · exact ih ..
    · exact (postOnly_post d c).trans (ih ..)

theorem postOnly_flushDue (d : Dev) : d.postOnly d.flushDue.1 :=
  (postOnly_flushLoop d.srv.due d [] [] []).trans (postOnly_onSrv _ rfl rfl)

theorem postOnly_postBnd (d : Dev) (l : List (Comp × Bool)) : d.postOnly (d.postBnd l).1 := by
  have hreserved : ∀ (l : List (Comp × Bool)) (r : Dev × List Nat), r.1.postOnly (l.foldl (fun (r : Dev × List Nat) x =>
      if r.1.cqFree (Fin.ofNat 64 x.1.cq) then (r.1.post x.1, x.1.cq :: r.2) else (r.1.addDue x.1, r.2)) r).1 := by
    intro l
    induction l with
    | nil => exact fun r => .refl _
    | cons x t ih =>
      intro r
      rw [List.foldl_cons]
      refine Dev.postOnly.trans ?_ (ih _)
      split
      · exact postOnly_post r.1 x.1
      · exact postOnly_addDue r.1 x.1
  unfold Dev.postBnd
  exact ((hreserved _ (d, [])).trans (postOnly_foldl _ (fun (e : Dev) (x : Comp × Bool) _ => postOnly_addDue e x.1) _)).trans
    (postOnly_flushDue _)

/-! Admission (R307). -/

/-- Every sequence of the group has ended. -/
def Dev.allEnded (d : Dev) (g : Fin 4) : Prop := ∀ q ∈ d.srv.seqs, q.group = g → q.state = 4

theorem Dev.fewerSeqs.allEnded {d e : Dev} (h : d.fewerSeqs e) {g : Fin 4} (hd : d.allEnded g) : e.allEnded g :=
  fun q hq => hd q (h q hq)

theorem Dev.queueOnly.gstate {d e : Dev} (h : d.queueOnly e) (g : Fin 4) : e.gstate g = d.gstate g :=
  gstate_congr (h.2.2.2 _ (by simp only [queueRegs, SRV_GROUP_STATE]; omega))

/-- A request is admitted to a RUNNING group only (R307, test 3). -/
theorem gstate_of_admitted {d : Dev} {e : SubEnt} {noRoom : List Nat} (h : d.admissionTest e noRoom = none) : d.gstate e.group = 2 := by
  by_contra hg
  unfold Dev.admissionTest at h
  dsimp only at h
  split_ifs at h

theorem takeIn_effect (d : Dev) (e : SubEnt) : d.queueOnly (d.takeIn e) ∧
    ∀ g, g ≠ e.group → d.allEnded g → (d.takeIn e).allEnded g := by
  have hcount := (queueOnly_setN d (d.getN (custAt e.cust + 0x28) + 1) (queueRegs_cust (cust_lt e) (by decide : 0x28 < 64))).trans
    (queueOnly_satInc _ (o := SRV_ADMIT_COUNT) (by simp [queueRegs, SRV_ADMIT_COUNT]))
  refine ⟨hcount.trans (queueOnly_onSrv _ rfl), fun g hg hd q hq hgroup => ?_⟩
  rcases List.mem_append.mp hq with hold | hnew
  · rw [srv_satInc, srv_setN] at hold
    exact hd q hold hgroup
  · rw [List.mem_singleton.mp hnew] at hgroup
    exact absurd hgroup.symm hg

/-- What admission does: queues and completions, and no new sequence in a group that does not run. -/
def Dev.admitsOnly (g : Fin 4) (d e : Dev) : Prop := d.queueOnly e ∧ (d.gstate g ≠ 2 → d.allEnded g → e.allEnded g)

theorem Dev.admitsOnly.trans {g : Fin 4} {d e x : Dev} (h : d.admitsOnly g e) (k : e.admitsOnly g x) : d.admitsOnly g x :=
  ⟨h.1.trans k.1, fun hs hd => k.2 (by rw [h.1.gstate]; exact hs) (h.2 hs hd)⟩

theorem Dev.postOnly.admitsOnly {d e : Dev} (h : d.postOnly e) (g : Fin 4) : d.admitsOnly g e := ⟨h.1, fun _ hd => h.2.allEnded hd⟩

theorem admitsOnly_admitLoop (g : Fin 4) (noRoom : List Nat) (tb step k : Nat) (d : Dev) :
    d.admitsOnly g (d.admitLoop noRoom tb step k) := by
  induction k generalizing d with
  | zero => exact (Dev.postOnly.refl d).admitsOnly g
  | succ k ih =>
    rw [Dev.admitLoop]
    dsimp only
    split
    · exact (Dev.postOnly.refl d).admitsOnly g
    · split
      · exact (Dev.postOnly.refl d).admitsOnly g
      · next q _ _ e _ =>
        have htaken := postOnly_onSrv d (f := fun x => { x with adm := x.adm.erase e, lastSq := q }) rfl rfl
        refine ((htaken.admitsOnly g).trans ?_).trans (ih _)
        split
        · next htest =>
          obtain ⟨hq, hseqs⟩ := takeIn_effect (d.onSrv fun x => { x with adm := x.adm.erase e, lastSq := q }) e
          refine ⟨hq, fun hs hd => hseqs g (fun hg => hs ?_) hd⟩
          rw [hg]
          exact gstate_of_admitted htest
        · exact Dev.postOnly.admitsOnly (Dev.postOnly.trans ⟨queueOnly_satInc _ (by simp [queueRegs, SRV_REFUSE_COUNT]),
            fewerSeqs_of_srv (by rw [srv_satInc])⟩ (postOnly_addDue _ _)) g

theorem admitsOnly_admission (d : Dev) (g k : Fin 4) (noRoom : List Nat) : d.admitsOnly g (d.admission k noRoom).1 := by
  have hdrop : ∀ (p : SubEnt → Bool) (tb step : Nat), d.postOnly (d.dropAdm p tb step) := fun p tb step =>
    (postOnly_onSrv d (f := fun x => { x with adm := x.adm.filter fun e => !p e }) rfl rfl).trans
      (postOnly_foldl _ (fun e x _ => postOnly_addDue e _) _)
  exact (((hdrop _ _ _).admitsOnly g).trans (admitsOnly_admitLoop g _ _ _ _ _)).trans ((postOnly_flushDue _).admitsOnly g)

theorem postOnly_raiseCqs (d : Dev) (l : List Nat) : d.postOnly (d.raiseCqs l) := by
  have hcounts : d.postOnly d.srvCounts := by
    refine (postOnly_setN d _ (by simp [queueRegs, SRV_SEQ_LIVE])).trans (postOnly_foldl _ (fun e q _ => postOnly_setN e _ ?_) _)
    simp only [queueRegs, SRV_CQ_HELD]
    omega
  refine hcounts.trans (postOnly_foldl _ (fun x q hq => ?_) _)
  have hlt := List.mem_range.mp hq
  split
  · exact ⟨queueOnly_edge x (by omega), fewerSeqs_of_srv (by rw [srv_edge])⟩
  · exact .refl x

end Sys2Proof.Machine
end

section
/-! The lead stops a group (R299, R316, R320): every request of the group ends, the stop order goes to the followers, the group leaves
RUNNING. -/

namespace Sys2Proof.Machine

open Reg

/-! The values that apply at a boundary (R451). -/

/-- The serving registers, those of the groups among them. -/
def servingRegs (p : Nat) : Prop := 0x200000 ≤ p ∧ p < 0x280000

theorem servingRegs_of_set {e : RwbVal} {g : Fin 4} (h : (e.ofGroup g || e.ofCtrl) = true) : servingRegs e.off := by
  simp only [RwbVal.ofGroup, RwbVal.ofCtrl, SRV_GROUP_STATE, SRV_CTRL, Bool.or_eq_true, Bool.and_eq_true, decide_eq_true_eq,
    beq_iff_eq] at h
  simp only [servingRegs]
  omega

/-- A pending value of a serving register is written to its field. -/
theorem applyVal_of_serving (d : Dev) {e : RwbVal} (h : servingRegs e.off) : ∃ v, d.applyVal e = d.setF ⟨e.off, e.hi, e.lo⟩ v := by
  have hseed : ((List.finRange 32).find? fun n => e.off == QNT_LFSR_SEED n) = none := by
    rw [List.find?_eq_none]
    intro n _
    simp only [servingRegs] at h
    simp only [beq_iff_eq, QNT_LFSR_SEED, tileBase]
    omega
  refine ⟨d.asApplied e, ?_⟩
  simp only [Dev.applyVal, hseed]

theorem applySrv_effect (d : Dev) (g : Fin 4) : (d.applySrv g).srv = d.srv ∧ (d.applySrv g).mbx = d.mbx ∧
    ∀ p, ¬ servingRegs p → (d.applySrv g).getR p = d.getR p := by
  have hstep : ∀ (l : List RwbVal), (∀ e ∈ l, servingRegs e.off) → ∀ x : Dev, (l.foldl Dev.applyVal x).srv = x.srv ∧
      (l.foldl Dev.applyVal x).mbx = x.mbx ∧ ∀ p, ¬ servingRegs p → (l.foldl Dev.applyVal x).getR p = x.getR p := by
    intro l hl x
    refine ⟨foldl_view_same Dev.srv _ _ (fun y e he => ?_) x, foldl_view_same Dev.mbx _ _ (fun y e he => ?_) x, fun p hp =>
      foldl_view_same (fun y : Dev => y.getR p) _ _ (fun y e he => ?_) x⟩ <;> obtain ⟨v, hv⟩ := applyVal_of_serving y (hl e he)
    · rw [hv, srv_setF]
    · rw [hv, mbx_setF]
    · rw [hv, getR_setF_ne]
      exact fun h => hp (h ▸ hl e he)
  refine hstep _ (fun e he => ?_) { d with rwb := d.rwb.filter fun e => !(e.ofGroup g || e.ofCtrl) }
  have hmem : e ∈ d.rwb.filter fun e => e.ofGroup g || e.ofCtrl := by
    rcases List.mem_append.mp he with h | h <;> exact List.mem_of_mem_filter h
  exact servingRegs_of_set (List.mem_filter.mp hmem).2

/-! Budgets (R322). -/

theorem customer_lt {d : Dev} {c : Nat} (h : c ∈ d.customers) : c < 4096 := by
  simp only [Dev.customers, List.mem_filterMap] at h
  obtain ⟨e, -, he⟩ := h
  split at he
  · simp only [Option.some.injEq] at he
    omega
  · cases he

/-- Refill and debit write the customer's record. -/
theorem postOnly_settle (d : Dev) {c : Nat} (hc : c < 4096) (tb tokens rows : Nat) : d.postOnly (d.settle c tb tokens rows) := by
  have hrec : ∀ o, o < 64 → queueRegs (custAt c + o) := fun o ho => queueRegs_cust hc ho
  unfold Dev.settle
  dsimp only
  exact ((((postOnly_setPair d _ (hrec 0 (by decide)) (hrec 4 (by decide))).trans (postOnly_setN _ _ (hrec 0x1C (by decide)))).trans
    (postOnly_setPair _ _ (hrec 8 (by decide)) (hrec 12 (by decide)))).trans (postOnly_setN _ _ (hrec 0x20 (by decide)))).trans
    (postOnly_setPair _ _ (hrec 0x30 (by decide)) (hrec 0x34 (by decide)))

/-! Ends of sequences (R316). -/

/-- With a group stop of rank 1 or 2 every sequence ends. -/
theorem outcome_of_stop (q : SeqEnt) {rank : Nat} (h : rank = 1 ∨ rank = 2) (tb : Nat) :
    ∃ st, q.outcome (some rank) [] tb = some (rank, st) := by
  rcases h with rfl | rfl
  · exact ⟨0x14, by simp [SeqEnt.outcome]⟩
  · exact ⟨0x13, by simp [SeqEnt.outcome]⟩

theorem group_of_mem_groupSeqs {d : Dev} {g : Fin 4} {q : SeqEnt} (hq : q ∈ d.srv.seqs) (hg : q.group = g) (hs : q.state ≠ 4) :
    q ∈ d.groupSeqs g := by
  rw [Dev.groupSeqs, List.mem_mergeSort]
  exact List.mem_filter.mpr ⟨hq, by simp [hg, hs]⟩

/-- The entries of a list of sequences at the boundary take their places in the table. -/
def Dev.seqsSet (d : Dev) (bs : List SeqBnd) : Dev :=
  bs.foldl (fun d b => d.onSeqEnt b.q.idx fun _ => if b.status.isSome then { b.q with state := 4, hold := 0 } else b.q) d

theorem queueOnly_seqsSet (d : Dev) (bs : List SeqBnd) : d.queueOnly (d.seqsSet bs) :=
  queueOnly_foldl bs (fun e _ _ => queueOnly_onSrv e rfl) d

/-- Where all of them end, an entry of the table has ended or is none of theirs. -/
theorem mem_seqsSet {bs : List SeqBnd} (hbs : ∀ b ∈ bs, b.status.isSome = true) (d : Dev) {q : SeqEnt}
    (hq : q ∈ (d.seqsSet bs).srv.seqs) :
    q.state = 4 ∨ (q ∈ d.srv.seqs ∧ ∀ b ∈ bs, b.q.idx ≠ q.idx) := by
  induction bs generalizing d with
  | nil => exact .inr ⟨hq, fun b hb => absurd hb List.not_mem_nil⟩
  | cons b t ih =>
    obtain h4 | ⟨hmem, hne⟩ := ih (fun x hx => hbs x (List.mem_cons_of_mem _ hx)) _ hq
    · exact .inl h4
    · obtain ⟨y, hy, hyq⟩ := List.mem_map.mp hmem
      split at hyq
      · rw [if_pos (hbs b (List.mem_cons_self ..))] at hyq
        rw [← hyq]
        exact .inl rfl
      · next hidx =>
        subst hyq
        exact .inr ⟨hy, List.forall_mem_cons.mpr ⟨fun h => hidx h.symm, hne⟩⟩

/-- A sequence that a group stop ends keeps its place, and no later rank changes its status. -/
theorem lateEnd_bound_of_stop (d : Dev) (q : SeqEnt) {rank : Nat} (h : rank = 1 ∨ rank = 2) (tb tb' : Nat) (deferred : Bool) :
    (d.lateEnd (q.bound (some rank) [] tb false) tb' deferred).status.isSome = true ∧
      (d.lateEnd (q.bound (some rank) [] tb false) tb' deferred).q.idx = q.idx := by
  have hbound : (q.bound (some rank) [] tb false).status.isSome = true ∧ (q.bound (some rank) [] tb false).q.idx = q.idx := by
    obtain ⟨st, hst⟩ := outcome_of_stop { q with mark := q.mark || (false && q.run.isSome) } h tb
    unfold SeqEnt.bound
    dsimp only
    rw [hst]
    rcases h with rfl | rfl <;> exact ⟨rfl, rfl⟩
  rw [Dev.lateEnd]
  simp only [hbound.1, true_or, if_true]
  exact ⟨trivial, hbound.2⟩

/-- The parts of a boundary that stops the group: values applied, budgets, ends, completions. -/
theorem boundaryEnds_parts (d : Dev) (g : Fin 4) {rank : Nat} (h : rank = 1 ∨ rank = 2) :
    ∃ (y : Dev) (es : List SeqBnd) (l : List (Comp × Bool)), (d.boundaryEnds g none (some rank)).d = ((y.seqsSet es).postBnd l).1 ∧
      (d.applySrv g).postOnly y ∧ (∀ b ∈ es, b.status.isSome = true) ∧
      ∀ q ∈ (d.applySrv g).groupSeqs g, ∃ b ∈ es, b.q.idx = q.idx := by
  have hend := fun (y : Dev) (q : SeqEnt) (deferred : Bool) => lateEnd_bound_of_stop y q h d.now d.now deferred
  refine ⟨_, _, _, rfl, ?_, fun b hb => ?_, fun q hq => ?_⟩
  · exact postOnly_foldl _ (fun e c hc => postOnly_settle e (customer_lt hc) _ _ _) _
  · obtain ⟨x, hx, rfl⟩ := List.mem_map.mp hb
    obtain ⟨q, -, rfl⟩ := List.mem_map.mp hx
    exact (hend _ q _).1
  · exact ⟨_, List.mem_map.mpr ⟨_, List.mem_map.mpr ⟨q, hq, rfl⟩, rfl⟩, (hend _ q _).2⟩

/-- A boundary that stops the group ends all of its sequences. -/
theorem boundaryEnds_of_stop (d : Dev) (g : Fin 4) {rank : Nat} (h : rank = 1 ∨ rank = 2) :
    let e := (d.boundaryEnds g none (some rank)).d
    e.allEnded g ∧ e.srv.groups = d.srv.groups ∧ e.mbx = d.mbx ∧ ∀ p, p < 0x100000 ∨ 0x280000 ≤ p → e.getR p = d.getR p := by
  obtain ⟨hsrv, hmbx, hregs⟩ := applySrv_effect d g
  obtain ⟨y, es, l, hd, hy, hes, hall⟩ := boundaryEnds_parts d g h
  obtain ⟨⟨hgroups, hmbx', -, hregs'⟩, hseqs⟩ := hy
  obtain ⟨hgroups2, hmbx2, -, hregs2⟩ := queueOnly_seqsSet y es
  obtain ⟨⟨hgroups3, hmbx3, -, hregs3⟩, hseqs3⟩ := postOnly_postBnd (y.seqsSet es) l
  intro e
  have he : e = ((y.seqsSet es).postBnd l).1 := hd
  rw [he]
  refine ⟨fun q hq hg => ?_, ?_, ?_, fun p hp => ?_⟩
  · obtain h4 | ⟨hmem, hne⟩ := mem_seqsSet hes y (hseqs3 q hq)
    · exact h4
    · by_contra h4
      obtain ⟨b, hb, hidx⟩ := hall q (group_of_mem_groupSeqs (hseqs q hmem) hg h4)
      exact hne b hb hidx
  · rw [hgroups3, hgroups2, hgroups, hsrv]
  · rw [hmbx3, hmbx2, hmbx', hmbx]
  · have hq : ¬ queueRegs p := by simp only [queueRegs]; omega
    rw [hregs3 p hq, hregs2 p hq, hregs' p hq, hregs p (by simp only [servingRegs]; omega)]

/-! The group leaves RUNNING (R299, R320). -/

/-- Tiles, their registers and the residency engine change, and nothing that was sent is taken back. -/
def Dev.tilesSide (d e : Dev) : Prop := e.srv = d.srv ∧ e.mbx = d.mbx ∧ d.out <+: e.out ∧ ∀ p, p < 0x1000000 → e.getR p = d.getR p

theorem Dev.tilesSide.refl (d : Dev) : d.tilesSide d := ⟨rfl, rfl, List.prefix_rfl, fun _ _ => rfl⟩

theorem Dev.tilesSide.trans {d e x : Dev} (h : d.tilesSide e) (g : e.tilesSide x) : d.tilesSide x := by
  obtain ⟨hs, hm, ho, hr⟩ := h
  obtain ⟨hs', hm', ho', hr'⟩ := g
  exact ⟨hs'.trans hs, hm'.trans hm, ho.trans ho', fun p hp => (hr' p hp).trans (hr p hp)⟩

theorem tilesSide_foldl {α : Type} {f : Dev → α → Dev} (hstep : ∀ (d : Dev) (a : α), d.tilesSide (f d a)) (l : List α) (d : Dev) :
    d.tilesSide (l.foldl f d) := by
  induction l generalizing d with
  | nil => exact .refl d
  | cons a t ih => exact (hstep d a).trans (ih (f d a))

theorem tilesSide_setN (d : Dev) {o : Nat} (v : Nat) (h : 0x1000000 ≤ o) : d.tilesSide (d.setN o v) :=
  ⟨srv_setN d o v, mbx_setN d o v, by rw [out_setN], fun p hp => by rw [getR_setN, if_neg (by omega)]⟩

theorem tilesSide_setF (d : Dev) {f : Fld} (v : Nat) (h : 0x1000000 ≤ f.off) : d.tilesSide (d.setF f v) :=
  ⟨srv_setF d f v, mbx_setF d f v, by rw [out_setF], fun p hp => getR_setF_ne d v (by omega)⟩

theorem tilesSide_onTile (d : Dev) (n : Fin 32) (f : Tile → Tile) : d.tilesSide (d.onTile n f) :=
  ⟨rfl, rfl, List.prefix_rfl, fun _ _ => rfl⟩

theorem tilesSide_emit (d : Dev) (o : Output) : d.tilesSide (d.emit o) :=
  ⟨rfl, rfl, by rw [out_emit]; exact List.prefix_append _ _, fun p _ => getR_emit d o p⟩

theorem tilesSide_tileFreeSeq (d : Dev) (n : Fin 32) (q : Nat) : d.tilesSide (d.tileFreeSeq n q) := by
  have hrelease : ∀ (e : Dev) (p : PageEnt), e.tilesSide (e.releaseWord p.w0) := by
    intro e p
    unfold Dev.releaseWord
    split
    · exact tilesSide_emit e _
    · exact .refl e
  have hcounts : ∀ e : Dev, e.tilesSide (e.kvCounts n) := fun e =>
    (tilesSide_setN e _ (by simp only [MEM_KV_OCCUPIED, tileBase]; omega)).trans
      (tilesSide_setN _ _ (by simp only [MEM_KV_SPILLED, tileBase]; omega))
  unfold Dev.tileFreeSeq
  dsimp only
  exact (((tilesSide_foldl hrelease _ d).trans (tilesSide_onTile _ n _)).trans (hcounts _)).trans
    (tilesSide_setF _ _ (by simp only [HMP_STATUS, tileBase]; omega))

theorem tilesSide_groupFree (d : Dev) (g : Fin 4) : d.tilesSide (d.groupFree g) := by
  refine tilesSide_foldl (fun e n => ?_) _ d
  exact ((tilesSide_foldl (fun e q => tilesSide_tileFreeSeq e n q) _ e).trans
    (tilesSide_setN _ _ (by simp only [MEM_KV_RESERVED, tileBase]; omega))).trans
    (tilesSide_setF _ _ (by simp only [HMP_STATUS, tileBase]; omega))

theorem tilesSide_issueReads (d : Dev) : d.tilesSide d.issueReads := by
  unfold Dev.issueReads
  split
  · exact .refl d
  · split
    · exact .refl d
    · refine tilesSide_foldl (fun e c => ?_) _ d
      split
      · exact .refl e
      · dsimp only
        split
        · exact Dev.tilesSide.trans ⟨rfl, rfl, List.prefix_rfl, fun _ _ => rfl⟩ (tilesSide_emit _ _)
        · exact .refl e

/-- The state code of the group is the one that it leaves RUNNING for; the sequence table and the other groups' registers stay. -/
theorem leaveRunning_effect (d : Dev) (g : Fin 4) {st : Nat} (hst : st < 8) :
    let e := d.leaveRunning g st
    e.gstate g = st ∧ e.srv.seqs = d.srv.seqs ∧ e.mbx = d.mbx ∧ d.out <+: e.out ∧
      ∀ p, p < 0x1000000 → p ≠ SRV_GROUP_STATE g → e.getR p = d.getR p := by
  have htiles : ∀ x : Dev, x.tilesSide (x.onTiles g fun d n =>
      (d.setF (TCTL_PASS_STATUS_STATE n) (if st = 4 then 3 else 0)).onSeq n fun q => { q with released := none }) := fun x =>
    tilesSide_foldl (fun e n => (tilesSide_setF e _ (by simp only [TCTL_PASS_STATUS, tileBase]; omega)).trans (tilesSide_onTile _ n _)) _ x
  obtain ⟨hsrv, hmbx, hout, hregs⟩ := (tilesSide_groupFree d g).trans (htiles (d.groupFree g))
  unfold Dev.leaveRunning
  dsimp only
  generalize (d.groupFree g).onTiles g _ = x at hsrv hmbx hout hregs
  generalize hy : ((x.setF (SRV_GROUP_STATE_STATE g) st).setF (SRV_GROUP_STATE_GEN_FIRST g) 0).onGroup g _ = y
  obtain ⟨hsrv', hmbx', hout', hregs'⟩ := tilesSide_issueReads y
  have hyregs : ∀ p, p ≠ SRV_GROUP_STATE g → y.getR p = x.getR p := fun p hp => by
    rw [← hy, getR_onGroup, getR_setF_ne _ _ hp, getR_setF_ne _ _ hp]
  have hstate : y.gstate g = st := by
    rw [← hy, Dev.gstate, getF_congr (getR_onGroup _ _ _ _), getF_setF_ne, getF_setF_self _ _ _ (by simp)]
    · exact Nat.mod_eq_of_lt (by simpa using hst)
    · simp
    · simp
  refine ⟨?_, ?_, ?_, ?_, fun p hp hne => ?_⟩
  · rw [gstate_congr (hregs' _ (by simp only [SRV_GROUP_STATE]; omega)), hstate]
  · rw [hsrv', ← hsrv, ← hy]
    simp [Dev.onGroup]
  · rw [hmbx', ← hmbx, ← hy]
    simp [Dev.onGroup]
  · refine hout.trans (List.IsPrefix.trans ?_ hout')
    rw [← hy, out_onGroup, out_setF, out_setF]
  · rw [hregs' p hp, hyregs p hne, hregs p hp]

/-! The whole stop. -/

theorem stopPending_congr {d e : Dev} (h : e.mbx = d.mbx) (g : Fin 4) : e.stopPending g = d.stopPending g := by
  rw [Dev.stopPending, Dev.stopPending, h]

theorem followers_congr {d e : Dev} (hg : e.srv.groups = d.srv.groups) (hr : e.getR FAB_SELF = d.getR FAB_SELF) (g : Fin 4) :
    e.followers g = d.followers g := by
  have hself : e.self = d.self := getF_congr hr
  have hgroup : e.group g = d.group g := by rw [Dev.group, Dev.group, hg]
  rw [Dev.followers, Dev.followers, hself, hgroup]

/-- The stop order is sent, and the halt counted. -/
def Dev.stopSent (d : Dev) (g : Fin 4) (st : Nat) (args : List Nat) : Dev :=
  let d := d.broadcast (d.followers g) "STOP_ORDER" args
  if st = 4 then d.satInc HUB_SHALT_COUNT else d

theorem stopSent_effect (d : Dev) (g : Fin 4) (st : Nat) (args : List Nat) :
    (d.stopSent g st args).srv = d.srv ∧ (d.stopSent g st args).mbx = d.mbx ∧
    (d.stopSent g st args).out = d.out ++ (d.followers g).map (fun p => .mgmt p "STOP_ORDER" args) ∧
    (st = 4 → (d.stopSent g st args).getN HUB_SHALT_COUNT = min (d.getN HUB_SHALT_COUNT + 1) 0xFFFFFFFF) := by
  unfold Dev.stopSent
  dsimp only
  refine ⟨?_, ?_, ?_, fun h => ?_⟩
  · split
    · rw [srv_satInc, Dev.broadcast, srv_emits]
    · rfl
  · split
    · rw [mbx_satInc]; rfl
    · rfl
  · split
    · rw [out_satInc, out_broadcast]
    · rfl
  · rw [if_pos h, getN_satInc]
    rfl

/-- The parts of a stop by the lead: the boundary's ends, the order, the state left, the log entry, admission for the other groups. -/
theorem leadStop_parts (d : Dev) (g : Fin 4) (rank st : Nat)
    (hp : ∀ args a b c, ((((d.boundaryEnds g none (some rank)).d.stopSent g st args).leaveRunning g st).logEntry 0x000A 0 a b
      c).stopPending g = false) :
    ∃ (args : List Nat) (a b c : Nat) (r : Dev) (l : List Nat), d.leadStop g none rank st [] = r.raiseCqs l ∧
      Dev.admitsOnly g ((((d.boundaryEnds g none (some rank)).d.stopSent g st args).leaveRunning g st).logEntry 0x000A 0 a b c) r := by
  unfold Dev.leadStop
  dsimp only
  generalize orderArgs _ = args
  generalize hx : ite (st = 4) _ _ = x
  have hsent : (d.boundaryEnds g none (some rank)).d.stopSent g st args = x := hx
  have hz := hp args g st (x.gstep g % 2 ^ 32)
  rw [hsent] at hz
  simp only [hz, Bool.false_eq_true, if_false]
  refine ⟨args, g, st, x.gstep g % 2 ^ 32, _, _, rfl, ?_⟩
  rw [hsent]
  split
  · exact (postOnly_flushDue _).admitsOnly g
  · exact admitsOnly_admission _ g g []

theorem leadStop_effect (d : Dev) (g : Fin 4) {rank st : Nat} (hr : rank = 1 ∨ rank = 2) (hst : st = 3 ∨ st = 4)
    (hp : d.stopPending g = false) :
    let e := d.leadStop g none rank st []
    e.gstate g = st ∧ e.allEnded g ∧ (∀ p ∈ d.followers g, ∃ l, .mgmt p "STOP_ORDER" l ∈ e.out) ∧
      (st = 4 → e.getN HUB_SHALT_COUNT = min (d.getN HUB_SHALT_COUNT + 1) 0xFFFFFFFF) := by
  obtain ⟨hended, hgroups, hmbx, hregs⟩ := boundaryEnds_of_stop d g hr
  have hlt : st < 8 := by omega
  obtain ⟨args, a, b, c, r, l, he, hadmit⟩ := leadStop_parts d g rank st fun args a b c => by
    obtain ⟨-, hsent, -⟩ := stopSent_effect (d.boundaryEnds g none (some rank)).d g st args
    obtain ⟨-, -, hleft, -⟩ := leaveRunning_effect ((d.boundaryEnds g none (some rank)).d.stopSent g st args) g hlt
    rw [stopPending_congr (mbx_logEntry _ _ _ _ _ _), stopPending_congr hleft, stopPending_congr hsent, stopPending_congr hmbx, hp]
  obtain ⟨hsrvS, -, houtS, hcount⟩ := stopSent_effect (d.boundaryEnds g none (some rank)).d g st args
  have hfollowers := followers_congr hgroups (hregs _ (.inr (by simp only [FAB_SELF]; omega))) g
  rw [getN_congr (hregs HUB_SHALT_COUNT (.inl (by simp only [HUB_SHALT_COUNT]; omega)))] at hcount
  rw [hfollowers] at houtS
  generalize (d.boundaryEnds g none (some rank)).d.stopSent g st args = x at *
  obtain ⟨hstate, hseqs, -, houtL, hregsL⟩ := leaveRunning_effect x g hlt
  generalize x.leaveRunning g st = y at *
  have hlogRegs : ∀ p, p ≠ HUB_LOG_HEAD → p ≠ INT_PEND 0 → (y.logEntry 0x000A 0 a b c).getR p = y.getR p := fun p h1 h2 =>
    getR_logEntry_ne y _ _ _ _ _ p h1 h2
  have hlogSrv : (y.logEntry 0x000A 0 a b c).srv = y.srv := srv_logEntry y _ _ _ _ _
  have hlogOut : (y.logEntry 0x000A 0 a b c).out = y.out := out_logEntry y _ _ _ _ _
  generalize y.logEntry 0x000A 0 a b c = z at *
  obtain ⟨hqueue, hendedR⟩ := hadmit.trans ((postOnly_raiseCqs r l).admitsOnly g)
  have hstateZ : z.gstate g = st := by
    rw [gstate_congr (hlogRegs _ (by simp only [SRV_GROUP_STATE, HUB_LOG_HEAD]; omega) (by simp only [SRV_GROUP_STATE, INT_PEND]; omega)),
      hstate]
  have hendedZ : z.allEnded g := by
    intro q hq
    rw [hlogSrv, hseqs, hsrvS] at hq
    exact hended q hq
  intro e
  have hE : e = r.raiseCqs l := he
  rw [hE]
  refine ⟨?_, hendedR (by rw [hstateZ]; omega) hendedZ, fun p hp' => ⟨args, ?_⟩, fun h4 => ?_⟩
  · rw [hqueue.gstate, hstateZ]
  · obtain ⟨-, -, hout, -⟩ := hqueue
    refine (houtL.trans (hlogOut ▸ hout)).subset ?_
    rw [houtS]
    exact List.mem_append_right _ (List.mem_map.mpr ⟨p, hp', rfl⟩)
  · obtain ⟨-, -, -, hregsQ⟩ := hqueue
    rw [← hcount h4]
    refine getN_congr ?_
    rw [hregsQ _ (by simp only [queueRegs, HUB_SHALT_COUNT]; omega), hlogRegs _ (by decide) (by decide),
      hregsL _ (by simp only [HUB_SHALT_COUNT]; omega) (by simp only [HUB_SHALT_COUNT, SRV_GROUP_STATE]; omega)]

end Sys2Proof.Machine
end

section
/-! Timeouts and the second fault of a step at the lead (R79, R83, R154, R320), and the statement on step decisions. -/

namespace Sys2Proof.Machine

open Reg

section
variable {s : State} (hf : s.dev.frozen = false)
include hf

theorem voteTimeout_effect {g : Fin 4} {miss : List Nat} (now : Nat) (hlead : s.dev.leadsRunning g = true)
    (hv : (s.dev.group g).pkgVote.isSome = true) (ht : (s.dev.group g).voteAt + s.dev.voteTimeout ≤ max s.dev.now now)
    (hm : ∃ p ∈ miss, p ∈ s.dev.followers g) (hp : s.dev.stopPending g = false) :
    ∃ e : Dev, exec (.voteTimeout g miss now) s = .next (s.put e) ∧ e.gstate g = 3 ∧
      (∀ p ∈ s.dev.followers g, ∃ l, .mgmt p "STOP_ORDER" l ∈ e.out) ∧ ∀ q ∈ e.srv.seqs, q.group = g → q.state = 4 := by
  have hmiss : (miss.any fun p => (s.dev.followers g).contains p) = true := by
    obtain ⟨p, hp, hmem⟩ := hm
    exact List.any_eq_true.mpr ⟨p, hp, List.contains_iff_mem.mpr hmem⟩
  have hexec : exec (.voteTimeout g miss now) s = .next (s.put ((s.dev.at_ now).leadStop g none 2 3 [])) := by
    change execVoteTimeout g miss now s = _
    refine onRun_eq hf (if_pos ?_)
    simp only [leadsRunning_at_, group_at_, voteTimeout_at_, followers_at_, now_at_]
    exact ⟨hlead, hv, ht, hmiss⟩
  obtain ⟨hstate, hended, horders, -⟩ := leadStop_effect (s.dev.at_ now) g (.inr rfl) (.inl rfl)
    ((stopPending_congr (mbx_at_ _ _) g).trans hp)
  rw [followers_at_] at horders
  exact ⟨_, hexec, hstate, horders, hended⟩

theorem sfaultReport_second {g : Fin 4} {n : Fin 32} (p : BitVec 17) (now : Nat) (hlead : s.dev.leadsRunning g = true)
    (ha : (s.dev.group g).abortAt = none) (hn : n ∈ s.dev.groupTiles g) (hst : s.dev.getF (TCTL_PASS_STATUS_STATE n) = 2)
    (hr : (s.dev.group g).rerun = true) (hp : s.dev.stopPending g = false) :
    ∃ e : Dev, exec (.sfaultReport g (some n) p now) s = .next (s.put e) ∧ e.gstate g = 4 ∧
      e.getN HUB_SHALT_COUNT = min (s.dev.getN HUB_SHALT_COUNT + 1) 0xFFFFFFFF := by
  obtain ⟨x, hx⟩ : ∃ x, x = (s.dev.at_ now).satInc HUB_SFAULT_COUNT := ⟨_, rfl⟩
  have hregs : ∀ p, p ≠ HUB_SFAULT_COUNT → x.getR p = s.dev.getR p := fun p hp => by rw [hx, getR_satInc_ne _ hp, getR_at_]
  have hxlead : x.leadsRunning g = true := by
    rw [← hlead]
    exact leadsRunning_congr (hregs _ (by simp only [SRV_GROUP_STATE, HUB_SFAULT_COUNT]; omega))
  have hxrerun : (x.group g).rerun = true := by rw [hx, group_satInc, group_at_, hr]
  have hmbx : x.mbx = s.dev.mbx := by rw [hx, mbx_satInc, mbx_at_]
  have hhalt : x.leadFault g = x.leadStop g none 1 4 [] := by
    rw [Dev.leadFault, if_neg (not_not.mpr hxlead), if_pos hxrerun]
  obtain ⟨hstate, -, -, hcount⟩ := leadStop_effect x g (.inl rfl) (.inr rfl) ((stopPending_congr hmbx g).trans hp)
  refine ⟨x.leadStop g none 1 4 [], ?_, hstate, ?_⟩
  · rw [exec_sfaultReport_lead hf p now hlead ha hn hst, ← hx, hhalt]
  · rw [← getN_congr (hregs HUB_SHALT_COUNT (by decide))]
    exact hcount rfl

theorem rerunReadyTimeout_effect {g : Fin 4} (now : Nat) (hlead : s.dev.leadsRunning g = true)
    (ht : ∃ t, (s.dev.group g).abortAt = some t ∧ t + s.dev.voteTimeout ≤ max s.dev.now now)
    (hq : ∃ q ∈ (s.dev.group g).memberList, q ∉ (s.dev.group g).readyPkgs) (hp : s.dev.stopPending g = false) :
    ∃ e : Dev, exec (.rerunReadyTimeout g now) s = .next (s.put e) ∧ e.gstate g = 3 := by
  obtain ⟨t, ha, hle⟩ := ht
  obtain ⟨q, hmember, hready⟩ := hq
  have hmissing : ¬ ((s.dev.group g).memberList.all fun p => (s.dev.group g).readyPkgs.contains p) = true := fun hall =>
    hready (List.contains_iff_mem.mp (List.all_eq_true.mp hall q hmember))
  have hexec : exec (.rerunReadyTimeout g now) s = .next (s.put ((s.dev.at_ now).leadStop g none 2 3 [])) := by
    change execRerunReadyTimeout g now s = _
    refine onRun_eq hf (if_pos ?_)
    simp only [leadsRunning_at_, group_at_, voteTimeout_at_, now_at_]
    exact ⟨hlead, by rw [ha]; exact decide_eq_true hle, hmissing⟩
  obtain ⟨hstate, -⟩ := leadStop_effect (s.dev.at_ now) g (.inr rfl) (.inl rfl) ((stopPending_congr (mbx_at_ _ _) g).trans hp)
  exact ⟨_, hexec, hstate⟩

end

/-- Settles O40: the decision and its record, the replay's preparation tile by tile, the rerun's orders, and the stop of the group by its
lead for the timeouts and the second fault. -/
theorem stepDecisions : Obligations.StepDecisions := by
  unfold Obligations.StepDecisions
  refine ⟨fun s g now vs v k miss hf => ⟨?_, ?_, ?_, ?_⟩, fun s g n now p hf => ⟨?_, ?_, ?_, ?_, ?_, ?_⟩⟩
  · exact fun own hown hlead hall => voteDecision_effect hf vs now hown hlead hall
  · exact decisionRecord_effect hf k v now
  · exact passPrepare_effect hf
  · exact voteTimeout_effect hf now
  · exact sfaultReport_first hf p now
  · exact sfaultReport_second hf p now
  · exact abortOrder_effect hf now
  · exact abortReady_effect hf p now
  · exact rerunRelease_effect hf
  · exact rerunReadyTimeout_effect hf now

end Sys2Proof.Machine
end

section
/-! States that meet the hypotheses of the statements on passes, votes and step decisions. -/

namespace Sys2Proof.Machine

open Reg

/-- The package after reset, with tile 0 released for a pass; its instruction store is empty. -/
def releasedWitness : State := State.reset.put (State.reset.dev.releaseSeq 0 false false)

/-- A package after reset that leads group 0 on tile 0, with package 5 as the other member and pass `pass` under way. -/
def leadWitness (pass : Nat) (f : Group → Group) : State :=
  let d := ((State.reset.dev.setN HUB_TILE_INSERVICE 1).setF (SRV_GROUP_STATE_STATE 0) 2).setF (SRV_GROUP_STATE_LEAD 0) 1
  State.reset.put (d.onGroup 0 fun x => f { x with
    cfg := some ⟨0, [0, 5], 1, 0, 0, 0, 0, 0, [], Vector.replicate 32 0⟩, pass := pass })

/-- The vote of a package that saw trouble in tensor 7. -/
def troubleVote (pkg : Nat) : Vote := ⟨pkg, true, false, false, false, [7], [(7, 0x3F800000)]⟩

/-- An empty half fails the header check: pass 1 begins and faults. -/
theorem passAndVotes_empty_half : ∃ e : Dev, exec (.passStart 0) releasedWitness = .next (releasedWitness.put e) ∧ e.passSeq 0 = 1 ∧
    e.getF (TCTL_PASS_STATUS_STATE 0) = 2 ∧ e.getF (TCTL_SFAULT_INFO_CAUSE 0) = 0x10 := by
  obtain ⟨e, he, hseq, -, -, -, -, -, -, -, -, -, -, -, hbad, -⟩ :=
    passAndVotes.1 releasedWitness 0 ⟨false, false⟩ rfl (by decide +kernel) (by decide +kernel) rfl (by decide +kernel)
  obtain ⟨hstate, hcause⟩ := hbad (by decide +kernel)
  exact ⟨e, he, hseq.trans (by decide +kernel), hstate, hcause⟩

/-- The one tile's vote is the package's vote. -/
theorem passAndVotes_one_tile : ∃ e : Dev,
    exec (.packageVote 0 9) (leadWitness 0 fun x => { x with votes := [(0, troubleVote 0)] }) =
      .next ((leadWitness 0 fun x => { x with votes := [(0, troubleVote 0)] }).put e) ∧
    (e.group 0).pkgVote = some (voteJoin 0 [troubleVote 0]) := by
  obtain ⟨-, -, hvote⟩ := passAndVotes.2 (leadWitness 0 fun x => { x with votes := [(0, troubleVote 0)] }) 0 0 9 rfl
  obtain ⟨e, l, he, hjoin, -⟩ := hvote (by decide +kernel) (by decide +kernel) (by decide +kernel) (by decide +kernel)
    (fun m hm => ⟨troubleVote 0, by revert m; decide +kernel⟩)
  exact ⟨e, he, hjoin.trans (by decide +kernel)⟩

/-- Trouble in pass 0 orders the first replay, counted once. -/
theorem stepDecisions_first_replay : ∃ e : Dev,
    exec (.voteDecision 0 [troubleVote 5] 9) (leadWitness 0 fun x => { x with pkgVote := some (troubleVote 0) }) =
      .next ((leadWitness 0 fun x => { x with pkgVote := some (troubleVote 0) }).put e) ∧ e.getN HUB_REPLAY1_COUNT = 1 := by
  obtain ⟨hdecide, -⟩ := stepDecisions.1 (leadWitness 0 fun x => { x with pkgVote := some (troubleVote 0) }) 0 9 [troubleVote 5]
    (troubleVote 0) 1 [] rfl
  obtain ⟨e, l, he, -, -, -, hcount, -⟩ := hdecide (troubleVote 0) (by decide +kernel) (by decide +kernel)
    (fun p hp => ⟨troubleVote 5, by simp, by revert p; decide +kernel⟩)
  exact ⟨e, he, (hcount (by decide +kernel)).trans (by decide +kernel)⟩

/-- Package 5 stays silent past the timeout: the group stops. -/
theorem stepDecisions_silent_member : ∃ e : Dev,
    exec (.voteTimeout 0 [5] 2000000) (leadWitness 0 fun x => { x with pkgVote := some (troubleVote 0) }) =
      .next ((leadWitness 0 fun x => { x with pkgVote := some (troubleVote 0) }).put e) ∧ e.gstate 0 = 3 := by
  obtain ⟨-, -, -, htimeout⟩ := stepDecisions.1 (leadWitness 0 fun x => { x with pkgVote := some (troubleVote 0) }) 0 2000000 []
    (troubleVote 0) 1 [5] rfl
  obtain ⟨e, he, hstate, -⟩ := htimeout (by decide +kernel) (by decide +kernel) (by decide +kernel) ⟨5, by simp, by decide +kernel⟩
    (by decide +kernel)
  exact ⟨e, he, hstate⟩

/-- The replay with the fallback half: tile 0 is released for pass 2, with tensor 7 in its map. -/
theorem stepDecisions_second_replay : ∃ e : Dev,
    exec (.passPrepare 0 []) (leadWitness 1 fun x => { x with decision := some (2, troubleVote 0) }) =
      .next ((leadWitness 1 fun x => { x with decision := some (2, troubleVote 0) }).put e) ∧
    (e.seq 0).released = some ⟨true, false⟩ ∧ e.regBit (MGL_FB_MAP 0 0) 7 = true := by
  obtain ⟨-, -, hprepare, -⟩ := stepDecisions.1 (leadWitness 1 fun x => { x with decision := some (2, troubleVote 0) }) 0 9 []
    (troubleVote 0) 2 [] rfl
  obtain ⟨e, he, -, -, htiles, -⟩ := hprepare (by decide +kernel) (by decide +kernel) (by decide) (by decide) (by decide +kernel)
  obtain ⟨hrel, -, hmap, -⟩ := htiles 0 (by decide +kernel)
  exact ⟨e, he, hrel, hmap 7 (by decide)⟩

/-- The group's tiles restore their step state and are released for pass 1 again. -/
theorem stepDecisions_rerun : ∃ e : Dev,
    exec (.rerunRelease 0 []) (leadWitness 1 fun x => { x with abortAt := some 4 }) =
      .next ((leadWitness 1 fun x => { x with abortAt := some 4 }).put e) ∧ (e.seq 0).released = some ⟨false, true⟩ := by
  obtain ⟨-, -, -, -, hrelease, -⟩ := stepDecisions.2 (leadWitness 1 fun x => { x with abortAt := some 4 }) 0 0 9 0 rfl
  obtain ⟨e, he, -, -, -, htiles, -⟩ := hrelease (by decide +kernel) (by decide +kernel) (by decide +kernel)
  obtain ⟨hrel, -⟩ := htiles 0 (by decide +kernel)
  exact ⟨e, he, hrel⟩

end Sys2Proof.Machine
end

section
/-! The header of an image that the Wringer writes (R89, R91, R213), as the Mangles' header check reads it (R93). -/

namespace Sys2Proof.Machine

/-! Fields of an image. -/

/-- A field past the first part of an image lies in the rest. -/
theorem imgLe_append {a : List Byte} (b : List Byte) {off : Nat} (size : Nat) (h : a.length ≤ off) :
    imgLe (a ++ b) off size = imgLe b (off - a.length) size := by
  rw [imgLe, imgLe, List.drop_append, List.drop_eq_nil_of_le h, List.nil_append]

/-- The number that an image begins with. -/
theorem imgLe_leBytes (n v : Nat) (b : List Byte) : imgLe (leBytes n v ++ b) 0 n = v % 256 ^ n := by
  rw [imgLe, List.drop_zero, List.take_left' (leBytes_length n v), leVal_leBytes]

theorem leVal_zeros (n : Nat) : leVal (List.replicate n 0) = 0 := by
  induction n with
  | zero => rfl
  | succ n ih => rw [List.replicate_succ, leVal, ih]; rfl

theorem imgLe_zeros (n : Nat) (b : List Byte) : imgLe (List.replicate n 0 ++ b) 0 n = 0 := by
  rw [imgLe, List.drop_zero, List.take_left' List.length_replicate, leVal_zeros]

/-! The header. -/

/-- The image's header: format, NSPARSE, tensor ID, tensor scale, length, and 52 reserved bytes (R89, R91). -/
def WringJob.header (w : WringJob) : List Byte :=
  leBytes 1 w.dst.code ++ leBytes 1 w.ns ++ leBytes 2 w.tid ++ leBytes 4 w.st.toNat ++ leBytes 4 (panelBytes w.dst w.ns) ++
    List.replicate 52 0

theorem wringPanel_header (k : Nat) (w : WringJob) (l : List Byte) : ∃ b, (wringPanel k w l).1 = w.header ++ b :=
  ⟨_, (List.append_assoc _ _ _).trans (List.append_assoc _ _ _)⟩

/-- The fields of the header, as the check reads them. -/
theorem imgLe_header (w : WringJob) (b : List Byte) :
    imgLe (w.header ++ b) 0 1 = w.dst.code % 256 ∧ imgLe (w.header ++ b) 1 1 = w.ns % 256 ∧
    imgLe (w.header ++ b) 2 2 = w.tid % 65536 ∧ imgLe (w.header ++ b) 4 4 = w.st.toNat % 2 ^ 32 ∧
    imgLe (w.header ++ b) 8 4 = panelBytes w.dst w.ns % 2 ^ 32 ∧ imgLe (w.header ++ b) 12 52 = 0 := by
  simp only [WringJob.header, List.append_assoc]
  refine ⟨imgLe_leBytes _ _ _, ?_, ?_, ?_, ?_, ?_⟩
  · rw [imgLe_append _ _ (by simp only [leBytes_length]; omega), leBytes_length]
    exact imgLe_leBytes _ _ _
  · iterate 2 rw [imgLe_append _ _ (by simp only [leBytes_length]; omega), leBytes_length]
    exact imgLe_leBytes _ _ _
  · iterate 3 rw [imgLe_append _ _ (by simp only [leBytes_length]; omega), leBytes_length]
    exact imgLe_leBytes _ _ _
  · iterate 4 rw [imgLe_append _ _ (by simp only [leBytes_length]; omega), leBytes_length]
    exact imgLe_leBytes _ _ _
  · iterate 5 rw [imgLe_append _ _ (by simp only [leBytes_length]; omega), leBytes_length]
    exact imgLe_zeros _ _

/-- A format's code names it (R89), in one byte. -/
theorem nfmtOf_code (f : NFmt) : nfmtOf (f.code % 256) = some f := by cases f <;> rfl

/-- NSPARSE lies in a byte, and the length of an image in 32 bits. -/
theorem sparseOk_range {f : NFmt} {ns : Nat} (h : sparseOk f ns = true) : ns < 256 ∧ panelBytes f ns < 2 ^ 32 := by
  simp only [sparseOk, Bool.or_eq_true, Bool.and_eq_true, beq_iff_eq] at h
  obtain rfl | ⟨-, (rfl | rfl) | rfl⟩ := h <;> cases f <;> decide

/-- Settles O38: each step of the check passes by the field of the header that it reads. -/
theorem imagesPassHeaderCheck : Obligations.ImagesPassHeaderCheck := by
  intro k w l hsparse htid hscale
  obtain ⟨b, hb⟩ := wringPanel_header k w l
  obtain ⟨hfmt, hns, hid, hst, hlen, hzero⟩ := imgLe_header w b
  obtain ⟨hns256, hlen32⟩ := sparseOk_range hsparse
  have hformat : imgFormat (w.header ++ b) = some w.dst := by rw [imgFormat, hfmt, nfmtOf_code]
  have hnsparse : imgSparse (w.header ++ b) = w.ns := by rw [imgSparse, hns, Nat.mod_eq_of_lt hns256]
  have hwscale : imgWscale (w.header ++ b) = w.st := by
    rw [imgWscale, hst, Nat.mod_eq_of_lt w.st.isLt, BitVec.ofNat_toNat, BitVec.setWidth_eq]
  have hbytes : imgLe (w.header ++ b) 8 4 = panelBytes w.dst w.ns := hlen.trans (Nat.mod_eq_of_lt hlen32)
  have htop : w.tid % 65536 / 4096 = 0 := by omega
  simp [headerCause, hb, hformat, hnsparse, hwscale, hsparse, hbytes, hscale, hid, htop, hzero]

/-- A job that meets the hypotheses: a dense K4F panel of tensor 7 with the scale 1.0, from a source panel of no bytes. -/
theorem imagesPassHeaderCheck_dense : headerCause (wringPanel 0 ⟨7, .k4f, 32, 7, 0x3F800000, none, 0⟩ []).1 = none :=
  imagesPassHeaderCheck 0 ⟨7, .k4f, 32, 7, 0x3F800000, none, 0⟩ [] (by decide) (by decide) (by decide)

end Sys2Proof.Machine
end

section
/-! Products on the Mangles of a tile (R86, R93 to R97, R116, R117): what an MMA leaves of each Mangle. -/

namespace Sys2Proof.Machine

open Reg

/-! An instruction at its issue cycle (R113, R123). -/

/-- An instruction with well-formed operands, of a stream that issues, has its effect. -/
theorem issue_effect {d : Dev} {p : Issue} {st : Nat} {bad : Bool} (f : Dev → Dev) (hi : d.issues p.tile st = true) (hb : bad = false) :
    d.issue p st bad f = f d := by
  simp [Dev.issue, hi, hb]

/-! The Mangles of a tile. -/

/-- Nothing of the tiles but the Mangles of tile `n` differs, and nothing is sent. -/
def Dev.mangleOnly (n : Fin 32) (d e : Dev) : Prop :=
  e.tile n = { d.tile n with mangle := (e.tile n).mangle } ∧ d.onlyTile e n ∧ e.out = d.out

theorem Dev.mangleOnly.refl (n : Fin 32) (d : Dev) : d.mangleOnly n d := ⟨rfl, fun _ _ => rfl, rfl⟩

theorem Dev.mangleOnly.trans {n : Fin 32} {d e x : Dev} (h : d.mangleOnly n e) (g : e.mangleOnly n x) : d.mangleOnly n x := by
  obtain ⟨htile, hothers, hout⟩ := h
  obtain ⟨htile', hothers', hout'⟩ := g
  refine ⟨?_, fun m hm => (hothers' m hm).trans (hothers m hm), hout'.trans hout⟩
  rw [htile', htile]

theorem mangleOnly_foldl {α : Type} {n : Fin 32} {f : Dev → α → Dev} (hstep : ∀ (d : Dev) (a : α), d.mangleOnly n (f d a))
    (l : List α) (d : Dev) : d.mangleOnly n (l.foldl f d) := by
  induction l generalizing d with
  | nil => exact .refl n d
  | cons a t ih => exact (hstep d a).trans (ih (f d a))

/-- The tile store beside the Mangles. -/
theorem Dev.mangleOnly.store {n : Fin 32} {d e : Dev} (h : d.mangleOnly n e) : (e.tile n).store = (d.tile n).store := by
  rw [h.1]

theorem mangle_congr {d e : Dev} (h : e.tiles = d.tiles) (n : Fin 32) (i : Fin 4) : e.mangle n i = d.mangle n i := by
  rw [Dev.mangle, Dev.mangle, tile_congr h]

/-- A Mangle written. -/
theorem tile_setMangle (d : Dev) (n : Fin 32) (i : Fin 4) (m : Mangle) :
    (d.setMangle n i m).tile n = { d.tile n with mangle := (d.tile n).mangle.set i m } := by
  rw [Dev.setMangle, tile_congr (tiles_setBit _ _ _ _), tile_congr (tiles_setBit _ _ _ _), tile_onTile_self]

theorem tile_setMangle_ne (d : Dev) {n k : Fin 32} (i : Fin 4) (m : Mangle) (h : k ≠ n) : (d.setMangle n i m).tile k = d.tile k := by
  rw [Dev.setMangle, tile_congr (tiles_setBit _ _ _ _), tile_congr (tiles_setBit _ _ _ _), tile_onTile_ne _ _ h]

@[simp] theorem out_setMangle (d : Dev) (n : Fin 32) (i : Fin 4) (m : Mangle) : (d.setMangle n i m).out = d.out := by
  simp [Dev.setMangle]

theorem mangle_setMangle_self (d : Dev) (n : Fin 32) (i : Fin 4) (m : Mangle) : (d.setMangle n i m).mangle n i = m := by
  simp [Dev.mangle, tile_setMangle]

theorem mangle_setMangle_ne (d : Dev) (n : Fin 32) {i j : Fin 4} (m : Mangle) (h : j ≠ i) :
    (d.setMangle n i m).mangle n j = d.mangle n j := by
  have hne : i.val ≠ j.val := fun he => h (Fin.ext he.symm)
  simp [Dev.mangle, tile_setMangle, hne]

theorem mangleOnly_setMangle (d : Dev) (n : Fin 32) (i : Fin 4) (m : Mangle) : d.mangleOnly n (d.setMangle n i m) :=
  ⟨by rw [tile_setMangle], fun _ hk => tile_setMangle_ne d i m hk, out_setMangle d n i m⟩

/-- Parts that change no tile and send nothing. -/
theorem mangleOnly_of_tiles {d e x : Dev} {n : Fin 32} (h : d.mangleOnly n e) (ht : x.tiles = e.tiles) (ho : x.out = e.out) :
    d.mangleOnly n x := by
  obtain ⟨htile, hothers, hout⟩ := h
  exact ⟨by rw [tile_congr ht, htile], fun k hk => (tile_congr ht k).trans (hothers k hk), ho.trans hout⟩

/-! MMA on one Mangle. -/

/-- The accumulator rows after an MMA on Mangle `m` of tile `n`. -/
def Dev.mmaAcc (d : Dev) (n : Fin 32) (m : Mangle) (clr : Bool) (af : NFmt) (rows acc aaddr astride saddr : Nat) : Vector AccRow 256 :=
  Vector.ofFn fun r =>
    if acc ≤ r.val ∧ r.val < acc + rows then
      mmaRow d.free m clr af r (d.tsRead n (64 * (aaddr + (r.val - acc) * astride)) (sliceBytes m.active af))
        (d.tsRead n (saddr + 4 * (r.val - acc) * astride) 32)
    else m.acc[r]

/-- The Mangle that multiplies: after the swap. -/
def Mangle.swapped (m : Mangle) (sw : Bool) : Mangle := if sw then m.swap else m

theorem swapped_fields (m : Mangle) (sw : Bool) : (m.swapped sw).active = m.panel sw ∧
    (m.swapped sw).shadow = (if sw then none else m.shadow) ∧ (m.swapped sw).acc = m.acc := by
  cases sw <;> exact ⟨rfl, rfl, rfl⟩

theorem getElem_mmaAcc (d : Dev) (n : Fin 32) (m : Mangle) (clr : Bool) (af : NFmt) (rows acc aaddr astride saddr : Nat) (r : Fin 256) :
    (d.mmaAcc n m clr af rows acc aaddr astride saddr)[r] = if acc ≤ r.val ∧ r.val < acc + rows then
      mmaRow d.free m clr af r (d.tsRead n (64 * (aaddr + (r.val - acc) * astride)) (sliceBytes m.active af))
        (d.tsRead n (saddr + 4 * (r.val - acc) * astride) 32) else m.acc[r] :=
  Vector.getElem_ofFn r.isLt

/-- A drawn free value, a latched event and counted events change no tile and send nothing. -/
theorem mmaCounted_tiles (x : Dev) (n : Fin 32) (free mix : Bool) (ev ev' k : Nat) :
    let y : Dev := if free then x.drawFree else x
    let z : Dev := if mix then y.latch (egMgl n) 3 else y
    let e := (z.count (.tile n) ev k).count (.tile n) ev' k
    e.tiles = x.tiles ∧ e.out = x.out := by
  intro y z e
  obtain ⟨htiles, -, hout⟩ := (countOnly_count z n ev k).fields
  obtain ⟨htiles', -, hout'⟩ := (countOnly_count (z.count (.tile n) ev k) n ev' k).fields
  have hz : z.tiles = x.tiles ∧ z.out = x.out := by
    cases free <;> cases mix <;> simp [z, y, Dev.drawFree]
  exact ⟨htiles'.trans (htiles.trans hz.1), hout'.trans (hout.trans hz.2)⟩

/-- Beside the Mangle itself an MMA changes no tile and sends nothing. -/
theorem mmaOne_tiles (d : Dev) (n : Fin 32) (i : Fin 4) (sw clr : Bool) (af : NFmt) (rows acc aaddr astride saddr : Nat) :
    let m := (d.mangle n i).swapped sw
    let x := d.setMangle n i { m with acc := d.mmaAcc n m clr af rows acc aaddr astride saddr }
    let e := d.mmaOne n i sw clr af rows acc aaddr astride saddr
    e.tiles = x.tiles ∧ e.out = x.out := by
  unfold Dev.mmaOne Mangle.swapped Dev.mmaAcc
  exact mmaCounted_tiles _ n _ _ _ _ _

/-- What an MMA with a good panel makes of Mangle `m`, with tile store `st`: the panel it multiplies by is active, the rows that it
names hold their sums, and the other rows stay (R93 to R97, R117). -/
def MmaDone (sw clr : Bool) (af : NFmt) (rows acc : Fin 256) (aaddr astride saddr : Nat) (st : Mem) (m m' : Mangle) : Prop :=
  ∀ q f, m.panel sw = some q → q.err = false → imgFormat q.image = some f →
    m'.active = some q ∧ m'.shadow = (if sw then none else m.shadow) ∧
    (∀ r : Fin 256, r < acc ∨ acc.val + rows.val < r.val → m'.acc[r] = m.acc[r]) ∧
    (∀ r : Fin 256, acc ≤ r → r.val ≤ acc.val + rows.val →
      (m'.acc[r]).tag = (if clr then imgWscale q.image else (m.acc[r]).tag) ∧
      ∀ c : Fin 64, ((m'.acc[r]).vals)[c] = mmaCell q.image f (imgSparse q.image) af
        (memBytes st (64 * (aaddr + (r.val - acc.val) * astride)) (sliceBytes (some q) af))
        (memBytes st (saddr + 4 * (r.val - acc.val) * astride) 32) c (if clr then 0 else ((m.acc[r]).vals)[c]))

/-- A row of a product with a good panel. -/
theorem mmaRow_good {k : Nat} {m : Mangle} {q : PanelReg} {f : NFmt} (hq : m.active = some q) (herr : q.err = false)
    (hf : imgFormat q.image = some f) (clr : Bool) (af : NFmt) (r : Fin 256) (row scales : List Byte) :
    (mmaRow k m clr af r row scales).tag = (if clr then imgWscale q.image else (m.acc[r]).tag) ∧
    ∀ c : Fin 64, ((mmaRow k m clr af r row scales).vals)[c] =
      mmaCell q.image f (imgSparse q.image) af row scales c (if clr then 0 else ((m.acc[r]).vals)[c]) := by
  cases clr <;> simp [mmaRow, hq, herr, hf]

theorem mmaOne_done (d : Dev) (n : Fin 32) (i : Fin 4) (sw clr : Bool) (af : NFmt) (rows acc : Fin 256) (aaddr astride saddr : Nat) :
    MmaDone sw clr af rows acc aaddr astride saddr (d.tile n).store (d.mangle n i)
      ((d.mmaOne n i sw clr af (rows.val + 1) acc aaddr astride saddr).mangle n i) := by
  intro q f hq herr hf
  obtain ⟨htiles, -⟩ := mmaOne_tiles d n i sw clr af (rows.val + 1) acc aaddr astride saddr
  rw [mangle_congr htiles, mangle_setMangle_self]
  obtain ⟨hactive, hshadow, hacc⟩ := swapped_fields (d.mangle n i) sw
  rw [hq] at hactive
  refine ⟨hactive, hshadow, fun r hr => ?_, fun r h1 h2 => ?_⟩
  · have hout : ¬ (acc.val ≤ r.val ∧ r.val < acc.val + (rows.val + 1)) := by
      have hlt : r < acc ↔ r.val < acc.val := Iff.rfl
      omega
    rw [getElem_mmaAcc, if_neg hout, hacc]
  · have hin : acc.val ≤ r.val ∧ r.val < acc.val + (rows.val + 1) := ⟨h1, by omega⟩
    have hrow := mmaRow_good (k := d.free) hactive herr hf clr af r
      (memBytes (d.tile n).store (64 * (aaddr + (r.val - acc.val) * astride)) (sliceBytes (some q) af))
      (memBytes (d.tile n).store (saddr + 4 * (r.val - acc.val) * astride) 32)
    rw [hacc] at hrow
    rw [getElem_mmaAcc, if_pos hin, hactive]
    exact hrow

theorem mangleOnly_mmaOne (d : Dev) (n : Fin 32) (i : Fin 4) (sw clr : Bool) (af : NFmt) (rows acc aaddr astride saddr : Nat) :
    d.mangleOnly n (d.mmaOne n i sw clr af rows acc aaddr astride saddr) := by
  obtain ⟨htiles, hout⟩ := mmaOne_tiles d n i sw clr af rows acc aaddr astride saddr
  exact mangleOnly_of_tiles (mangleOnly_setMangle d n i _) htiles hout

theorem mangle_mmaOne_ne (d : Dev) (n : Fin 32) {i j : Fin 4} (sw clr : Bool) (af : NFmt) (rows acc aaddr astride saddr : Nat)
    (h : j ≠ i) : (d.mmaOne n i sw clr af rows acc aaddr astride saddr).mangle n j = d.mangle n j := by
  obtain ⟨htiles, -⟩ := mmaOne_tiles d n i sw clr af rows acc aaddr astride saddr
  rw [mangle_congr htiles, mangle_setMangle_ne _ _ _ h]

/-! MMA on the Mangles that MSEL names. -/

theorem mselSet_nodup (half : Fin 2) (k : Nat) : (mselSet half k).Nodup := by
  unfold mselSet
  split <;> split <;> simp

/-- MMA on several Mangles: each as if alone. -/
theorem mmaAll_done {l : List (Fin 4)} (hl : l.Nodup) (d : Dev) (n : Fin 32) (sw clr : Bool) (af : NFmt) (rows acc : Fin 256)
    (aaddr astride saddr : Nat) :
    let e := l.foldl (fun d i => d.mmaOne n i sw clr af (rows.val + 1) acc aaddr astride saddr) d
    (∀ i, i ∉ l → e.mangle n i = d.mangle n i) ∧
    (∀ i ∈ l, MmaDone sw clr af rows acc aaddr astride saddr (d.tile n).store (d.mangle n i) (e.mangle n i)) ∧ d.mangleOnly n e := by
  refine ⟨fun i hi => ?_, fun i hi => ?_, mangleOnly_foldl (fun x i => mangleOnly_mmaOne x n i _ _ _ _ _ _ _ _) _ _⟩
  · exact foldl_view_same (fun x : Dev => x.mangle n i) _ l (fun x j hj => mangle_mmaOne_ne x n _ _ _ _ _ _ _ _ fun he => hi (he ▸ hj)) d
  · obtain ⟨x, hx, hview⟩ := foldl_view_at (fun x : Dev => ((x.tile n).store, x.mangle n i)) _ hi hl (fun x j hj =>
      Prod.ext (mangleOnly_mmaOne x n j sw clr af (rows.val + 1) acc aaddr astride saddr).store
        (mangle_mmaOne_ne x n sw clr af (rows.val + 1) acc aaddr astride saddr hj.symm)) d
    obtain ⟨hstore, hmangle⟩ := Prod.mk.inj hx
    obtain ⟨-, hview⟩ := Prod.mk.inj hview
    rw [hview, ← hstore, ← hmangle]
    exact mmaOne_done x n i sw clr af rows acc aaddr astride saddr

/-! The command. -/

section
variable {s : State} {p : Issue} {half : Fin 2} {msel afmt : BitVec 2} {sw clr : Bool} {atid : BitVec 12} {rows acc : Fin 256}
  {aaddr : BitVec 20} {astride : BitVec 16} {saddr : BitVec 26}
  (hf : s.dev.frozen = false) (hi : s.dev.issues p.tile half = true) (hsel : msel ≠ 0) (hfmt : afmt ≠ 3)
  (hrows : acc.val + rows.val < 256)
  (hslice : ∀ i ∈ mselSet half msel.toNat, 64 * (aaddr.toNat + rows.val * astride.toNat) +
    sliceBytes ((s.dev.mangle p.tile i).panel sw) (actFmt afmt.toNat) ≤ tsBytes)
include hf hi hsel hfmt hrows hslice

/-- MMA without its fallback flag, with well-formed operands, comes to its issue cycle (R116). -/
theorem exec_mma : exec (.mma p half msel sw clr false afmt atid rows acc aaddr astride saddr) s = .next (s.put (
    if sw && (mselSet half msel.toNat).any (fun i => (s.dev.mangle p.tile i).shadow.isNone) then
      s.dev.sfault p.tile 8 half p.idx p.cyc 0
    else (mselSet half msel.toNat).foldl (fun d i =>
      d.mmaOne p.tile i sw clr (actFmt afmt.toNat) (rows.val + 1) acc aaddr.toNat astride.toNat saddr.toNat) s.dev)) := by
  change execMma p half msel sw clr false afmt atid rows acc aaddr astride saddr s = _
  refine onRun_eq hf ?_
  refine issue_effect _ hi ?_
  have hlt : ¬ 256 < acc.val + rows.val + 1 := by omega
  simpa [hlt, fallbackFmt] using And.intro (And.intro hsel hfmt) hslice

/-- With good panels every Mangle that MSEL names takes its product. -/
theorem exec_mma_good (hpanel : ∀ i ∈ mselSet half msel.toNat, ∃ q, (s.dev.mangle p.tile i).panel sw = some q) :
    ∃ e : Dev, exec (.mma p half msel sw clr false afmt atid rows acc aaddr astride saddr) s = .next (s.put e) ∧
      (∀ i, i ∉ mselSet half msel.toNat → e.mangle p.tile i = s.dev.mangle p.tile i) ∧
      (∀ i ∈ mselSet half msel.toNat, MmaDone sw clr (actFmt afmt.toNat) rows acc aaddr.toNat astride.toNat saddr.toNat
        (s.dev.tile p.tile).store (s.dev.mangle p.tile i) (e.mangle p.tile i)) ∧ s.dev.mangleOnly p.tile e := by
  have hswap : (sw && (mselSet half msel.toNat).any fun i => (s.dev.mangle p.tile i).shadow.isNone) = false := by
    cases sw
    · rfl
    · rw [Bool.true_and, List.any_eq_false]
      intro i hmem
      obtain ⟨q, hq⟩ := hpanel i hmem
      have hshadow : (s.dev.mangle p.tile i).shadow = some q := hq
      simp [hshadow]
  rw [exec_mma hf hi hsel hfmt hrows hslice, hswap, if_neg Bool.false_ne_true]
  exact ⟨_, rfl, mmaAll_done (mselSet_nodup half msel.toNat) s.dev p.tile sw clr (actFmt afmt.toNat) rows acc aaddr.toNat
    astride.toNat saddr.toNat⟩

/-- SW on an invalid shadow is schedule fault 8 (R117, R152). -/
theorem exec_mma_noShadow (hsw : sw = true) (hnone : ∃ i ∈ mselSet half msel.toNat, (s.dev.mangle p.tile i).shadow = none) :
    ∃ e : Dev, exec (.mma p half msel sw clr false afmt atid rows acc aaddr astride saddr) s = .next (s.put e) ∧
      e.getF (TCTL_SFAULT_INFO_CAUSE p.tile) = 8 ∧ e.getF (TCTL_PASS_STATUS_STATE p.tile) = 2 ∧ e.tiles = s.dev.tiles := by
  obtain ⟨i, hmem, hnone⟩ := hnone
  have hany : (mselSet half msel.toNat).any (fun i => (s.dev.mangle p.tile i).shadow.isNone) = true :=
    List.any_eq_true.mpr ⟨i, hmem, by rw [hnone]; rfl⟩
  rw [exec_mma hf hi hsel hfmt hrows hslice, if_pos (by rw [hsw, hany]; rfl)]
  obtain ⟨hstate, hcause, -, htiles, -⟩ := sfault_effect s.dev p.tile 8 half p.idx p.cyc 0
  exact ⟨_, rfl, hcause, hstate, htiles⟩

end

end Sys2Proof.Machine
end

section
/-! Rows of bytes written one after the other to a memory. -/

namespace Sys2Proof.Machine

@[simp] theorem memBytes_length (m : Mem) (a k : Nat) : (memBytes m a k).length = k := by simp [memBytes]

theorem getD_memBytes (m : Mem) (a : Nat) {i k : Nat} (h : i < k) : (memBytes m a k).getD i 0 = memGet m (a + i) := by
  simp [memBytes, h]

/-- Part of a run of bytes. -/
theorem memBytes_slice (m : Mem) (a : Nat) {off k len : Nat} (h : off + k ≤ len) :
    memBytes m (a + off) k = ((memBytes m a len).drop off).take k := by
  apply List.ext_getElem
  · simp; omega
  · intro i h1 h2
    simp [memBytes, Nat.add_assoc]

/-- Row `j` of each `j < k` written at its address, in order. -/
def putRows (place : Nat → Nat) (row : Nat → List Byte) (k : Nat) (m : Mem) : Mem :=
  (List.range k).foldl (fun m j => memPutBytes m (place j) (row j)) m

section
variable (place : Nat → Nat) (row : Nat → List Byte) (k : Nat) (m : Mem)

theorem putRows_succ : putRows place row (k + 1) m = memPutBytes (putRows place row k m) (place k) (row k) := by
  simp [putRows, List.range_succ]

/-- A byte outside every row keeps its value. -/
theorem memGet_putRows_out {x : Nat} (h : ∀ j, j < k → x < place j ∨ place j + (row j).length ≤ x) :
    memGet (putRows place row k m) x = memGet m x := by
  induction k with
  | zero => rfl
  | succ k ih =>
    have hk := h k (Nat.lt_succ_self k)
    rw [putRows_succ, memGet_memPutBytes, if_neg (by omega), ih fun j hj => h j (Nat.lt_succ_of_lt hj)]

/-- A byte of a row that no later row covers. -/
theorem memGet_putRows_in {x j : Nat} (hj : j < k) (hx : place j ≤ x ∧ x < place j + (row j).length)
    (h : ∀ i, i < k → j < i → x < place i ∨ place i + (row i).length ≤ x) :
    memGet (putRows place row k m) x = (row j).getD (x - place j) 0 := by
  induction k with
  | zero => omega
  | succ k ih =>
    rw [putRows_succ, memGet_memPutBytes]
    obtain rfl | hlt := Nat.lt_succ_iff_lt_or_eq.mp hj |>.symm
    · rw [if_pos hx]
    · have hk := h k (Nat.lt_succ_self k) hlt
      rw [if_neg (by omega), ih hlt fun i hi => h i (Nat.lt_succ_of_lt hi)]

/-- A row that no later row covers reads back. -/
theorem memBytes_putRows {j : Nat} (hj : j < k)
    (h : ∀ i, i < k → j < i → place j + (row j).length ≤ place i) :
    memBytes (putRows place row k m) (place j) (row j).length = row j := by
  apply List.ext_getElem
  · simp
  · intro i h1 h2
    have hget := memGet_putRows_in place row k m (x := place j + i) hj (by omega) fun i' hi' hlt => .inl (by
      have := h i' hi' hlt
      omega)
    rw [Nat.add_sub_cancel_left, List.getD_eq_getElem _ _ h2] at hget
    simpa [memBytes] using hget

end

/-! Words. -/

theorem wordBytes_cons (w : Word) (l : List Word) : wordBytes (w :: l) = leBytes 4 w.toNat ++ wordBytes l := by
  simp [wordBytes]

theorem wordBytes_length (l : List Word) : (wordBytes l).length = 4 * l.length := by
  induction l with
  | nil => rfl
  | cons w t ih => simp [wordBytes_cons, leBytes_length, ih]; omega

/-- Word `c` of a run of words. -/
theorem wordBytes_slice (l : List Word) {c : Nat} (h : c < l.length) : ((wordBytes l).drop (4 * c)).take 4 = leBytes 4 l[c].toNat := by
  induction l generalizing c with
  | nil => simp at h
  | cons w t ih =>
    rw [wordBytes_cons]
    cases c with
    | zero => simp [List.take_left' (leBytes_length 4 w.toNat)]
    | succ c =>
      have hlen : 4 * (c + 1) = (leBytes 4 w.toNat).length + 4 * c := by rw [leBytes_length]; omega
      rw [hlen, List.drop_length_add_append]
      simpa using ih (by simpa using h)

/-- A word of a run of words in memory. -/
theorem memLe_word {m : Mem} {a : Nat} {l : List Word} (h : memBytes m a (4 * l.length) = wordBytes l) {c : Nat} (hc : c < l.length) :
    memLe m (a + 4 * c) 4 = l[c].toNat := by
  rw [memLe, memBytes_slice m a (len := 4 * l.length) (by omega), h, wordBytes_slice l hc, leVal_leBytes]
  exact Nat.mod_eq_of_lt l[c].isLt

end Sys2Proof.Machine
end

section
/-! Drained rows of a Mangle (R100 to R102, R118). -/

namespace Sys2Proof.Machine

open Reg

/-! The values. -/

/-- Row `r` of the accumulator of Mangle `m` of the tile. -/
def Dev.accRow (d : Dev) (n : Fin 32) (m : Fin 4) (r : Nat) : AccRow := (d.mangle n m).acc.toList.getD r ⟨0, Vector.replicate 64 0⟩

theorem accRow_getElem (d : Dev) (n : Fin 32) (m : Fin 4) (r : Fin 256) : d.accRow n m r = (d.mangle n m).acc[r] := by
  simp [Dev.accRow]

/-- The scale that DRAIN multiplies by, with SCL (R101). -/
def Dev.drainScale (d : Dev) (n : Fin 32) (t : Nat) (scl : Bool) : Option Word := if scl then some (tscaleUsed (d.tscale n t)) else none

/-- The value of row `r` and column `c` as DRAIN writes it: with SCL times tag times TSCALE (R101). -/
def Dev.drainVal (d : Dev) (n : Fin 32) (m : Fin 4) (t : Nat) (scl : Bool) (r : Nat) (c : Fin 64) : Word :=
  if scl then fMul (mangleNan ((d.accRow n m r).vals)[c] (fMul vNan (d.accRow n m r).tag (d.tscale n t))) ((d.accRow n m r).vals)[c]
    (fMul vNan (d.accRow n m r).tag (d.tscale n t)) else ((d.accRow n m r).vals)[c]

theorem drainRow_val (d : Dev) (n : Fin 32) (m : Fin 4) {t : Nat} {scl : Bool} (r : Nat) (c : Fin 64)
    (h : scl = true → tscaleValid (d.tscale n t) = true) :
    (drainRow (d.accRow n m r) (d.drainScale n t scl))[c] = d.drainVal n m t scl r c := by
  cases scl with
  | false => rfl
  | true => simp [Dev.drainScale, Dev.drainVal, drainRow, tscaleUsed, h rfl]

/-- The rows that a DRAIN of `k` rows from row `acc` on takes, by their number. -/
def Dev.drainRows (d : Dev) (n : Fin 32) (m : Fin 4) (t : Nat) (scl : Bool) (acc k j : Nat) : Vector Word 64 :=
  ((List.range k).map fun j => drainRow (d.accRow n m (acc + j)) (d.drainScale n t scl)).getD j (Vector.replicate 64 0)

theorem drainRows_val (d : Dev) (n : Fin 32) (m : Fin 4) {t : Nat} {scl : Bool} (acc : Nat) {k j : Nat} (hj : j < k) (c : Fin 64)
    (h : scl = true → tscaleValid (d.tscale n t) = true) :
    (d.drainRows n m t scl acc k j)[c] = d.drainVal n m t scl (acc + j) c := by
  have hrow : d.drainRows n m t scl acc k j = drainRow (d.accRow n m (acc + j)) (d.drainScale n t scl) := by
    simp [Dev.drainRows, hj]
  rw [hrow, drainRow_val d n m _ c h]

/-! The accumulator afterwards. -/

/-- The drained rows' values cleared, their tags kept (R102). -/
def Dev.drainZero (d : Dev) (n : Fin 32) (m : Fin 4) (acc k : Nat) : Dev :=
  d.setMangle n m { d.mangle n m with acc := Vector.ofFn fun r =>
    if acc ≤ r.val ∧ r.val < acc + k then { (d.mangle n m).acc[r] with vals := Vector.replicate 64 0 } else (d.mangle n m).acc[r] }

/-- What a DRAIN leaves of the Mangles of the tile: ZERO clears the drained rows and keeps their tags. -/
def Dev.drainKept (d e : Dev) (n : Fin 32) (m : Fin 4) (zero : Bool) (acc rows : Fin 256) : Prop :=
  (∀ i, i ≠ m → e.mangle n i = d.mangle n i) ∧ (zero = false → e.mangle n m = d.mangle n m) ∧
    (zero = true → ∀ r : Fin 256, (e.mangle n m).acc[r] =
      if acc ≤ r ∧ r.val ≤ acc.val + rows.val then ⟨(d.accRow n m r).tag, Vector.replicate 64 0⟩ else (d.mangle n m).acc[r])

theorem getElem_drainZero (d : Dev) (n : Fin 32) (m : Fin 4) (acc k : Nat) (r : Fin 256) :
    ((d.drainZero n m acc k).mangle n m).acc[r] =
      if acc ≤ r.val ∧ r.val < acc + k then { (d.mangle n m).acc[r] with vals := Vector.replicate 64 0 } else (d.mangle n m).acc[r] := by
  rw [Dev.drainZero, mangle_setMangle_self]
  exact Vector.getElem_ofFn r.isLt

theorem drainKept_zero (d : Dev) (n : Fin 32) (m : Fin 4) (zero : Bool) (acc rows : Fin 256) :
    d.drainKept (if zero then d.drainZero n m acc (rows.val + 1) else d) n m zero acc rows := by
  cases zero with
  | false => exact ⟨fun _ _ => rfl, fun _ => rfl, fun h => absurd h Bool.false_ne_true⟩
  | true =>
    refine ⟨fun i hi => mangle_setMangle_ne d n _ hi, fun h => absurd h.symm Bool.false_ne_true, fun _ r => ?_⟩
    rw [if_pos rfl, getElem_drainZero, accRow_getElem]
    exact if_congr (and_congr Iff.rfl (by omega)) rfl rfl

theorem mangleOnly_drainZero (d : Dev) (n : Fin 32) (m : Fin 4) (zero : Bool) (acc k : Nat) :
    d.mangleOnly n (if zero then d.drainZero n m acc k else d) := by
  cases zero
  · exact .refl n d
  · exact mangleOnly_setMangle d n m _

theorem drainKept_congr {d e x : Dev} {n : Fin 32} {m : Fin 4} {zero : Bool} {acc rows : Fin 256} (h : d.drainKept e n m zero acc rows)
    (hx : (x.tile n).mangle = (e.tile n).mangle) : d.drainKept x n m zero acc rows := by
  have hmangle : ∀ i, x.mangle n i = e.mangle n i := fun i => by rw [Dev.mangle, Dev.mangle, hx]
  simpa only [Dev.drainKept, hmangle] using h

/-! The command. -/

/-- Words `64 j` to `64 j + 63` of a register are row `8 (r − vd) + j` of the drained rows (R100). -/
def drainReg (row : Nat → Vector Word 64) (vd r : Nat) : Lanes :=
  Vector.ofFn fun l => (row (8 * (r - vd) + l.val / 64)).toList.getD (l.val % 64) 0

theorem getElem_drainReg (row : Nat → Vector Word 64) (vd r : Nat) (l : Fin 512) :
    (drainReg row vd r)[l] = (row (8 * (r - vd) + l.val / 64))[(⟨l.val % 64, Nat.mod_lt _ (by decide)⟩ : Fin 64)] := by
  have hlt : l.val % 64 < 64 := Nat.mod_lt _ (by decide)
  have hget : (drainReg row vd r)[l] = (row (8 * (r - vd) + l.val / 64)).toList.getD (l.val % 64) 0 := Vector.getElem_ofFn l.isLt
  rw [hget]
  simp [hlt]

/-- The vector registers after the rows have filled `k` of them from `vd` on. -/
def drainRegs (row : Nat → Vector Word 64) (vd k : Nat) (old : Vector Lanes 64) : Vector Lanes 64 :=
  Vector.ofFn fun r => if vd ≤ r.val ∧ r.val < vd + k then drainReg row vd r else old[r]

theorem getElem_drainRegs (row : Nat → Vector Word 64) (vd k : Nat) (old : Vector Lanes 64) (r : Fin 64) :
    (drainRegs row vd k old)[r] = if vd ≤ r.val ∧ r.val < vd + k then drainReg row vd r else old[r] :=
  Vector.getElem_ofFn r.isLt

/-- DRAIN finds no fault with a scale that it does not use or that is valid. -/
theorem scale_accepted {scl : Bool} {ts : Word} (h : scl = true → tscaleValid ts = true) : (scl && !tscaleValid ts) = false := by
  cases scl
  · rfl
  · rw [h rfl]; rfl

/-- Rows written to tile store change nothing else. -/
theorem foldl_tsWrite (d : Dev) (n : Fin 32) (place : Nat → Nat) (row : Nat → List Byte) (k : Nat) :
    (List.range k).foldl (fun d j => d.tsWrite n (place j) (row j)) d =
      d.onTile n fun t => { t with store := putRows place row k t.store } := by
  induction k with
  | zero => exact (onTile_tile d n).symm
  | succ k ih =>
    rw [List.range_succ, List.foldl_append, ih, List.foldl_cons, List.foldl_nil, Dev.tsWrite, onTile_onTile]
    simp only [putRows_succ]

section
variable {s : State} {p : Issue} {half : Fin 2} {odd scl zero : Bool} {atid : BitVec 12} {acc rows : Fin 256} {vd : Fin 64}
  {daddr : BitVec 20} {dstride : BitVec 16} {m : Fin 4}
  (hf : s.dev.frozen = false) (hi : s.dev.issues p.tile half = true) (hm : m.val = 2 * half.val + (if odd then 1 else 0))
  (hrows : acc.val + rows.val < 256) (hscale : scl = true → tscaleValid (s.dev.tscale p.tile atid.toNat) = true)
include hf hi hm hrows hscale

/-- DRAIN of rows that fill registers (R100). -/
theorem exec_drain_regs (h8 : (rows.val + 1) % 8 = 0) (hvd : vd.val + (rows.val + 1) / 8 ≤ 64) :
    exec (.drain p half odd 0 scl zero atid acc rows vd daddr dstride) s = .next (s.put (
      (if zero then s.dev.drainZero p.tile m acc (rows.val + 1) else s.dev).onTile p.tile fun t => { t with vreg :=
        (drainRegs (s.dev.drainRows p.tile m atid.toNat scl acc (rows.val + 1)) vd ((rows.val + 1) / 8) t.vreg) })) := by
  have hindex : (⟨2 * half.val + (if odd then 1 else 0), by split <;> omega⟩ : Fin 4) = m := Fin.ext hm.symm
  change execDrain p half odd 0 scl zero atid acc rows vd daddr dstride s = _
  refine onRun_eq hf ?_
  dsimp only
  rw [issue_effect _ hi, scale_accepted hscale, hindex]
  · rfl
  · have h256 : ¬ 256 < acc.val + (rows.val + 1) := by omega
    have h64 : ¬ 64 < vd.val + (rows.val + 1) / 8 := by omega
    simp [h256, h64, h8]

/-- DRAIN to tile store in FP32 (R100). -/
theorem exec_drain_store (hplace : 64 * (daddr.toNat + rows.val * dstride.toNat) + 256 ≤ tsBytes) :
    exec (.drain p half odd 1 scl zero atid acc rows vd daddr dstride) s = .next (s.put (
      (if zero then s.dev.drainZero p.tile m acc (rows.val + 1) else s.dev).onTile p.tile fun t => { t with store :=
        (putRows (fun j => 64 * (daddr.toNat + j * dstride.toNat))
          (fun j => wordBytes (s.dev.drainRows p.tile m atid.toNat scl acc (rows.val + 1) j).toList) (rows.val + 1) t.store) })) := by
  have hindex : (⟨2 * half.val + (if odd then 1 else 0), by split <;> omega⟩ : Fin 4) = m := Fin.ext hm.symm
  change execDrain p half odd 1 scl zero atid acc rows vd daddr dstride s = _
  refine onRun_eq hf ?_
  dsimp only
  rw [issue_effect _ hi, scale_accepted hscale, hindex, ← foldl_tsWrite]
  · rfl
  · have h256 : ¬ 256 < acc.val + (rows.val + 1) := by omega
    have hbytes : ¬ tsBytes < 64 * (daddr.toNat + rows.val * dstride.toNat) + 256 := by omega
    simp [h256, hbytes]

theorem drain_regs_effect (h8 : (rows.val + 1) % 8 = 0) (hvd : vd.val + (rows.val + 1) / 8 ≤ 64) :
    ∃ e : Dev, exec (.drain p half odd 0 scl zero atid acc rows vd daddr dstride) s = .next (s.put e) ∧
      s.dev.drainKept e p.tile m zero acc rows ∧
      (∀ (r : Fin 64) (l : Fin 512), vd ≤ r → r.val < vd.val + (rows.val + 1) / 8 → (e.vlanes p.tile r)[l] =
        s.dev.drainVal p.tile m atid.toNat scl (acc.val + 8 * (r.val - vd.val) + l.val / 64) ⟨l.val % 64, Nat.mod_lt _ (by decide)⟩) ∧
      (∀ r : Fin 64, r < vd ∨ vd.val + (rows.val + 1) / 8 ≤ r.val → e.vlanes p.tile r = s.dev.vlanes p.tile r) ∧
      (e.tile p.tile).store = (s.dev.tile p.tile).store ∧ (e.tile p.tile).dram = (s.dev.tile p.tile).dram ∧ s.dev.onlyTile e p.tile := by
  rw [exec_drain_regs hf hi hm hrows hscale h8 hvd]
  refine ⟨_, rfl, drainKept_congr (drainKept_zero s.dev p.tile m zero acc rows) (by rw [tile_onTile_self]), fun r l h1 h2 => ?_,
    fun r hr => ?_, ?_, ?_, fun k hk => ?_⟩
  all_goals obtain ⟨htile, hothers, -⟩ := mangleOnly_drainZero s.dev p.tile m zero acc (rows.val + 1)
  · have hin : vd.val ≤ r.val ∧ r.val < vd.val + (rows.val + 1) / 8 := ⟨h1, h2⟩
    have hl := l.isLt
    have hval := drainRows_val s.dev p.tile m (scl := scl) acc (k := rows.val + 1) (j := 8 * (r.val - vd.val) + l.val / 64) (by omega)
      ⟨l.val % 64, Nat.mod_lt _ (by decide)⟩ hscale
    rw [Nat.add_assoc, ← hval, ← getElem_drainReg, Dev.vlanes, tile_onTile_self, getElem_drainRegs, if_pos hin]
  · have hout : ¬ (vd.val ≤ r.val ∧ r.val < vd.val + (rows.val + 1) / 8) := by
      have hlt : r < vd ↔ r.val < vd.val := Iff.rfl
      omega
    rw [Dev.vlanes, Dev.vlanes, tile_onTile_self, getElem_drainRegs, if_neg hout, htile]
  · rw [tile_onTile_self, htile]
  · rw [tile_onTile_self, htile]
  · rw [tile_onTile_ne _ _ hk, hothers k hk]

theorem drain_store_effect (hplace : 64 * (daddr.toNat + rows.val * dstride.toNat) + 256 ≤ tsBytes) :
    ∃ e : Dev, exec (.drain p half odd 1 scl zero atid acc rows vd daddr dstride) s = .next (s.put e) ∧
      s.dev.drainKept e p.tile m zero acc rows ∧
      (4 ≤ dstride.toNat ∨ rows = 0 → ∀ (j : Nat) (c : Fin 64), j ≤ rows.val →
        e.tsLe p.tile (64 * (daddr.toNat + j * dstride.toNat) + 4 * c.val) 4 =
          (s.dev.drainVal p.tile m atid.toNat scl (acc.val + j) c).toNat) ∧
      (∀ a, (∀ j, j ≤ rows.val → a < 64 * (daddr.toNat + j * dstride.toNat) ∨ 64 * (daddr.toNat + j * dstride.toNat) + 256 ≤ a) →
        memGet (e.tile p.tile).store a = memGet (s.dev.tile p.tile).store a) ∧
      (e.tile p.tile).vreg = (s.dev.tile p.tile).vreg ∧ (e.tile p.tile).dram = (s.dev.tile p.tile).dram ∧ s.dev.onlyTile e p.tile := by
  rw [exec_drain_store hf hi hm hrows hscale hplace]
  refine ⟨_, rfl, drainKept_congr (drainKept_zero s.dev p.tile m zero acc rows) (by rw [tile_onTile_self]), fun hstride j c hj => ?_,
    fun a ha => ?_, ?_, ?_, fun k hk => ?_⟩
  all_goals obtain ⟨htile, hothers, -⟩ := mangleOnly_drainZero s.dev p.tile m zero acc (rows.val + 1)
  all_goals have hlen : ∀ j, (wordBytes (s.dev.drainRows p.tile m atid.toNat scl acc (rows.val + 1) j).toList).length = 256 :=
    fun j => by rw [wordBytes_length, Vector.length_toList]
  · have hlater : ∀ i, i < rows.val + 1 → j < i →
        64 * (daddr.toNat + j * dstride.toNat) + 256 ≤ 64 * (daddr.toNat + i * dstride.toNat) := by
      intro i hi hlt
      have hstep : (j + 1) * dstride.toNat ≤ i * dstride.toNat := Nat.mul_le_mul_right _ hlt
      have hzero : rows = 0 → rows.val = 0 := fun h => by rw [h]; rfl
      rw [Nat.add_mul, Nat.one_mul] at hstep
      omega
    have hrow := memBytes_putRows (fun j => 64 * (daddr.toNat + j * dstride.toNat))
      (fun j => wordBytes (s.dev.drainRows p.tile m atid.toNat scl acc (rows.val + 1) j).toList) (rows.val + 1)
      ((if zero then s.dev.drainZero p.tile m acc (rows.val + 1) else s.dev).tile p.tile).store (j := j) (by omega)
      (fun i hi hlt => by rw [hlen]; exact hlater i hi hlt)
    rw [wordBytes_length] at hrow
    rw [Dev.tsLe, tile_onTile_self, ← drainRows_val s.dev p.tile m acc (k := rows.val + 1) (by omega) c hscale]
    refine (memLe_word hrow (c := c.val) (by rw [Vector.length_toList]; exact c.isLt)).trans ?_
    rw [Vector.getElem_toList]
    rfl
  · rw [tile_onTile_self]
    refine (memGet_putRows_out _ _ _ _ fun j hj => ?_).trans (by rw [htile])
    rw [hlen]
    exact ha j (by omega)
  · rw [tile_onTile_self, htile]
  · rw [tile_onTile_self, htile]
  · rw [tile_onTile_ne _ _ hk, hothers k hk]

end

/-- Settles O30: MMA by what it makes of each Mangle that MSEL names; DRAIN by the rows that it takes, the Mangle that it leaves, and the
places that it writes. -/
theorem mangleRows : Obligations.MangleRows := by
  constructor
  · intro s p n half msel afmt sw clr atid rows acc aaddr astride saddr hf hn hi hsel hfmt hrows hslice
    subst hn
    refine ⟨fun hpanel => ?_, exec_mma_noShadow hf hi hsel hfmt hrows hslice⟩
    obtain ⟨e, he, hkept, hdone, htile, hothers, hout⟩ := exec_mma_good (clr := clr) (atid := atid) (saddr := saddr) hf hi hsel hfmt hrows
      hslice fun i hmem => (hpanel i hmem).imp fun q hq => hq.elim fun f hq => hq.1
    refine ⟨e, he, hkept, fun i hmem q f hq hformat => ?_, htile, hothers, hout⟩
    obtain ⟨q', -, hq', herr, -⟩ := hpanel i hmem
    obtain rfl : q = q' := Option.some.inj (hq.symm.trans hq')
    exact hdone i hmem q f hq herr hformat
  · intro s p n half odd scl zero atid acc rows vd daddr dstride m hf hn hi hm hrows hscale
    subst hn
    exact ⟨drain_store_effect hf hi hm hrows hscale, drain_regs_effect hf hi hm hrows hscale⟩

end Sys2Proof.Machine
end

section
/-! States that meet the hypotheses of the statement on MMA and DRAIN. -/

namespace Sys2Proof.Machine

open Reg

/-- A dense K4F panel of tensor 7 with the scale 1.0: its header. -/
def mangleImage : List Byte := (WringJob.header ⟨7, .k4f, 32, 7, 0x3F800000, none, 0⟩)

/-- The package after reset with a pass running on tile 0, whose Mangle 0 holds that panel as the active one. -/
def mangleWitness : State :=
  State.reset.put ((State.reset.dev.setF (TCTL_PASS_STATUS_STATE 0) 1).setMangle 0 0
    { Mangle.reset with active := some ⟨mangleImage, false⟩ })

/-- The first row of a product that begins with CLR takes the panel's scale for its tag. -/
theorem mangleRows_first_row : ∃ e : Dev,
    exec (.mma ⟨0, 0, 0⟩ 0 1 false true false 0 7 0 0 0 0 0) mangleWitness = .next (mangleWitness.put e) ∧
    ((e.mangle 0 0).acc[0]).tag = 0x3F800000 := by
  obtain ⟨hgood, -⟩ := mangleRows.1 mangleWitness ⟨0, 0, 0⟩ 0 0 1 0 false true 7 0 0 0 0 0 (by decide +kernel) rfl
    (by decide +kernel) (by decide) (by decide) (by decide) (by decide +kernel)
  have hpanel : ∀ i ∈ mselSet 0 (1 : BitVec 2).toNat, (mangleWitness.dev.mangle 0 i).panel false = some ⟨mangleImage, false⟩ := by
    decide +kernel
  obtain ⟨e, he, -, hrow, -⟩ := hgood fun i hi => ⟨_, .k4f, hpanel i hi, rfl, by decide +kernel⟩
  obtain ⟨-, -, -, htag⟩ := hrow 0 (by decide) _ .k4f (hpanel 0 (by decide)) (by decide +kernel)
  obtain ⟨htag, -⟩ := htag 0 (by decide) (by decide)
  exact ⟨e, he, htag.trans (by decide +kernel)⟩

/-- Mangle 0 has no shadow panel: a swap faults. -/
theorem mangleRows_no_shadow : ∃ e : Dev,
    exec (.mma ⟨0, 0, 0⟩ 0 1 true true false 0 7 0 0 0 0 0) mangleWitness = .next (mangleWitness.put e) ∧
    e.getF (TCTL_SFAULT_INFO_CAUSE 0) = 8 := by
  obtain ⟨-, hfault⟩ := mangleRows.1 mangleWitness ⟨0, 0, 0⟩ 0 0 1 0 true true 7 0 0 0 0 0 (by decide +kernel) rfl
    (by decide +kernel) (by decide) (by decide) (by decide) (by decide +kernel)
  obtain ⟨e, he, hcause, -⟩ := hfault rfl ⟨0, by decide, by decide +kernel⟩
  exact ⟨e, he, hcause⟩

/-- Row 0 of Mangle 0 drained to the start of tile store: its first word is the row's first value, 0. -/
theorem mangleRows_drain_row : ∃ e : Dev,
    exec (.drain ⟨0, 0, 0⟩ 0 false 1 false false 7 0 0 0 0 0) mangleWitness = .next (mangleWitness.put e) ∧ e.tsLe 0 0 4 = 0 := by
  obtain ⟨hstore, -⟩ := mangleRows.2 mangleWitness ⟨0, 0, 0⟩ 0 0 false false false 7 0 0 0 0 0 0 (by decide +kernel) rfl
    (by decide +kernel) rfl (by decide) (fun h => absurd h Bool.false_ne_true)
  obtain ⟨e, he, -, hval, -⟩ := hstore (by decide)
  exact ⟨e, he, (hval (.inr rfl) 0 0 (by decide)).trans (by decide +kernel)⟩

end Sys2Proof.Machine
end

section
/-! Copies in groups (R121, R132): a copy between memories byte by byte, and the mover's groups whose writes lag behind their reads. -/

namespace Sys2Proof.Machine

open Reg

/-! A copy in rows. -/

/-- `len` bytes from `a` of a memory, written from `b` on in rows of `w` bytes, the last one shorter. -/
theorem memGet_putRows_copy (src m : Mem) (a b : Nat) {w len count : Nat} (hw : 0 < w) (hlen : len ≤ w * count) (x : Nat) :
    memGet (putRows (fun g => b + w * g) (fun g => memBytes src (a + w * g) (min w (len - w * g))) count m) x =
      if b ≤ x ∧ x < b + len then memGet src (a + (x - b)) else memGet m x := by
  split
  case isTrue h =>
    have hdiv := Nat.div_add_mod (x - b) w
    have hmod := Nat.mod_lt (x - b) hw
    have hg : (x - b) / w < count := Nat.div_lt_of_lt_mul (by omega)
    rw [memGet_putRows_in _ _ _ _ hg]
    · rw [getD_memBytes _ _ (by omega)]
      congr 1
      omega
    · rw [memBytes_length]
      omega
    · intro i _ hi
      have hstep : w * ((x - b) / w + 1) ≤ w * i := Nat.mul_le_mul_left w hi
      rw [Nat.mul_add, Nat.mul_one] at hstep
      omega
  case isFalse h =>
    refine memGet_putRows_out _ _ _ _ fun j _ => ?_
    rw [memBytes_length]
    omega

/-! Groups (R132). -/

section
variable {α : Type} (d : Dev) (val : Nat → α) (rd : Dev → Nat → α × Dev) (wr : Dev → Nat → α → Dev)

/-- The first `k` groups written. -/
def groupsWritten (k : Nat) : Dev := (List.range k).foldl (fun d g => wr d g (val g)) d

theorem groupsWritten_succ (k : Nat) : groupsWritten d val wr (k + 1) = wr (groupsWritten d val wr k) k (val k) := by
  simp [groupsWritten, List.range_succ]

/-- The groups read and not yet written after `k` steps of a transfer. -/
def groupsPending (count lag k : Nat) : List α := ((List.range (min k count)).drop (k - lag)).map val

theorem groupsPending_cons {count lag k : Nat} (hlag : 0 < lag) (h : lag ≤ k) (hk : k < count + lag) :
    groupsPending val count lag k = val (k - lag) :: ((List.range (min k count)).drop (k - lag + 1)).map val := by
  have hlt : k - lag < (List.range (min k count)).length := by rw [List.length_range]; omega
  rw [groupsPending, List.drop_eq_getElem_cons hlt, List.map_cons, List.getElem_range]

theorem groupsPending_snoc {count k : Nat} (j : Nat) (hj : j ≤ min k count) :
    (((List.range (min k count)).drop j).map val) ++ (if k < count then [val k] else []) =
      ((List.range (min (k + 1) count)).drop j).map val := by
  split
  case isTrue h =>
    rw [Nat.min_eq_left h.le, Nat.min_eq_left h, List.range_succ, List.drop_append_of_le_length (by rw [List.length_range]; omega),
      List.map_append]
    rfl
  case isFalse h => rw [Nat.min_eq_right (by omega), Nat.min_eq_right (by omega), List.append_nil]

/-- One step of a transfer: the write of the group `lag` steps before, then the read of its own. -/
def groupStep (count lag : Nat) (x : Dev × List α) (k : Nat) : Dev × List α :=
  let x : Dev × List α :=
    if lag ≤ k then
      match x.2 with
      | a :: t => (wr x.1 (k - lag) a, t)
      | [] => x
    else x
  if k < count then ((rd x.1 k).2, x.2 ++ [(rd x.1 k).1]) else x

theorem grouped_steps (count lag : Nat) :
    d.grouped count lag rd wr = ((List.range (count + lag)).foldl (groupStep rd wr count lag) (d, [])).1 := rfl

section
variable {count lag : Nat} (hlag : 0 < lag)
  (hrd : ∀ j k, k < count → rd (groupsWritten d val wr j) k = (val k, groupsWritten d val wr j))
include hlag hrd

theorem groupStep_written {k : Nat} (hk : k < count + lag) :
    groupStep rd wr count lag (groupsWritten d val wr (k - lag), groupsPending val count lag k) k =
      (groupsWritten d val wr (k + 1 - lag), groupsPending val count lag (k + 1)) := by
  have hread : ∀ j, j ≤ min k count → (if k < count then ((rd (groupsWritten d val wr j) k).2,
      ((List.range (min k count)).drop j).map val ++ [(rd (groupsWritten d val wr j) k).1])
      else (groupsWritten d val wr j, ((List.range (min k count)).drop j).map val)) =
      (groupsWritten d val wr j, ((List.range (min (k + 1) count)).drop j).map val) := by
    intro j hj
    rw [← groupsPending_snoc val j hj]
    split
    case isTrue h => rw [hrd j k h]
    case isFalse h => rw [List.append_nil]
  by_cases h : lag ≤ k
  · have hsub : k + 1 - lag = k - lag + 1 := by omega
    rw [groupStep, groupsPending_cons val hlag h hk, hsub]
    simp only [if_pos h, ← groupsWritten_succ]
    rw [hread _ (by omega), groupsPending, hsub]
  · have h0 : k - lag = 0 := by omega
    have h1 : k + 1 - lag = 0 := by omega
    rw [groupStep, groupsPending, groupsPending, h0, h1]
    simp only [if_neg h]
    exact hread 0 (Nat.zero_le _)

/-- A transfer whose reads see nothing of its own writes: every group is written with what it held. -/
theorem grouped_eq : d.grouped count lag rd wr = groupsWritten d val wr count := by
  have hinv : ∀ k, k ≤ count + lag → (List.range k).foldl (groupStep rd wr count lag) (d, []) =
      (groupsWritten d val wr (k - lag), groupsPending val count lag k) := by
    intro k
    induction k with
    | zero => exact fun _ => by simp [groupsWritten, groupsPending]
    | succ k ih =>
      intro hk
      rw [List.range_succ, List.foldl_append, ih (by omega), List.foldl_cons, List.foldl_nil, groupStep_written d val rd wr hlag hrd hk]
  rw [grouped_steps, hinv _ (le_refl _), Nat.add_sub_cancel]

end

end

end Sys2Proof.Machine
end

section
/-! The mover's copies inside a tile (R121, R132, R164, R246). -/

namespace Sys2Proof.Machine

open Reg

theorem memBytes_congr {m m' : Mem} {a k : Nat} (h : ∀ x, a ≤ x → x < a + k → memGet m x = memGet m' x) :
    memBytes m a k = memBytes m' a k :=
  List.map_congr_left fun i hi => h (a + i) (by omega) (by have := List.mem_range.mp hi; omega)

/-! Tile store to tile store. -/

/-- Groups of a copy inside tile store, each from `a` and to `b`. -/
theorem groupsWritten_tsWrite (d : Dev) (n : Fin 32) (place : Nat → Nat) (row : Nat → List Byte) (k : Nat) :
    groupsWritten d row (fun d g l => d.tsWrite n (place g) l) k =
      d.onTile n fun t => { t with store := putRows place row k t.store } := foldl_tsWrite d n place row k

/-- The groups of a transfer cover it and do not pass its end. -/
theorem groups_cover (units : Nat) {size : Nat} (hsize : 0 < size) : units ≤ size * groupsOf units size := by
  have hdiv := Nat.div_add_mod (units + size - 1) size
  have hmod := Nat.mod_lt (units + size - 1) hsize
  rw [groupsOf]
  omega

theorem group_within {units size g : Nat} (hg : g < groupsOf units size) : size * g + groupUnits units size g ≤ units := by
  have hlast : size * (g + 1) ≤ units + size - 1 := Nat.mul_le_of_le_div _ _ _ hg |>.trans_eq' (Nat.mul_comm _ _)
  rw [Nat.mul_add, Nat.mul_one] at hlast
  rw [groupUnits]
  omega

theorem copyStore_eq (d : Dev) (n : Fin 32) {a b units size : Nat} (hsize : 0 < size)
    (hsep : a + 64 * units ≤ b ∨ b + 64 * units ≤ a) :
    ∃ m, d.copyStore n a b units size = d.onTile n (fun t => { t with store := m }) ∧
      ∀ x, memGet m x = if b ≤ x ∧ x < b + 64 * units then memGet (d.tile n).store (a + (x - b)) else memGet (d.tile n).store x := by
  have hrow : ∀ g, memBytes (d.tile n).store (a + 64 * size * g) (64 * groupUnits units size g) =
      memBytes (d.tile n).store (a + 64 * size * g) (min (64 * size) (64 * units - 64 * size * g)) := by
    intro g
    rw [groupUnits, Nat.mul_assoc]
    congr 1
    omega
  have hcount : 64 * units ≤ 64 * size * groupsOf units size := by
    rw [Nat.mul_assoc]
    exact Nat.mul_le_mul_left 64 (groups_cover units hsize)
  have hcopy := memGet_putRows_copy (d.tile n).store (d.tile n).store a b (by omega) hcount
  refine ⟨_, ?_, hcopy⟩
  unfold Dev.copyStore
  rw [grouped_eq d (fun g => memBytes (d.tile n).store (a + 64 * size * g) (min (64 * size) (64 * units - 64 * size * g))) _ _ (by decide),
    groupsWritten_tsWrite]
  · simp only [Dev.onTile]
  · intro j k hk
    refine Prod.ext ?_ rfl
    rw [← hrow, groupsWritten_tsWrite, Dev.tsRead, tile_onTile_self]
    refine memBytes_congr fun x hx hlt => memGet_putRows_out _ _ _ _ fun i _ => ?_
    have hwithin := group_within hk
    rw [Nat.mul_assoc] at hx hlt
    rw [memBytes_length]
    omega

/-! DRAM to tile store. -/

/-- Nothing of the tiles but the Darner of tile `n`, its poison aside, differs, and nothing is sent: what a read of DRAM leaves. -/
def Dev.darnerOnly (n : Fin 32) (d e : Dev) : Prop :=
  (∃ w, e.tile n = { d.tile n with darner := w } ∧ w.poison = (d.darner n).poison) ∧ d.onlyTile e n ∧ e.out = d.out

theorem Dev.darnerOnly.refl (n : Fin 32) (d : Dev) : d.darnerOnly n d := ⟨⟨d.darner n, rfl, rfl⟩, fun _ _ => rfl, rfl⟩

theorem Dev.darnerOnly.trans {n : Fin 32} {d e x : Dev} (h : d.darnerOnly n e) (g : e.darnerOnly n x) : d.darnerOnly n x := by
  obtain ⟨⟨w, htile, hpoison⟩, hothers, hout⟩ := h
  obtain ⟨⟨w', htile', hpoison'⟩, hothers', hout'⟩ := g
  refine ⟨⟨w', by rw [htile', htile], ?_⟩, fun m hm => (hothers' m hm).trans (hothers m hm), hout'.trans hout⟩
  rw [hpoison', Dev.darner, htile, hpoison]

theorem darnerOnly_of_tiles {n : Fin 32} {d e : Dev} (ht : e.tiles = d.tiles) (ho : e.out = d.out) : d.darnerOnly n e :=
  ⟨⟨d.darner n, tile_congr ht n, rfl⟩, fun m _ => tile_congr ht m, ho⟩

theorem darnerOnly_onDarner (d : Dev) (n : Fin 32) (f : Darner → Darner) (hf : ∀ w, (f w).poison = w.poison) :
    d.darnerOnly n (d.onDarner n f) :=
  ⟨⟨f (d.darner n), tile_onTile_self d n _, hf _⟩, fun _ hm => tile_onTile_ne d _ hm, rfl⟩

theorem Dev.darnerOnly.fields {n : Fin 32} {d e : Dev} (h : d.darnerOnly n e) : (e.tile n).dram = (d.tile n).dram ∧
    (e.tile n).store = (d.tile n).store ∧ ∀ l, e.poisoned n l = d.poisoned n l := by
  obtain ⟨⟨w, htile, hpoison⟩, -⟩ := h
  have hdarner : e.darner n = w := by rw [Dev.darner, htile]
  exact ⟨by rw [htile], by rw [htile], fun l => by rw [Dev.poisoned, Dev.poisoned, hdarner, hpoison]⟩

theorem darnerOnly_ceSeen (d : Dev) (n : Fin 32) (k : Nat) : d.darnerOnly n (d.ceSeen n k) := by
  have hcount : d.darnerOnly n ((d.satAdd (MEM_CE_COUNT n) k).onDarner n fun w => { w with ce := w.ce + k }) :=
    (darnerOnly_of_tiles (tiles_satAdd _ _ _) (out_satAdd _ _ _)).trans (darnerOnly_onDarner _ n _ fun _ => rfl)
  unfold Dev.ceSeen
  dsimp only
  split
  · exact (hcount.trans (darnerOnly_onDarner _ n (fun w => { w with ceOver := true }) fun _ => rfl)).trans
      (darnerOnly_of_tiles (tiles_latch _ _ _) (out_latch _ _ _))
  · exact hcount

/-- A read of a line with nothing wrong (R163). -/
theorem dramRead_clean {d : Dev} {n : Fin 32} {l : Nat} (source : Nat) (h : d.poisoned n l = false) :
    ∃ e, d.dramRead n l source cleanRep = (d.dramLine n l, false, e) ∧ d.darnerOnly n e := by
  have hseen : d.darnerOnly n ((d.ceSeen n 0).satAdd (MEM_LINK_CE_COUNT n) 0) :=
    (darnerOnly_ceSeen d n 0).trans (darnerOnly_of_tiles (tiles_satAdd _ _ _) (out_satAdd _ _ _))
  refine ⟨_, ?_, hseen⟩
  have hline : ((d.ceSeen n 0).satAdd (MEM_LINK_CE_COUNT n) 0).dramLine n l = d.dramLine n l := by
    rw [Dev.dramLine, Dev.dramLine, hseen.fields.1]
  simp [Dev.dramRead, cleanRep, h, hline]

/-- Foreground reads of lines with nothing wrong. -/
theorem fgRead_clean {d : Dev} {n : Fin 32} (line k : Nat) (h : ∀ l, d.poisoned n l = false) :
    ∃ e, d.fgRead n [] line k = ((List.range k).map fun i => (d.dramLine n (line + i), false), e) ∧ d.darnerOnly n e := by
  induction k with
  | zero => exact ⟨d, rfl, .refl n d⟩
  | succ k ih =>
    obtain ⟨e, he, honly⟩ := ih
    obtain ⟨hdram, -, hpoison⟩ := honly.fields
    obtain ⟨x, hx, hread⟩ := dramRead_clean (d := e) (n := n) (l := line + k) 0 ((hpoison _).trans (h _))
    obtain ⟨htiles, -, hout⟩ := (countOnly_count x n 0x10 1).fields
    refine ⟨x.count (.tile n) 0x10 1, ?_, (honly.trans hread).trans (darnerOnly_of_tiles htiles hout)⟩
    have hline : e.dramLine n (line + k) = d.dramLine n (line + k) := by rw [Dev.dramLine, Dev.dramLine, hdram]
    have hrep : repOf [] (line + k) = cleanRep := rfl
    rw [Dev.fgRead, List.range_succ, List.foldl_append, ← Dev.fgRead, he, List.foldl_cons, List.foldl_nil]
    simp only [hrep, hx, hline, List.map_append, List.map_cons, List.map_nil]

theorem memBytes_add (m : Mem) (a j k : Nat) : memBytes m a (j + k) = memBytes m a j ++ memBytes m (a + j) k := by
  simp [memBytes, List.range_add, Nat.add_assoc]

/-- Lines read one after the other are the bytes of the memory. -/
theorem lineData_lines (d : Dev) (n : Fin 32) (line k : Nat) :
    lineData ((List.range k).map fun i => (d.dramLine n (line + i), false)) = memBytes (d.tile n).dram (64 * line) (64 * k) := by
  induction k with
  | zero => rfl
  | succ k ih =>
    rw [List.range_succ, List.map_append, lineData, List.flatMap_append, ← lineData, ih, Nat.mul_succ, memBytes_add, ← Nat.mul_add]
    simp [Dev.dramLine]

theorem copyLoad_effect {d : Dev} {n : Fin 32} (line b units : Nat) (h : ∀ l, d.poisoned n l = false) :
    let e := d.copyLoad n [] line b units
    (∀ x, memGet (e.tile n).store x = if b ≤ x ∧ x < b + 64 * units then memGet (d.tile n).dram (64 * line + (x - b))
      else memGet (d.tile n).store x) ∧
    (e.tile n).dram = (d.tile n).dram ∧ d.onlyTile e n ∧ e.out = d.out := by
  obtain ⟨e, he, honly⟩ := fgRead_clean line units h
  obtain ⟨hdram, hstore, -⟩ := honly.fields
  obtain ⟨-, hothers, hout⟩ := honly
  rw [Dev.copyLoad, he, lineData_lines, Dev.tsWrite]
  refine ⟨fun x => ?_, ?_, fun m hm => ?_, hout⟩
  · rw [tile_onTile_self, memGet_memPutBytes, memBytes_length, hstore]
    split
    case isTrue hx => exact getD_memBytes _ _ (by omega)
    case isFalse => rfl
  · rw [tile_onTile_self, hdram]
  · rw [tile_onTile_ne _ _ hm, hothers m hm]

/-! Tile store to DRAM. -/

/-- Beside DRAM the tile's store stays, and the other tiles and what is sent: what a write of DRAM leaves. -/
def Dev.dramSide (n : Fin 32) (d e : Dev) : Prop := (e.tile n).store = (d.tile n).store ∧ d.onlyTile e n ∧ e.out = d.out

theorem Dev.dramSide.refl (n : Fin 32) (d : Dev) : d.dramSide n d := ⟨rfl, fun _ _ => rfl, rfl⟩

theorem Dev.dramSide.trans {n : Fin 32} {d e x : Dev} (h : d.dramSide n e) (g : e.dramSide n x) : d.dramSide n x :=
  ⟨g.1.trans h.1, fun m hm => (g.2.1 m hm).trans (h.2.1 m hm), g.2.2.trans h.2.2⟩

theorem dramSide_onTile (d : Dev) (n : Fin 32) (f : Tile → Tile) (hf : ∀ t, (f t).store = t.store) : d.dramSide n (d.onTile n f) :=
  ⟨by rw [tile_onTile_self, hf], fun _ hm => tile_onTile_ne d f hm, rfl⟩

theorem dramSide_setPoison (d : Dev) (n : Fin 32) (l : Nat) (v : Bool) : d.dramSide n (d.setPoison n l v) :=
  dramSide_onTile d n (fun t => { t with darner := { t.darner with poison := smPut (fun _ => false) t.darner.poison l v } }) fun _ => rfl

/-- A write of a line that its link carries without error (R164, R168). -/
theorem dramWrite_effect (d : Dev) (n : Fin 32) (l : Nat) (data : List Byte) :
    ((d.dramWrite n l data false).tile n).dram = memPutBytes (d.tile n).dram (64 * l) (data.take 64) ∧
      d.dramSide n (d.dramWrite n l data false) := by
  have hcancel : ∀ k, ∃ y : Dev, y = (if k = 0 then d
      else (d.onDarner n fun w => { w with wb := w.wb.filter fun x => x.1 != l }).satAdd (MEM_WB_CANCEL_COUNT n) k) ∧
      (y.tile n).dram = (d.tile n).dram ∧ d.dramSide n y := by
    intro k
    refine ⟨_, rfl, ?_⟩
    split
    · exact ⟨rfl, .refl n d⟩
    · have hdarner := dramSide_onTile d n (fun t => { t with darner := { t.darner with wb := t.darner.wb.filter fun x => x.1 != l } })
        fun _ => rfl
      have htiles := tiles_satAdd (d.onDarner n fun w => { w with wb := w.wb.filter fun x => x.1 != l }) (MEM_WB_CANCEL_COUNT n) k
      refine ⟨?_, ?_⟩
      · rw [tile_congr htiles, Dev.onDarner, tile_onTile_self]
      · obtain ⟨hstore, hothers, hout⟩ := hdarner
        exact ⟨by rw [tile_congr htiles]; exact hstore, fun m hm => (tile_congr htiles m).trans (hothers m hm),
          (out_satAdd _ _ _).trans hout⟩
  obtain ⟨y, hy, hdram, hside⟩ := hcancel ((d.darner n).wb.filter fun w => w.1 == l).length
  have hwrite : d.dramWrite n l data false =
      (y.onTile n fun t => { t with dram := memPutBytes t.dram (64 * l) (data.take 64) }).setPoison n l false := by
    rw [hy]
    rfl
  rw [hwrite]
  refine ⟨?_, (hside.trans (dramSide_onTile y n (fun t => { t with
    dram := memPutBytes t.dram (64 * l) (data.take 64) }) fun _ => rfl)).trans (dramSide_setPoison _ n l false)⟩
  rw [Dev.setPoison, Dev.onDarner, tile_onTile_self, tile_onTile_self, hdram]

/-- Foreground writes of good lines, with no link error. -/
theorem fgWrite_effect (d : Dev) (n : Fin 32) (line : Nat) (row : Nat → List Byte) (k : Nat) :
    let e := d.fgWrite n [] line ((List.range k).map fun i => (row i, false))
    (e.tile n).dram = putRows (fun i => 64 * (line + i)) (fun i => (row i).take 64) k (d.tile n).dram ∧ d.dramSide n e := by
  have hzip : ((List.range k).map fun i => (row i, false)).zipIdx = (List.range k).map fun i => ((row i, false), i) := by
    apply List.ext_getElem <;> simp
  dsimp only
  rw [Dev.fgWrite, hzip, List.foldl_map]
  clear hzip
  induction k with
  | zero => exact ⟨rfl, .refl n d⟩
  | succ k ih =>
    obtain ⟨hdram, hside⟩ := ih
    rw [List.range_succ, List.foldl_append, List.foldl_cons, List.foldl_nil]
    generalize (List.range k).foldl _ d = x at hdram hside ⊢
    obtain ⟨hwrite, hkept⟩ := dramWrite_effect x n (line + k) (row k)
    have hheld := dramSide_onTile (x.dramWrite n (line + k) (row k) false) n (fun t => { t with delud := { t.delud with
      held := t.delud.held.map fun h => if h.line = line + k ∧ h.data.isSome then { h with data := some ((row k).take 64) } else h } })
      fun _ => rfl
    obtain ⟨htiles, -, hout⟩ := (countOnly_count ((x.dramWrite n (line + k) (row k) false).heldApply n (line + k) (row k)) n 0x10 1).fields
    obtain ⟨hstore, hothers, hsent⟩ := (hside.trans hkept).trans hheld
    refine ⟨?_, ?_, fun m hm => ?_, ?_⟩
    · refine (congrArg Tile.dram (tile_congr htiles n)).trans ?_
      rw [Dev.heldApply, tile_onTile_self, putRows_succ, ← hdram, ← hwrite]
    · exact (congrArg Tile.store (tile_congr htiles n)).trans hstore
    · exact (tile_congr htiles m).trans (hothers m hm)
    · exact hout.trans hsent

/-- The lines of a run of bytes. -/
theorem asLines_memBytes (m : Mem) (a units : Nat) : asLines (memBytes m a (64 * units)) =
    (List.range units).map fun i => (memBytes m (a + 64 * i) (min 64 (64 * units - 64 * i)), false) := by
  have hcount : (64 * units + 63) / 64 = units := by omega
  rw [asLines, memBytes_length, hcount]
  refine List.map_congr_left fun i hi => ?_
  have hlt := List.mem_range.mp hi
  rw [← memBytes_slice m a (by omega), Nat.min_eq_left (by omega)]

theorem copySave_effect (d : Dev) (n : Fin 32) (a line units : Nat) :
    let e := d.copySave n [] a line units
    (∀ x, memGet (e.tile n).dram x = if 64 * line ≤ x ∧ x < 64 * line + 64 * units then memGet (d.tile n).store (a + (x - 64 * line))
      else memGet (d.tile n).dram x) ∧ d.dramSide n e := by
  obtain ⟨hdram, hside⟩ := fgWrite_effect d n line (fun i => memBytes (d.tile n).store (a + 64 * i) (min 64 (64 * units - 64 * i))) units
  have hrow : ∀ i, (memBytes (d.tile n).store (a + 64 * i) (min 64 (64 * units - 64 * i))).take 64 =
      memBytes (d.tile n).store (a + 64 * i) (min 64 (64 * units - 64 * i)) :=
    fun i => List.take_of_length_le (by rw [memBytes_length]; omega)
  dsimp only
  rw [Dev.copySave, Dev.tsRead, asLines_memBytes]
  refine ⟨fun x => ?_, hside⟩
  rw [hdram]
  simp only [hrow, Nat.mul_add]
  exact memGet_putRows_copy _ _ _ _ (by decide) (le_refl _) x

/-! A panel load. -/

theorem loadPanel_effect (d : Dev) (n : Fin 32) (i : Fin 4) (image : List Byte) :
    let e := d.loadPanel n i image
    e.mangle n i = { d.mangle n i with shadow := some ⟨image, (headerCause image).isSome⟩ } ∧
      (∀ j, j ≠ i → e.mangle n j = d.mangle n j) ∧ d.mangleOnly n e := by
  obtain ⟨x, hx⟩ : ∃ x, x = d.setMangle n i { d.mangle n i with shadow := some ⟨image, (headerCause image).isSome⟩ } := ⟨_, rfl⟩
  have htiles : (d.loadPanel n i image).tiles = x.tiles ∧ (d.loadPanel n i image).out = x.out := by
    unfold Dev.loadPanel
    dsimp only
    rw [← hx]
    cases headerCause image with
    | some c => exact ⟨by simp, by simp⟩
    | none => dsimp only; split <;> simp
  dsimp only
  refine ⟨?_, fun j hj => ?_, mangleOnly_of_tiles (mangleOnly_setMangle d n i _) (htiles.1.trans (by rw [hx]))
    (htiles.2.trans (by rw [hx]))⟩
  · rw [mangle_congr htiles.1, hx, mangle_setMangle_self]
  · rw [mangle_congr htiles.1, hx, mangle_setMangle_ne _ _ _ hj]

/-! Pegs (R246). -/

/-- The depths shown change only the register that shows them. -/
theorem pegDepth_effect (d : Dev) (n : Fin 32) : (d.pegDepth n).tiles = d.tiles ∧ d.keepsRegs (d.pegDepth n) [HMP_PEGQ n] := by
  refine ⟨by simp [Dev.pegDepth], fun o ho => ?_⟩
  have hne : o ≠ HMP_PEGQ n := fun h => ho (List.mem_singleton.mpr h)
  rw [Dev.pegDepth, getR_setF, if_neg hne, getR_setF, if_neg hne]

/-! The commands. -/

section
variable {s : State} {p : Issue} {len : BitVec 16} {a b : BitVec 29} {pkg : BitVec 17} {t : Fin 32} {bulk : Bool}
  {reps : List (Nat × EccRep)} {wues : List Nat} (hf : s.dev.frozen = false)
include hf

section
variable (hi : s.dev.issues p.tile 3 = true)
include hi

theorem exec_mcopy_storeToStore (ha : 64 * a.toNat + 64 * (len.toNat + 1) ≤ tsBytes) (hb : 64 * b.toNat + 64 * (len.toNat + 1) ≤ tsBytes) :
    exec (.mcopy p 0 0 len a b pkg t bulk reps wues) s =
      .next (s.put (s.dev.copyStore p.tile (64 * a.toNat) (64 * b.toNat) (len.toNat + 1) 16)) := by
  change execMcopy p 0 0 len a b pkg t bulk reps wues s = _
  refine onRun_eq hf ?_
  rw [issue_effect _ hi]
  · rfl
  · have ha' : a.toNat + (len.toNat + 1) ≤ 2 ^ 20 := by rw [tsBytes] at ha; omega
    have hb' : b.toNat + (len.toNat + 1) ≤ 2 ^ 20 := by rw [tsBytes] at hb; omega
    simpa [mcopyBad, endBad] using And.intro ha' hb'

theorem exec_mcopy_dramToStore (ha : 2 ^ 15 ≤ a.toNat) (hend : a.toNat + len.toNat + 1 ≤ 2 ^ 29)
    (hb : 64 * b.toNat + 64 * (len.toNat + 1) ≤ tsBytes) :
    exec (.mcopy p 1 0 len a b pkg t bulk reps wues) s =
      .next (s.put (s.dev.copyLoad p.tile reps a.toNat (64 * b.toNat) (len.toNat + 1))) := by
  change execMcopy p 1 0 len a b pkg t bulk reps wues s = _
  refine onRun_eq hf ?_
  rw [issue_effect _ hi]
  · exact if_neg (by omega)
  · have hb' : b.toNat + (len.toNat + 1) ≤ 2 ^ 20 := by rw [tsBytes] at hb; omega
    have ha' : a.toNat + (len.toNat + 1) ≤ 2 ^ 29 := hend
    have hlow : a.toNat < 2 ^ 15 → pegRead 1 0 a.toNat (len.toNat + 1) = true := fun h => absurd h (by omega)
    simpa [mcopyBad, endBad] using And.intro (And.intro ha' hb') hlow

theorem exec_mcopy_storeToDram (ha : 64 * a.toNat + 64 * (len.toNat + 1) ≤ tsBytes) (hb : 2 ^ 15 ≤ b.toNat)
    (hend : b.toNat + len.toNat + 1 ≤ 2 ^ 29) :
    exec (.mcopy p 0 1 len a b pkg t bulk reps wues) s =
      .next (s.put (s.dev.copySave p.tile wues (64 * a.toNat) b.toNat (len.toNat + 1))) := by
  change execMcopy p 0 1 len a b pkg t bulk reps wues s = _
  refine onRun_eq hf ?_
  rw [issue_effect _ hi]
  · exact if_neg (by omega)
  · have ha' : a.toNat + (len.toNat + 1) ≤ 2 ^ 20 := by rw [tsBytes] at ha; omega
    have hb' : b.toNat + (len.toNat + 1) ≤ 2 ^ 29 := hend
    have hlow : b.toNat < 2 ^ 15 → pegWrite 0 1 b.toNat (len.toNat + 1) = true := fun h => absurd h (by omega)
    simpa [mcopyBad, endBad] using And.intro (And.intro ha' hb') hlow

theorem exec_mcopy_panel (ha : 64 * a.toNat + 64 * (len.toNat + 1) ≤ tsBytes) (hpanel : isPanelUnits (len.toNat + 1) = true)
    {i : Fin 4} (hb : b = BitVec.ofNat 29 i) :
    exec (.mcopy p 0 3 len a b pkg t bulk reps wues) s =
      .next (s.put (s.dev.loadPanel p.tile i (s.dev.tsRead p.tile (64 * a.toNat) (64 * (len.toNat + 1))))) := by
  have hlt : b.toNat = i.val := by
    rw [hb, BitVec.toNat_ofNat]
    exact Nat.mod_eq_of_lt (by omega)
  have hindex : Fin.ofNat 4 b.toNat = i := Fin.ext (by rw [hlt]; exact Nat.mod_eq_of_lt i.isLt)
  change execMcopy p 0 3 len a b pkg t bulk reps wues s = _
  refine onRun_eq hf ?_
  rw [issue_effect _ hi]
  · change s.dev.loadPanel p.tile (Fin.ofNat 4 b.toNat) _ = _
    rw [hindex]
  · have ha' : a.toNat + (len.toNat + 1) ≤ 2 ^ 20 := by rw [tsBytes] at ha; omega
    have h4 : b.toNat < 4 := by omega
    simpa [mcopyBad, endBad, hpanel, h4] using ha'

end

theorem exec_pegPush {n : Fin 32} (q : Fin 2) (peg : BitVec 128) :
    ((s.dev.tile n).pq[q].length < 1024 → ∃ e : Dev, exec (.pegPush n q peg) s = .next (s.put e) ∧
      (e.tile n).pq = (s.dev.tile n).pq.set q ((s.dev.tile n).pq[q] ++ [pegOf peg]) ∧ s.dev.onlyTile e n ∧
      e.tile n = { s.dev.tile n with pq := (e.tile n).pq } ∧ s.dev.keepsRegs e [HMP_PEGQ n]) ∧
    (1024 ≤ (s.dev.tile n).pq[q].length → exec (.pegPush n q peg) s = .next s) := by
  refine ⟨fun h => ?_, fun h => ?_⟩
  · let d := s.dev.onTile n fun t => { t with pq := t.pq.set q (t.pq[q] ++ [pegOf peg]) }
    obtain ⟨htiles, hregs⟩ := pegDepth_effect d n
    have htile : (d.pegDepth n).tile n = { s.dev.tile n with pq := (s.dev.tile n).pq.set q ((s.dev.tile n).pq[q] ++ [pegOf peg]) } :=
      (tile_congr htiles n).trans (tile_onTile_self _ _ _)
    refine ⟨d.pegDepth n, ?_, by rw [htile], fun m hm => (tile_congr htiles m).trans (tile_onTile_ne _ _ hm), by rw [htile], hregs⟩
    change execPegPush n q peg s = _
    exact onRun_eq hf (if_neg (by omega))
  · change execPegPush n q peg s = _
    exact onRun_eq hf (if_pos h)

end

end Sys2Proof.Machine
end

section
/-! Counted events of a block (R465 to R467): what every step of a count keeps, the count keeps. -/

namespace Sys2Proof.Machine

open Reg

section
variable {b : PmcBlock} {R : Dev → Dev → Prop} (hrefl : ∀ x, R x x) (htrans : ∀ {x y z}, R x y → R y z → R x z)
  (hpair : ∀ x c v, c ≤ pmcSize b → R x (x.setPair (PMC_CNT_LO (pmcBase b) c) (PMC_CNT_HI (pmcBase b) c) v))
  (hlatch : ∀ x c, R x (x.latch (pmcGroup b) c))
include htrans hpair hlatch

theorem pmcStep_closed (d : Dev) {c : Nat} (k : Nat) (hc : c ≤ pmcSize b) : R d (d.pmcStep b c k).2 := by
  obtain h | h := pmcStep_package d b c k <;> rw [h]
  · exact hpair _ _ _ hc
  · exact htrans (hpair _ _ _ hc) (hlatch _ _)

theorem pmcAdd_closed (d : Dev) {c : Nat} (k : Nat) (hc : c < pmcSize b) : R d (d.pmcAdd b c k) := by
  have hstep := pmcStep_closed (R := R) htrans hpair hlatch d k (Nat.le_of_lt hc)
  unfold Dev.pmcAdd
  dsimp only
  split
  · exact htrans hstep (pmcStep_closed (R := R) htrans hpair hlatch _ 1 hc)
  · exact hstep

include hrefl

/-- A count is a run of additions to counters and of latched overflows. -/
theorem count_closed (d : Dev) (ev k : Nat) : R d (d.count b ev k) := by
  have hfold : ∀ (l : List Nat) (x : Dev), (∀ c ∈ l, c < pmcSize b) →
      R x (l.foldl (fun e c => if d.pmcEvent b c = ev ∧ ev ≠ 0 ∧ k ≠ 0 then e.pmcAdd b c k else e) x) := by
    intro l
    induction l with
    | nil => exact fun x _ => hrefl x
    | cons c t ih =>
      intro x hl
      rw [List.foldl_cons]
      refine htrans ?_ (ih _ fun a ha => hl a (List.mem_cons_of_mem _ ha))
      split
      · exact pmcAdd_closed (R := R) htrans hpair hlatch x k (hl c (List.mem_cons_self ..))
      · exact hrefl x
  exact hfold _ d fun c hc => List.mem_range.mp hc

end

/-- A count changes registers and the ages of latched events only. -/
theorem sameBesideAges_count (d : Dev) (b : PmcBlock) (ev k : Nat) : d.sameBesideAges (d.count b ev k) :=
  count_closed Dev.sameBesideAges.refl Dev.sameBesideAges.trans (fun x _ v _ => sameBesideAges_setPair x _ _ v)
    (fun x _ => latch_only x _ _) d ev k

/-- An event that no counter of the block selects is not counted. -/
theorem count_unselected {d : Dev} {b : PmcBlock} {ev : Nat} (k : Nat) (h : ∀ c, c < pmcSize b → d.pmcEvent b c ≠ ev) :
    d.count b ev k = d := by
  have hfold : ∀ (l : List Nat), (∀ c ∈ l, c < pmcSize b) →
      l.foldl (fun e c => if d.pmcEvent b c = ev ∧ ev ≠ 0 ∧ k ≠ 0 then e.pmcAdd b c k else e) d = d := by
    intro l
    induction l with
    | nil => exact fun _ => rfl
    | cons c t ih =>
      intro hl
      rw [List.foldl_cons, if_neg fun hc => h c (hl c (List.mem_cons_self ..)) hc.1]
      exact ih fun a ha => hl a (List.mem_cons_of_mem _ ha)
  exact hfold _ fun c hc => List.mem_range.mp hc

/-- A tile's count leaves the hub's registers but the pending words of the tiles' sources. -/
theorem getR_count_hub (d : Dev) (n : Fin 32) (ev k : Nat) {p : Nat} (hp : p < 0x1000000) (hpend : p < 0x100120 ∨ 0x100180 ≤ p) :
    (d.count (.tile n) ev k).getR p = d.getR p := by
  have hn := n.isLt
  refine count_closed (R := fun x y => y.getR p = x.getR p) (fun _ => rfl) (fun h g => g.trans h) (fun x c v hc => ?_) (fun x c => ?_) d ev k
  · refine getR_setPair_ne x v ?_ ?_
    · simp only [PMC_CNT_LO, pmcBase, tilePmc, tileBase]; omega
    · simp only [PMC_CNT_HI, pmcBase, tilePmc, tileBase]; omega
  · refine getR_latch_ne x _ c p ?_ ?_ ?_
    · simp only [pmcGroup, egTilePmc, PMC_OVF, tilePmc, tileBase]; omega
    · simp only [pmcGroup, egTilePmc, PMC_OVF_SEQ, tilePmc, tileBase]; omega
    · simp only [pmcGroup, egTilePmc, INT_PEND]; omega

end Sys2Proof.Machine
end

section
/-! The sources of operations: what their parts do where no operation waits (R362, R368, R369, R381, R382). -/

namespace Sys2Proof.Machine

open Reg

/-! The state of a tile's source. -/

theorem tile_onSource_self (d : Dev) (n : Fin 32) (f : Source → Source) :
    (d.onSource (some n) f).tile n = { d.tile n with delud := { d.delud n with src := f (d.delud n).src } } := tile_onTile_self d n _

theorem tile_onSource_ne (d : Dev) {n m : Fin 32} (f : Source → Source) (h : m ≠ n) : (d.onSource (some n) f).tile m = d.tile m :=
  tile_onTile_ne d _ h

theorem src_onSource (d : Dev) (n : Fin 32) (f : Source → Source) : ((d.onSource (some n) f).delud n).src = f (d.delud n).src := by
  rw [Dev.delud, tile_onSource_self]

/-- A change that leaves the source as it is leaves the package as it is. -/
theorem onSource_fixed {d : Dev} {n : Fin 32} {f : Source → Source} (h : f (d.delud n).src = (d.delud n).src) :
    d.onSource (some n) f = d := by
  have htile : (fun t : Tile => ({ t with delud := { t.delud with src := f t.delud.src } } : Tile)) (d.tile n) = d.tile n :=
    congrArg (fun x : Source => ({ d.tile n with delud := { (d.tile n).delud with src := x } } : Tile)) h
  exact (congrArg (fun t : Tile => ({ d with tiles := d.tiles.set n t } : Dev)) htile).trans (onTile_tile d n)

/-- With nothing waiting, nothing starts. -/
theorem pump_idle {d : Dev} {n : Fin 32} (h : (d.delud n).src.queue = []) : d.pump (some n) = d := by
  have hq : (d.source (some n)).queue = [] := h
  rw [Dev.pump, hq]
  exact onSource_fixed (by rw [← h])

/-- With no COALESCED message held, none is acknowledged. -/
theorem holdsCheck_idle {d : Dev} {n : Fin 32} (h : (d.delud n).src.holds = []) : d.holdsCheck (some n) = d := by
  have hh : (d.source (some n)).holds = [] := h
  unfold Dev.holdsCheck
  simp only [hh, List.filter_nil, List.foldl_nil]
  refine onSource_fixed ?_
  rw [h, List.filter_nil, ← h]

/-- A transaction completes: its number leaves the list. -/
theorem txnEnd_idle {d : Dev} {n : Fin 32} (num : Nat) (hq : (d.delud n).src.queue = []) (hh : (d.delud n).src.holds = []) :
    d.txnEnd (some n) num = d.onSource (some n) fun x => { x with txns := x.txns.filter fun t => t.num ≠ num } := by
  have hne : (fun t : Txn => t.num != num) = fun t => decide (t.num ≠ num) := by
    funext t
    exact Bool.eq_iff_iff.mpr (by simp)
  rw [Dev.txnEnd, pump_idle, holdsCheck_idle]
  · rw [hne]
  · rw [src_onSource]; exact hh
  · rw [src_onSource]; exact hq

/-! Errors of a tile's operations (R381, R382). -/

/-- What an error of the mover's or the helper's operation shows in the registers: ERR_RESP, its count, and NO_GRANT for code 2. -/
def Dev.errNoted (d : Dev) (n : Fin 32) (owner : Owner) (code : Nat) : Dev :=
  let d : Dev := ((d.latch egDld 2).satInc DLD_ERR_RESP_COUNT).count (.tile n) 0x16 1
  let d : Dev := if code = 2 then d.latch egDld 0 else d
  if owner = .helper then d.latch (egXpt n) 4 else d

theorem opError_eq (d : Dev) (n : Fin 32) {owner : Owner} (code : Nat) (home : Node) (h : owner = .mover ∨ owner = .helper) :
    d.opError (some n) owner code home = (d.errNoted n owner code).onSource (some n) fun x =>
      { x with errs := x.errs ++ [⟨owner, code, home⟩] } := by
  obtain rfl | rfl := h
  · unfold Dev.opError Dev.errNoted
    rw [if_neg (by decide : ¬ Owner.mover = .helper)]
    rfl
  · unfold Dev.opError Dev.errNoted
    rw [if_pos rfl]
    rfl

theorem sameBesideAges_satInc (d : Dev) (o : Nat) : d.sameBesideAges (d.satInc o) := by cases d; rfl

theorem sameBesideAges_errNoted (d : Dev) (n : Fin 32) (owner : Owner) (code : Nat) : d.sameBesideAges (d.errNoted n owner code) := by
  have hcount : d.sameBesideAges (((d.latch egDld 2).satInc DLD_ERR_RESP_COUNT).count (.tile n) 0x16 1) := by
    have hlatch : d.sameBesideAges (d.latch egDld 2) := latch_only d egDld 2
    exact (hlatch.trans (sameBesideAges_satInc _ _)).trans (sameBesideAges_count _ _ _ _)
  have hlatch : ∀ (c : Prop) [Decidable c] (x : Dev) (g : EvGroup) (k : Nat), x.sameBesideAges (if c then x.latch g k else x) := by
    intro c _ x g k
    split
    · exact latch_only x g k
    · exact .refl x
  exact (hcount.trans (hlatch _ _ _ _)).trans (hlatch _ _ _ _)

/-- Registers of DLD and pending sources of the hub keep their value when the exchange port's event latches. -/
theorem getR_latch_egXpt_hub (d : Dev) (n : Fin 32) (b : Nat) {p : Nat} (hp : p < 0x1000000) (hpend : p < 0x100120 ∨ 0x100180 ≤ p) :
    (d.latch (egXpt n) b).getR p = d.getR p := by
  have hn := n.isLt
  refine getR_latch_ne d _ b p ?_ ?_ ?_
  · simp only [egXpt, XPT_EVENT, tileBase]; omega
  · simp only [egXpt, XPT_EVENT_SEQ, tileBase]; omega
  · simp only [egXpt, INT_PEND]; omega

theorem errNoted_shows (d : Dev) (n : Fin 32) (owner : Owner) (code : Nat) :
    let e := d.errNoted n owner code
    e.regBit DLD_EVENT 2 = true ∧ (code = 2 → e.regBit DLD_EVENT 0 = true) ∧
      e.getN DLD_ERR_RESP_COUNT = min (d.getN DLD_ERR_RESP_COUNT + 1) 0xFFFFFFFF ∧ e.isPending 5 = true := by
  obtain ⟨x, hx⟩ : ∃ x, x = ((d.latch egDld 2).satInc DLD_ERR_RESP_COUNT).count (.tile n) 0x16 1 := ⟨_, rfl⟩
  have hcounted : ∀ p, p < 0x1000000 → (p < 0x100120 ∨ 0x100180 ≤ p) → p ≠ DLD_ERR_RESP_COUNT →
      x.getR p = (d.latch egDld 2).getR p :=
    fun p h1 h2 h3 => by rw [hx, getR_count_hub _ _ _ _ h1 h2, getR_satInc_ne _ h3]
  have hbit2 : x.regBit DLD_EVENT 2 = true :=
    (regBit_congr (hcounted _ (by decide) (by decide) (by decide)) 2).trans (regBit_latch_self d egDld 2 (by decide) (by decide))
  have hpend : x.isPending 5 = true :=
    (regBit_congr (hcounted (INT_PEND 0) (by decide) (by decide) (by decide)) 5).trans (isPending_latch d egDld 2 (by decide))
  have herr : x.getN DLD_ERR_RESP_COUNT = min (d.getN DLD_ERR_RESP_COUNT + 1) 0xFFFFFFFF := by
    rw [hx, getN_congr (getR_count_hub _ _ _ _ (by decide) (by decide)), Dev.satInc, getN_satAdd,
      getN_congr (getR_latch_ne d egDld 2 _ (by decide) (by decide) (by decide))]
  obtain ⟨y, hy⟩ : ∃ y, y = if code = 2 then x.latch egDld 0 else x := ⟨_, rfl⟩
  have hnoted : y.regBit DLD_EVENT 2 = true ∧ (code = 2 → y.regBit DLD_EVENT 0 = true) ∧
      y.getN DLD_ERR_RESP_COUNT = min (d.getN DLD_ERR_RESP_COUNT + 1) 0xFFFFFFFF ∧ y.isPending 5 = true := by
    rw [hy]
    split
    · refine ⟨?_, fun _ => regBit_latch_self x egDld 0 (by decide) (by decide), ?_, isPending_latch x egDld 0 (by decide)⟩
      · rw [show DLD_EVENT = egDld.ev from rfl, regBit_latch x egDld 0 2 (by decide) (by decide) (by decide)]
        exact hbit2
      · rw [getN_congr (getR_latch_ne x egDld 0 _ (by decide) (by decide) (by decide)), herr]
    case isFalse h => exact ⟨hbit2, fun h' => absurd h' h, herr, hpend⟩
  have he : d.errNoted n owner code = if owner = .helper then y.latch (egXpt n) 4 else y := by rw [hy, hx, Dev.errNoted]
  dsimp only
  rw [he]
  split
  · have hkept := fun p (h1 : p < 0x1000000) (h2 : p < 0x100120 ∨ 0x100180 ≤ p) => getR_latch_egXpt_hub y n 4 h1 h2
    rw [regBit_congr (hkept DLD_EVENT (by decide) (by decide)), regBit_congr (hkept DLD_EVENT (by decide) (by decide)),
      getN_congr (hkept DLD_ERR_RESP_COUNT (by decide) (by decide)), Dev.isPending, regBit_congr (hkept (INT_PEND 0) (by decide) (by decide))]
    exact hnoted
  · exact hnoted

/-- An error of the mover's or the helper's operation: one more in the source's list, and its registers. -/
theorem opError_effect (d : Dev) (n : Fin 32) {owner : Owner} (code : Nat) (home : Node) (h : owner = .mover ∨ owner = .helper) :
    let e := d.opError (some n) owner code home
    (e.tile n = { d.tile n with delud := { d.delud n with
        src := { (d.delud n).src with errs := (d.delud n).src.errs ++ [⟨owner, code, home⟩] } } } ∧
      d.onlyTile e n ∧ e.out = d.out ∧ e.fab = d.fab) ∧
    e.regBit DLD_EVENT 2 = true ∧ (code = 2 → e.regBit DLD_EVENT 0 = true) ∧
      e.getN DLD_ERR_RESP_COUNT = min (d.getN DLD_ERR_RESP_COUNT + 1) 0xFFFFFFFF ∧ e.isPending 5 = true := by
  obtain ⟨hfab, hout, htiles, -⟩ := (sameBesideAges_errNoted d n owner code).fields
  dsimp only
  rw [opError_eq d n code home h]
  refine ⟨⟨?_, fun m hm => ?_, hout, hfab⟩, errNoted_shows d n owner code⟩
  · rw [tile_onSource_self, Dev.delud, tile_congr htiles]
    rfl
  · rw [tile_onSource_ne _ _ hm, tile_congr htiles]

/-! An operation toward a tile of the package (R362, R368). -/

/-- The endpoints of a tile and of the node that a global address names. -/
theorem nodeEndpt_tile (k : Nat) (n : Fin 32) : nodeEndpt ⟨k, n, false⟩ = .tile n := by
  rw [nodeEndpt, if_neg (by simp)]
  exact congrArg EndPt.tile (Fin.ofNat_val_eq_self n)

/-- A message to a node of this package arrives at once at its own endpoint, and enters the package network toward another. -/
theorem sendOut_own {d : Dev} {m : Dmsg} (vc : Vc) (h : m.dst.pkg = d.self) : d.sendOut vc m =
    some (if nodeEndpt m.src = nodeEndpt m.dst then d.emit (.arrive (nodeEndpt m.dst) (d.stampMsg m))
      else d.netSend (nodeEndpt m.src) (nodeEndpt m.dst) vc (d.stampMsg m) 0) := by
  have hpkg : (d.stampMsg m).dst.pkg = d.self := h
  unfold Dev.sendOut
  dsimp only
  rw [if_pos hpkg]
  exact (apply_ite some _ _ _).symm

theorem crosses_own {d : Dev} {m : Dmsg} (h : m.dst.pkg = d.self) : d.crosses m = false := by simp [Dev.crosses, h]

/-- With nothing outstanding an operation may start, and takes number 0. -/
theorem startOp_first {d : Dev} {n : Fin 32} {i : SendItem} (htxns : (d.delud n).src.txns = []) (hquar : (d.delud n).src.quarantine = [])
    (hpkg : i.msg.dst.pkg = d.self) :
    let m := { i.msg with txn := 0, src := d.nodeOf (some n) }
    d.mayStart (some n) i = true ∧ ∃ e : Dev, d.sendOut i.vc m = some e ∧
      d.startOp (some n) i = (e.count (.tile n) 0x15 1).onSource (some n) fun x =>
        { x with txns := x.txns ++ [⟨0, i.id, i.owner, i.use, i.vc, m, e.now, loadBytes m⟩] } := by
  have hused : usedNums (d.source (some n)) = [] := by
    change usedNums (d.delud n).src = []
    rw [usedNums, htxns, hquar]
    rfl
  have hcross : d.crosses i.msg = false := crosses_own hpkg
  have hcross' : d.crosses { i.msg with txn := 0, src := d.nodeOf (some n) } = false := crosses_own hpkg
  have hsend := sendOut_own (m := { i.msg with txn := 0, src := d.nodeOf (some n) }) i.vc hpkg
  refine ⟨?_, _, hsend, ?_⟩
  · have htxns' : (d.source (some n)).txns = [] := htxns
    simp [Dev.mayStart, hused, htxns', hcross]
  · have hfree : freeNum [] = 0 := by decide
    unfold Dev.startOp
    simp only [hused, hfree, hcross', Bool.false_eq_true, if_false, hsend]
    rfl

/-- A request of tile `n` left for tile `k` of the package. -/
def Dev.leftFor (d e : Dev) (n k : Fin 32) (m : Dmsg) : Prop :=
  if n = k then e.out = d.out ++ [.arrive (.tile n) (d.stampMsg m)] ∧ e.fab = d.fab
    else e.fab.net = d.fab.net ++ [⟨d.stampMsg m, .req, .tile n, .tile k, d.classYx (.tile n) (.tile k), .launch, 0⟩] ∧ e.out = d.out

/-- The source has taken an operation in, and its queue is handed to be started. -/
def Dev.opTaken (d : Dev) (n : Fin 32) (owner : Owner) (use : TxUse) (m : Dmsg) : Dev :=
  (d.onSource (some n) fun x => { x with queue := x.queue ++ [⟨x.nextId, owner, use, .req, m⟩], nextId := x.nextId + 1 }).onSource
    (some n) fun x => { x with queue := [] }

theorem tile_opTaken (d : Dev) (n : Fin 32) (owner : Owner) (use : TxUse) (m : Dmsg) : (d.opTaken n owner use m).tile n =
    { d.tile n with delud := { d.delud n with src := { (d.delud n).src with queue := [], nextId := (d.delud n).src.nextId + 1 } } } := by
  rw [Dev.opTaken, tile_onSource_self, Dev.delud, tile_onSource_self]

/-- A request toward this package that may start does so at once, where none waits before it. -/
theorem sendOp_starts {d : Dev} {n : Fin 32} {owner : Owner} {use : TxUse} {m : Dmsg} {i : SendItem}
    (hi : i = ⟨(d.delud n).src.nextId, owner, use, .req, m⟩) (hq : (d.delud n).src.queue = []) (hpkg : m.dst.pkg = d.self)
    (hmay : (d.opTaken n owner use m).mayStart (some n) i = true) :
    d.sendOp (some n) owner use .req m = (d.opTaken n owner use m).startOp (some n) i := by
  have hcross : d.crosses m = false := crosses_own hpkg
  have hqueue : ((d.onSource (some n) fun x =>
      { x with queue := x.queue ++ [⟨x.nextId, owner, use, .req, m⟩], nextId := x.nextId + 1 }).delud n).src.queue = [i] := by
    rw [src_onSource, hi]
    exact congrArg (· ++ [_]) hq
  have hpump : (d.opTaken n owner use m).pumpItems (some n) [i] [] = (d.opTaken n owner use m).startOp (some n) i := by
    simp [Dev.pumpItems, hmay]
  unfold Dev.sendOp
  simp only [hcross, Bool.false_eq_true, false_and, if_false]
  rw [← hpump, ← hqueue]
  rfl

/-- The first operation of a source with nothing waiting and nothing outstanding becomes outstanding under number 0 and leaves. -/
theorem sendOp_first {d : Dev} {n k : Fin 32} (owner : Owner) (use : TxUse) {m : Dmsg} (hq : (d.delud n).src.queue = [])
    (htxns : (d.delud n).src.txns = []) (hquar : (d.delud n).src.quarantine = []) (hdst : m.dst = ⟨d.self, k, false⟩) :
    ∃ (e : Dev) (t : Txn), d.sendOp (some n) owner use .req m = e ∧ (e.delud n).src.txns = [t] ∧ t.num = 0 ∧ t.owner = owner ∧
      t.vc = .req ∧ t.use = use ∧ t.msg = { m with txn := 0, src := ⟨d.self, n, false⟩ } ∧ d.leftFor e n k t.msg ∧
      (e.delud n).sendBytes = (d.delud n).sendBytes ∧ (e.tile n).store = (d.tile n).store ∧ d.onlyTile e n := by
  have hpkg : m.dst.pkg = d.self := by rw [hdst]
  let i : SendItem := ⟨(d.delud n).src.nextId, owner, use, .req, m⟩
  let y := d.opTaken n owner use m
  have htile := tile_opTaken d n owner use m
  have hothers : d.onlyTile y n := fun j hj => (tile_onSource_ne _ _ hj).trans (tile_onSource_ne _ _ hj)
  obtain ⟨hmay, x, hx, hstart⟩ := startOp_first (d := y) (n := n) (i := i) (by rw [Dev.delud, htile]; exact htxns)
    (by rw [Dev.delud, htile]; exact hquar) hpkg
  have hsend := sendOp_starts (i := i) rfl hq hpkg hmay
  have hleft : d.leftFor x n k { m with txn := 0, src := ⟨d.self, n, false⟩ } ∧ x.tiles = y.tiles := by
    have hown := sendOut_own (d := y) (m := { m with txn := 0, src := ⟨d.self, n, false⟩ }) .req hpkg
    have hend : nodeEndpt m.dst = .tile k := by rw [hdst, nodeEndpt_tile]
    rw [show y.sendOut .req { m with txn := 0, src := ⟨d.self, n, false⟩ } = some x from hx, Option.some.injEq, hend,
      nodeEndpt_tile] at hown
    rw [hown, Dev.leftFor]
    by_cases hnk : n = k
    · subst hnk
      simp only [if_true]
      exact ⟨⟨rfl, rfl⟩, rfl⟩
    · have hne : ¬ EndPt.tile n = .tile k := fun h => hnk (EndPt.tile.inj h)
      simp only [if_neg hne, if_neg hnk]
      exact ⟨⟨rfl, rfl⟩, rfl⟩
  obtain ⟨hleft, htiles⟩ := hleft
  obtain ⟨hfab, hout, hcount, -⟩ := (sameBesideAges_count x (.tile n) 0x15 1).fields
  have hxtile : (x.count (.tile n) 0x15 1).tile n = y.tile n := tile_congr (hcount.trans htiles) n
  refine ⟨_, ⟨0, i.id, owner, use, .req, { m with txn := 0, src := ⟨d.self, n, false⟩ }, x.now, loadBytes m⟩,
    hsend.trans hstart, ?_, rfl, rfl, rfl, rfl, rfl, ?_, ?_, ?_, fun j hj => ?_⟩
  · have hnone : ((x.count (.tile n) 0x15 1).delud n).src.txns = [] := by rw [Dev.delud, hxtile, htile]; exact htxns
    rw [src_onSource, hnone]
    rfl
  · rw [Dev.leftFor] at hleft ⊢
    rw [← hfab, ← hout] at hleft
    exact hleft
  · rw [Dev.delud, tile_onSource_self, Dev.delud, hxtile, htile]
  · rw [tile_onSource_self, hxtile, htile]
  · rw [tile_onSource_ne _ _ hj, tile_congr (hcount.trans htiles), hothers j hj]

end Sys2Proof.Machine
end

section
/-! The mover's atomics (R121, R363, R370, R375), and the statement on the mover. -/

namespace Sys2Proof.Machine

open Reg

/-- The send buffer's count after 64 more bytes (R370). -/
def Dev.sendCounted (d : Dev) (n : Fin 32) : Dev := d.onDelud n fun x => { x with sendBytes := (d.delud n).sendBytes + 64 }

theorem delud_sendCounted (d : Dev) (n : Fin 32) :
    (d.sendCounted n).delud n = { d.delud n with sendBytes := (d.delud n).sendBytes + 64 } := by
  rw [Dev.delud, Dev.sendCounted, Dev.onDelud, tile_onTile_self]
  rfl

theorem store_sendCounted (d : Dev) (n : Fin 32) : ((d.sendCounted n).tile n).store = (d.tile n).store := by
  rw [Dev.sendCounted, Dev.onDelud, tile_onTile_self]

theorem tile_sendCounted_ne (d : Dev) {n m : Fin 32} (h : m ≠ n) : (d.sendCounted n).tile m = d.tile m := tile_onTile_ne d _ h

theorem grantFor_sendCounted (d : Dev) (n : Fin 32) (a : Nat) : (d.sendCounted n).grantFor n a = d.grantFor n a := by
  rw [Dev.grantFor, delud_sendCounted, Dev.grantFor]

theorem moverOp_granted {d : Dev} {n : Fin 32} {use : TxUse} {vc : Vc} {m : Dmsg} {g : Grant} (h : d.grantFor n m.addr = some g) :
    d.moverOp n use vc m = d.sendOp (some n) .mover use vc { m with key := g.key } := by
  rw [Dev.moverOp, h]

theorem moverOp_noGrant {d : Dev} {n : Fin 32} {use : TxUse} {vc : Vc} {m : Dmsg} (h : d.grantFor n m.addr = none) :
    d.moverOp n use vc m = d.opError (some n) .mover 2 (gaNode m.addr) := by
  rw [Dev.moverOp, h]

/-- The message of a 4-byte MATOM. -/
def matomMsg (aop addr : Nat) (data : List Byte) : Dmsg := { reqMsg 4 0 addr with aop := aop, data := data }

section
variable {s : State} {p : Issue} {aop : BitVec 4} {ga : BitVec 57} {op : BitVec 23} (hf : s.dev.frozen = false)
  (hi : s.dev.issues p.tile 3 = true) (haop : aop.toNat ≤ 3) (hbuf : (s.dev.delud p.tile).sendBytes + 64 ≤ 0x400000)
include hf hi haop hbuf

/-- MATOM of 4 bytes without a second operand gives one message to the mover's source. -/
theorem exec_matom : exec (.matom p aop false ga op) s = .next (s.put ((s.dev.sendCounted p.tile).moverOp p.tile
    (.atomic (8 * op.toNat) 4) .req (matomMsg aop.toNat ga.toNat (s.dev.tsRead p.tile (8 * op.toNat) 4)))) := by
  have h4 : ¬ aop = 4 := fun h => by rw [h] at haop; exact absurd haop (by decide)
  have hstore : (s.dev.sendCounted p.tile).tsRead p.tile (8 * op.toNat) 4 = s.dev.tsRead p.tile (8 * op.toNat) 4 := by
    rw [Dev.tsRead, store_sendCounted, Dev.tsRead]
  change execMatom p aop false ga op s = _
  refine onRun_eq hf ?_
  dsimp only
  rw [issue_effect _ hi]
  · unfold Dev.sendBuffer
    dsimp only
    rw [if_neg (by omega), if_neg h4, List.append_nil, ← hstore]
    rfl
  · have hlt : ¬ 4 < aop.toNat := by omega
    have hne : ¬ aop.toNat = 4 := by omega
    simp [matomBad, hlt, hne]

/-- With a grant and nothing outstanding one atomic becomes outstanding and leaves. -/
theorem exec_matom_granted {g : Grant} (hpkg : gaPkg ga.toNat = s.dev.self) (hgrant : s.dev.grantFor p.tile ga.toNat = some g)
    (hq : (s.dev.delud p.tile).src.queue = []) (htxns : (s.dev.delud p.tile).src.txns = [])
    (hquar : (s.dev.delud p.tile).src.quarantine = []) :
    ∃ (e : Dev) (t : Txn), exec (.matom p aop false ga op) s = .next (s.put e) ∧ (e.delud p.tile).src.txns = [t] ∧ t.num = 0 ∧
      t.owner = .mover ∧ t.vc = .req ∧ t.use = .atomic (8 * op.toNat) 4 ∧
      t.msg = { matomMsg aop.toNat ga.toNat (s.dev.tsRead p.tile (8 * op.toNat) 4) with
        key := g.key, txn := 0, src := ⟨s.dev.self, p.tile, false⟩ } ∧
      s.dev.leftFor e p.tile (Fin.ofNat 32 (gaTile ga.toNat)) t.msg ∧
      (e.delud p.tile).sendBytes = (s.dev.delud p.tile).sendBytes + 64 ∧
      (e.tile p.tile).store = (s.dev.tile p.tile).store ∧ s.dev.onlyTile e p.tile := by
  have hdst : (⟨s.dev.self, (Fin.ofNat 32 (gaTile ga.toNat)).val, false⟩ : Node) = gaNode ga.toNat := by
    rw [gaNode, hpkg]
    exact congrArg (fun k => (⟨s.dev.self, k, false⟩ : Node)) (Nat.mod_mod _ 32)
  obtain ⟨e, t, he, h1, h2, h3, h4, h5, h6, h7, h8, h9, h10⟩ := sendOp_first (d := s.dev.sendCounted p.tile) (n := p.tile)
    (k := Fin.ofNat 32 (gaTile ga.toNat)) .mover (.atomic (8 * op.toNat) 4)
    (m := { matomMsg aop.toNat ga.toNat (s.dev.tsRead p.tile (8 * op.toNat) 4) with key := g.key })
    (by rw [delud_sendCounted]; exact hq) (by rw [delud_sendCounted]; exact htxns) (by rw [delud_sendCounted]; exact hquar) hdst.symm
  refine ⟨e, t, ?_, h1, h2, h3, h4, h5, h6, h7, ?_, ?_, fun m hm => ?_⟩
  · rw [exec_matom hf hi haop hbuf, ← he, moverOp_granted ((grantFor_sendCounted _ _ _).trans hgrant)]
  · rw [h8, delud_sendCounted]
  · rw [h9, store_sendCounted]
  · rw [h10 m hm, tile_sendCounted_ne _ hm]

/-- Without a grant nothing leaves, and the mover is told NO_GRANT (R375). -/
theorem exec_matom_noGrant (hgrant : s.dev.grantFor p.tile ga.toNat = none) :
    ∃ e : Dev, exec (.matom p aop false ga op) s = .next (s.put e) ∧
      (e.delud p.tile).src.errs = (s.dev.delud p.tile).src.errs ++ [⟨.mover, 2, gaNode ga.toNat⟩] ∧
      (e.delud p.tile).src.txns = (s.dev.delud p.tile).src.txns ∧
      e.regBit DLD_EVENT 0 = true ∧ e.regBit DLD_EVENT 2 = true ∧ e.out = s.dev.out ∧ e.fab = s.dev.fab ∧
      (e.tile p.tile).store = (s.dev.tile p.tile).store := by
  obtain ⟨⟨htile, -, hout, hfab⟩, h2, h0, -⟩ := opError_effect (s.dev.sendCounted p.tile) p.tile 2 (gaNode ga.toNat) (.inl rfl)
  refine ⟨_, ?_, ?_, ?_, h0 rfl, h2, hout, hfab, ?_⟩
  · rw [exec_matom hf hi haop hbuf, moverOp_noGrant ((grantFor_sendCounted _ _ _).trans hgrant)]
    rfl
  · rw [Dev.delud, htile, delud_sendCounted]
  · rw [Dev.delud, htile, delud_sendCounted]
  · rw [htile]; exact store_sendCounted _ _

end

/-- Where a request of tile `n` to the tile of a global address of the package goes. -/
theorem leftFor_cases {d e : Dev} {n : Fin 32} {a : Nat} {m : Dmsg} (h : d.leftFor e n (Fin.ofNat 32 (gaTile a)) m) :
    (gaTile a = n → ∃ x, e.out = d.out ++ [.arrive (.tile n) x] ∧ x.op = m.op ∧ x.data = m.data ∧ e.fab = d.fab) ∧
    (gaTile a ≠ n → ∃ x, e.fab.net = d.fab.net ++ [x] ∧ x.vc = .req ∧ x.src = .tile n ∧ x.msg.op = m.op ∧ e.out = d.out) := by
  have hk : (Fin.ofNat 32 (gaTile a)).val = gaTile a := Nat.mod_mod _ 32
  have hiff : n = Fin.ofNat 32 (gaTile a) ↔ gaTile a = n := by rw [Fin.ext_iff, hk, eq_comm]
  rw [Dev.leftFor] at h
  refine ⟨fun hn => ?_, fun hn => ?_⟩
  · rw [if_pos (hiff.mpr hn)] at h
    exact ⟨_, h.1, rfl, rfl, h.2⟩
  · rw [if_neg fun he => hn (hiff.mp he)] at h
    exact ⟨_, h.1, rfl, rfl, rfl, h.2⟩

/-- Settles O31: each copy by the bytes it writes and what it leaves; the Peg queue; MATOM by the one message of the mover's source. -/
theorem moverCopies : Obligations.MoverCopies := by
  constructor
  · intro s p n len a b pkg t bulk reps wues hf hn
    subst hn
    refine ⟨fun hi ha hb hsep => ?_, fun hi hlow hend hb hreps hclean => ?_, fun hi ha hlow hend hwues => ?_,
      fun hi ha hpanel i hb => ?_, exec_pegPush hf⟩
    · obtain ⟨m, hm, hbytes⟩ := copyStore_eq s.dev p.tile (a := 64 * a.toNat) (b := 64 * b.toNat) (units := len.toNat + 1) (size := 16)
        (by decide) hsep
      refine ⟨_, (exec_mcopy_storeToStore hf hi ha hb).trans (by rw [hm]), fun x => ?_, rfl, ?_, fun j hj => tile_onTile_ne _ _ hj⟩
      · rw [tile_onTile_self]
        exact hbytes x
      · rw [tile_onTile_self]
    · subst hreps
      exact ⟨_, exec_mcopy_dramToStore hf hi hlow hend hb, copyLoad_effect _ _ _ hclean⟩
    · subst hwues
      exact ⟨_, exec_mcopy_storeToDram hf hi ha hlow hend, copySave_effect s.dev p.tile (64 * a.toNat) b.toNat (len.toNat + 1)⟩
    · obtain ⟨hself, hothers, htile, honly, -⟩ := loadPanel_effect s.dev p.tile i
        (s.dev.tsRead p.tile (64 * a.toNat) (64 * (len.toNat + 1)))
      exact ⟨_, exec_mcopy_panel hf hi ha hpanel hb, by rw [hself], by rw [hself],
        by rw [hself], hothers, htile, honly⟩
  · intro s p n aop ga op hf hn hi haop hbuf hpkg
    subst hn
    refine ⟨fun g hgrant hq htxns hquar => ?_, exec_matom_noGrant hf hi haop hbuf⟩
    obtain ⟨e, t, he, htxn, hnum, howner, hvc, huse, hmsg, hleft, hbytes, hstore, honly⟩ :=
      exec_matom_granted hf hi haop hbuf hpkg hgrant hq htxns hquar
    obtain ⟨hsame, hother⟩ := leftFor_cases hleft
    have hop : t.msg.op = 4 := by rw [hmsg]; rfl
    rw [hop] at hsame hother
    exact ⟨e, t, he, htxn, hnum, howner, hvc, huse, hop, by rw [hmsg]; rfl, by rw [hmsg]; rfl, by rw [hmsg], by rw [hmsg]; rfl,
      hbytes, hsame, hother, hstore, honly⟩

/-! States that meet the hypotheses. -/

/-- The package after reset with a pass running on tile 0, whose tile store begins with a byte 0x2A. -/
def moverWitness : State :=
  State.reset.put ((State.reset.dev.setF (TCTL_PASS_STATUS_STATE 0) 1).onTile 0 fun t => { t with store := memPut t.store 0 0x2A })

/-- A line copied inside tile store: its first byte stands at the destination. -/
theorem moverCopies_line : ∃ e : Dev,
    exec (.mcopy ⟨0, 0, 0⟩ 0 0 0 0 1 0 0 false [] []) moverWitness = .next (moverWitness.put e) ∧ memGet (e.tile 0).store 64 = 0x2A := by
  obtain ⟨hcopy, -⟩ := moverCopies.1 moverWitness ⟨0, 0, 0⟩ 0 0 0 1 0 0 false [] [] (by decide +kernel) rfl
  obtain ⟨e, he, hbytes, -⟩ := hcopy (by decide +kernel) (by decide) (by decide) (by decide)
  exact ⟨e, he, (hbytes 64).trans (by decide +kernel)⟩

/-- The same line copied from DRAM line 32,768, which holds zeros. -/
theorem moverCopies_dram : ∃ e : Dev,
    exec (.mcopy ⟨0, 0, 0⟩ 1 0 0 32768 0 0 0 false [] []) moverWitness = .next (moverWitness.put e) ∧ memGet (e.tile 0).store 0 = 0 := by
  obtain ⟨-, hcopy, -⟩ := moverCopies.1 moverWitness ⟨0, 0, 0⟩ 0 0 32768 0 0 0 false [] [] (by decide +kernel) rfl
  obtain ⟨e, he, hbytes, -⟩ := hcopy (by decide +kernel) (by decide) (by decide) (by decide) rfl fun l => rfl
  exact ⟨e, he, (hbytes 0).trans (by decide +kernel)⟩

/-- Without a grant an atomic ends NO_GRANT. -/
theorem moverCopies_no_grant : ∃ e : Dev,
    exec (.matom ⟨0, 0, 0⟩ 0 false 0 0) moverWitness = .next (moverWitness.put e) ∧ e.regBit DLD_EVENT 0 = true := by
  obtain ⟨-, hnone⟩ := moverCopies.2 moverWitness ⟨0, 0, 0⟩ 0 0 0 0 (by decide +kernel) rfl (by decide +kernel) (by decide)
    (by decide +kernel) (by decide +kernel)
  obtain ⟨e, he, -, -, hevent, -⟩ := hnone (by decide +kernel)
  exact ⟨e, he, hevent⟩

/-- With a grant for the unit it leaves with the grant's key. -/
theorem moverCopies_granted : ∃ (e : Dev) (t : Txn),
    exec (.matom ⟨0, 0, 0⟩ 0 false 0 0)
      (moverWitness.put (moverWitness.dev.onDelud 0 fun x => { x with grants := x.grants.set 0 ⟨0, 1, 7, true⟩ })) =
      .next (moverWitness.put e) ∧ (e.delud 0).src.txns = [t] ∧ t.msg.key = 7 := by
  obtain ⟨hgranted, -⟩ := moverCopies.2
    (moverWitness.put (moverWitness.dev.onDelud 0 fun x => { x with grants := x.grants.set 0 ⟨0, 1, 7, true⟩ })) ⟨0, 0, 0⟩ 0 0 0 0
    (by decide +kernel) rfl (by decide +kernel) (by decide) (by decide +kernel) (by decide +kernel)
  obtain ⟨e, t, he, htxns, -, -, -, -, -, -, -, hkey, -⟩ := hgranted ⟨0, 1, 7, true⟩ (by decide +kernel) (by decide +kernel)
    (by decide +kernel) (by decide +kernel)
  exact ⟨e, t, he, htxns, hkey⟩

end Sys2Proof.Machine
end

section
/-! The elastic port and the responses at a tile (R85, R121, R134, R367 to R369, R371, R372, R382, R388). -/

namespace Sys2Proof.Machine

open Reg

/-! The elastic port. -/

theorem findIdx?_first {α : Type} {p : α → Bool} {l : List α} (x : α) (r : List α) (hl : ∀ y ∈ l, p y = false) (hx : p x = true) :
    (l ++ x :: r).findIdx? p = some l.length := by
  have hnone : l.findIdx? p = none := List.findIdx?_eq_none_iff.mpr hl
  simp [List.findIdx?_append, hnone, List.findIdx?_cons, hx]

theorem exec_elasticAccess {s : State} {n bank : Fin 32} {l r : List Elastic} {x : Elastic} (hf : s.dev.frozen = false)
    (he : (s.dev.tile n).elastic = l ++ x :: r) (hl : ∀ y ∈ l, y.addr / 128 % 32 ≠ bank.val) :
    (x.addr / 128 % 32 = bank.val → ∃ e : Dev, exec (.elasticAccess n bank) s = .next (s.put e) ∧ (e.tile n).elastic = l ++ r ∧
      (e.tile n).store = memPutBytes (s.dev.tile n).store x.addr x.data ∧
      e.tile n = { s.dev.tile n with elastic := l ++ r, store := (e.tile n).store } ∧ s.dev.onlyTile e n ∧ e.out = s.dev.out) ∧
    (r = [] → x.addr / 128 % 32 ≠ bank.val → exec (.elasticAccess n bank) s = .next s) := by
  have hlate : ∀ y ∈ l, (fun e : Elastic => e.addr / 128 % 32 == bank.val) y = false := fun y hy => beq_false_of_ne (hl y hy)
  refine ⟨fun hx => ?_, fun hr hx => ?_⟩
  · let d := s.dev.onTile n fun t => { t with elastic := t.elastic.eraseIdx l.length, store := memPutBytes t.store x.addr x.data }
    obtain ⟨htiles, -, hout⟩ := (countOnly_count d n 0x13 1).fields
    have htile : (d.count (.tile n) 0x13 1).tile n =
        { s.dev.tile n with elastic := l ++ r, store := memPutBytes (s.dev.tile n).store x.addr x.data } := by
      rw [tile_congr htiles, tile_onTile_self, he, List.eraseIdx_append_of_length_le (le_refl _), Nat.sub_self]
      rfl
    refine ⟨d.count (.tile n) 0x13 1, ?_, by rw [htile], by rw [htile], by rw [htile],
      fun m hm => (tile_congr htiles m).trans (tile_onTile_ne _ _ hm), hout⟩
    have hfirst := findIdx?_first x r hlate (beq_iff_eq.mpr hx)
    have hget : (l ++ x :: r)[l.length]? = some x := by simp
    change execElasticAccess n bank s = _
    refine onRun_eq hf ?_
    dsimp only
    rw [he, hfirst]
    dsimp only
    rw [hget]
  · have hnone : (l ++ x :: r).findIdx? (fun e => e.addr / 128 % 32 == bank.val) = none := by
      rw [List.findIdx?_eq_none_iff]
      intro y hy
      rw [hr, List.mem_append, List.mem_singleton] at hy
      obtain hy | rfl := hy
      · exact hlate y hy
      · exact beq_false_of_ne hx
    change execElasticAccess n bank s = _
    refine onRun_eq hf ?_
    dsimp only
    rw [he, hnone]

/-- Bytes that lie in one 128-byte line wait as one access. -/
theorem elasticPut_line (d : Dev) (n : Fin 32) (o : Owner) {a : Nat} {l : List Byte} (hl : l ≠ []) (hline : a % 128 + l.length ≤ 128) :
    d.elasticPut n o a l = d.onTile n fun t => { t with elastic := t.elastic ++ [⟨a, l, o⟩] } := by
  have hfirst : min (128 - a % 128) l.length = l.length := by omega
  have hempty : l.isEmpty = false := by simp [hl]
  simp [Dev.elasticPut, hfirst, hempty]

/-! Responses that answer no operation. -/

theorem lateResp_effect (d : Dev) : d.lateResp.getN DLD_LATE_RESP_COUNT = min (d.getN DLD_LATE_RESP_COUNT + 1) 0xFFFFFFFF ∧
    d.keepsRegs d.lateResp [DLD_LATE_RESP_COUNT] ∧ d.lateResp = { d with regs := d.lateResp.regs } :=
  ⟨getN_satAdd d _ 1, fun _ ho => getR_satInc_ne d fun h => ho (List.mem_singleton.mpr h), rfl⟩

/-- A response that answers nothing outstanding is counted late (R369). -/
theorem exec_lateResp {s : State} {n : Fin 32} {m : Dmsg} {i : Instr} (hf : s.dev.frozen = false) (h : s.dev.txnOf (some n) m.txn = none)
    (hi : i = .loadData (some n) m ∨ i = .ack (some n) m ∨ i = .atomicResult (some n) m ∨
      (i = .error (some n) m ∧ s.dev.answersToken n m = false)) : exec i s = .next (s.put s.dev.lateResp) := by
  obtain rfl | rfl | rfl | ⟨rfl, htoken⟩ := hi
  · change execLoadData (some n) m s = _
    exact onRun_eq hf (by rw [h])
  · change execAck (some n) m s = _
    exact onRun_eq hf (by rw [h])
  · change execAtomicResult (some n) m s = _
    exact onRun_eq hf (by rw [h])
  · change execError (some n) m s = _
    exact onRun_eq hf (by rw [h]; simp [htoken])

/-! Responses of the mover's and the helper's operations. -/

/-- The transaction `num` has left the source of tile `n`. -/
def Dev.txnGone (n : Fin 32) (num : Nat) (d e : Dev) : Prop :=
  (e.delud n).src.txns = (d.delud n).src.txns.filter fun u => u.num ≠ num

/-- The source of tile `n` without the transaction `num`. -/
def Dev.txnDropped (d : Dev) (n : Fin 32) (num : Nat) : Dev :=
  d.onSource (some n) fun x => { x with txns := x.txns.filter fun u => u.num ≠ num }

theorem tile_txnDropped (d : Dev) (n : Fin 32) (num : Nat) : (d.txnDropped n num).tile n = { d.tile n with delud := { d.delud n with
    src := { (d.delud n).src with txns := (d.delud n).src.txns.filter fun u => u.num ≠ num } } } := tile_onSource_self d n _

theorem txnGone_txnDropped {d e : Dev} {n : Fin 32} (num : Nat) (h : (e.delud n).src.txns = (d.delud n).src.txns) :
    d.txnGone n num (e.txnDropped n num) := by
  rw [Dev.txnGone, Dev.delud, tile_txnDropped, h]

theorem tile_txnDropped_ne (d : Dev) {n k : Fin 32} (num : Nat) (h : k ≠ n) : (d.txnDropped n num).tile k = d.tile k :=
  tile_onSource_ne d _ h

section
variable {s : State} {n : Fin 32} {m : Dmsg} {t : Txn} (hf : s.dev.frozen = false) (hq : (s.dev.delud n).src.queue = [])
  (hh : (s.dev.delud n).src.holds = []) (ht : s.dev.txnOf (some n) m.txn = some t) (howner : t.owner = .mover ∨ t.owner = .helper)
include hf hq hh ht howner

/-- ACK (R372). -/
theorem exec_ack : ∃ e : Dev, exec (.ack (some n) m) s = .next (s.put e) ∧ s.dev.txnGone n t.num e ∧ s.dev.onlyTile e n ∧
    (e.tile n).store = (s.dev.tile n).store ∧ (e.tile n).elastic = (s.dev.tile n).elastic ∧ e = { s.dev with tiles := e.tiles } := by
  refine ⟨s.dev.txnDropped n t.num, ?_, txnGone_txnDropped t.num rfl, fun k hk => tile_txnDropped_ne _ _ hk, by rw [tile_txnDropped],
    by rw [tile_txnDropped], rfl⟩
  change execAck (some n) m s = _
  refine onRun_eq hf ?_
  rw [ht]
  obtain ho | ho := howner <;> simp only [ho] <;> exact txnEnd_idle t.num hq hh

/-- LOAD_DATA of a load into tile store (R367, R371). -/
theorem exec_loadData {g a : Nat} (huse : t.use = .toStore g a) (hdata : m.data ≠ [])
    (hline : (a + (m.addr - g)) % 128 + m.data.length ≤ 128) :
    ∃ e : Dev, exec (.loadData (some n) m) s = .next (s.put e) ∧
      (e.tile n).elastic = (s.dev.tile n).elastic ++ [⟨a + (m.addr - g), m.data, t.owner⟩] ∧
      (m.flags.testBit 1 = true ∨ t.left ≤ m.data.length → s.dev.txnGone n t.num e) ∧
      (m.flags.testBit 1 = false → m.data.length < t.left →
        (e.delud n).src.txns.map Txn.num = (s.dev.delud n).src.txns.map Txn.num) ∧
      (e.tile n).store = (s.dev.tile n).store ∧ s.dev.onlyTile e n ∧ e.regs = s.dev.regs ∧ e.out = s.dev.out := by
  let d := s.dev.onTile n fun u => { u with elastic := u.elastic ++ [⟨a + (m.addr - g), m.data, t.owner⟩] }
  have htile : d.tile n = { s.dev.tile n with elastic := (s.dev.tile n).elastic ++ [⟨a + (m.addr - g), m.data, t.owner⟩] } :=
    tile_onTile_self _ _ _
  have hland : s.dev.landData (some n) t m = d := by
    unfold Dev.landData
    obtain ho | ho := howner <;> simp only [ho, huse] <;> rw [← ho] <;> exact elasticPut_line _ _ _ hdata hline
  have hdelud : d.delud n = s.dev.delud n := by rw [Dev.delud, htile]; rfl
  let left (u : Txn) : Txn := if u.num = t.num then { u with left := u.left - m.data.length } else u
  have hexec : exec (.loadData (some n) m) s = .next (s.put (if m.flags.testBit 1 ∨ t.left ≤ m.data.length then d.txnDropped n t.num
      else d.onSource (some n) fun x => { x with txns := x.txns.map left })) := by
    change execLoadData (some n) m s = _
    refine onRun_eq hf ?_
    rw [ht]
    dsimp only
    rw [hland, txnEnd_idle t.num (by rw [hdelud]; exact hq) (by rw [hdelud]; exact hh)]
    rfl
  rw [hexec]
  by_cases hlast : m.flags.testBit 1 = true ∨ t.left ≤ m.data.length
  · rw [if_pos hlast]
    refine ⟨_, rfl, by rw [tile_txnDropped, htile], fun _ => txnGone_txnDropped t.num (by rw [hdelud]), fun h1 h2 => ?_,
      by rw [tile_txnDropped, htile], fun k hk => ?_, rfl, rfl⟩
    · rw [h1] at hlast
      obtain h | h := hlast
      · exact absurd h Bool.false_ne_true
      · omega
    · rw [tile_txnDropped_ne _ _ hk, tile_onTile_ne _ _ hk]
  · rw [if_neg hlast]
    refine ⟨_, rfl, by rw [tile_onSource_self, htile], fun h => absurd h hlast, fun _ _ => ?_, by rw [tile_onSource_self, htile],
      fun k hk => ?_, rfl, rfl⟩
    · rw [src_onSource, hdelud]
      refine (List.map_map ..).trans (List.map_congr_left fun u _ => ?_)
      dsimp only [Function.comp, left]
      split <;> rfl
    · rw [tile_onSource_ne _ _ hk, tile_onTile_ne _ _ hk]

/-- ATOMIC_RESULT (R121, R372). -/
theorem exec_atomicResult {a k : Nat} (huse : t.use = .atomic a k) (hk : 0 < k) (hlen : k ≤ m.data.length) (hline : a % 128 + k ≤ 128) :
    ∃ e : Dev, exec (.atomicResult (some n) m) s = .next (s.put e) ∧ s.dev.txnGone n t.num e ∧
      (e.tile n).elastic = (s.dev.tile n).elastic ++ [⟨a, m.data.take k, t.owner⟩] ∧ s.dev.onlyTile e n ∧
      e = { s.dev with tiles := e.tiles } := by
  let d := s.dev.onTile n fun u => { u with elastic := u.elastic ++ [⟨a, m.data.take k, t.owner⟩] }
  have htile : d.tile n = { s.dev.tile n with elastic := (s.dev.tile n).elastic ++ [⟨a, m.data.take k, t.owner⟩] } := tile_onTile_self _ _ _
  have htake : (m.data.take k).length = k := by rw [List.length_take]; omega
  have hland : s.dev.landData (some n) t m = d := by
    have hne : m.data.take k ≠ [] := fun h => by rw [h, List.length_nil] at htake; omega
    unfold Dev.landData
    obtain ho | ho := howner <;> simp only [ho, huse] <;> rw [← ho] <;> exact elasticPut_line _ _ _ hne (by rw [htake]; exact hline)
  have hdelud : d.delud n = s.dev.delud n := by rw [Dev.delud, htile]; rfl
  refine ⟨d.txnDropped n t.num, ?_, txnGone_txnDropped t.num (by rw [hdelud]), by rw [tile_txnDropped, htile], fun j hj => ?_, rfl⟩
  · change execAtomicResult (some n) m s = _
    refine onRun_eq hf ?_
    rw [ht]
    dsimp only
    rw [hland]
    exact txnEnd_idle t.num (by rw [hdelud]; exact hq) (by rw [hdelud]; exact hh)
  · rw [tile_txnDropped_ne _ _ hj, tile_onTile_ne _ _ hj]

/-- ERROR (R381, R382). -/
theorem exec_error : ∃ e : Dev, exec (.error (some n) m) s = .next (s.put e) ∧ s.dev.txnGone n t.num e ∧
    (e.delud n).src.errs = (s.dev.delud n).src.errs ++ [⟨t.owner, m.err, t.msg.dst⟩] ∧ e.regBit DLD_EVENT 2 = true ∧
    e.getN DLD_ERR_RESP_COUNT = min (s.dev.getN DLD_ERR_RESP_COUNT + 1) 0xFFFFFFFF ∧ e.isPending 5 = true ∧
    (e.tile n).store = (s.dev.tile n).store ∧ s.dev.onlyTile e n ∧ e.out = s.dev.out := by
  obtain ⟨⟨htile, hothers, hout, -⟩, hevent, -, hcount, hpend⟩ := opError_effect s.dev n m.err t.msg.dst howner
  let d := s.dev.opError (some n) t.owner m.err t.msg.dst
  have hdelud : d.delud n = { s.dev.delud n with src := { (s.dev.delud n).src with
      errs := (s.dev.delud n).src.errs ++ [⟨t.owner, m.err, t.msg.dst⟩] } } := congrArg Tile.delud htile
  refine ⟨d.txnDropped n t.num, ?_, txnGone_txnDropped t.num (by rw [hdelud]), ?_, hevent, hcount, hpend, ?_, fun k hk => ?_, hout⟩
  · change execError (some n) m s = _
    refine onRun_eq hf ?_
    rw [ht]
    have hend : d.txnEnd (some n) t.num = d.txnDropped n t.num :=
      txnEnd_idle t.num (by rw [hdelud]; exact hq) (by rw [hdelud]; exact hh)
    rw [← hend]
    obtain ho | ho := howner <;> simp only [ho, d]
  · rw [Dev.delud, tile_txnDropped, hdelud]
  · rw [tile_txnDropped]
    exact (congrArg Tile.store htile : (d.tile n).store = _)
  · rw [tile_txnDropped_ne _ _ hk]
    exact hothers k hk

end

/-! Timeouts (R369, R388). -/

section
variable {s : State} {n : Fin 32} {k now : Nat} (hf : s.dev.frozen = false) (hq : (s.dev.delud n).src.queue = [])
  (hh : (s.dev.delud n).src.holds = [])
include hf hq

/-- A quarantine that has ended frees its number. -/
theorem exec_txnQuarantineEnd : ∃ e : Dev, exec (.txnQuarantineEnd (some n) k now) s = .next (s.put e) ∧
    (e.delud n).src.quarantine = (s.dev.delud n).src.quarantine.filter (fun q => ¬ (q.1 = k ∧ q.2 ≤ max s.dev.now now)) ∧
    (e.delud n).src.txns = (s.dev.delud n).src.txns ∧ s.dev.onlyTile e n ∧
    e = { s.dev with tiles := e.tiles, now := max s.dev.now now } := by
  let d := (s.dev.at_ now).onSource (some n) fun x => { x with
    quarantine := x.quarantine.filter fun q => ¬ (q.1 = k ∧ q.2 ≤ max s.dev.now now) }
  have hsrc : (d.delud n).src = { (s.dev.delud n).src with
    quarantine := (s.dev.delud n).src.quarantine.filter fun q => ¬ (q.1 = k ∧ q.2 ≤ max s.dev.now now) } := src_onSource _ _ _
  have hidle : d.pump (some n) = d := pump_idle (by rw [hsrc]; exact hq)
  refine ⟨d, ?_, by rw [hsrc], by rw [hsrc], fun j hj => tile_onSource_ne _ _ hj, rfl⟩
  change execTxnQuarantineEnd (some n) k now s = _
  exact onRun_eq hf hidle

include hh

/-- A transaction that has waited too long completes with TIMEOUT, and its number is held back. -/
theorem exec_txnTimeout {t : Txn} (ht : s.dev.txnOf (some n) k = some t) (howner : t.owner = .mover ∨ t.owner = .helper)
    (htime : t.sent + max 100 (s.dev.getF DLD_CTRL_TXN_TIMEOUT) * 1000 ≤ max s.dev.now now) :
    ∃ e : Dev, exec (.txnTimeout (some n) k now) s = .next (s.put e) ∧
      (e.delud n).src.txns = (s.dev.delud n).src.txns.filter (fun u => u.num ≠ k) ∧
      (e.delud n).src.errs = (s.dev.delud n).src.errs ++ [⟨t.owner, 8, t.msg.dst⟩] ∧
      (e.delud n).src.quarantine = (s.dev.delud n).src.quarantine ++
        [(k, max s.dev.now now + max 100 (s.dev.getF DLD_CTRL_TXN_TIMEOUT) * 1000)] ∧ s.dev.onlyTile e n ∧ e.out = s.dev.out := by
  let d := (s.dev.at_ now).onSource (some n) fun x => { x with
    quarantine := x.quarantine ++ [(k, max s.dev.now now + max 100 (s.dev.getF DLD_CTRL_TXN_TIMEOUT) * 1000)] }
  let y := d.opError (some n) t.owner 8 t.msg.dst
  obtain ⟨⟨htile, hothers, hout, -⟩, -⟩ := opError_effect d n 8 t.msg.dst howner
  have hsrc : (d.delud n).src = { (s.dev.delud n).src with quarantine := (s.dev.delud n).src.quarantine ++
      [(k, max s.dev.now now + max 100 (s.dev.getF DLD_CTRL_TXN_TIMEOUT) * 1000)] } := src_onSource _ _ _
  have hdelud : (y.delud n).src = { (d.delud n).src with errs := (d.delud n).src.errs ++ [⟨t.owner, 8, t.msg.dst⟩] } :=
    congrArg (fun u : Tile => u.delud.src) htile
  have hend : y.txnEnd (some n) k = y.txnDropped n k :=
    txnEnd_idle k (by rw [hdelud, hsrc]; exact hq) (by rw [hdelud, hsrc]; exact hh)
  refine ⟨y.txnDropped n k, ?_, ?_, ?_, ?_, fun j hj => ?_, hout⟩
  · change execTxnTimeout (some n) k now s = _
    refine onRun_eq hf ?_
    have ht' : (s.dev.at_ now).txnOf (some n) k = some t := ht
    have htime' : t.sent + (s.dev.at_ now).txnTimeout ≤ (s.dev.at_ now).now := htime
    dsimp only
    rw [ht']
    dsimp only
    rw [if_pos htime']
    exact hend
  · rw [Dev.delud, tile_txnDropped, hdelud, hsrc]
  · rw [Dev.delud, tile_txnDropped, hdelud, hsrc]
  · rw [Dev.delud, tile_txnDropped, hdelud, hsrc]
  · rw [tile_txnDropped_ne _ _ hj]
    exact (hothers j hj).trans (tile_onSource_ne _ _ hj)

end

end Sys2Proof.Machine
end

section
/-! The hub's sinks and the timebase (R348, R367, R387), and the statement on transactions. -/

namespace Sys2Proof.Machine

open Reg

/-! The sinks. -/

section
variable {s : State} {m : Dmsg} (hf : s.dev.frozen = false)
include hf

/-- A management message is counted only (R348). -/
theorem exec_mgmt (h : m.op = 7) : ∃ e : Dev, exec (.mgmt m) s = .next (s.put e) ∧ e = { s.dev with regs := e.regs, ages := e.ages } ∧
    ((∀ c, c < 32 → s.dev.pmcEvent .hub c ≠ 0x11) → e = s.dev) := by
  refine ⟨s.dev.count .hub 0x11 1, ?_, sameBesideAges_count _ _ _ _, fun hsel => count_unselected 1 hsel⟩
  change execMgmt m s = _
  exact onRun_eq hf (if_pos h)

/-- An operation code that is not defined is counted (R367). -/
theorem exec_unknownDeludOp (h : m.op = 0 ∨ 0x0C < m.op) : ∃ e : Dev, exec (.unknownDeludOp m) s = .next (s.put e) ∧
    e.getN DLD_ERR_RESP_COUNT = min (s.dev.getN DLD_ERR_RESP_COUNT + 1) 0xFFFFFFFF ∧ s.dev.keepsRegs e [DLD_ERR_RESP_COUNT] ∧
    e = { s.dev with regs := e.regs } := by
  refine ⟨s.dev.satInc DLD_ERR_RESP_COUNT, ?_, getN_satAdd _ _ 1,
    fun _ ho => getR_satInc_ne _ fun he => ho (List.mem_singleton.mpr he), rfl⟩
  have hundef : ¬ opDefined m.op = true := by
    simp only [opDefined, Bool.and_eq_true, decide_eq_true_eq]
    omega
  change execUnknownDeludOp m s = _
  exact onRun_eq hf (if_neg hundef)

end

/-! Beacons (R387). -/

/-- No port that beacons are followed on: none active has delivered one within 1 ms. -/
theorem beaconPort_none {d : Dev} (h : ∀ q : Fin 16, ∀ t, d.gw.beacons[q] = some t → t + 1000000 < d.now) : d.beaconPort = none := by
  rw [Dev.beaconPort, List.find?_eq_none]
  intro q _
  cases hq : d.gw.beacons[q] with
  | none => simp
  | some t =>
    have hlt := h q t hq
    simp only [Bool.and_eq_true, decide_eq_true_eq, not_and]
    omega

theorem exec_beaconTimeout {s : State} {now : Nat} (hf : s.dev.frozen = false)
    (h : ∀ q : Fin 16, ∀ t, s.dev.gw.beacons[q] = some t → t + 1000000 < max s.dev.now now) :
    ∃ e : Dev, exec (.beaconTimeout now) s = .next (s.put e) ∧ e.flag DLD_BEACON_PORT_VALID = false ∧
      s.dev.keepsRegs e [DLD_BEACON_PORT] ∧ e = { s.dev with regs := e.regs, now := max s.dev.now now } := by
  have hnone : (s.dev.at_ now).beaconPort = none := beaconPort_none h
  refine ⟨(s.dev.at_ now).setF DLD_BEACON_PORT_VALID 0, ?_, ?_, fun o ho => ?_, rfl⟩
  · change execBeaconTimeout now s = _
    refine onRun_eq hf ?_
    rw [Dev.followBeacon, hnone]
  · rw [Dev.flag, getF_setF_self _ _ _ (by decide)]
    rfl
  · have hne : o ≠ DLD_BEACON_PORT := fun he => ho (List.mem_singleton.mpr he)
    rw [getR_setF, if_neg hne]
    exact getR_at_ _ _ _

/-- The port followed is the lowest active one that has just delivered a beacon. -/
theorem beaconPort_lowest {d : Dev} {p : Fin 16} (hactive : d.portActive p = true) (hpeer : d.portPeer p = false)
    (hlow : ∀ q : Fin 16, q < p → d.portActive q = false) (hbeacon : d.gw.beacons[p] = some d.now) : d.beaconPort = some p := by
  rw [Dev.beaconPort, List.find?_eq_some_iff_getElem]
  refine ⟨?_, p.val, by rw [List.length_finRange]; exact p.isLt, List.getElem_finRange .., fun j hj => ?_⟩
  · simp [hactive, hpeer, hbeacon]
  · have hj16 : j < 16 := hj.trans p.isLt
    have hq := hlow ⟨j, hj16⟩ hj
    have hget : (List.finRange 16)[j]'(by rw [List.length_finRange]; exact hj16) = ⟨j, hj16⟩ := List.getElem_finRange ..
    rw [hget, hq]
    rfl

/-- A beacon of port `p` seen at global time `now`: the port is followed. -/
def Dev.beaconSeen (d : Dev) (p : Fin 16) (now : Nat) : Dev :=
  (({ d.at_ now with gw := { d.gw with beacons := d.gw.beacons.set p (some (max d.now now)) } } : Dev).setF DLD_BEACON_PORT_VALID 1).setF
    DLD_BEACON_PORT_PORT p

theorem getR_beaconSeen_ne (d : Dev) (p : Fin 16) (now : Nat) {o : Nat} (h : o ≠ DLD_BEACON_PORT) :
    (d.beaconSeen p now).getR o = d.getR o := by
  rw [Dev.beaconSeen, getR_setF, if_neg h, getR_setF, if_neg h]
  rfl

theorem beaconSeen_shows (d : Dev) (p : Fin 16) (now : Nat) :
    (d.beaconSeen p now).getF DLD_BEACON_PORT_PORT = p ∧ (d.beaconSeen p now).flag DLD_BEACON_PORT_VALID = true := by
  refine ⟨?_, ?_⟩
  · rw [Dev.beaconSeen, getF_setF_self _ _ _ (by decide)]
    exact Nat.mod_eq_of_lt p.isLt
  · rw [Dev.flag, Dev.beaconSeen, getF_setF_ne _ _ _ _ (by decide) (by decide), getF_setF_self _ _ _ (by decide)]
    rfl

section
variable {s : State} {p : Fin 16} {time delay now : Nat} (hf : s.dev.frozen = false)
include hf

/-- With beacons off nothing but time moves. -/
theorem exec_timeBeacon_off (h : s.dev.flag DLD_CTRL_BEACON_EN = false) :
    exec (.timeBeacon p time delay now) s = .next (s.put (s.dev.at_ now)) := by
  have hen : ¬ (s.dev.at_ now).flag DLD_CTRL_BEACON_EN = true := fun h' => Bool.false_ne_true (h.symm.trans h')
  change execTimeBeacon p time delay now s = _
  exact onRun_eq hf (if_pos hen)

/-- A timebase behind by more than 1 µs steps forward at once. -/
theorem exec_timeBeacon_step (hen : s.dev.flag DLD_CTRL_BEACON_EN = true) (hactive : s.dev.portActive p = true)
    (hpeer : s.dev.portPeer p = false) (hlow : ∀ q : Fin 16, q < p → s.dev.portActive q = false)
    (hbehind : max s.dev.now now + 1000 < time + delay) :
    exec (.timeBeacon p time delay now) s = .next (s.put (({ (s.dev.beaconSeen p now).setN DLD_TIME_OFFSET
      (((time : Int) + delay - (max s.dev.now now : Nat)) % 2 ^ 32).toNat with now := time + delay } : Dev).latch egDld 3)) := by
  let d : Dev := { s.dev.at_ now with gw := { s.dev.gw with beacons := s.dev.gw.beacons.set p (some (max s.dev.now now)) } }
  have hset : d.gw.beacons[p] = some d.now := by
    change (s.dev.gw.beacons.set p (some (max s.dev.now now)))[p] = some (max s.dev.now now)
    simp
  have hfollow : d.followBeacon = s.dev.beaconSeen p now := by
    rw [Dev.followBeacon, beaconPort_lowest (d := d) hactive hpeer hlow hset]
    rfl
  have hne : ∀ q : Fin 16, FAB_PORT_CFG q ≠ DLD_BEACON_PORT := fun q => by simp only [FAB_PORT_CFG, DLD_BEACON_PORT]; omega
  have hstill : (s.dev.beaconSeen p now).beaconPort = some p :=
    beaconPort_lowest ((regBit_congr (getR_beaconSeen_ne _ _ _ (by decide)) _).trans hactive)
      ((congrArg (· == 1) (getF_congr (getR_beaconSeen_ne _ _ _ (hne p)))).trans hpeer)
      (fun q hq => (regBit_congr (getR_beaconSeen_ne _ _ _ (by decide)) _).trans (hlow q hq)) hset
  have hnow : (s.dev.beaconSeen p now).now = max s.dev.now now := rfl
  have hoff : 1000 < (time : Int) + delay - (max s.dev.now now : Nat) := by omega
  have hreach : max s.dev.now now + ((time : Int) + delay - (max s.dev.now now : Nat)).toNat = time + delay := by omega
  have hon : ¬ ¬ (s.dev.at_ now).flag DLD_CTRL_BEACON_EN = true := not_not.mpr hen
  change execTimeBeacon p time delay now s = _
  refine onRun_eq hf ?_
  dsimp only
  rw [if_neg hon]
  rw [show ({ s.dev.at_ now with gw := { (s.dev.at_ now).gw with beacons := (s.dev.at_ now).gw.beacons.set p (some (s.dev.at_ now).now) } } :
    Dev).followBeacon = s.dev.beaconSeen p now from hfollow]
  rw [if_pos hstill, hnow, if_pos hoff, now_setN, hnow, hreach]

/-- What the package shows after the step. -/
theorem exec_timeBeacon_effect (hen : s.dev.flag DLD_CTRL_BEACON_EN = true) (hactive : s.dev.portActive p = true)
    (hpeer : s.dev.portPeer p = false) (hlow : ∀ q : Fin 16, q < p → s.dev.portActive q = false)
    (hbehind : max s.dev.now now + 1000 < time + delay) (hbound : time + delay < max s.dev.now now + 2 ^ 32) :
    ∃ e : Dev, exec (.timeBeacon p time delay now) s = .next (s.put e) ∧ e.now = time + delay ∧ e.regBit DLD_EVENT 3 = true ∧
      e.getF DLD_BEACON_PORT_PORT = p ∧ e.flag DLD_BEACON_PORT_VALID = true ∧
      e.getN DLD_TIME_OFFSET = time + delay - max s.dev.now now ∧ e.tiles = s.dev.tiles ∧ e.out = s.dev.out := by
  let v := (((time : Int) + delay - (max s.dev.now now : Nat)) % 2 ^ 32).toNat
  let x : Dev := { (s.dev.beaconSeen p now).setN DLD_TIME_OFFSET v with now := time + delay }
  have hkept : ∀ o, o ≠ DLD_EVENT → o ≠ DLD_EVENT_SEQ → o ≠ INT_PEND 0 → (x.latch egDld 3).getR o = x.getR o :=
    fun o h1 h2 h3 => getR_latch_ne x egDld 3 o h1 h2 h3
  have hport : (x.latch egDld 3).getR DLD_BEACON_PORT = (s.dev.beaconSeen p now).getR DLD_BEACON_PORT :=
    (hkept _ (by decide) (by decide) (by decide)).trans ((getR_setN _ _ _ _).trans (if_neg (by decide)))
  have hoffset : (x.latch egDld 3).getN DLD_TIME_OFFSET = v % 2 ^ 32 :=
    (getN_congr (hkept _ (by decide) (by decide) (by decide))).trans ((getN_setN _ _ _ _).trans (if_pos rfl))
  have hv : v % 2 ^ 32 = time + delay - max s.dev.now now := by
    simp only [v]
    omega
  obtain ⟨hshowPort, hshowValid⟩ := beaconSeen_shows s.dev p now
  refine ⟨x.latch egDld 3, exec_timeBeacon_step hf hen hactive hpeer hlow hbehind, now_latch _ _ _,
    regBit_latch_self x egDld 3 (by decide) (by decide), (getF_congr hport).trans hshowPort,
    (congrArg (· == 1) (getF_congr hport)).trans hshowValid, hoffset.trans hv, ?_, ?_⟩
  · exact (tiles_latch _ _ _).trans rfl
  · exact (out_latch _ _ _).trans rfl

end

/-- Settles O41: the elastic port; each response by what it leaves at the tile's source; timeouts; the hub's sinks; beacons. -/
theorem transactions : Obligations.Transactions := by
  refine ⟨fun s n bank l r x hf he hl => exec_elasticAccess hf he hl, fun s n m t hf hq hh => ⟨fun hnone i hi => ?_, fun ht howner => ?_⟩,
    fun s n k now t hf hq hh => ⟨fun ht howner htime => exec_txnTimeout hf hq hh ht howner htime, exec_txnQuarantineEnd hf hq⟩,
    fun s m p time delay now hf => ⟨exec_mgmt hf, exec_unknownDeludOp hf, exec_timeBeacon_off hf, exec_timeBeacon_effect hf,
      exec_beaconTimeout hf⟩⟩
  · exact ⟨_, exec_lateResp hf hnone hi, lateResp_effect s.dev⟩
  · exact ⟨fun g a huse hdata hline => exec_loadData hf hq hh ht howner huse hdata hline, exec_ack hf hq hh ht howner,
      fun a k huse hk hlen hline => exec_atomicResult hf hq hh ht howner huse hk hlen hline, exec_error hf hq hh ht howner⟩

/-! States that meet the hypotheses. -/

/-- The package after reset with one access that waits at tile 0's elastic port, one write of its mover outstanding under number 3, port 0
active and beacons on. -/
def transactionWitness : State :=
  let d := ((State.reset.dev.setF DLD_CTRL_BEACON_EN 1).setBit FAB_PORT_ACTIVE 0 true).onTile 0 fun t =>
    { t with elastic := [⟨128, [0x2A], .mover⟩] }
  State.reset.put (d.onSource (some 0) fun x => { x with txns := [⟨3, 0, .mover, .write, .req, reqMsg 2 0 0, 0, 0⟩] })

/-- The access takes bank 1. -/
theorem transactions_elastic : ∃ e : Dev,
    exec (.elasticAccess 0 1) transactionWitness = .next (transactionWitness.put e) ∧ memGet (e.tile 0).store 128 = 0x2A := by
  obtain ⟨haccess, -⟩ := transactions.1 transactionWitness 0 1 [] [] ⟨128, [0x2A], .mover⟩ (by decide +kernel) (by decide +kernel)
    (fun y hy => absurd hy List.not_mem_nil)
  obtain ⟨e, he, -, hstore, -⟩ := haccess rfl
  exact ⟨e, he, by rw [hstore]; decide +kernel⟩

/-- The acknowledgement of the write frees its number. -/
theorem transactions_ack : ∃ e : Dev,
    exec (.ack (some 0) { reqMsg 9 0 0 with txn := 3 }) transactionWitness = .next (transactionWitness.put e) ∧
    (e.delud 0).src.txns = [] := by
  obtain ⟨-, hanswer⟩ := transactions.2.1 transactionWitness 0 { reqMsg 9 0 0 with txn := 3 }
    ⟨3, 0, .mover, .write, .req, reqMsg 2 0 0, 0, 0⟩ (by decide +kernel) (by decide +kernel) (by decide +kernel)
  obtain ⟨-, ⟨e, he, hgone, -⟩, -⟩ := hanswer (by decide +kernel) (.inl rfl)
  exact ⟨e, he, hgone.trans (by decide +kernel)⟩

/-- A write that nothing has answered within TXN_TIMEOUT ends. -/
theorem transactions_timeout : ∃ e : Dev,
    exec (.txnTimeout (some 0) 3 65535000) transactionWitness = .next (transactionWitness.put e) ∧ (e.delud 0).src.txns = [] := by
  obtain ⟨htimeout, -⟩ := transactions.2.2.1 transactionWitness 0 3 65535000 ⟨3, 0, .mover, .write, .req, reqMsg 2 0 0, 0, 0⟩
    (by decide +kernel) (by decide +kernel) (by decide +kernel)
  obtain ⟨e, he, htxns, -⟩ := htimeout (by decide +kernel) (.inl rfl) (by decide +kernel)
  exact ⟨e, he, htxns.trans (by decide +kernel)⟩

/-- A beacon 2 µs ahead steps global time forward. -/
theorem transactions_beacon : ∃ e : Dev,
    exec (.timeBeacon 0 2000 0 0) transactionWitness = .next (transactionWitness.put e) ∧ e.now = 2000 := by
  obtain ⟨-, -, -, hstep, -⟩ := transactions.2.2.2 transactionWitness (reqMsg 7 0 0) 0 2000 0 0 (by decide +kernel)
  obtain ⟨e, he, hnow, -⟩ := hstep (by decide +kernel) (by decide +kernel) (by decide +kernel) (fun q hq => absurd hq (Nat.not_lt_zero _))
    (by decide +kernel) (by decide +kernel)
  exact ⟨e, he, hnow⟩

end Sys2Proof.Machine
end

section
/-! Background reads of bonded DRAM (R163, R164, R167, R174): which registers of the memory controller a read of a clean line can change,
and how an uncorrectable line is named. -/

namespace Sys2Proof.Machine

open Reg

@[simp] theorem getR_onDarner (d : Dev) (n : Fin 32) (f : Darner → Darner) (p : Nat) : (d.onDarner n f).getR p = d.getR p := rfl

theorem memRuns_iff (d : Dev) (n : Fin 32) : d.memRuns n = true ↔ d.getF (MEM_STATUS_MODE n) < 2 := decide_eq_true_iff

/-! The memory controller's events. -/

/-- An event of the memory controller changes its two event registers and a word of pending sources. -/
theorem getR_latch_egMem (d : Dev) (n : Fin 32) (b : Nat) {p : Nat} (hp : 0x1000000 ≤ p) (h1 : p ≠ MEM_EVENT n) (h2 : p ≠ MEM_EVENT_SEQ n) :
    (d.latch (egMem n) b).getR p = d.getR p :=
  getR_latch_ne d _ b p h1 h2 (by simp only [egMem, INT_PEND]; omega)

theorem regBit_latch_egMem (d : Dev) (n : Fin 32) (b : Nat) {c : Nat} (hc : c < 32) :
    (d.latch (egMem n) b).regBit (MEM_EVENT n) c = (decide (c = b) || d.regBit (MEM_EVENT n) c) :=
  regBit_latch d (egMem n) b c hc (by simp only [egMem, MEM_EVENT, tileBase, INT_PEND]; omega) (by simp [egMem])

theorem not_counterRegs_mem {n : Fin 32} {p : Nat} (h : tileBase n + 0x40000 ≤ p) (hlt : p < tileBase n + 0x50000) : ¬ counterRegs n p :=
  not_counterRegs_of_lt (by omega) (by omega)

/-! Reads of clean lines. -/

/-- The registers of a tile's memory controller that no read of a clean line writes: the count of uncorrectable lines, and all from
MEM_UE_ADDR on. -/
def scrubKept (n p : Nat) : Prop := p = MEM_UE_COUNT n ∨ (MEM_UE_ADDR_LO n ≤ p ∧ p < tileBase n + 0x50000)

theorem scrubKept_range {n p : Nat} (h : scrubKept n p) : tileBase n + 0x40018 ≤ p ∧ p < tileBase n + 0x50000 ∧ p ≠ MEM_LINK_CE_COUNT n := by
  simp only [scrubKept, MEM_UE_COUNT, MEM_UE_ADDR_LO] at h
  simp only [MEM_LINK_CE_COUNT]
  omega

/-- What reads of clean lines leave: the lines and their poison, the registers above, and the events that were set. -/
def Dev.scrubSide (n : Fin 32) (d e : Dev) : Prop :=
  d.darnerOnly n e ∧ (∀ p, scrubKept n p → e.getR p = d.getR p) ∧
    ∀ b, b < 32 → d.regBit (MEM_EVENT n) b = true → e.regBit (MEM_EVENT n) b = true

theorem Dev.scrubSide.refl (n : Fin 32) (d : Dev) : d.scrubSide n d := ⟨.refl n d, fun _ _ => rfl, fun _ _ h => h⟩

theorem Dev.scrubSide.trans {n : Fin 32} {d e x : Dev} (h : d.scrubSide n e) (g : e.scrubSide n x) : d.scrubSide n x :=
  ⟨h.1.trans g.1, fun p hp => (g.2.1 p hp).trans (h.2.1 p hp), fun b hb hset => g.2.2 b hb (h.2.2 b hb hset)⟩

theorem scrubSide_onDarner (d : Dev) (n : Fin 32) (f : Darner → Darner) (hf : ∀ w, (f w).poison = w.poison) :
    d.scrubSide n (d.onDarner n f) :=
  ⟨darnerOnly_onDarner d n f hf, fun _ _ => rfl, fun _ _ h => h⟩

theorem scrubSide_satAdd (d : Dev) (n : Fin 32) {o : Nat} (k : Nat) (h : o = MEM_CE_COUNT n ∨ o = MEM_LINK_CE_COUNT n) :
    d.scrubSide n (d.satAdd o k) := by
  refine ⟨darnerOnly_of_tiles (tiles_satAdd _ _ _) (out_satAdd _ _ _), fun p hp => getR_satAdd_ne d k ?_, fun b _ hset => ?_⟩
  · have hrange := scrubKept_range hp
    simp only [MEM_CE_COUNT] at h
    omega
  · exact (regBit_congr (getR_satAdd_ne d k (by simp only [MEM_CE_COUNT, MEM_LINK_CE_COUNT, MEM_EVENT] at *; omega)) b).trans hset

theorem scrubSide_latch (d : Dev) (n : Fin 32) (b : Nat) : d.scrubSide n (d.latch (egMem n) b) := by
  refine ⟨darnerOnly_of_tiles (tiles_latch _ _ _) (out_latch _ _ _), fun p hp => ?_, fun c hc hset => ?_⟩
  · have hrange := scrubKept_range hp
    exact getR_latch_egMem d n b (by simp only [tileBase] at hrange; omega) (by simp only [MEM_EVENT]; omega) (by simp only [MEM_EVENT_SEQ]; omega)
  · rw [regBit_latch_egMem d n b hc, hset, Bool.or_true]

theorem scrubSide_count (d : Dev) (n : Fin 32) (ev k : Nat) : d.scrubSide n (d.count (.tile n) ev k) := by
  have hcount := countOnly_count d n ev k
  obtain ⟨htiles, -, hout⟩ := hcount.fields
  refine ⟨darnerOnly_of_tiles htiles hout, fun p hp => hcount.2 p ?_, fun b _ hset => (regBit_congr (hcount.2 _ ?_) b).trans hset⟩
  · have hrange := scrubKept_range hp
    exact not_counterRegs_mem (by omega) (by omega)
  · exact not_counterRegs_mem (by simp only [MEM_EVENT]; omega) (by simp only [MEM_EVENT]; omega)

theorem scrubSide_ceSeen (d : Dev) (n : Fin 32) (k : Nat) : d.scrubSide n (d.ceSeen n k) := by
  have hcount : d.scrubSide n ((d.satAdd (MEM_CE_COUNT n) k).onDarner n fun w => { w with ce := w.ce + k }) :=
    (scrubSide_satAdd d n k (.inl rfl)).trans (scrubSide_onDarner _ n _ fun _ => rfl)
  unfold Dev.ceSeen
  dsimp only
  split
  · exact (hcount.trans (scrubSide_onDarner _ n (fun w => { w with ceOver := true }) fun _ => rfl)).trans (scrubSide_latch _ n 0)
  · exact hcount

/-- The slot that a Darner read takes: its channel and bank are used in this beat, and the read is counted. -/
def Dev.slotTaken (d : Dev) (n : Fin 32) (l : Nat) : Dev :=
  (d.onDarner n fun w => { w with used := w.used ++ [(lineCh l, lineBank l)] }).count (.tile n) 0x12 1

theorem scrubSide_slotTaken (d : Dev) (n : Fin 32) (l : Nat) : d.scrubSide n (d.slotTaken n l) :=
  (scrubSide_onDarner d n (fun w => { w with used := w.used ++ [(lineCh l, lineBank l)] }) fun _ => rfl).trans (scrubSide_count _ n _ _)

theorem darnerRead_clean {d : Dev} {n : Fin 32} {l : Nat} (source : Nat) (h : d.poisoned n l = false) :
    d.scrubSide n (d.darnerRead n l source cleanRep) := by
  have htaken := scrubSide_slotTaken d n l
  have hpoison : (d.slotTaken n l).poisoned n l = false := (htaken.1.fields.2.2 l).trans h
  have hread : d.darnerRead n l source cleanRep = ((d.slotTaken n l).ceSeen n 0).satAdd (MEM_LINK_CE_COUNT n) 0 := by
    change ((d.slotTaken n l).dramRead n l source cleanRep).2.2 = _
    simp [Dev.dramRead, cleanRep, hpoison]
  rw [hread]
  exact (htaken.trans (scrubSide_ceSeen _ n 0)).trans (scrubSide_satAdd _ n 0 (.inr rfl))

/-! Uncorrectable lines. -/

/-- MEM_UE_ADDR names a line of the tile and where it was met (R174, R196). -/
theorem ueAddr_effect (d : Dev) (n : Fin 32) {l source : Nat} (hl : l < dramLines) (hs : source < 8) :
    let e := d.ueAddr n l source
    e.getN (MEM_UE_ADDR_LO n) = 64 * l % 2 ^ 32 ∧ e.getF (MEM_UE_ADDR_HI_SOURCE n) = source ∧
      e.getF (MEM_UE_ADDR_HI_OFFSET_HI n) = 64 * l / 2 ^ 32 ∧ d.keepsRegs e [MEM_UE_ADDR_LO n, MEM_UE_ADDR_HI n] ∧
      e.tiles = d.tiles ∧ e.out = d.out ++ [.signal "UE" [n, l, source]] := by
  have hhigh : 64 * l / 2 ^ 32 < 8 := by simp only [dramLines] at hl; omega
  dsimp only
  unfold Dev.ueAddr
  generalize hx : d.setN (MEM_UE_ADDR_LO n) (64 * l) = x
  refine ⟨?_, ?_, ?_, fun p hp => ?_, by simp [← hx], by simp [← hx]⟩
  · rw [getN_congr (getR_emit _ _ _), getN_congr (getR_setF_ne _ _ (by simp)), getN_congr (getR_setF_ne _ _ (by simp)), ← hx, getN_setN,
      if_pos rfl]
  · rw [getF_congr (getR_emit _ _ _), getF_setF_ne _ _ _ _ (by simp) (.inr (.inr (by simp))), getF_setF_self _ _ _ (by simp)]
    exact Nat.mod_eq_of_lt hs
  · rw [getF_congr (getR_emit _ _ _), getF_setF_self _ _ _ (by simp)]
    exact Nat.mod_eq_of_lt hhigh
  · obtain ⟨hlo, hhi⟩ : p ≠ MEM_UE_ADDR_LO n ∧ p ≠ MEM_UE_ADDR_HI n := by simpa using hp
    rw [getR_emit, getR_setF_ne _ _ hhi, getR_setF_ne _ _ hhi, ← hx, getR_setN, if_neg hlo]

/-- A line that is uncorrectable on the die is counted, sets MEM_EVENT.UE and is named (R163, R174). -/
theorem darnerRead_dieUe (d : Dev) {n : Fin 32} {l source : Nat} {r : EccRep} (hdie : r.dieUe = true) (hlink : r.linkUe = false)
    (hl : l < dramLines) (hs : source < 8) :
    let e := d.darnerRead n l source r
    e.getN (MEM_UE_COUNT n) = min (d.getN (MEM_UE_COUNT n) + 1) 0xFFFFFFFF ∧ e.regBit (MEM_EVENT n) 1 = true ∧
      e.getN (MEM_UE_ADDR_LO n) = 64 * l % 2 ^ 32 ∧ e.getF (MEM_UE_ADDR_HI_SOURCE n) = source ∧
      e.out = d.out ++ [.signal "UE" [n, l, source]] ∧ (e.tile n).dram = (d.tile n).dram ∧ ∀ k, e.poisoned n k = d.poisoned n k := by
  have htaken := scrubSide_slotTaken d n l
  have hread : d.darnerRead n l source r = (((d.slotTaken n l).satInc (MEM_UE_COUNT n)).latch (egMem n) 1).ueAddr n l source := by
    change (if r.dieCe ≠ 0 ∧ ¬ ((d.slotTaken n l).dramRead n l source r).2.1 then _ else ((d.slotTaken n l).dramRead n l source r).2.2) = _
    simp [Dev.dramRead, hdie, hlink]
  obtain ⟨hdarner, hkept, -⟩ := htaken
  obtain ⟨hdram, -, hpoison⟩ := hdarner.fields
  generalize d.slotTaken n l = x at *
  obtain ⟨hlo, hsource, -, hregs, htiles, hout⟩ := ueAddr_effect ((x.satInc (MEM_UE_COUNT n)).latch (egMem n) 1) n hl hs
  rw [← hread] at hlo hsource hregs htiles hout
  have htile := tile_congr (htiles.trans ((tiles_latch _ _ _).trans (tiles_satInc _ _))) n
  dsimp only
  refine ⟨?_, ?_, hlo, hsource, ?_, by rw [htile, hdram], fun k => ?_⟩
  · rw [getN_congr (hregs _ (by simp)), getN_congr (getR_latch_egMem _ n 1 (by simp only [MEM_UE_COUNT, tileBase]; omega) (by simp) (by simp)),
      getN_satInc, getN_congr (hkept _ (.inl rfl))]
  · rw [regBit_congr (hregs _ (by simp)), regBit_latch_egMem _ n 1 (by decide)]
    rfl
  · rw [hout, out_latch, out_satInc, hdarner.2.2]
  · rw [← hpoison, Dev.poisoned, Dev.poisoned, Dev.darner, Dev.darner, htile]

end Sys2Proof.Machine
end

section
/-! The scrub walk (R135, R166, R167, R170): one slot reads the line of every channel at a position, and the walk moves on. -/

namespace Sys2Proof.Machine

open Reg

/-! The lines of a slot. -/

/-- The line of every channel at a position of the walk. -/
def walkLines (p : Nat) : List Nat := (List.range 48).map fun ch => lineAt ch (p / walkPositions) (p % walkPositions)

/-- The read of one line of a slot: retired pages and positions outside the address space are passed over. -/
def Dev.walkRead (n : Fin 32) (reps : List (Nat × EccRep)) (d : Dev) (l : Nat) : Dev :=
  if l < dramLines ∧ ¬ d.skipped n l then d.darnerRead n l 2 (repOf reps l) else d

theorem walkSlot_free {d : Dev} {n : Fin 32} (reps : List (Nat × EccRep))
    (hfree : ∀ c, c < 48 → d.scrubFree n c (d.getF (MEM_SCRUB_POS_POS n) / walkPositions) = true) :
    d.walkSlot n reps = ((walkLines (d.getF (MEM_SCRUB_POS_POS n))).foldl (Dev.walkRead n reps) d).walkOn n :=
  if_pos (List.all_eq_true.mpr fun c hc => hfree c (List.mem_range.mp hc))

theorem walkRead_clean {d : Dev} {n : Fin 32} {reps : List (Nat × EccRep)} {l : Nat} (hpoison : ∀ l, d.poisoned n l = false)
    (hrep : repOf reps l = cleanRep) : d.scrubSide n (d.walkRead n reps l) := by
  unfold Dev.walkRead
  split
  · rw [hrep]
    exact darnerRead_clean 2 (hpoison l)
  · exact .refl n d

/-- Clean lines read one after the other. -/
theorem walkReads_clean {n : Fin 32} {reps : List (Nat × EccRep)} (ls : List Nat) {d : Dev} (hpoison : ∀ l, d.poisoned n l = false)
    (hrep : ∀ l ∈ ls, repOf reps l = cleanRep) : d.scrubSide n (ls.foldl (Dev.walkRead n reps) d) := by
  induction ls generalizing d with
  | nil => exact .refl n d
  | cons l t ih =>
    have hread := walkRead_clean hpoison (hrep l (List.mem_cons_self ..))
    exact hread.trans (ih (fun k => (hread.1.fields.2.2 k).trans (hpoison k)) fun k hk => hrep k (List.mem_cons_of_mem _ hk))

theorem walkLines_nodup (p : Nat) : (walkLines p).Nodup := by
  refine List.Nodup.map_on (fun a _ b _ hab => ?_) List.nodup_range
  simp only [lineAt] at hab
  omega

theorem repOf_single_self (l : Nat) (r : EccRep) : repOf [(l, r)] l = r := by simp [repOf]

theorem repOf_single_ne {l k : Nat} (r : EccRep) (h : k ≠ l) : repOf [(l, r)] k = cleanRep := by simp [repOf, h.symm]

/-- A slot with one uncorrectable line: the clean reads before it, its own, and the clean reads after it. -/
theorem walkReads_dieUe {d : Dev} {n : Fin 32} {l p : Nat} {r : EccRep} (hpoison : ∀ l, d.poisoned n l = false) (hmem : l ∈ walkLines p)
    (hl : l < dramLines) (hskip : d.skipped n l = false) (hdie : r.dieUe = true) (hlink : r.linkUe = false) :
    ∃ x, d.scrubSide n x ∧ (x.darnerRead n l 2 r).scrubSide n ((walkLines p).foldl (Dev.walkRead n [(l, r)]) d) := by
  have hnodup := walkLines_nodup p
  obtain ⟨before, after, hsplit⟩ := List.append_of_mem hmem
  rw [hsplit] at hnodup ⊢
  obtain ⟨hout, -⟩ := List.nodup_cons.mp (List.nodup_middle.mp hnodup)
  rw [List.mem_append, not_or] at hout
  obtain ⟨hbefore, hafter⟩ := hout
  have hclean {ls : List Nat} (h : l ∉ ls) : ∀ k ∈ ls, repOf [(l, r)] k = cleanRep :=
    fun k hk => repOf_single_ne r fun he => h (he ▸ hk)
  have hfirst := walkReads_clean before hpoison (hclean hbefore)
  refine ⟨_, hfirst, ?_⟩
  rw [List.foldl_append, List.foldl_cons]
  generalize before.foldl (Dev.walkRead n [(l, r)]) d = x at hfirst ⊢
  obtain ⟨hdarner, hkept, -⟩ := hfirst
  have hskipped : x.skipped n l = false := by
    have hflag (i : Nat) (hi : i < 128) : x.getR (MEM_SKIP n i) = d.getR (MEM_SKIP n i) :=
      hkept _ (.inr (by simp only [MEM_SKIP, MEM_UE_ADDR_LO]; omega))
    rw [← hskip, Bool.eq_iff_iff]
    simp only [Dev.skipped, List.any_eq_true, List.mem_range, Dev.flag]
    refine exists_congr fun i => and_congr_right fun hi => ?_
    rw [getF_congr (f := MEM_SKIP_VALID n i) (hflag i hi), getF_congr (f := MEM_SKIP_PAGE n i) (hflag i hi)]
  have hread : x.walkRead n [(l, r)] l = x.darnerRead n l 2 r := by
    rw [Dev.walkRead, if_pos ⟨hl, by rw [hskipped]; exact Bool.false_ne_true⟩, repOf_single_self]
  obtain ⟨-, -, -, -, -, -, hsame⟩ := darnerRead_dieUe x (n := n) hdie hlink hl (source := 2) (by decide)
  rw [hread]
  exact walkReads_clean after (fun k => (hsame k).trans ((hdarner.fields.2.2 k).trans (hpoison k))) (hclean hafter)

/-! The walk moves on. -/

theorem walkOn_next {d : Dev} {n : Fin 32} (h : d.getF (MEM_SCRUB_POS_POS n) + 1 < walkEnd) :
    d.walkOn n = d.setF (MEM_SCRUB_POS_POS n) (d.getF (MEM_SCRUB_POS_POS n) + 1) :=
  if_neg h.ne

theorem walkOn_end {d : Dev} {n : Fin 32} (h : d.getF (MEM_SCRUB_POS_POS n) + 1 = walkEnd) :
    d.walkOn n = (((d.onDarner n fun w => { w with ce := 0, ceOver := false }).setF (MEM_SCRUB_POS_POS n) 0).satInc (MEM_SCRUB_PASSES n)) :=
  if_pos h

/-- The walk's position and its count of passes are all that it changes beside the count of corrected words. -/
theorem walkOn_frame (d : Dev) (n : Fin 32) :
    d.darnerOnly n (d.walkOn n) ∧ d.keepsRegs (d.walkOn n) [MEM_SCRUB_POS n, MEM_SCRUB_PASSES n] := by
  unfold Dev.walkOn
  dsimp only
  split
  · refine ⟨(darnerOnly_onDarner d n (fun w => { w with ce := 0, ceOver := false }) fun _ => rfl).trans
      (darnerOnly_of_tiles (by simp) (by simp)), fun p hp => ?_⟩
    obtain ⟨hpos, hpasses⟩ : p ≠ MEM_SCRUB_POS n ∧ p ≠ MEM_SCRUB_PASSES n := by simpa using hp
    rw [getR_satInc_ne _ hpasses, getR_setF_ne _ _ hpos, getR_onDarner]
  · exact ⟨darnerOnly_of_tiles (by simp) (by simp), fun p hp => getR_setF_ne _ _ fun he => hp (by simp [he])⟩

/-- One position forward (R166). -/
theorem walkOn_position {d : Dev} {n : Fin 32} (h : d.getF (MEM_SCRUB_POS_POS n) + 1 < walkEnd) :
    (d.walkOn n).getF (MEM_SCRUB_POS_POS n) = d.getF (MEM_SCRUB_POS_POS n) + 1 ∧
      (d.walkOn n).getN (MEM_SCRUB_PASSES n) = d.getN (MEM_SCRUB_PASSES n) := by
  rw [walkOn_next h]
  refine ⟨?_, getN_congr (getR_setF_ne _ _ (by simp))⟩
  rw [getF_setF_self _ _ _ (by simp)]
  simp only [walkEnd, walkPositions] at h
  exact Nat.mod_eq_of_lt (by simp only; omega)

/-- A completed walk counts and starts again (R166, R170). -/
theorem walkOn_pass {d : Dev} {n : Fin 32} (h : d.getF (MEM_SCRUB_POS_POS n) + 1 = walkEnd) :
    (d.walkOn n).getF (MEM_SCRUB_POS_POS n) = 0 ∧ ((d.walkOn n).darner n).ce = 0 ∧
      (d.walkOn n).getN (MEM_SCRUB_PASSES n) = min (d.getN (MEM_SCRUB_PASSES n) + 1) 0xFFFFFFFF := by
  rw [walkOn_end h]
  refine ⟨?_, ?_, ?_⟩
  · rw [getF_congr (getR_satInc_ne _ (by simp)), getF_setF_self _ _ _ (by simp), Nat.zero_mod]
  · rw [Dev.darner, tile_congr (tiles_satInc _ _), tile_congr (tiles_setF _ _ _), Dev.onDarner, tile_onTile_self]
  · rw [getN_satInc, getN_congr (getR_setF_ne _ _ (by simp)), getN_congr (getR_onDarner _ _ _ _)]

/-! The command. -/

theorem repairPicks_nil {d : Dev} {n : Fin 32} (h : (d.darner n).repair = []) : d.repairPicks n = [] := by
  simp [Dev.repairPicks, h]

section
variable {s : State} {n : Fin 32} (hf : s.dev.frozen = false) (hruns : s.dev.memRuns n = true) (hrepair : (s.dev.darner n).repair = [])
  (hen : s.dev.flag (MEM_CTRL_SCRUB_EN n) = true) (hpoison : ∀ l, s.dev.poisoned n l = false)
  (hfree : ∀ c, c < 48 → s.dev.scrubFree n c (s.dev.getF (MEM_SCRUB_POS_POS n) / walkPositions) = true)
include hf hruns hrepair hen hfree

theorem exec_scrubRead_walk (reps : List (Nat × EccRep)) : exec (.scrubRead n reps) s =
    .next (s.put (((walkLines (s.dev.getF (MEM_SCRUB_POS_POS n))).foldl (Dev.walkRead n reps) s.dev).walkOn n)) := by
  change execScrubRead n reps s = _
  refine onRun_eq hf ?_
  rw [if_neg (not_not.mpr hruns), repairPicks_nil hrepair]
  exact (if_pos hen).trans (walkSlot_free reps hfree)

include hpoison

/-- A slot with nothing wrong. -/
theorem scrubRead_clean_effect : ∃ e : Dev, exec (.scrubRead n []) s = .next (s.put e) ∧ (e.tile n).dram = (s.dev.tile n).dram ∧
    (s.dev.getF (MEM_SCRUB_POS_POS n) + 1 < walkEnd → e.getF (MEM_SCRUB_POS_POS n) = s.dev.getF (MEM_SCRUB_POS_POS n) + 1 ∧
      e.getN (MEM_SCRUB_PASSES n) = s.dev.getN (MEM_SCRUB_PASSES n)) ∧
    (s.dev.getF (MEM_SCRUB_POS_POS n) + 1 = walkEnd → e.getF (MEM_SCRUB_POS_POS n) = 0 ∧ (e.darner n).ce = 0 ∧
      e.getN (MEM_SCRUB_PASSES n) = min (s.dev.getN (MEM_SCRUB_PASSES n) + 1) 0xFFFFFFFF) ∧
    s.dev.onlyTile e n ∧ (e.tile n).store = (s.dev.tile n).store ∧ e.out = s.dev.out := by
  refine ⟨_, exec_scrubRead_walk hf hruns hrepair hen hfree [], ?_⟩
  have hreads := walkReads_clean (walkLines (s.dev.getF (MEM_SCRUB_POS_POS n))) (reps := []) hpoison fun _ _ => rfl
  generalize (walkLines _).foldl (Dev.walkRead n []) s.dev = x at hreads ⊢
  obtain ⟨hdarner, hkept, -⟩ := hreads
  have hpos : x.getF (MEM_SCRUB_POS_POS n) = s.dev.getF (MEM_SCRUB_POS_POS n) :=
    getF_congr (hkept _ (.inr (by simp only [MEM_SCRUB_POS, MEM_UE_ADDR_LO]; omega)))
  have hpasses : x.getN (MEM_SCRUB_PASSES n) = s.dev.getN (MEM_SCRUB_PASSES n) :=
    getN_congr (hkept _ (.inr (by simp only [MEM_SCRUB_PASSES, MEM_UE_ADDR_LO]; omega)))
  rw [← hpos, ← hpasses]
  have hall := hdarner.trans (walkOn_frame x n).1
  obtain ⟨hdram, hstore, -⟩ := hall.fields
  obtain ⟨-, honly, hout⟩ := hall
  exact ⟨hdram, walkOn_position, walkOn_pass, honly, hstore, hout⟩

/-- A slot with one line that is uncorrectable on the die. -/
theorem scrubRead_dieUe_effect {l : Nat} {r : EccRep} (hmem : l ∈ walkLines (s.dev.getF (MEM_SCRUB_POS_POS n))) (hl : l < dramLines)
    (hskip : s.dev.skipped n l = false) (hdie : r.dieUe = true) (hlink : r.linkUe = false) :
    ∃ e : Dev, exec (.scrubRead n [(l, r)]) s = .next (s.put e) ∧
      e.getN (MEM_UE_COUNT n) = min (s.dev.getN (MEM_UE_COUNT n) + 1) 0xFFFFFFFF ∧ e.regBit (MEM_EVENT n) 1 = true ∧
      e.getN (MEM_UE_ADDR_LO n) = 64 * l % 2 ^ 32 ∧ e.getF (MEM_UE_ADDR_HI_SOURCE n) = 2 ∧
      e.out = s.dev.out ++ [.signal "UE" [n, l, 2]] ∧ (e.tile n).dram = (s.dev.tile n).dram := by
  refine ⟨_, exec_scrubRead_walk hf hruns hrepair hen hfree [(l, r)], ?_⟩
  obtain ⟨x, ⟨hbefore, hkept, -⟩, hafter⟩ := walkReads_dieUe hpoison hmem hl hskip hdie hlink
  generalize (walkLines _).foldl (Dev.walkRead n [(l, r)]) s.dev = y at hafter ⊢
  obtain ⟨hcount, hevent, hlo, hsource, hout, hdram, -⟩ := darnerRead_dieUe x (n := n) hdie hlink hl (source := 2) (by decide)
  obtain ⟨hrest, hregs, hbits⟩ := hafter
  obtain ⟨hwalk, hwalkRegs⟩ := walkOn_frame y n
  have hend := hrest.trans hwalk
  have hkeep (p : Nat) (hp : p ∉ [MEM_SCRUB_POS n, MEM_SCRUB_PASSES n]) (h : scrubKept n p) :
      (y.walkOn n).getR p = (x.darnerRead n l 2 r).getR p := (hwalkRegs p hp).trans (hregs p h)
  refine ⟨?_, ?_, ?_, ?_, ?_, ?_⟩
  · rw [getN_congr (hkeep _ (by simp) (.inl rfl)), hcount, getN_congr (hkept _ (.inl rfl))]
  · rw [regBit_congr (hwalkRegs _ (by simp))]
    exact hbits 1 (by decide) hevent
  · rw [getN_congr (hkeep _ (by simp) (.inr (by simp))), hlo]
  · rw [getF_congr (hkeep _ (by simp) (.inr (by simp))), hsource]
  · rw [hend.2.2, hout, hbefore.2.2]
  · rw [hend.fields.1, hdram, hbefore.fields.1]

end

end Sys2Proof.Machine
end

section
/-! The Darner's other beats (R135, R164, R167, R168, R171 to R174): write-backs, refresh, telemetry and calibration, and the statement on
the rota. -/

namespace Sys2Proof.Machine

open Reg

/-! Write-backs. -/

theorem poisoned_setPoison (d : Dev) (n : Fin 32) (l k : Nat) (v : Bool) :
    (d.setPoison n l v).poisoned n k = if k = l then v else d.poisoned n k := by
  rw [Dev.setPoison, Dev.onDarner, Dev.poisoned, Dev.darner, tile_onTile_self]
  exact smGet_smPut _ _ _ _ _

theorem poisoned_congr {d e : Dev} {n : Fin 32} (h : e.tile n = d.tile n) (l : Nat) : e.poisoned n l = d.poisoned n l := by
  rw [Dev.poisoned, Dev.poisoned, Dev.darner, Dev.darner, h]

/-- The package without the pending write-backs of a line. -/
def Dev.wbTaken (d : Dev) (n : Fin 32) (l : Nat) : Dev := d.onDarner n fun k => { k with wb := k.wb.filter fun x => x.1 != l }

theorem wb_wbTaken (d : Dev) (n : Fin 32) (l : Nat) : ∀ w ∈ ((d.wbTaken n l).darner n).wb, w.1 ≠ l := by
  rw [Dev.wbTaken, Dev.onDarner, Dev.darner, tile_onTile_self]
  exact fun w hw => by simpa using (List.mem_filter.mp hw).2

/-- The bytes and the poison of a line after its write. -/
def Dev.lineStored (d : Dev) (n : Fin 32) (l : Nat) (data : List Byte) (ue : Bool) : Dev :=
  (d.onTile n fun t => { t with dram := memPutBytes t.dram (64 * l) (data.take 64) }).setPoison n l ue

theorem lineStored_frame (d : Dev) (n : Fin 32) (l : Nat) (data : List Byte) (ue : Bool) :
    let e := d.lineStored n l data ue
    (e.tile n).dram = memPutBytes (d.tile n).dram (64 * l) (data.take 64) ∧ (e.darner n).wb = (d.darner n).wb ∧
      (∀ k, e.poisoned n k = if k = l then ue else d.poisoned n k) ∧ d.dramSide n e := by
  refine ⟨?_, ?_, fun k => ?_, (dramSide_onTile d n (fun t => { t with dram := memPutBytes t.dram (64 * l) (data.take 64) })
    fun _ => rfl).trans (dramSide_setPoison _ n l ue)⟩
  · rw [Dev.lineStored, Dev.setPoison, Dev.onDarner, tile_onTile_self, tile_onTile_self]
  · rw [Dev.lineStored, Dev.setPoison, Dev.onDarner, Dev.darner, tile_onTile_self, tile_onTile_self]
    rfl
  · rw [Dev.lineStored, poisoned_setPoison, Dev.poisoned, Dev.darner, tile_onTile_self]
    rfl

/-- A write of a line without a pending write-back discards none (R168). -/
theorem dramWrite_unpended {d : Dev} {n : Fin 32} {l : Nat} (data : List Byte) (ue : Bool) (h : ∀ w ∈ (d.darner n).wb, w.1 ≠ l) :
    d.dramWrite n l data ue = if ue then ((d.lineStored n l data ue).linkUeSeen n l).ueAddr n l 4 else d.lineStored n l data ue := by
  have hnone : ((d.darner n).wb.filter fun w => w.1 == l).length = 0 := by
    rw [List.length_eq_zero_iff, List.filter_eq_nil_iff]
    exact fun w hw => by simpa using h w hw
  rw [Dev.dramWrite, hnone]
  rfl

/-- A link UE latches its event and leaves the lines of the tile (R164, R174). -/
theorem linkUeSeen_effect (d : Dev) (n : Fin 32) (l : Nat) :
    d.darnerOnly n (d.linkUeSeen n l) ∧ (d.linkUeSeen n l).regBit (MEM_EVENT n) 2 = true := by
  generalize hx : ((d.satInc (MEM_LINK_UE_COUNT n)).latch (egMem n) 2).onDarner n
    (fun w => { w with linkUes := w.linkUes.set (Fin.ofNat 48 l) (w.linkUes[Fin.ofNat 48 l] + 1) }) = x
  have honly : d.darnerOnly n x := by
    rw [← hx]
    exact (darnerOnly_of_tiles (by simp) (by simp)).trans (darnerOnly_onDarner _ n _ fun _ => rfl)
  have hevent : x.regBit (MEM_EVENT n) 2 = true := by
    rw [← hx, regBit_congr (getR_onDarner _ _ _ _), regBit_latch_egMem _ n 2 (by decide)]
    rfl
  have hseen : d.linkUeSeen n l = if (x.darner n).linkUes[Fin.ofNat 48 l] = 16 then x.chanFail n else x := by
    rw [← hx]
    rfl
  rw [hseen]
  split
  · obtain ⟨hfail, -, hbits⟩ := scrubSide_latch x n 5
    exact ⟨honly.trans hfail, hbits 2 (by decide) hevent⟩
  · exact ⟨honly, hevent⟩

section
variable {s : State} {n : Fin 32} {ch : Fin 48} {l : Nat} {b : List Byte} {w : List (Nat × List Byte)} (hf : s.dev.frozen = false)
  (hruns : s.dev.memRuns n = true) (hwb : (s.dev.darner n).wb = (l, b) :: w) (hch : lineCh l = ch.val) (hbank : lineBank l ≠ s.dev.beat n)
include hf hruns hwb hch hbank

/-- The channel's oldest write-back issues. -/
theorem exec_darnerWriteback (ue : Bool) : exec (.darnerWriteback n ch ue) s =
    .next (s.put (((s.dev.wbTaken n l).dramWrite n l b ue).count (.tile n) 0x12 1)) := by
  have hpick : ((s.dev.darner n).wb.find? fun w => lineCh w.1 == ch.val && lineBank w.1 != s.dev.beat n) = some (l, b) := by
    simp [hwb, hch, hbank]
  change execDarnerWriteback n ch ue s = _
  refine onRun_eq hf ?_
  rw [if_neg (not_not.mpr hruns), hpick]
  rfl

theorem writeback_good (hlen : b.length = 64) : ∃ e : Dev, exec (.darnerWriteback n ch false) s = .next (s.put e) ∧
    (e.tile n).dram = memPutBytes (s.dev.tile n).dram (64 * l) b ∧ (∀ w ∈ (e.darner n).wb, w.1 ≠ l) ∧ e.poisoned n l = false ∧
    (∀ x, x ≠ l → e.poisoned n x = s.dev.poisoned n x) ∧ s.dev.onlyTile e n ∧ (e.tile n).store = (s.dev.tile n).store ∧
    e.out = s.dev.out := by
  refine ⟨_, exec_darnerWriteback hf hruns hwb hch hbank false, ?_⟩
  have hpending := wb_wbTaken s.dev n l
  obtain ⟨hdram, hkeptWb, hpoison, hside⟩ := lineStored_frame (s.dev.wbTaken n l) n l b false
  rw [List.take_of_length_le hlen.le] at hdram
  have htaken : (s.dev.wbTaken n l).tile n = _ := tile_onTile_self s.dev n _
  have htakenSide : s.dev.dramSide n (s.dev.wbTaken n l) := dramSide_onTile s.dev n
    (fun t => { t with darner := { t.darner with wb := t.darner.wb.filter fun x => x.1 != l } }) fun _ => rfl
  rw [dramWrite_unpended b false hpending, if_neg Bool.false_ne_true]
  generalize (s.dev.wbTaken n l).lineStored n l b false = x at *
  obtain ⟨htiles, -, hout⟩ := (countOnly_count x n 0x12 1).fields
  have htile := tile_congr htiles n
  obtain ⟨hstore, honly, hsent⟩ := htakenSide.trans hside
  refine ⟨?_, ?_, ?_, fun k hk => ?_, fun m hm => (tile_congr htiles m).trans (honly m hm), by rw [htile, hstore], hout.trans hsent⟩
  · rw [htile, hdram, htaken]
  · rw [Dev.darner, htile, ← Dev.darner, hkeptWb]
    exact hpending
  · rw [poisoned_congr htile, hpoison, if_pos rfl]
  · rw [poisoned_congr htile, hpoison, if_neg hk, Dev.poisoned, Dev.poisoned, Dev.darner, htaken]
    rfl

theorem writeback_linkUe (hl : l < dramLines) : ∃ e : Dev, exec (.darnerWriteback n ch true) s = .next (s.put e) ∧ e.poisoned n l = true ∧
    e.regBit (MEM_EVENT n) 2 = true ∧ e.getN (MEM_UE_ADDR_LO n) = 64 * l % 2 ^ 32 ∧ e.getF (MEM_UE_ADDR_HI_SOURCE n) = 4 ∧
    e.getF (MEM_UE_ADDR_HI_OFFSET_HI n) = 64 * l / 2 ^ 32 ∧ e.out = s.dev.out ++ [.signal "UE" [n, l, 4]] := by
  refine ⟨_, exec_darnerWriteback hf hruns hwb hch hbank true, ?_⟩
  obtain ⟨-, -, hpoison, -, -, hsent⟩ := lineStored_frame (s.dev.wbTaken n l) n l b true
  rw [dramWrite_unpended b true (wb_wbTaken s.dev n l), if_pos rfl]
  generalize (s.dev.wbTaken n l).lineStored n l b true = x at *
  obtain ⟨hseen, hevent⟩ := linkUeSeen_effect x n l
  obtain ⟨hlo, hsource, hhi, hregs, htiles, hout⟩ := ueAddr_effect (x.linkUeSeen n l) n hl (source := 4) (by decide)
  generalize (x.linkUeSeen n l).ueAddr n l 4 = y at *
  obtain ⟨hcounted, hkept, hbits⟩ := scrubSide_count y n 0x12 1
  refine ⟨?_, hbits 2 (by decide) ?_, ?_, ?_, ?_, ?_⟩
  · rw [hcounted.fields.2.2, poisoned_congr (tile_congr htiles n), hseen.fields.2.2, hpoison, if_pos rfl]
  · rw [regBit_congr (hregs _ (by simp)), hevent]
  · rw [getN_congr (hkept _ (.inr (by simp))), hlo]
  · rw [getF_congr (hkept _ (.inr (by simp))), hsource]
  · rw [getF_congr (hkept _ (.inr (by simp))), hhi]
  · rw [hcounted.2.2, hout, hseen.2.2, hsent]
    rfl

end

/-! Refresh, telemetry and calibration. -/

/-- Beat `k` shown, at its first phase. -/
def Dev.beatShown (d : Dev) (n k : Fin 32) : Dev := (d.setF (TCTL_ROTA_BEAT n) k).setF (TCTL_ROTA_PHASE n) 0

theorem beatShown_effect (d : Dev) (n k : Fin 32) : (d.beatShown n k).beat n = k.val ∧ (d.beatShown n k).getF (TCTL_ROTA_PHASE n) = 0 ∧
    (d.beatShown n k).tiles = d.tiles ∧ d.keepsRegs (d.beatShown n k) [TCTL_ROTA n] := by
  unfold Dev.beatShown
  refine ⟨?_, ?_, by simp, fun p hp => ?_⟩
  · rw [Dev.beat, getF_setF_ne _ _ _ _ (by simp) (.inr (.inr (by simp))), getF_setF_self _ _ _ (by simp)]
    exact Nat.mod_eq_of_lt (by simp)
  · rw [getF_setF_self _ _ _ (by simp), Nat.zero_mod]
  · have hne : p ≠ TCTL_ROTA n := fun he => hp (List.mem_singleton.mpr he)
    rw [getR_setF_ne _ _ hne, getR_setF_ne _ _ hne]

/-- What the Darner holds as beat `k` begins: no bank used yet, and after the last beat the next group to refresh. -/
def Darner.begun (w : Darner) (k : Fin 32) : Darner := { w with used := [], group := if k = 31 then (w.group + 1) % 993 else w.group }

section
variable {s : State} {n : Fin 32} (hf : s.dev.frozen = false) (hruns : s.dev.memRuns n = true)
include hf hruns

/-- A refresh begins its beat (R135, R171). -/
theorem refresh_effect (k : Fin 32) : ∃ e : Dev, exec (.refresh n k) s = .next (s.put e) ∧ e.beat n = k.val ∧
    e.getF (TCTL_ROTA_PHASE n) = 0 ∧ e.darner n = (s.dev.darner n).begun k ∧
    e.tile n = { s.dev.tile n with darner := e.darner n } ∧ s.dev.onlyTile e n ∧ s.dev.keepsRegs e [TCTL_ROTA n] := by
  obtain ⟨hbeat, hphase, htiles, hregs⟩ := beatShown_effect s.dev n k
  have hexec : exec (.refresh n k) s = .next (s.put ((s.dev.beatShown n k).onDarner n fun w => w.begun k)) := by
    change execRefresh n k s = _
    exact onRun_eq hf (if_neg (not_not.mpr hruns))
  generalize s.dev.beatShown n k = x at *
  have htile : (x.onDarner n fun w => w.begun k).tile n = { s.dev.tile n with darner := (s.dev.darner n).begun k } := by
    rw [Dev.onDarner, tile_onTile_self, tile_congr htiles]
    rfl
  have hdarner : (x.onDarner n fun w => w.begun k).darner n = (s.dev.darner n).begun k := by rw [Dev.darner, htile]
  exact ⟨_, hexec, (getF_congr (getR_onDarner _ _ _ _)).trans hbeat, (getF_congr (getR_onDarner _ _ _ _)).trans hphase, hdarner,
    by rw [hdarner, htile], fun m hm => (tile_onTile_ne x _ hm).trans (tile_congr htiles m),
    fun p hp => (getR_onDarner _ _ _ _).trans (hregs p hp)⟩

/-- The temperatures of the eight dies (R172). -/
theorem telemetryRead_effect (temps : List (BitVec 16)) (hbeat : s.dev.beat n % 8 = 0) :
    ∃ e : Dev, exec (.telemetryRead n temps) s = .next (s.put e) ∧
      (∀ j, j < 8 → e.getF (MEM_DIE_TEMP_TEMP n j) = (temps.getD j 0).toNat) ∧
      s.dev.keepsRegs e ((List.range 8).map (MEM_DIE_TEMP n)) ∧ e = { s.dev with regs := e.regs } := by
  refine ⟨(List.range 8).foldl (fun d k => d.setF (MEM_DIE_TEMP_TEMP n k) (temps.getD k 0).toNat) s.dev, ?_, fun j hj => ?_, ?_⟩
  · change execTelemetryRead n temps s = _
    exact onRun_eq hf (if_pos ⟨hruns, hbeat⟩)
  · obtain ⟨x, -, hx⟩ := foldl_view_at (fun e : Dev => e.getF (MEM_DIE_TEMP_TEMP n j))
      (fun d k => d.setF (MEM_DIE_TEMP_TEMP n k) (temps.getD k 0).toNat) (List.mem_range.mpr hj) List.nodup_range
      (fun d k hk => getF_setF_ne _ _ _ _ (by simp) (.inl (by simp only [MEM_DIE_TEMP]; omega))) s.dev
    rw [hx, getF_setF_self _ _ _ (by simp)]
    exact Nat.mod_eq_of_lt (temps.getD j 0).isLt
  · obtain ⟨r, hfold, hkept⟩ := setF_fold_only (List.range 8) (MEM_DIE_TEMP_TEMP n) (fun k => (temps.getD k 0).toNat) s.dev
    rw [hfold]
    refine ⟨fun p hp => hkept p fun k hk he => hp (List.mem_map.mpr ⟨k, hk, he.symm⟩), rfl⟩

end

/-- The calibration step that is shown moves on by one. -/
def Dev.calMoved (d : Dev) (n : Fin 32) : Dev := d.setF (MEM_STATUS_CAL_STEP n) (d.getF (MEM_STATUS_CAL_STEP n) + 1)

theorem calMoved_effect (d : Dev) (n : Fin 32) : (d.calMoved n).getF (MEM_STATUS_CAL_STEP n) =
      (d.getF (MEM_STATUS_CAL_STEP n) + 1) % 2 ^ ((MEM_STATUS_CAL_STEP n).hi + 1 - (MEM_STATUS_CAL_STEP n).lo) ∧
    (d.calMoved n).tiles = d.tiles ∧ (d.calMoved n).out = d.out ∧ d.keepsRegs (d.calMoved n) [MEM_STATUS n] := by
  unfold Dev.calMoved
  exact ⟨getF_setF_self _ _ _ (by simp), by simp, by simp, fun p hp => getR_setF_ne _ _ fun he => hp (List.mem_singleton.mpr he)⟩

/-- A calibration step in which every channel passes (R173, R174). -/
theorem calibrationStep_effect {s : State} {n : Fin 32} (hf : s.dev.frozen = false) (hruns : s.dev.memRuns n = true) (warn : Bool)
    (hbeat : s.dev.beat n = 31) : ∃ e : Dev, exec (.calibrationStep n warn false) s = .next (s.put e) ∧
      e.getF (MEM_STATUS_CAL_STEP n) =
        (s.dev.getF (MEM_STATUS_CAL_STEP n) + 1) % 2 ^ ((MEM_STATUS_CAL_STEP n).hi + 1 - (MEM_STATUS_CAL_STEP n).lo) ∧
      (warn = true → e.regBit (MEM_EVENT n) 4 = true) ∧ (warn = false → s.dev.keepsRegs e [MEM_STATUS n]) ∧ e.tiles = s.dev.tiles ∧
      e.out = s.dev.out := by
  obtain ⟨hstep, htiles, hout, hregs⟩ := calMoved_effect s.dev n
  have hexec : exec (.calibrationStep n warn false) s =
      .next (s.put (if warn then (s.dev.calMoved n).latch (egMem n) 4 else s.dev.calMoved n)) := by
    change execCalibrationStep n warn false s = _
    refine onRun_eq hf ?_
    rw [if_pos ⟨hruns, hbeat⟩]
    exact if_neg Bool.false_ne_true
  generalize s.dev.calMoved n = x at *
  refine ⟨_, hexec, ?_⟩
  cases warn with
  | false =>
    rw [if_neg Bool.false_ne_true]
    exact ⟨hstep, nofun, fun _ => hregs, htiles, hout⟩
  | true =>
    rw [if_pos rfl]
    refine ⟨?_, fun _ => ?_, nofun, (tiles_latch _ _ _).trans htiles, (out_latch _ _ _).trans hout⟩
    · rw [getF_congr (getR_latch_egMem x n 4 (by simp only [MEM_STATUS, tileBase]; omega) (by simp) (by simp)), hstep]
    · rw [regBit_latch_egMem x n 4 (by decide)]
      rfl

/-- In self-refresh and off, nothing of the rota acts (R177). -/
theorem rota_idle {s : State} {n : Fin 32} (hf : s.dev.frozen = false) (hstill : ¬ s.dev.memRuns n = true) (k : Fin 32) (ch : Fin 48)
    (reps : List (Nat × EccRep)) (temps : List (BitVec 16)) : ∀ i, i = .refresh n k ∨ i = .scrubRead n reps ∨
      i = .darnerWriteback n ch false ∨ i = .telemetryRead n temps ∨ i = .calibrationStep n true true → exec i s = .next s := by
  have hstays {f : Dev → Dev} (h : f s.dev = s.dev) : onRun f s = .next s := onRun_eq hf h
  rintro i (rfl | rfl | rfl | rfl | rfl)
  · change execRefresh n k s = _
    exact hstays (if_pos hstill)
  · change execScrubRead n reps s = _
    exact hstays (if_pos hstill)
  · change execDarnerWriteback n ch false s = _
    exact hstays (if_pos hstill)
  · change execTelemetryRead n temps s = _
    exact hstays (if_neg fun h => hstill h.1)
  · change execCalibrationStep n true true s = _
    exact hstays (if_neg fun h => hstill h.1)

/-- Settles O42: each command of the rota by its effect while the memory runs, the two uncorrectable lines by the reads and writes that
meet them. -/
theorem tileDram : Obligations.TileDram := by
  refine ⟨fun s n k ch reps temps hf => ⟨fun hmode => ?_, fun hmode => ?_⟩, fun s n ch r c0 hf hmode => ?_⟩
  · have hruns := (memRuns_iff s.dev n).mpr hmode
    refine ⟨refresh_effect hf hruns k, ?_, fun l b w hwb hch hbank hlen => writeback_good hf hruns hwb hch hbank hlen,
      telemetryRead_effect hf hruns temps, fun hbeat warn => calibrationStep_effect hf hruns warn hbeat⟩
    rintro rfl hrepair hen hpoison hfree -
    exact scrubRead_clean_effect hf hruns hrepair hen hpoison hfree
  · exact rota_idle hf (fun h => by have := (memRuns_iff s.dev n).mp h; omega) k ch reps temps
  · have hruns := (memRuns_iff s.dev n).mpr hmode
    refine ⟨fun l b w hwb hch hbank _ hl => writeback_linkUe hf hruns hwb hch hbank hl,
      fun hrepair hen hpoison hfree hc0 hdie hlink hl hskip => ?_⟩
    exact scrubRead_dieUe_effect hf hruns hrepair hen hpoison hfree (List.mem_map.mpr ⟨c0, List.mem_range.mpr hc0, rfl⟩) hl hskip hdie hlink

end Sys2Proof.Machine
end

section
/-! States that meet the hypotheses of the statement on the rota. -/

namespace Sys2Proof.Machine

open Reg

/-- The package after reset with the scrub walk of tile 0 at position `p` in beat `beat`, and a write-back of line 48 (channel 0, bank 1)
pending. -/
def rotaWitness (beat p : Nat) : State :=
  let d := (((State.reset.dev.setF (TCTL_ROTA_BEAT 0) beat).setF (MEM_CTRL_SCRUB_EN 0) 1).setF (MEM_CTRL_SCRUB_LINES 0) 1).setF
    (MEM_SCRUB_POS_POS 0) p
  State.reset.put (d.onDarner 0 fun w => { w with wb := [(48, List.replicate 64 0x2A)] })

/-- The last beat of a rota: the next rota refreshes the next group, and the calibration step moves on. -/
theorem tileDram_last_beat : ∃ e x : Dev, exec (.refresh 0 31) (rotaWitness 30 0) = .next ((rotaWitness 30 0).put e) ∧
    e.beat 0 = 31 ∧ (e.darner 0).group = 1 ∧
    exec (.calibrationStep 0 true false) (rotaWitness 31 0) = .next ((rotaWitness 31 0).put x) ∧ x.regBit (MEM_EVENT 0) 4 = true := by
  obtain ⟨hrefresh, -⟩ := (tileDram.1 (rotaWitness 30 0) 0 31 0 [] [] (by decide +kernel)).1 (by decide +kernel)
  obtain ⟨e, he, hbeat, -, hdarner, -⟩ := hrefresh
  obtain ⟨-, -, -, -, hcalibration⟩ := (tileDram.1 (rotaWitness 31 0) 0 0 0 [] [] (by decide +kernel)).1 (by decide +kernel)
  obtain ⟨x, hx, -, hwarn, -⟩ := hcalibration (by decide +kernel) true
  exact ⟨e, x, he, hbeat, (congrArg Darner.group hdarner).trans (by decide +kernel), hx, hwarn rfl⟩

/-- A slot in beat 8 moves the walk from position 0 to position 1. -/
theorem tileDram_slot : ∃ e : Dev, exec (.scrubRead 0 []) (rotaWitness 8 0) = .next ((rotaWitness 8 0).put e) ∧
    e.getF (MEM_SCRUB_POS_POS 0) = 1 := by
  obtain ⟨-, hslot, -⟩ := (tileDram.1 (rotaWitness 8 0) 0 0 0 [] [] (by decide +kernel)).1 (by decide +kernel)
  obtain ⟨e, he, -, hnext, -⟩ := hslot rfl (by decide +kernel) (by decide +kernel) (fun _ => rfl) (by decide +kernel) (by decide +kernel)
  exact ⟨e, he, (hnext (by decide +kernel)).1.trans (by decide +kernel)⟩

/-- The last position completes a walk. -/
theorem tileDram_walk_end : ∃ e : Dev,
    exec (.scrubRead 0 []) (rotaWitness 8 (walkEnd - 1)) = .next ((rotaWitness 8 (walkEnd - 1)).put e) ∧
    e.getF (MEM_SCRUB_POS_POS 0) = 0 ∧ e.getN (MEM_SCRUB_PASSES 0) = 1 := by
  obtain ⟨-, hslot, -⟩ := (tileDram.1 (rotaWitness 8 (walkEnd - 1)) 0 0 0 [] [] (by decide +kernel)).1 (by decide +kernel)
  obtain ⟨e, he, -, -, hend, -⟩ := hslot rfl (by decide +kernel) (by decide +kernel) (fun _ => rfl) (by decide +kernel) (by decide +kernel)
  obtain ⟨hpos, -, hpasses⟩ := hend (by decide +kernel)
  exact ⟨e, he, hpos, hpasses.trans (by decide +kernel)⟩

/-- Beat 8 reads the dies' temperatures. -/
theorem tileDram_temperature : ∃ e : Dev, exec (.telemetryRead 0 [0x155]) (rotaWitness 8 0) = .next ((rotaWitness 8 0).put e) ∧
    e.getF (MEM_DIE_TEMP_TEMP 0 0) = 0x155 := by
  obtain ⟨-, -, -, htelemetry, -⟩ := (tileDram.1 (rotaWitness 8 0) 0 0 0 [] [0x155] (by decide +kernel)).1 (by decide +kernel)
  obtain ⟨e, he, htemp, -⟩ := htelemetry (by decide +kernel)
  exact ⟨e, he, htemp 0 (by decide)⟩

/-- The pending write-back stores its bytes. -/
theorem tileDram_writeback : ∃ e : Dev, exec (.darnerWriteback 0 0 false) (rotaWitness 8 0) = .next ((rotaWitness 8 0).put e) ∧
    memGet (e.tile 0).dram 3072 = 0x2A := by
  obtain ⟨-, -, hwriteback, -⟩ := (tileDram.1 (rotaWitness 8 0) 0 0 0 [] [] (by decide +kernel)).1 (by decide +kernel)
  obtain ⟨e, he, hdram, -⟩ := hwriteback 48 (List.replicate 64 0x2A) [] (by decide +kernel) (by decide) (by decide +kernel) rfl
  exact ⟨e, he, by rw [hdram]; decide +kernel⟩

/-- The same write-back over a link UE poisons its line. -/
theorem tileDram_writeback_linkUe : ∃ e : Dev, exec (.darnerWriteback 0 0 true) (rotaWitness 8 0) = .next ((rotaWitness 8 0).put e) ∧
    e.poisoned 0 48 = true ∧ e.getN (MEM_UE_ADDR_LO 0) = 3072 ∧ e.getF (MEM_UE_ADDR_HI_SOURCE 0) = 4 := by
  obtain ⟨hwriteback, -⟩ := tileDram.2 (rotaWitness 8 0) 0 0 cleanRep 0 (by decide +kernel) (by decide +kernel)
  obtain ⟨e, he, hpoison, -, hlo, hsource, -⟩ := hwriteback 48 (List.replicate 64 0x2A) [] (by decide +kernel) (by decide)
    (by decide +kernel) rfl (by decide)
  exact ⟨e, he, hpoison, hlo, hsource⟩

/-- A slot that finds line 1 uncorrectable on the die names it. -/
theorem tileDram_slot_dieUe : ∃ e : Dev,
    exec (.scrubRead 0 [(1, ⟨0, 0, true, false⟩)]) (rotaWitness 8 0) = .next ((rotaWitness 8 0).put e) ∧
    e.getN (MEM_UE_COUNT 0) = 1 ∧ e.getN (MEM_UE_ADDR_LO 0) = 64 := by
  obtain ⟨-, hslot⟩ := tileDram.2 (rotaWitness 8 0) 0 0 ⟨0, 0, true, false⟩ 1 (by decide +kernel) (by decide +kernel)
  have hline : lineAt 1 ((rotaWitness 8 0).dev.getF (MEM_SCRUB_POS_POS 0) / walkPositions)
      ((rotaWitness 8 0).dev.getF (MEM_SCRUB_POS_POS 0) % walkPositions) = 1 := by decide +kernel
  have hnamed := hslot (by decide +kernel) (by decide +kernel) (fun _ => rfl) (by decide +kernel) (by decide) rfl rfl
  dsimp only at hnamed
  rw [Fin.val_zero, hline] at hnamed
  obtain ⟨e, he, hcount, -, hlo, -⟩ := hnamed (by decide) (by decide +kernel)
  exact ⟨e, he, hcount.trans (by decide +kernel), hlo⟩

/-- In self-refresh the rota begins no beat. -/
theorem tileDram_selfRefresh : exec (.refresh 0 1) (State.reset.put (State.reset.dev.setF (MEM_STATUS_MODE 0) 2)) =
    .next (State.reset.put (State.reset.dev.setF (MEM_STATUS_MODE 0) 2)) :=
  (tileDram.1 (State.reset.put (State.reset.dev.setF (MEM_STATUS_MODE 0) 2)) 0 1 0 [] [] (by decide +kernel)).2 (by decide +kernel) _
    (.inl rfl)

end Sys2Proof.Machine
end

section
/-! The packing of pages (R192): a segment, a chunk and a pack header are unpacked to what was packed. -/

namespace Sys2Proof.Machine

/-! Segments. -/

theorem nibble_pair {a b : Byte} (ha : a < 16) (hb : b < 16) :
    (a &&& 0xF ||| b <<< 4) &&& 0xF = a ∧ (a &&& 0xF ||| b <<< 4) >>> 4 = b := by
  have h : ∀ i j : Fin 16, (BitVec.ofNat 8 i &&& 0xF ||| BitVec.ofNat 8 j <<< 4) &&& 0xF = BitVec.ofNat 8 i ∧
      (BitVec.ofNat 8 i &&& 0xF ||| BitVec.ofNat 8 j <<< 4) >>> 4 = BitVec.ofNat 8 j := by decide
  simpa using h ⟨a.toNat, ha⟩ ⟨b.toNat, hb⟩

/-- Nibbles packed in pairs unpack. -/
theorem nibUnpack_nibPack (l : List Byte) (heven : l.length % 2 = 0) (hl : ∀ b ∈ l, b < 16) : nibUnpack (nibPack l) = l := by
  induction l using nibPack.induct with
  | case1 a b t ih =>
    obtain ⟨hlow, hhigh⟩ := nibble_pair (hl a (by simp)) (hl b (by simp))
    have ht : nibUnpack (nibPack t) = t := ih (by simpa [Nat.add_assoc] using heven) fun x hx => hl x (by simp [hx])
    rw [nibPack, nibUnpack, List.flatMap_cons, hlow, hhigh, ← nibUnpack, ht]
    rfl
  | case2 a => simp at heven
  | case3 => rfl

theorem nibPack_length (l : List Byte) : (nibPack l).length = (l.length + 1) / 2 := by
  induction l using nibPack.induct with
  | case1 a b t ih => simp [nibPack, ih]; omega
  | case2 a => simp [nibPack]
  | case3 => rfl

theorem xorBytes_length {a b : List Byte} (h : a.length = b.length) : (xorBytes a b).length = a.length := by simp [xorBytes, h]

/-- A segment's differences from another give the segment again. -/
theorem xorBytes_xorBytes {a b : List Byte} (h : a.length = b.length) : xorBytes (xorBytes a b) b = a := by
  apply List.ext_getElem
  · rw [xorBytes_length ((xorBytes_length h).trans h), xorBytes_length h]
  · intro i h1 h2
    simp [xorBytes]

section
variable {prev seg : List Byte}

/-- The four ways in which a segment is packed. -/
theorem segTag_cases (prev seg : List Byte) :
    ((∀ b ∈ seg, b = 0) ∧ segTag prev seg = (0, [])) ∨ (seg = prev ∧ segTag prev seg = (1, [])) ∨
    ((∀ b ∈ xorBytes seg prev, b < 16) ∧ segTag prev seg = (2, nibPack (xorBytes seg prev))) ∨ segTag prev seg = (3, seg) := by
  unfold segTag
  split
  case isTrue h => exact .inl ⟨by simpa using h, rfl⟩
  case isFalse =>
    split
    case isTrue h => exact .inr (.inl ⟨h, rfl⟩)
    case isFalse =>
      split
      case isTrue h => exact .inr (.inr (.inl ⟨by simpa using h, rfl⟩))
      case isFalse => exact .inr (.inr (.inr rfl))

theorem segTag_lt (prev seg : List Byte) : (segTag prev seg).1 < 4 := by
  obtain ⟨-, h⟩ | ⟨-, h⟩ | ⟨-, h⟩ | h := segTag_cases prev seg <;> simp [h]

variable (hprev : prev.length = 32) (hseg : seg.length = 32)
include hprev hseg

/-- A tag stands for as many bytes as the segment's payload has. -/
theorem segTag_length : (segTag prev seg).2.length = tagBytes (segTag prev seg).1 := by
  have hxor : (xorBytes seg prev).length = 32 := by rw [xorBytes_length (hseg.trans hprev.symm), hseg]
  obtain ⟨-, h⟩ | ⟨-, h⟩ | ⟨-, h⟩ | h := segTag_cases prev seg <;> simp [h, tagBytes, nibPack_length, hxor, hseg]

/-- Unpacking by a segment's tag gives the segment, and goes on behind its payload. -/
theorem unpackSegs_segTag (ts : List Nat) (rest : List Byte) :
    unpackSegs prev ((segTag prev seg).1 :: ts) ((segTag prev seg).2 ++ rest) = seg ++ unpackSegs seg ts rest := by
  have hxor : (xorBytes seg prev).length = 32 := by rw [xorBytes_length (hseg.trans hprev.symm), hseg]
  have hpack : (nibPack (xorBytes seg prev)).length = 16 := by rw [nibPack_length, hxor]
  obtain ⟨hzero, h⟩ | ⟨rfl, h⟩ | ⟨hsmall, h⟩ | h := segTag_cases prev seg
  · have hz : seg = zeroSeg := List.eq_replicate_iff.mpr ⟨hseg, hzero⟩
    rw [h]
    simp [unpackSegs, tagBytes, hz]
  · simp [h, unpackSegs, tagBytes]
  · have hback : xorBytes (nibUnpack (nibPack (xorBytes seg prev))) prev = seg := by
      rw [nibUnpack_nibPack _ (by rw [hxor]) hsmall, xorBytes_xorBytes (hseg.trans hprev.symm)]
    simp [h, unpackSegs, tagBytes, List.take_left' hpack, List.drop_left' hpack, hback]
  · simp [h, unpackSegs, tagBytes, List.take_left' hseg, List.drop_left' hseg]

end

/-! Chunks. -/

/-- A list cut into `n` pieces of `k`: the pieces one after the other. -/
theorem flatten_pieces {α : Type} (k n : Nat) (l : List α) :
    ((List.range n).map fun i => (l.drop (k * i)).take k).flatten = l.take (k * n) := by
  induction n with
  | zero => simp
  | succ n ih => simp [List.range_succ, ih, Nat.mul_succ, List.take_add]

section
variable {prev : List Byte} {segs : List (List Byte)} (hprev : prev.length = 32) (hsegs : ∀ g ∈ segs, g.length = 32)
include hprev hsegs

theorem unpackSegs_packSegs (rest : List Byte) :
    unpackSegs prev ((packSegs prev segs).map Prod.fst) ((packSegs prev segs).flatMap Prod.snd ++ rest) = segs.flatten := by
  induction segs generalizing prev with
  | nil => rfl
  | cons g t ih =>
    have hg : g.length = 32 := hsegs g (by simp)
    rw [packSegs, List.map_cons, List.flatMap_cons, List.append_assoc, unpackSegs_segTag hprev hg,
      ih hg fun x hx => hsegs x (by simp [hx]), List.flatten_cons]

theorem packSegs_tagBytes :
    (((packSegs prev segs).map Prod.fst).map tagBytes).sum = ((packSegs prev segs).flatMap Prod.snd).length := by
  induction segs generalizing prev with
  | nil => rfl
  | cons g t ih =>
    have hg : g.length = 32 := hsegs g (by simp)
    have ht := ih hg fun x hx => hsegs x (by simp [hx])
    rw [packSegs, List.map_cons, List.map_cons, List.sum_cons, List.flatMap_cons, List.length_append, ht, segTag_length hprev hg]

end

theorem packSegs_length (prev : List Byte) (segs : List (List Byte)) : (packSegs prev segs).length = segs.length := by
  induction segs generalizing prev with
  | nil => rfl
  | cons g t ih => simp [packSegs, ih]

theorem packSegs_tag_lt (prev : List Byte) (segs : List (List Byte)) : ∀ t ∈ (packSegs prev segs).map Prod.fst, t < 4 := by
  induction segs generalizing prev with
  | nil => simp [packSegs]
  | cons g t ih => simpa [packSegs, segTag_lt] using ih g

section
variable {l : List Byte} (hl : l.length = 1024)
include hl

theorem segsOf_chunk : segsOf l = (List.range 32).map fun i => (l.drop (32 * i)).take 32 := by rw [segsOf, hl]

theorem segsOf_chunk_lengths : ∀ g ∈ segsOf l, g.length = 32 := by
  simp only [segsOf_chunk hl, List.mem_map, List.mem_range]
  rintro g ⟨i, hi, rfl⟩
  simp [hl]
  omega

theorem packChunk_tags_length : (packChunk l).1.length = 32 := by simp [packChunk, packSegs_length, segsOf_chunk hl]

/-- The tags of a packed chunk stand for its payload. -/
theorem packChunk_tagBytes : ((packChunk l).1.map tagBytes).sum = (packChunk l).2.length :=
  packSegs_tagBytes List.length_replicate (segsOf_chunk_lengths hl)

/-- A packed chunk unpacks, whatever stands behind its payload. -/
theorem unpackSegs_packChunk (rest : List Byte) : unpackSegs zeroSeg (packChunk l).1 ((packChunk l).2 ++ rest) = l := by
  have hflat : (segsOf l).flatten = l := by
    rw [segsOf_chunk hl, flatten_pieces, List.take_of_length_le hl.le]
  exact (unpackSegs_packSegs List.length_replicate (segsOf_chunk_lengths hl) rest).trans hflat

theorem packChunk_payload_le : (packChunk l).2.length ≤ 1024 := by
  have hmax : ∀ t ∈ (packChunk l).1.map tagBytes, t ≤ 32 := by
    simp only [List.mem_map]
    rintro - ⟨t, -, rfl⟩
    unfold tagBytes
    split_ifs <;> omega
  have hsum := List.sum_le_card_nsmul _ _ hmax
  rw [packChunk_tagBytes hl, List.length_map, packChunk_tags_length hl] at hsum
  exact hsum

end

/-! Tags as one number (R192). -/

theorem tagWord_cons (t : Nat) (ts : List Nat) : tagWord (t :: ts) = t + 4 * tagWord ts := by
  have hshift : ∀ x ∈ ts.zipIdx, x.1 * 4 ^ (x.2 + 1) = 4 * (x.1 * 4 ^ x.2) := fun x _ => by ring
  simp only [tagWord, List.zipIdx_cons', List.map_cons, List.map_map, List.sum_cons, ← List.sum_map_mul_left]
  simp only [pow_zero, mul_one]
  congr 2
  exact List.map_congr_left hshift

theorem tagWord_lt {ts : List Nat} (h : ∀ t ∈ ts, t < 4) : tagWord ts < 4 ^ ts.length := by
  induction ts with
  | nil => decide
  | cons t ts ih =>
    have ht : t < 4 := h t (by simp)
    have htail := ih fun x hx => h x (by simp [hx])
    rw [tagWord_cons, List.length_cons, pow_succ]
    omega

theorem tagWord_digit {ts : List Nat} (h : ∀ t ∈ ts, t < 4) {k : Nat} (hk : k < ts.length) : tagWord ts / 4 ^ k % 4 = ts[k] := by
  induction ts generalizing k with
  | nil => simp at hk
  | cons t ts ih =>
    have ht : t < 4 := h t (by simp)
    rw [tagWord_cons]
    cases k with
    | zero => simp; omega
    | succ k =>
      rw [pow_succ', ← Nat.div_div_eq_div_mul, show (t + 4 * tagWord ts) / 4 = tagWord ts by omega, List.getElem_cons_succ]
      exact ih (fun x hx => h x (by simp [hx])) (by simpa using hk)

/-- The tags of a chunk read back from their number. -/
theorem tagsOf_tagWord {ts : List Nat} (hlen : ts.length = 32) (h : ∀ t ∈ ts, t < 4) : tagsOf (tagWord ts) = ts := by
  apply List.ext_getElem
  · simp [tagsOf, hlen]
  · intro k h1 h2
    simpa [tagsOf] using tagWord_digit h h2

/-! The pack header. -/

/-- A number of a run of numbers of `k` bytes each. -/
theorem imgLe_flatMap {α : Type} (k : Nat) (v : α → Nat) (b : List Byte) {l : List α} {j : Nat} (hj : j < l.length) :
    imgLe (l.flatMap (fun c => leBytes k (v c)) ++ b) (k * j) k = v l[j] % 256 ^ k := by
  induction l generalizing j with
  | nil => simp at hj
  | cons c t ih =>
    rw [List.flatMap_cons, List.append_assoc]
    cases j with
    | zero => exact imgLe_leBytes k (v c) _
    | succ j =>
      rw [imgLe_append _ _ (by rw [leBytes_length, Nat.mul_succ]; omega), leBytes_length, Nat.mul_succ, Nat.add_sub_cancel]
      exact ih (by simpa using hj)

theorem length_flatMap_leBytes {α : Type} (k : Nat) (v : α → Nat) (l : List α) :
    (l.flatMap fun c => leBytes k (v c)).length = l.length * k := by simp [List.length_flatMap, leBytes_length]

/-- The chunks of a page, packed. -/
def packedChunks (page : List Byte) : List (List Nat × List Byte) := (pageChunks page).map packChunk

/-- The stored length of a packed page. -/
def packedLen (page : List Byte) : Nat := ((packedChunks page).map fun c => storedLen c.2.length).sum

theorem packHeader_eq (page : List Byte) (flags : Nat) : packHeader page flags =
    (packedChunks page).flatMap (fun c => leBytes 8 (tagWord c.1)) ++ ((packedChunks page).flatMap (fun c => leBytes 2 c.2.length) ++
      (leBytes 4 (crc32c page) ++ (leBytes 4 (packedLen page) ++ (leBytes 1 (max 1 ((packedLen page + 4095) / 4096)) ++
        (leBytes 1 flags ++ List.replicate 54 0))))) := by
  simp only [packHeader, packedLen, packedChunks, List.append_assoc]

theorem packedChunks_length (page : List Byte) : (packedChunks page).length = 32 := by simp [packedChunks, pageChunks]

theorem packHeader_length (page : List Byte) (flags : Nat) : (packHeader page flags).length = 384 := by
  simp only [packHeader_eq, List.length_append, length_flatMap_leBytes, packedChunks_length, leBytes_length, List.length_replicate]

/-- The fields of a pack header, as unpacking reads them. -/
theorem imgLe_packHeader (page : List Byte) (flags : Nat) :
    (∀ (j : Nat) (hj : j < (packedChunks page).length),
      imgLe (packHeader page flags) (8 * j) 8 = tagWord (packedChunks page)[j].1 % 4 ^ 32 ∧
      imgLe (packHeader page flags) (0x100 + 2 * j) 2 = (packedChunks page)[j].2.length % 65536) ∧
    imgLe (packHeader page flags) 0x140 4 = crc32c page % 2 ^ 32 ∧ imgLe (packHeader page flags) 0x149 1 = flags % 256 := by
  have htags : ((packedChunks page).flatMap fun c => leBytes 8 (tagWord c.1)).length = 256 := by
    rw [length_flatMap_leBytes, packedChunks_length]
  have hclens : ((packedChunks page).flatMap fun c => leBytes 2 c.2.length).length = 64 := by
    rw [length_flatMap_leBytes, packedChunks_length]
  rw [packHeader_eq]
  refine ⟨fun j hj => ⟨imgLe_flatMap 8 _ _ hj, ?_⟩, ?_, ?_⟩
  · rw [imgLe_append _ _ (by omega), htags, Nat.add_sub_cancel_left]
    exact imgLe_flatMap 2 _ _ hj
  · rw [imgLe_append _ _ (by omega), htags, imgLe_append _ _ (by omega), hclens]
    exact imgLe_leBytes _ _ _
  · rw [imgLe_append _ _ (by omega), htags, imgLe_append _ _ (by omega), hclens]
    iterate 3 rw [imgLe_append _ _ (by simp [leBytes_length]), leBytes_length]
    exact imgLe_leBytes _ _ _

theorem hdrFlag_packHeader (page : List Byte) (flags b : Nat) : hdrFlag (packHeader page flags) b = (flags % 256).testBit b := by
  obtain ⟨-, -, hflags⟩ := imgLe_packHeader page flags
  exact congrArg (Nat.testBit · b) hflags

theorem hdrCrc_packHeader (page : List Byte) (flags : Nat) : hdrCrc (packHeader page flags) = crc32c page := by
  obtain ⟨-, hcrc, -⟩ := imgLe_packHeader page flags
  exact hcrc.trans (Nat.mod_eq_of_lt (Nat.mod_lt _ (by decide)))

section
variable {page : List Byte} {j : Nat} (hj : j < (pageChunks page).length) (hlen : (pageChunks page)[j].length = 1024) (flags : Nat)
include hlen

theorem hdrTags_packHeader : hdrTags (packHeader page flags) j = (packChunk (pageChunks page)[j]).1 := by
  obtain ⟨hfields, -⟩ := imgLe_packHeader page flags
  obtain ⟨htags, -⟩ := hfields j (by simpa [packedChunks] using hj)
  have hlt := tagWord_lt (packSegs_tag_lt zeroSeg (segsOf (pageChunks page)[j]))
  have hcount := packChunk_tags_length hlen
  simp only [packedChunks, List.getElem_map] at htags
  rw [packChunk] at hcount htags ⊢
  rw [hcount] at hlt
  rw [hdrTags, ← imgLe, htags, Nat.mod_eq_of_lt hlt, tagsOf_tagWord hcount (packSegs_tag_lt _ _)]

theorem hdrClen_packHeader : hdrClen (packHeader page flags) j = (packChunk (pageChunks page)[j]).2.length := by
  obtain ⟨hfields, -⟩ := imgLe_packHeader page flags
  obtain ⟨-, hclen⟩ := hfields j (by simpa [packedChunks] using hj)
  have hle := packChunk_payload_le hlen
  rw [hdrClen, ← imgLe, hclen]
  simp only [packedChunks, List.getElem_map]
  exact Nat.mod_eq_of_lt (by omega)

end

/-! Pages. -/

/-- Chunk `j` of the page that a header and slots give, and whether its tags do not stand for its CLEN (R193). -/
def unpackChunk (h : List Byte) (slots : List (List Byte)) (j : Nat) : List Byte × Bool :=
  if ((hdrTags h j).map tagBytes).sum = hdrClen h j then (unpackSegs zeroSeg (hdrTags h j) (slots.getD j []), false)
  else (List.replicate 1024 0, true)

theorem unpackPage_packed {h : List Byte} (slots : List (List Byte)) (hflag : hdrFlag h 0 = true) :
    unpackPage h slots = (((List.range 32).map (unpackChunk h slots)).flatMap Prod.fst,
      if ((List.range 32).map (unpackChunk h slots)).any Prod.snd then 3
      else if !hdrFlag h 1 && crc32c (((List.range 32).map (unpackChunk h slots)).flatMap Prod.fst) != hdrCrc h then 1 else 0) := by
  rw [unpackPage, hflag]
  rfl

section
variable {page : List Byte} (hpage : page.length = 32768)
include hpage

theorem pageChunks_lengths : ∀ c ∈ pageChunks page, c.length = 1024 := by
  simp only [pageChunks, List.mem_map, List.mem_range]
  rintro c ⟨j, hj, rfl⟩
  simp [hpage]
  omega

theorem pageChunks_flatten : (pageChunks page).flatten = page := by
  rw [pageChunks, flatten_pieces, List.take_of_length_le hpage.le]

/-- Each chunk unpacks from the slot in which WPACK stores it. -/
theorem unpackChunk_packHeader {j : Nat} (hj : j < (pageChunks page).length) :
    unpackChunk (packHeader page 1) ((pageChunks page).map fun c => padTo 1024 (packChunk c).2) j = ((pageChunks page)[j], false) := by
  have hlen := pageChunks_lengths hpage _ (List.getElem_mem hj)
  rw [unpackChunk, hdrTags_packHeader hj hlen, hdrClen_packHeader hj hlen, if_pos (packChunk_tagBytes hlen),
    List.getD_eq_getElem _ _ (by simpa using hj), List.getElem_map, padTo, unpackSegs_packChunk hlen]

theorem unpackPage_packHeader :
    unpackPage (packHeader page 1) ((pageChunks page).map fun c => padTo 1024 (packChunk c).2) = (page, 0) := by
  have hchunks : (List.range 32).map (unpackChunk (packHeader page 1) ((pageChunks page).map fun c => padTo 1024 (packChunk c).2)) =
      (pageChunks page).map fun c => (c, false) := by
    apply List.ext_getElem
    · simp [pageChunks]
    · intro j h1 h2
      rw [List.getElem_map, List.getElem_map, List.getElem_range, unpackChunk_packHeader hpage (by simpa using h2)]
  have hflat : ((pageChunks page).map fun c => (c, false)).flatMap Prod.fst = page := by
    rw [List.flatMap_map, List.flatMap_id', pageChunks_flatten hpage]
  have hsound : (((pageChunks page).map fun c => (c, false)).any Prod.snd) = false := by simp
  rw [unpackPage_packed _ (hdrFlag_packHeader page 1 0), hchunks, hflat, hdrCrc_packHeader, hsound, bne_self_eq_false, Bool.and_false]
  rfl

end

theorem unpackPage_not_packed {h : List Byte} (slots : List (List Byte)) (hflag : hdrFlag h 0 = false) :
    unpackPage h slots = (List.replicate 32768 0, 2) := by rw [unpackPage, hflag]; rfl

/-- Settles O36: chunk by chunk, the header's tags and length are those of the packed chunk, and its segments unpack one after the other. -/
theorem packRoundTrip : Obligations.PackRoundTrip :=
  fun _ hpage => ⟨unpackPage_packHeader hpage, fun _ slots hflag => unpackPage_not_packed slots hflag⟩

/-- A page that meets the hypothesis: every byte is 0xA5. -/
theorem packRoundTrip_equal_bytes : unpackPage (packHeader (List.replicate 32768 0xA5) 1)
    ((pageChunks (List.replicate 32768 0xA5)).map fun c => padTo 1024 (packChunk c).2) = (List.replicate 32768 0xA5, 0) :=
  (packRoundTrip (List.replicate 32768 0xA5) List.length_replicate).1

/-- A header of zeros does not say that its page is packed. -/
theorem packRoundTrip_zero_header : unpackPage (List.replicate 384 0) [] = (List.replicate 32768 0, 2) :=
  (packRoundTrip (List.replicate 32768 0) List.length_replicate).2 (List.replicate 384 0) [] (by decide)

end Sys2Proof.Machine
end

section
/-! WPACK and WUNPACK of one page (R193): what each leaves of tile store. -/

namespace Sys2Proof.Machine

open Reg

/-! A helper instruction (R122, R133). -/

/-- A helper instruction with well-formed operands is counted and has its effect. -/
theorem helperIssue_effect {d : Dev} {p : Issue} {bad : Bool} (f : Dev → Dev) (hi : d.issues p.tile 4 = true) (hb : bad = false) :
    d.helperIssue p bad f = f (d.count (.tile p.tile) 0x14 1) := issue_effect _ hi hb

theorem tile_count (d : Dev) (b n : Fin 32) (ev k : Nat) : (d.count (.tile b) ev k).tile n = d.tile n :=
  tile_congr (countOnly_count d b ev k).fields.1 n

theorem tsRead_count (d : Dev) (b n : Fin 32) (ev k a len : Nat) : (d.count (.tile b) ev k).tsRead n a len = d.tsRead n a len := by
  rw [Dev.tsRead, tile_count, Dev.tsRead]

/-! Two writes of a memory, one after the other. -/

section
variable (m : Mem) {a b : Nat} {l r : List Byte}

theorem memBytes_first_of_two (h : a + l.length ≤ b ∨ b + r.length ≤ a) :
    memBytes (memPutBytes (memPutBytes m a l) b r) a l.length = l := by
  refine (memBytes_congr fun x hx hlt => ?_).trans (memBytes_memPutBytes_self m a rfl)
  rw [memGet_memPutBytes, if_neg (by omega)]

theorem memGet_outside_two {x : Nat} (ha : x < a ∨ a + l.length ≤ x) (hb : x < b ∨ b + r.length ≤ x) :
    memGet (memPutBytes (memPutBytes m a l) b r) x = memGet m x := by
  rw [memGet_memPutBytes, if_neg (by omega), memGet_memPutBytes, if_neg (by omega)]

end

theorem memLe_memPutLe_self (m : Mem) (a k v : Nat) : memLe (memPutLe m a k v) a k = v % 256 ^ k := by
  rw [memLe, memPutLe, memBytes_memPutBytes_self m a (leBytes_length k v), leVal_leBytes]

/-! WPACK. -/

/-- The slots in which WPACK stores a page's chunks. -/
def packSlots (page : List Byte) : List Byte := (pageChunks page).flatMap fun c => padTo 1024 (packChunk c).2

theorem packSlots_length {page : List Byte} (h : page.length = 32768) : (packSlots page).length = 32768 := by
  have hslot : ∀ c ∈ pageChunks page, (padTo 1024 (packChunk c).2).length = 1024 := fun c hc => by
    have hle := packChunk_payload_le (pageChunks_lengths h c hc)
    simp [padTo, hle]
  rw [packSlots, List.length_flatMap, List.map_congr_left hslot, List.map_const', List.sum_replicate, pageChunks, List.length_map,
    List.length_range]
  rfl

/-- Tile store with a page's header and slots written. -/
theorem packed_store (m : Mem) {a b : Nat} {page : List Byte} (h : page.length = 32768) (hapart : a + 32768 ≤ b ∨ b + 384 ≤ a) :
    let st := memPutBytes (memPutBytes m a (packSlots page)) b (packHeader page 1)
    memBytes st b 384 = packHeader page 1 ∧ memBytes st a 32768 = packSlots page ∧
      ∀ x, x < a ∨ a + 32768 ≤ x → x < b ∨ b + 384 ≤ x → memGet st x = memGet m x := by
  have hslots := packSlots_length h
  have hhdr := packHeader_length page 1
  refine ⟨memBytes_memPutBytes_self _ b hhdr, ?_, fun x h1 h2 => ?_⟩
  · rw [← hslots]
    exact memBytes_first_of_two m (by rw [hslots, hhdr]; exact hapart)
  · exact memGet_outside_two m (by rw [hslots]; exact h1) (by rw [hhdr]; exact h2)

theorem tile_wpackPage (d : Dev) (n : Fin 32) (a b c : Nat) : (d.wpackPage n a b c).tile n = { d.tile n with
    store := memPutBytes (memPutBytes (d.tile n).store b (packSlots (d.tsRead n a 32768))) c (packHeader (d.tsRead n a 32768) 1) } := by
  rw [Dev.wpackPage, Dev.tsWrite, Dev.tsWrite, onTile_onTile, tile_onTile_self]
  rfl

theorem tile_wpackPage_ne (d : Dev) {n k : Fin 32} (a b c : Nat) (h : k ≠ n) : (d.wpackPage n a b c).tile k = d.tile k := by
  rw [Dev.wpackPage, Dev.tsWrite, Dev.tsWrite, onTile_onTile, tile_onTile_ne d _ h]

theorem exec_wpack {s : State} {p : Issue} {a0 a1 a2 : BitVec 26} (hf : s.dev.frozen = false) (hi : s.dev.issues p.tile 4 = true)
    (hb : packBad a0.toNat a1.toNat a2.toNat 1 0 = false) : exec (.wpack p a0 a1 a2 1 0) s =
      .next (s.put ((s.dev.count (.tile p.tile) 0x14 1).wpackPage p.tile a0.toNat a1.toNat a2.toNat)) := by
  change execWpack p a0 a1 a2 1 0 s = _
  exact onRun_eq hf (helperIssue_effect _ hi hb)

theorem wpack_effect {s : State} {p : Issue} {a0 a1 a2 : BitVec 26} (hf : s.dev.frozen = false) (hi : s.dev.issues p.tile 4 = true)
    (hb : packBad a0.toNat a1.toNat a2.toNat 1 0 = false)
    (hapart : a1.toNat + 32768 ≤ a2.toNat ∨ a2.toNat + 384 ≤ a1.toNat) :
    ∃ e : Dev, exec (.wpack p a0 a1 a2 1 0) s = .next (s.put e) ∧
      e.tsRead p.tile a2.toNat 384 = packHeader (s.dev.tsRead p.tile a0.toNat 32768) 1 ∧
      e.tsRead p.tile a1.toNat 32768 = packSlots (s.dev.tsRead p.tile a0.toNat 32768) ∧
      (∀ x, x < a1.toNat ∨ a1.toNat + 32768 ≤ x → x < a2.toNat ∨ a2.toNat + 384 ≤ x →
        memGet (e.tile p.tile).store x = memGet (s.dev.tile p.tile).store x) ∧
      e.tile p.tile = { s.dev.tile p.tile with store := (e.tile p.tile).store } ∧ s.dev.onlyTile e p.tile := by
  have htile := tile_wpackPage (s.dev.count (.tile p.tile) 0x14 1) p.tile a0.toNat a1.toNat a2.toNat
  have hstore := congrArg Tile.store htile
  dsimp only at hstore
  rw [tsRead_count, tile_count] at hstore
  rw [tile_count] at htile
  obtain ⟨hhdr, hslots, hframe⟩ := packed_store (s.dev.tile p.tile).store
    (page := s.dev.tsRead p.tile a0.toNat 32768) (memBytes_length _ _ _) hapart
  refine ⟨_, exec_wpack hf hi hb, ?_, ?_, fun x h1 h2 => ?_, ?_, fun k hk => ?_⟩
  · exact (congrArg (memBytes · a2.toNat 384) hstore).trans hhdr
  · exact (congrArg (memBytes · a1.toNat 32768) hstore).trans hslots
  · exact (congrArg (memGet · x) hstore).trans (hframe x h1 h2)
  · rw [htile]
  · rw [tile_wpackPage_ne _ _ _ _ hk, tile_count]

/-! WUNPACK. -/

theorem tagsOf_lt (w : Nat) : ∀ t ∈ tagsOf w, t < 4 := by
  simp only [tagsOf, List.mem_map]
  rintro t ⟨k, -, rfl⟩
  exact Nat.mod_lt _ (by decide)

/-- Tags whose payload is there unpack to a segment each. -/
theorem unpackSegs_length {prev : List Byte} (ts : List Nat) (pay : List Byte) (hprev : prev.length = 32)
    (hpay : 32 * ts.length ≤ pay.length) : (unpackSegs prev ts pay).length = 32 * ts.length := by
  induction ts generalizing prev pay with
  | nil => rfl
  | cons t ts ih =>
    have htag : tagBytes t ≤ 32 := by unfold tagBytes; split_ifs <;> omega
    rw [List.length_cons] at hpay
    have hnib : (nibUnpack (pay.take 16)).length = 32 := by
      simp [nibUnpack]; omega
    have hxor : (xorBytes (nibUnpack (pay.take 16)) prev).length = 32 := by rw [xorBytes_length (hnib.trans hprev.symm), hnib]
    have hseg : (if t = 0 then zeroSeg else if t = 1 then prev
        else if t = 2 then xorBytes (nibUnpack (pay.take 16)) prev else pay.take 32).length = 32 := by
      split_ifs
      · exact List.length_replicate
      · exact hprev
      · exact hxor
      · rw [List.length_take]; omega
    rw [unpackSegs, List.length_append, hseg, ih _ hseg (by rw [List.length_drop]; omega), List.length_cons]
    omega

theorem unpackChunk_length (h : List Byte) {slots : List (List Byte)} {j : Nat} (hslot : 1024 ≤ (slots.getD j []).length) :
    (unpackChunk h slots j).1.length = 1024 := by
  have htags : (hdrTags h j).length = 32 := by simp [hdrTags, tagsOf]
  unfold unpackChunk
  split
  · exact (unpackSegs_length _ _ List.length_replicate (by rw [htags]; exact hslot)).trans (by rw [htags])
  · exact List.length_replicate

/-- Whatever the header says, a page is unpacked. -/
theorem unpackPage_length (h : List Byte) {slots : List (List Byte)} (hslots : ∀ j, j < 32 → 1024 ≤ (slots.getD j []).length) :
    (unpackPage h slots).1.length = 32768 := by
  cases hflag : hdrFlag h 0
  case false => rw [unpackPage_not_packed slots hflag]; exact List.length_replicate
  case true =>
    have hchunk : ∀ j ∈ List.range 32, (unpackChunk h slots j).1.length = 1024 :=
      fun j hj => unpackChunk_length h (hslots j (List.mem_range.mp hj))
    rw [unpackPage_packed slots hflag, List.flatMap_map, List.length_flatMap, List.map_congr_left hchunk]
    simp

/-- The slots of a packed page in tile store. -/
def Dev.slotsAt (d : Dev) (n : Fin 32) (a : Nat) : List (List Byte) := (List.range 32).map fun j => d.tsRead n (a + 1024 * j) 1024

theorem slotsAt_lengths (d : Dev) (n : Fin 32) (a : Nat) {j : Nat} (hj : j < 32) : 1024 ≤ ((d.slotsAt n a).getD j []).length := by
  simp [Dev.slotsAt, Dev.tsRead, hj]

/-- The page and RESULT that WUNPACK gives from slots at `a` and a header at `b`. -/
def Dev.unpacked (d : Dev) (n : Fin 32) (a b : Nat) : List Byte × Nat := unpackPage (d.tsRead n b 384) (d.slotsAt n a)

/-- Tile store with an unpacked page and RESULT written. -/
theorem unpacked_store (m : Mem) {a b : Nat} {page : List Byte} (result : Nat) (h : page.length = 32768)
    (hapart : a + 32768 ≤ b ∨ b < a) :
    let st := memPutLe (memPutBytes m a page) b 1 result
    memBytes st a 32768 = page ∧ memLe st b 1 = result % 256 ∧
      ∀ x, x < a ∨ a + 32768 ≤ x → x ≠ b → memGet st x = memGet m x := by
  have hresult := leBytes_length 1 result
  refine ⟨?_, memLe_memPutLe_self _ b 1 result, fun x h1 h2 => ?_⟩
  · rw [← h]
    exact memBytes_first_of_two m (by rw [h, hresult]; exact hapart)
  · exact memGet_outside_two m (by rw [h]; exact h1) (by rw [hresult]; omega)

theorem tile_wunpackPage (d : Dev) (n : Fin 32) (a b c : Nat) : (d.wunpackPage n a b c).tile n = { d.tile n with
    store := memPutLe (memPutBytes (d.tile n).store c (d.unpacked n a b).1) (b + 0x14C) 1 (d.unpacked n a b).2 } := by
  rw [Dev.wunpackPage, Dev.tsWrite, Dev.tsPutLe, onTile_onTile, tile_onTile_self]
  rfl

theorem tile_wunpackPage_ne (d : Dev) {n k : Fin 32} (a b c : Nat) (h : k ≠ n) : (d.wunpackPage n a b c).tile k = d.tile k := by
  rw [Dev.wunpackPage, Dev.tsWrite, Dev.tsPutLe, onTile_onTile, tile_onTile_ne d _ h]

theorem exec_wunpack {s : State} {p : Issue} {a0 a1 a2 : BitVec 26} (hf : s.dev.frozen = false) (hi : s.dev.issues p.tile 4 = true)
    (hb : packBad a0.toNat a2.toNat a1.toNat 1 0 = false) : exec (.wunpack p a0 a1 a2 1 0) s =
      .next (s.put ((s.dev.count (.tile p.tile) 0x14 1).wunpackPage p.tile a0.toNat a1.toNat a2.toNat)) := by
  change execWunpack p a0 a1 a2 1 0 s = _
  exact onRun_eq hf (helperIssue_effect _ hi hb)

theorem wunpack_effect {s : State} {p : Issue} {a0 a1 a2 : BitVec 26} (hf : s.dev.frozen = false) (hi : s.dev.issues p.tile 4 = true)
    (hb : packBad a0.toNat a2.toNat a1.toNat 1 0 = false)
    (hapart : a2.toNat + 32768 ≤ a1.toNat ∨ a1.toNat + 384 ≤ a2.toNat) :
    ∃ e : Dev, exec (.wunpack p a0 a1 a2 1 0) s = .next (s.put e) ∧
      e.tsRead p.tile a2.toNat 32768 = (s.dev.unpacked p.tile a0.toNat a1.toNat).1 ∧
      e.tsLe p.tile (a1.toNat + 0x14C) 1 = (s.dev.unpacked p.tile a0.toNat a1.toNat).2 % 256 ∧
      (∀ x, x < a2.toNat ∨ a2.toNat + 32768 ≤ x → x ≠ a1.toNat + 0x14C →
        memGet (e.tile p.tile).store x = memGet (s.dev.tile p.tile).store x) ∧
      e.tile p.tile = { s.dev.tile p.tile with store := (e.tile p.tile).store } ∧ s.dev.onlyTile e p.tile := by
  have htile := tile_wunpackPage (s.dev.count (.tile p.tile) 0x14 1) p.tile a0.toNat a1.toNat a2.toNat
  have hsame : (s.dev.count (.tile p.tile) 0x14 1).unpacked p.tile a0.toNat a1.toNat = s.dev.unpacked p.tile a0.toNat a1.toNat := by
    simp only [Dev.unpacked, Dev.slotsAt, tsRead_count]
  rw [tile_count, hsame] at htile
  obtain ⟨hpage, hresult, hframe⟩ := unpacked_store (s.dev.tile p.tile).store (a := a2.toNat) (b := a1.toNat + 0x14C)
    (s.dev.unpacked p.tile a0.toNat a1.toNat).2
    (unpackPage_length (s.dev.tsRead p.tile a1.toNat 384) fun j hj => slotsAt_lengths s.dev p.tile a0.toNat hj) (by omega)
  refine ⟨_, exec_wunpack hf hi hb, ?_, ?_, fun x h1 h2 => ?_, ?_, fun k hk => ?_⟩
  · rw [Dev.tsRead, htile]; exact hpage
  · rw [Dev.tsLe, htile]; exact hresult
  · rw [htile]; exact hframe x h1 h2
  · rw [htile]
  · rw [tile_wunpackPage_ne _ _ _ _ hk, tile_count]

end Sys2Proof.Machine
end

section
/-! WCONVERT of one dense panel (R65, R217, R218): what the blocks of a tensor leave of its record, and the image. -/

namespace Sys2Proof.Machine

open Reg

/-! The record of a tensor (R64, R65). -/

/-- What entering blocks of tensor `t` leaves unchanged on tile `n` and beside it: all but the counts and flags of the tensor's record
and the list of tensors in trouble; a record that is touched stays so. -/
structure Dev.statOnly (n : Fin 32) (t : Nat) (d e : Dev) : Prop where
  tile : e.tile n = { d.tile n with store := (e.tile n).store, troubled := (e.tile n).troubled }
  others : d.onlyTile e n
  out : e.out = d.out
  free : e.free = d.free
  base : e.getR (QNT_TABLE_BASE n) = d.getR (QNT_TABLE_BASE n)
  limits : e.getR (QNT_LIMITS n) = d.getR (QNT_LIMITS n)
  beside : ∀ y, y < d.statAt n t + 4 ∨ d.statAt n t + 32 ≤ y → memGet (e.tile n).store y = memGet (d.tile n).store y
  touched : d.statFlag n t 0 = true → e.statFlag n t 0 = true

theorem statAt_congr {d e : Dev} {n : Fin 32} (h : e.getR (QNT_TABLE_BASE n) = d.getR (QNT_TABLE_BASE n)) (t : Nat) :
    e.statAt n t = d.statAt n t := by rw [Dev.statAt, Dev.statAt, getN_congr h]

theorem statFlag_congr {d e : Dev} {n : Fin 32} {t : Nat} (hr : e.getR (QNT_TABLE_BASE n) = d.getR (QNT_TABLE_BASE n))
    (hs : ∀ y, d.statAt n t ≤ y → y < d.statAt n t + 32 → memGet (e.tile n).store y = memGet (d.tile n).store y) (b : Nat) :
    e.statFlag n t b = d.statFlag n t b := by
  have hflags : memBytes (e.tile n).store (d.statAt n t + 0x1A) 2 = memBytes (d.tile n).store (d.statAt n t + 0x1A) 2 :=
    memBytes_congr fun x hx hlt => hs x (by omega) (by omega)
  rw [Dev.statFlag, Dev.statFlags, Dev.tsLe, memLe, statAt_congr hr, hflags]
  rfl

theorem Dev.statOnly.refl (n : Fin 32) (t : Nat) (d : Dev) : d.statOnly n t d :=
  ⟨rfl, fun _ _ => rfl, rfl, rfl, rfl, rfl, fun _ _ => rfl, id⟩

theorem Dev.statOnly.trans {n : Fin 32} {t : Nat} {d e x : Dev} (h : d.statOnly n t e) (g : e.statOnly n t x) : d.statOnly n t x where
  tile := by rw [g.tile, h.tile]
  others m hm := (g.others m hm).trans (h.others m hm)
  out := g.out.trans h.out
  free := g.free.trans h.free
  base := g.base.trans h.base
  limits := g.limits.trans h.limits
  beside y hy := (g.beside y (by rw [statAt_congr h.base]; exact hy)).trans (h.beside y hy)
  touched hd := g.touched (h.touched hd)

theorem statOnly_foldl {α : Type} {n : Fin 32} {t : Nat} {f : Dev → α → Dev} (hstep : ∀ (d : Dev) (a : α), d.statOnly n t (f d a))
    (l : List α) (d : Dev) : d.statOnly n t (l.foldl f d) := by
  induction l generalizing d with
  | nil => exact .refl n t d
  | cons a r ih => exact (hstep d a).trans (ih (f d a))

section
variable (d : Dev) (n : Fin 32) (t : Nat)

/-- A change of registers and ages that spares the quantiser's limits and table base. -/
theorem statOnly_of_regs {d e : Dev} (h : d.sameBesideAges e)
    (hr : ∀ p, QNT_LIMITS n ≤ p → p ≤ QNT_TABLE_BASE n → e.getR p = d.getR p) : d.statOnly n t e := by
  have hb := hr (QNT_TABLE_BASE n) (by simp only [QNT_TABLE_BASE, QNT_LIMITS]; omega) (le_refl _)
  have hl := hr (QNT_LIMITS n) (le_refl _) (by simp only [QNT_TABLE_BASE, QNT_LIMITS]; omega)
  have htiles : e.tiles = d.tiles := by rw [Dev.sameBesideAges] at h; rw [h]
  have htile := tile_congr htiles
  have hout : e.out = d.out := by rw [Dev.sameBesideAges] at h; rw [h]
  have hfree : e.free = d.free := by rw [Dev.sameBesideAges] at h; rw [h]
  exact ⟨by rw [htile], fun m _ => htile m, hout, hfree, hb, hl, fun y _ => by rw [htile],
    fun hd => (statFlag_congr hb (fun y _ _ => by rw [htile]) 0).trans hd⟩

theorem statOnly_count (ev k : Nat) : d.statOnly n t (d.count (.tile n) ev k) := by
  obtain ⟨hsame, hregs⟩ := countOnly_count d n ev k
  refine statOnly_of_regs n t hsame fun p hlow hhigh => hregs p ?_
  simp only [QNT_TABLE_BASE, QNT_LIMITS] at hlow hhigh
  exact not_counterRegs_of_lt (by omega) (by omega)

theorem statOnly_stepStatus {f : Fld} (v : Nat) (hf : f.off = QNT_STEP_STATUS n) : d.statOnly n t (d.setF f v) := by
  refine statOnly_of_regs n t (by cases d; rfl) fun p _ hhigh => getR_setF_ne d v ?_
  rw [hf]
  simp only [QNT_TABLE_BASE, QNT_STEP_STATUS] at hhigh ⊢
  omega

theorem statOnly_event (b : Nat) : d.statOnly n t (d.latch (egQnt n) b) := by
  refine statOnly_of_regs n t (latch_only _ _ _) fun p hlow hhigh => ?_
  have hn := n.isLt
  simp only [QNT_TABLE_BASE, QNT_LIMITS, tileBase] at hlow hhigh
  refine getR_latch_ne d (egQnt n) b p ?_ ?_ ?_
  · simp only [egQnt, QNT_EVENT, tileBase]; omega
  · simp only [egQnt, QNT_EVENT_SEQ, tileBase]; omega
  · simp only [egQnt, INT_PEND]; omega

theorem statOnly_troubled (f : List Nat → List Nat) :
    d.statOnly n t (d.onTile n fun u => { u with troubled := f u.troubled }) := by
  have htile := tile_onTile_self d n fun u => { u with troubled := f u.troubled }
  have hstore : ((d.onTile n fun u => { u with troubled := f u.troubled }).tile n).store = (d.tile n).store := by rw [htile]
  have hflag : ∀ e : Dev, (e.tile n).store = (d.tile n).store → e.getR (QNT_TABLE_BASE n) = d.getR (QNT_TABLE_BASE n) →
      d.statFlag n t 0 = true → e.statFlag n t 0 = true :=
    fun e hs hr hd => (statFlag_congr hr (fun y _ _ => by rw [hs]) 0).trans hd
  exact ⟨by rw [htile], fun m hm => tile_onTile_ne d _ hm, rfl, rfl, rfl, rfl, fun y _ => by rw [hstore], hflag _ hstore rfl⟩

/-- A write inside the record that spares the flags. -/
theorem statOnly_write {off k : Nat} (v : Nat) (h4 : 4 ≤ off) (h : off + k ≤ 0x1A ∨ 0x1C ≤ off ∧ off + k ≤ 32) :
    d.statOnly n t (d.tsPutLe n (d.statAt n t + off) k v) := by
  have hget : ∀ y, y < d.statAt n t + off ∨ d.statAt n t + off + k ≤ y →
      memGet ((d.tsPutLe n (d.statAt n t + off) k v).tile n).store y = memGet (d.tile n).store y := fun y hy => by
    rw [Dev.tsPutLe, tile_onTile_self]
    exact (memGet_memPutBytes _ _ _ _).trans (if_neg (by rw [leBytes_length]; omega))
  have hflags : (d.tsPutLe n (d.statAt n t + off) k v).statFlag n t 0 = d.statFlag n t 0 := by
    have hbytes : memBytes ((d.tsPutLe n (d.statAt n t + off) k v).tile n).store (d.statAt n t + 0x1A) 2 =
        memBytes (d.tile n).store (d.statAt n t + 0x1A) 2 := memBytes_congr fun x hx hlt => hget x (by omega)
    exact congrArg (fun l => (leVal l).testBit 0) hbytes
  refine ⟨?_, fun m hm => tile_onTile_ne d _ hm, rfl, rfl, rfl, rfl, fun y hy => hget y (by omega), fun hd => hflags.trans hd⟩
  rw [Dev.tsPutLe, tile_onTile_self]

/-- A write of the flags that keeps TOUCHED. -/
theorem statOnly_writeFlags {v : Nat} (h : d.statFlag n t 0 = true → v.testBit 0 = true) :
    d.statOnly n t (d.tsPutLe n (d.statAt n t + 0x1A) 2 v) ∧
      (d.tsPutLe n (d.statAt n t + 0x1A) 2 v).statFlag n t 0 = v.testBit 0 := by
  have hflag : (d.tsPutLe n (d.statAt n t + 0x1A) 2 v).statFlag n t 0 = v.testBit 0 := by
    have hle : memLe ((d.tsPutLe n (d.statAt n t + 0x1A) 2 v).tile n).store (d.statAt n t + 0x1A) 2 = v % 2 ^ 16 := by
      rw [Dev.tsPutLe, tile_onTile_self]
      exact memLe_memPutLe_self _ _ 2 v
    refine (congrArg (Nat.testBit · 0) hle).trans ?_
    rw [Nat.testBit_mod_two_pow]
    rfl
  refine ⟨⟨?_, fun m hm => tile_onTile_ne d _ hm, rfl, rfl, rfl, rfl, fun y hy => ?_, fun hd => hflag.trans (h hd)⟩, hflag⟩
  · rw [Dev.tsPutLe, tile_onTile_self]
  · rw [Dev.tsPutLe, tile_onTile_self]
    exact (memGet_memPutBytes _ _ _ _).trans (if_neg (by rw [leBytes_length]; omega))

theorem statOnly_setStatFlag (b : Nat) : d.statOnly n t (d.setStatFlag n t b) := by
  refine (statOnly_writeFlags d n t fun hd => ?_).1
  rw [Nat.testBit_or]
  exact Bool.or_eq_true_iff.mpr (.inl hd)

theorem statOnly_statAdd {off size : Nat} (k : Nat) (h4 : 4 ≤ off) (h : off + size ≤ 0x1A ∨ 0x1C ≤ off ∧ off + size ≤ 32) :
    d.statOnly n t (d.statAdd n t off size k) := statOnly_write d n t _ h4 h

theorem statOnly_ite {c : Prop} [Decidable c] {e x : Dev} (h : d.statOnly n t e) (g : d.statOnly n t x) :
    d.statOnly n t (if c then e else x) := by
  split
  · exact h
  · exact g

theorem statOnly_tensorTrouble : d.statOnly n t (d.tensorTrouble n t) := by
  have hflag := statOnly_setStatFlag d n t 1
  unfold Dev.tensorTrouble
  refine statOnly_ite d n t hflag ((hflag.trans (statOnly_troubled _ n t (· ++ [t]))).trans ?_)
  have hcount := fun x : Dev => fun v => statOnly_stepStatus x n t (f := QNT_STEP_STATUS_TROUBLED_TENSORS n) v rfl
  exact statOnly_ite _ n t ((hcount _ _).trans (statOnly_stepStatus _ n t 1 rfl)) (hcount _ _)

theorem statOnly_tscaleBad : d.statOnly n t (d.tscaleBad n t) := by
  have hmarked := (statOnly_setStatFlag d n t 4).trans (statOnly_tensorTrouble (d.setStatFlag n t 4) n t)
  unfold Dev.tscaleBad
  exact statOnly_ite d n t hmarked ((hmarked.trans (statOnly_stepStatus _ n t 1 rfl)).trans (statOnly_event _ n t 2))

/-- The first block touches the record. -/
theorem statTouch_effect : d.statOnly n t (d.statTouch n t) ∧ (d.statTouch n t).statFlag n t 0 = true := by
  unfold Dev.statTouch
  split
  case isTrue h => exact ⟨.refl n t d, h⟩
  case isFalse h =>
    have hclear := statOnly_write d n t (off := 4) (k := 22) 0 (by decide) (.inl (by decide))
    obtain ⟨hwritten, hflag⟩ := statOnly_writeFlags (d.tsPutLe n (d.statAt n t + 4) 22 0) n t
      (v := 1 + (if d.statFlag n t 2 then 4 else 0) + (if d.statFlag n t 3 then 8 else 0)) (fun _ => by split_ifs <;> decide)
    have hzero := statOnly_write ((d.tsPutLe n (d.statAt n t + 4) 22 0).tsPutLe n (d.statAt n t + 0x1A) 2
      (1 + (if d.statFlag n t 2 then 4 else 0) + (if d.statFlag n t 3 then 8 else 0))) n t (off := 0x1C) (k := 4) 0 (by decide)
      (.inr (by decide))
    exact ⟨(hclear.trans hwritten).trans hzero, hzero.touched (hflag.trans (by split_ifs <;> decide))⟩

/-- A quantised block enters the record. -/
theorem statOnly_statBlock (b : QBlock) : d.statOnly n t (d.statBlock n t b) := by
  have hadd := fun (x : Dev) (off size k : Nat) (h4 : 4 ≤ off) h => statOnly_statAdd x n t (off := off) (size := size) k h4 h
  unfold Dev.statBlock
  extract_lets d1 d2 d3 d4 d5 d5' d6 d7 d8
  have h1 : d.statOnly n t d1 := ((hadd d 0x1C 4 1 (by decide) (.inr (by decide))).trans (hadd _ 8 4 b.sat (by decide)
    (.inl (by decide)))).trans (hadd _ 0xC 4 b.zero (by decide) (.inl (by decide)))
  have h2 : d.statOnly n t d2 := statOnly_ite d n t (h1.trans (statOnly_write d1 n t _ (by decide) (.inl (by decide)))) h1
  have h3 : d.statOnly n t d3 := statOnly_ite d n t (h2.trans (statOnly_setStatFlag d2 n t 5)) h2
  have h4 : d.statOnly n t d4 := statOnly_ite d n t (h3.trans (hadd d3 0x14 2 1 (by decide) (.inl (by decide)))) h3
  have h5 : d.statOnly n t d5 := statOnly_ite d n t (h4.trans (hadd d4 0x16 2 1 (by decide) (.inl (by decide)))) h4
  have h6 : d.statOnly n t d6 := by
    have hnan := h5.trans (hadd d5 0x18 2 1 (by decide) (.inl (by decide)))
    exact statOnly_ite d n t (statOnly_ite d n t hnan ((hnan.trans (statOnly_stepStatus _ n t 1 rfl)).trans (statOnly_event _ n t 1))) h5
  have h7 : d.statOnly n t d7 := h6.trans (statOnly_count d6 n t _ _)
  have htroubled := (h7.trans (hadd d7 0x10 4 1 (by decide) (.inl (by decide)))).trans (statOnly_count _ n t 0x0F 1)
  exact statOnly_ite d n t (statOnly_ite d n t (htroubled.trans (statOnly_tensorTrouble _ n t)) htroubled) h7

end

/-! What the Wringer reads beside the record's counts. -/

section
variable {n : Fin 32} {t : Nat} {d e : Dev} (h : d.statOnly n t e)
include h

theorem Dev.statOnly.zeroLimit : e.zeroLimit n = d.zeroLimit n := getF_congr h.limits

theorem Dev.statOnly.tscale : e.tscale n t = d.tscale n t := by
  have hbytes : memBytes (e.tile n).store (d.statAt n t) 4 = memBytes (d.tile n).store (d.statAt n t) 4 :=
    memBytes_congr fun x _ hlt => h.beside x (by omega)
  rw [Dev.tscale, Dev.tscale, statAt_congr h.base, Dev.tsLe, Dev.tsLe, memLe, memLe, hbytes]

theorem Dev.statOnly.tsRead {a len : Nat} (ha : d.statAt n t + 32 ≤ a ∨ a + len ≤ d.statAt n t) :
    e.tsRead n a len = d.tsRead n a len := memBytes_congr fun x _ hlt => h.beside x (by omega)

end

/-! Dense images (R50, R53, R91). -/

theorem packCodes_length (w : Nat) (codes : List Nat) : (packCodes w codes).length = (codes.length * w + 7) / 8 := leBytes_length _ _

theorem quantise_codes_length (f : NFmt) (st : Word) (limit : Nat) (xs : List Word) (rs : Option (List Nat)) :
    (quantise f st limit xs rs).codes.length = xs.length := by
  unfold quantise
  split
  · simp [quantFp8]
  · simp only [quantBlock]
    split_ifs <;> simp

theorem srcVals_length (src : Nat) (x : List Nat × Nat) : (srcVals src x).length = x.1.length := by simp [srcVals]

section
variable {w : WringJob} (hns : w.ns = 32) (hkeep : w.keep = none)
include hns hkeep

/-- A block of a dense panel takes the bytes of its format, and no mask. -/
theorem wringBlock_dense (k j : Nat) {x : List Nat × Nat} (hx : x.1.length = 32) :
    (wringBlock k j w x).2.1.length = w.dst.blockBytes ∧ (wringBlock k j w x).2.2 = ([], false) := by
  have hcodes : (quantise w.dst w.st w.limit (srcVals w.src x) none).codes.length = 32 := by
    rw [quantise_codes_length, srcVals_length, hx]
  rw [wringBlock, if_pos hns, hkeep]
  refine ⟨?_, rfl⟩
  change (packCodes (if w.dst.isFp8 then 8 else w.dst.bits) (quantise w.dst w.st w.limit (srcVals w.src x) none).codes).length = _
  rw [packCodes_length, hcodes]
  cases w.dst <;> rfl

theorem wringPanel_dense (k : Nat) (l : List Byte) :
    (wringPanel k w l).1.length = panelBytes w.dst 32 ∧ (wringPanel k w l).2.2 = false := by
  have hblock := fun j => wringBlock_dense hns hkeep k j (x := srcBlock w.src (denseK w.dst w.ns) l j) (by simp [srcBlock])
  constructor
  · simp only [wringPanel, List.length_append, List.length_flatMap, List.map_map, Function.comp_def, hblock, apply_ite List.length,
      leBytes_length, List.length_nil, List.length_replicate, List.map_const', List.sum_replicate, List.length_range, smul_eq_mul]
    simp only [hns, panelBytes, elemSize, maskSize, scaleSize, elemBytes, colBlocks, if_true, mul_one, mul_zero]
  · simp [wringPanel, hblock]

end

/-! The command. -/

/-- The package after the first block of a panel has touched the tensor's record, an invalid tensor scale marked (R52, R65). -/
def Dev.panelTouched (d : Dev) (n : Fin 32) (t : Nat) : Dev :=
  if tscaleValid ((d.statTouch n t).tscale n t) then d.statTouch n t else (d.statTouch n t).tscaleBad n t

theorem panelTouched_effect (d : Dev) (n : Fin 32) (t : Nat) :
    d.statOnly n t (d.panelTouched n t) ∧ (d.panelTouched n t).statFlag n t 0 = true := by
  obtain ⟨htouch, hflag⟩ := statTouch_effect d n t
  have hbad := statOnly_tscaleBad (d.statTouch n t) n t
  unfold Dev.panelTouched
  split
  · exact ⟨htouch, hflag⟩
  · exact ⟨htouch.trans hbad, hbad.touched hflag⟩

/-- The image that WCONVERT makes of the dense source panel at `a`, and its blocks. -/
def Dev.denseImage (d : Dev) (n : Fin 32) (src : Nat) (f : NFmt) (t a : Nat) : List Byte × List QBlock × Bool :=
  wringPanel d.free ⟨src, f, 32, t, tscaleUsed (d.tscale n t), none, d.zeroLimit n⟩ (d.tsRead n a (srcBytes src (denseK f 32)))

theorem denseImage_length (d : Dev) (n : Fin 32) (src : Nat) (f : NFmt) (t a : Nat) :
    (d.denseImage n src f t a).1.length = panelBytes f 32 := (wringPanel_dense rfl rfl _ _).1

section
variable {n : Fin 32} {src : Nat} {f : NFmt} {t a : Nat}

/-- Entering blocks of a tensor changes no image made with it from a panel beside its record. -/
theorem denseImage_congr {d e : Dev} (h : d.statOnly n t e)
    (ha : d.statAt n t + 32 ≤ a ∨ a + srcBytes src (denseK f 32) ≤ d.statAt n t) :
    e.denseImage n src f t a = d.denseImage n src f t a := by
  rw [Dev.denseImage, Dev.denseImage, h.free, h.tscale, h.zeroLimit, h.tsRead ha]

theorem wconvertPanel_eq (d : Dev) (n : Fin 32) (src : Nat) (f : NFmt) (ns t a b : Nat) : d.wconvertPanel n src f ns t a b =
    let e := d.panelTouched n t
    let r := wringPanel e.free ⟨src, f, ns, t, tscaleUsed ((d.statTouch n t).tscale n t), none, e.zeroLimit n⟩
      (e.tsRead n a (srcBytes src (denseK f ns)))
    (r.2.1.foldl (fun d q => d.statBlock n t q) (if r.2.2 then e.drawFree.latch (egWrg n) 1 else e)).tsWrite n b r.1 := rfl

theorem wconvertPanel_dense (d : Dev) (b : Nat)
    (ha : d.statAt n t + 32 ≤ a ∨ a + srcBytes src (denseK f 32) ≤ d.statAt n t) : ∃ e : Dev, d.statOnly n t e ∧
      e.statFlag n t 0 = true ∧ d.wconvertPanel n src f 32 t a b = e.tsWrite n b (d.denseImage n src f t a).1 := by
  obtain ⟨htouched, hflag⟩ := panelTouched_effect d n t
  have himage : wringPanel (d.panelTouched n t).free ⟨src, f, 32, t, tscaleUsed ((d.statTouch n t).tscale n t), none,
      (d.panelTouched n t).zeroLimit n⟩ ((d.panelTouched n t).tsRead n a (srcBytes src (denseK f 32))) = d.denseImage n src f t a := by
    rw [(statTouch_effect d n t).1.tscale, ← htouched.tscale]
    exact denseImage_congr htouched ha
  have hfits : (d.denseImage n src f t a).2.2 = false := (wringPanel_dense rfl rfl _ _).2
  have hblocks := statOnly_foldl (n := n) (t := t) (f := fun d q => d.statBlock n t q) (fun d q => statOnly_statBlock d n t q)
    (d.denseImage n src f t a).2.1 (d.panelTouched n t)
  refine ⟨_, htouched.trans hblocks, hblocks.touched hflag, ?_⟩
  rw [wconvertPanel_eq]
  dsimp only
  rw [himage, hfits, if_neg Bool.false_ne_true]

theorem exec_wconvert {s : State} {p : Issue} {a0 a1 a2 : BitVec 26} {count : BitVec 16} {param : BitVec 10}
    (hf : s.dev.frozen = false) (hi : s.dev.issues p.tile 4 = true)
    (hb : wconvertBad a0.toNat a1.toNat a2.toNat count.toNat param.toNat = false) (hdst : wcDst param.toNat = some f)
    (hns : wcNs param.toNat = 32) (hone : (wcShape (wcSrc param.toNat) f 32 count.toNat).2.2 = 1) :
    exec (.wconvert p a0 a1 a2 count param) s = .next (s.put ((s.dev.count (.tile p.tile) 0x14 1).wconvertPanel p.tile
      (wcSrc param.toNat) f 32 a2.toNat a0.toNat a1.toNat)) := by
  change execWconvert p a0 a1 a2 count param s = _
  refine onRun_eq hf ((helperIssue_effect _ hi hb).trans ?_)
  simp [hdst, hns, hone]

theorem wconvert_effect {s : State} {p : Issue} {a0 a1 a2 : BitVec 26} {count : BitVec 16} {param : BitVec 10}
    (hf : s.dev.frozen = false) (hi : s.dev.issues p.tile 4 = true)
    (hb : wconvertBad a0.toNat a1.toNat a2.toNat count.toNat param.toNat = false) (hdst : wcDst param.toNat = some f)
    (hns : wcNs param.toNat = 32) (hone : (wcShape (wcSrc param.toNat) f 32 count.toNat).2.2 = 1)
    (hsource : s.dev.statAt p.tile a2.toNat + 32 ≤ a0.toNat ∨
      a0.toNat + srcBytes (wcSrc param.toNat) (denseK f 32) ≤ s.dev.statAt p.tile a2.toNat)
    (himage : s.dev.statAt p.tile a2.toNat + 32 ≤ a1.toNat ∨ a1.toNat + panelBytes f 32 ≤ s.dev.statAt p.tile a2.toNat) :
    ∃ e : Dev, exec (.wconvert p a0 a1 a2 count param) s = .next (s.put e) ∧
      e.tsRead p.tile a1.toNat (panelBytes f 32) = (s.dev.denseImage p.tile (wcSrc param.toNat) f a2.toNat a0.toNat).1 ∧
      e.statFlag p.tile a2.toNat 0 = true ∧
      (∀ y, y < a1.toNat ∨ a1.toNat + panelBytes f 32 ≤ y →
        y < s.dev.statAt p.tile a2.toNat ∨ s.dev.statAt p.tile a2.toNat + 32 ≤ y →
        memGet (e.tile p.tile).store y = memGet (s.dev.tile p.tile).store y) ∧
      (e.tile p.tile).dram = (s.dev.tile p.tile).dram ∧ (e.tile p.tile).vreg = (s.dev.tile p.tile).vreg ∧
      (e.tile p.tile).mangle = (s.dev.tile p.tile).mangle ∧ s.dev.onlyTile e p.tile ∧ e.out = s.dev.out := by
  have hcount := statOnly_count s.dev p.tile a2.toNat 0x14 1
  obtain ⟨x, hblocks, hflag, hpanel⟩ := wconvertPanel_dense (s.dev.count (.tile p.tile) 0x14 1) (n := p.tile) (t := a2.toNat)
    (src := wcSrc param.toNat) (f := f) a1.toNat (by rw [statAt_congr hcount.base]; exact hsource)
  rw [denseImage_congr hcount hsource] at hpanel
  have honly := hcount.trans hblocks
  have hlen := denseImage_length s.dev p.tile (wcSrc param.toNat) f a2.toNat a0.toNat
  have htile := honly.tile
  refine ⟨_, exec_wconvert hf hi hb hdst hns hone, ?_⟩
  rw [hpanel]
  generalize (s.dev.denseImage p.tile (wcSrc param.toNat) f a2.toNat a0.toNat).1 = image at hlen ⊢
  have hstore : ((x.tsWrite p.tile a1.toNat image).tile p.tile).store = memPutBytes (x.tile p.tile).store a1.toNat image := by
    rw [Dev.tsWrite, tile_onTile_self]
  have hout : ∀ y, y < a1.toNat ∨ a1.toNat + panelBytes f 32 ≤ y →
      memGet ((x.tsWrite p.tile a1.toNat image).tile p.tile).store y = memGet (x.tile p.tile).store y := fun y hy => by
    rw [hstore, memGet_memPutBytes, if_neg (by omega)]
  have hat : x.statAt p.tile a2.toNat = s.dev.statAt p.tile a2.toNat := statAt_congr honly.base _
  refine ⟨?_, ?_, fun y h1 h2 => ?_, ?_, ?_, ?_, fun k hk => ?_, honly.out⟩
  · rw [Dev.tsRead, hstore, memBytes_memPutBytes_self _ _ hlen]
  · exact (statFlag_congr (d := x) (e := x.tsWrite p.tile a1.toNat image) rfl (fun y _ _ => hout y (by omega)) 0).trans hflag
  · rw [hout y h1, honly.beside y (by omega)]
  · rw [Dev.tsWrite, tile_onTile_self, htile]
  · rw [Dev.tsWrite, tile_onTile_self, htile]
  · rw [Dev.tsWrite, tile_onTile_self, htile]
  · exact (tile_onTile_ne x _ hk).trans (honly.others k hk)

end

/-- Settles O37: WPACK and WUNPACK write at two places that do not meet; WCONVERT enters its blocks into the tensor's record, beside which
it reads its source and writes its image. -/
theorem wringerCommands : Obligations.WringerCommands := by
  constructor
  · rintro s p n a0 a1 a2 hf rfl hi
    exact ⟨wpack_effect hf hi, wunpack_effect hf hi⟩
  · rintro s p n a0 a1 a2 count param f hf rfl hi hb hdst hns _ _ _ hone hsource himage
    exact wconvert_effect hf hi hb hdst hns hone hsource himage

end Sys2Proof.Machine
end

section
/-! States that meet the hypotheses of the statement on the Wringer's instructions. -/

namespace Sys2Proof.Machine

open Reg

/-- A package as after reset in which a pass runs on tile 0. -/
def wringerWitness : State := State.reset.put (State.reset.dev.setF (TCTL_PASS_STATUS_STATE 0) 1)

/-- The page at address 0 is packed: its slots stand at 0x8000, its header at 0x10000. -/
theorem wringerCommands_pack : ∃ e : Dev, exec (.wpack ⟨0, 0, 0⟩ 0 0x8000 0x10000 1 0) wringerWitness = .next (wringerWitness.put e) ∧
    e.tsRead 0 0x10000 384 = packHeader (wringerWitness.dev.tsRead 0 0 32768) 1 := by
  obtain ⟨hpack, -⟩ := wringerCommands.1 wringerWitness ⟨0, 0, 0⟩ 0 0 0x8000 0x10000 (by decide +kernel) rfl (by decide +kernel)
  obtain ⟨e, he, hheader, -⟩ := hpack (by decide) (.inl (by decide))
  exact ⟨e, he, hheader⟩

/-- A header of zeros at 0x8000 with slots at 0 gives RESULT 2. -/
theorem wringerCommands_unpack : ∃ e : Dev,
    exec (.wunpack ⟨0, 0, 0⟩ 0 0x8000 0x10000 1 0) wringerWitness = .next (wringerWitness.put e) ∧ e.tsLe 0 (0x8000 + 0x14C) 1 = 2 := by
  obtain ⟨-, hunpack⟩ := wringerCommands.1 wringerWitness ⟨0, 0, 0⟩ 0 0 0x8000 0x10000 (by decide +kernel) rfl (by decide +kernel)
  obtain ⟨e, he, -, hresult, -⟩ := hunpack (by decide) (.inr (by decide))
  rw [unpackPage_not_packed _ (by decide +kernel)] at hresult
  exact ⟨e, he, hresult⟩

/-- An MXFP4 panel at 0x1000 becomes a dense K4F image of tensor 7 at 0x4000. -/
theorem wringerCommands_convert : ∃ e : Dev,
    exec (.wconvert ⟨0, 0, 0⟩ 0x1000 0x4000 7 18 0x1C0) wringerWitness = .next (wringerWitness.put e) ∧ e.statFlag 0 7 0 = true := by
  obtain ⟨e, he, -, htouched, -⟩ := wringerCommands.2 wringerWitness ⟨0, 0, 0⟩ 0 0x1000 0x4000 7 18 0x1C0 .k4f (by decide +kernel) rfl
    (by decide +kernel) (by decide) rfl rfl (by decide) (.inl (by decide +kernel)) (.inl (by decide +kernel))
  exact ⟨e, he, htouched⟩

end Sys2Proof.Machine
end

section
/-! The end of a tier transfer whose writes are done (R191), and the statement on the pool and the tiers. -/

namespace Sys2Proof.Machine

open Reg

theorem tile_wrgTier (d : Dev) (n k : Fin 32) : (d.wrgTier n).tile k = d.tile k := tile_congr (tiles_setF d _ _) k

/-- A page's transfer that ends without an error, its sequence not ended. -/
def Dev.tierDone (d : Dev) (n : Fin 32) (id : Nat) : Dev :=
  (d.jobClear n id).onTier n id fun x => { x with done := true, failed := false }

section
variable {j : TierJob} (hstopped : j.stopped = false) (hkey : j.key ≠ none)

include hstopped hkey in
theorem tierEnd_of_page (d : Dev) (n : Fin 32) : d.tierEnd n j false = (d.tierDone n j.id).wrgTier n := by
  rw [Dev.tierEnd, if_neg (by simp [hstopped, hkey])]
  rfl

theorem tile_tierDone {d : Dev} {n : Fin 32} (htiers : (d.tile n).tiers = [j]) :
    ((d.tierDone n j.id).tile n).tiers = [{ j with done := true, failed := false }] ∧
      ((d.tierDone n j.id).tile n).pages = (d.tile n).pages := by
  rw [Dev.tierDone, Dev.onTier, tile_onTile_self, Dev.jobClear, tile_onSource_self, tile_onTile_self]
  exact ⟨by simp [htiers], rfl⟩

theorem tierDone_frame (d : Dev) (n : Fin 32) (id : Nat) :
    d.onlyTile (d.tierDone n id) n ∧ (d.tierDone n id).regs = d.regs ∧ (d.tierDone n id).out = d.out := by
  refine ⟨fun m hm => ?_, rfl, rfl⟩
  rw [Dev.tierDone, Dev.onTier, tile_onTile_ne _ _ hm, Dev.jobClear, tile_onSource_ne _ _ hm, tile_onTile_ne d _ hm]

section
variable {s : State} {n : Fin 32} (hf : s.dev.frozen = false) (htiers : (s.dev.tile n).tiers = [j])
  (hdone : j.done = false) (hidle : s.dev.jobIdle n j.id = true) (herr : s.dev.jobErr n j.id = none) (hwriting : j.writing = true)
include hstopped hkey hf htiers hdone hidle herr hwriting

theorem exec_tierTransferDone_written :
    exec (.tierTransferDone n j.id) s = .next (s.put ((s.dev.tierDone n j.id).wrgTier n)) := by
  change execTierTransferDone n j.id s = _
  refine onRun_eq hf (Eq.trans ?_ (tierEnd_of_page hstopped hkey s.dev n))
  simp [htiers, hdone, hidle, herr, hwriting, hstopped]

/-- A page's transfer whose writes are done is done and has not failed, whatever its FAILED held before (R191). -/
theorem tierTransferDone_written : ∃ e : Dev, exec (.tierTransferDone n j.id) s = .next (s.put e) ∧
    (e.tile n).tiers = [{ j with done := true, failed := false }] ∧ (e.tile n).pages = (s.dev.tile n).pages ∧
    e.getF (WRG_STATUS_TIER n) = 0 ∧ s.dev.keepsRegs e [WRG_STATUS n] ∧ s.dev.onlyTile e n ∧ e.out = s.dev.out := by
  obtain ⟨hjobs, hpages⟩ := tile_tierDone htiers
  obtain ⟨honly, hregs, hout⟩ := tierDone_frame s.dev n j.id
  refine ⟨_, exec_tierTransferDone_written hstopped hkey hf htiers hdone hidle herr hwriting, ?_, ?_, ?_, fun o ho => ?_,
    fun m hm => ?_, ?_⟩
  · rw [tile_wrgTier, hjobs]
  · rw [tile_wrgTier, hpages]
  · rw [Dev.wrgTier, hjobs]
    exact getF_setF_self _ _ _ (by decide : (1 : Nat) < 32)
  · rw [Dev.wrgTier, getR_setF_ne _ _ (by simpa using ho)]
    exact getR_of_regs hregs o
  · rw [tile_wrgTier, honly m hm]
  · rw [Dev.wrgTier, out_setF, hout]

end
end

/-- A transfer that writes, and whose FAILED is set although it has not ended. -/
def failedWriting : TierJob := ⟨0, some (0, 0, 0), 0, 0, [], true, true, false, false⟩

/-- A package as after reset whose tile 0 has that transfer. -/
def failedWritingWitness : State := State.reset.put (State.reset.dev.onTile 0 fun t => { t with tiers := [failedWriting] })

/-- Refutes O45: its clause on a transfer whose writes are done says that FAILED stays as it was, and has no hypothesis that it is clear.
The model clears it (R191: the transfer completed without error), so the two differ on tile 0 of `failedWritingWitness`. No command sets
FAILED without DONE, so no run from reset reaches such a transfer: the clause lacks the hypothesis `j.failed = false`. -/
theorem not_tiersAndPool : ¬ Obligations.TiersAndPool := by
  intro h
  obtain ⟨-, htiers⟩ := h
  have hrun : failedWritingWitness.dev.frozen = false := by decide +kernel
  have hjob : (failedWritingWitness.dev.tile 0).tiers = [failedWriting] := by decide +kernel
  have hidle : failedWritingWitness.dev.jobIdle 0 failedWriting.id = true := by decide +kernel
  have herr : failedWritingWitness.dev.jobErr 0 failedWriting.id = none := by decide +kernel
  obtain ⟨-, hend, -⟩ := htiers failedWritingWitness 0 0 0 0 0 0 0 0 0 0 ⟨0, 0, 0, 0, 0, []⟩ failedWriting
    ⟨0, 0, 0, 0, 0, 0, 0, [], false⟩ hrun
  obtain ⟨-, hwritten⟩ := hend hjob rfl rfl rfl hidle herr
  obtain ⟨e, he, hkept, -⟩ := hwritten rfl (by decide)
  obtain ⟨x, hx, hcleared, -⟩ := tierTransferDone_written rfl (by decide) hrun hjob rfl hidle herr rfl
  have hsame : failedWritingWitness.put e = failedWritingWitness.put x := Host.Outcome.next.inj (he.symm.trans hx)
  have hdev : e = x := congrArg State.dev hsame
  rw [hdev, hcleared] at hkept
  exact absurd hkept (by decide)

end Sys2Proof.Machine
end

section
/-! Lines through the home window (R175, R216): what a write of whole lines and a read of clean ones leave of the package. -/

namespace Sys2Proof.Machine

open Reg

/-! What line accesses leave. -/

/-- The registers that an access of lines can write: those of the tiles' memory controllers, and the pending words. -/
def memBlock (p : Nat) : Prop := (0x1000000 ≤ p ∧ p < 0x3000000 ∧ p % 0x100000 / 0x10000 = 4) ∨ (0x100100 ≤ p ∧ p < 0x100200)

/-- Nothing but those registers, the ages of latched events and the tiles differs. -/
def Dev.linesOnly (d e : Dev) : Prop :=
  e = { d with regs := e.regs, ages := e.ages, tiles := e.tiles } ∧ ∀ p, ¬ memBlock p → e.getR p = d.getR p

theorem Dev.linesOnly.refl (d : Dev) : d.linesOnly d := ⟨by cases d; exact Eq.refl _, fun _ _ => rfl⟩

theorem Dev.linesOnly.trans {d e x : Dev} (h : d.linesOnly e) (g : e.linesOnly x) : d.linesOnly x := by
  obtain ⟨hsame, hregs⟩ := h
  obtain ⟨hsame', hregs'⟩ := g
  exact ⟨by rw [hsame', hsame], fun p hp => (hregs' p hp).trans (hregs p hp)⟩

theorem linesOnly_foldl {α : Type} {f : Dev → α → Dev} (hstep : ∀ (d : Dev) (a : α), d.linesOnly (f d a)) (l : List α) (d : Dev) :
    d.linesOnly (l.foldl f d) := by
  induction l generalizing d with
  | nil => exact .refl d
  | cons a t ih => exact (hstep d a).trans (ih (f d a))

theorem linesOnly_of_ages {d e : Dev} (h : d.sameBesideAges e) (hr : ∀ p, ¬ memBlock p → e.getR p = d.getR p) : d.linesOnly e := by
  refine ⟨?_, hr⟩
  rw [Dev.sameBesideAges] at h
  rw [h]

theorem linesOnly_onTile (d : Dev) (n : Fin 32) (f : Tile → Tile) : d.linesOnly (d.onTile n f) := ⟨by cases d; rfl, fun _ _ => rfl⟩

theorem memBlock_of_mem {n : Fin 32} {p : Nat} (h : tileBase n + 0x40000 ≤ p) (hlt : p < tileBase n + 0x50000) : memBlock p := by
  have hn := n.isLt
  simp only [tileBase] at h hlt
  unfold memBlock
  omega

theorem ne_of_not_memBlock {o p : Nat} (hp : ¬ memBlock p) (ho : memBlock o) : p ≠ o := fun h => hp (h ▸ ho)

theorem linesOnly_setN (d : Dev) {o : Nat} (v : Nat) (h : memBlock o) : d.linesOnly (d.setN o v) :=
  linesOnly_of_ages (by cases d; rfl) fun p hp => by rw [getR_setN, if_neg (ne_of_not_memBlock hp h)]

theorem linesOnly_satAdd (d : Dev) {o : Nat} (k : Nat) (h : memBlock o) : d.linesOnly (d.satAdd o k) := linesOnly_setN d _ h

theorem linesOnly_latch_egMem (d : Dev) (n : Fin 32) (b : Nat) : d.linesOnly (d.latch (egMem n) b) := by
  have hn := n.isLt
  have hblock : ∀ o, o = MEM_EVENT n ∨ o = MEM_EVENT_SEQ n ∨ o = INT_PEND ((egMem n).src / 32) → memBlock o := by
    intro o ho
    simp only [MEM_EVENT, MEM_EVENT_SEQ, INT_PEND, egMem, tileBase] at ho
    unfold memBlock
    omega
  exact linesOnly_of_ages (latch_only d _ b) fun p hp => getR_latch_ne d _ b p (ne_of_not_memBlock hp (hblock _ (.inl rfl)))
    (ne_of_not_memBlock hp (hblock _ (.inr (.inl rfl)))) (ne_of_not_memBlock hp (hblock _ (.inr (.inr rfl))))

theorem Dev.linesOnly.fields {d e : Dev} (h : d.linesOnly e) :
    e.res = d.res ∧ e.out = d.out ∧ e.mbx = d.mbx ∧ e.now = d.now ∧ e.rwb = d.rwb := by
  obtain ⟨hsame, -⟩ := h
  rw [hsame]
  exact ⟨rfl, rfl, rfl, rfl, rfl⟩

/-! Writes. -/

theorem linesOnly_setPoison (d : Dev) (n : Fin 32) (l : Nat) (v : Bool) : d.linesOnly (d.setPoison n l v) := by
  rw [Dev.setPoison, Dev.onDarner]
  exact linesOnly_onTile d n _

theorem linesOnly_dramWrite (d : Dev) (n : Fin 32) (l : Nat) (data : List Byte) : d.linesOnly (d.dramWrite n l data false) := by
  unfold Dev.dramWrite
  dsimp only
  rw [if_neg Bool.false_ne_true]
  refine Dev.linesOnly.trans ?_ ((linesOnly_onTile _ n _).trans (linesOnly_setPoison _ n l false))
  split
  · exact .refl d
  · exact (linesOnly_onTile d n _).trans (linesOnly_satAdd _ _ (memBlock_of_mem (n := n) (by simp) (by simp)))

/-- A write of one line, which reaches DRAM and a held copy of the line. -/
theorem lineWrite_effect (d : Dev) (n : Fin 32) (l : Nat) (b : List Byte) :
    let e := (d.dramWrite n l b false).heldApply n l b
    (e.tile n).dram = memPutBytes (d.tile n).dram (64 * l) (b.take 64) ∧ d.dramSide n e ∧ d.linesOnly e := by
  obtain ⟨hdram, hside⟩ := dramWrite_effect d n l b
  refine ⟨?_, hside.trans ?_, (linesOnly_dramWrite d n l b).trans (linesOnly_onTile _ n _)⟩
  · rw [Dev.heldApply, tile_onTile_self, hdram]
  · exact dramSide_onTile _ n (fun t => { t with delud := { t.delud with
      held := t.delud.held.map fun h => if h.line = l ∧ h.data.isSome then { h with data := some (b.take 64) } else h } }) fun _ => rfl

theorem linesOnly_homeWrite (d : Dev) (n : Fin 32) (a : Nat) (b : List Byte) : d.linesOnly (d.homeWrite n a b) :=
  linesOnly_foldl (fun e k => (lineWrite_effect e n (a / 64 + k) ((b.drop (64 * k)).take 64)).2.2) _ d

/-- The first `k` lines of a write through the home window. -/
def Dev.homeLines (d : Dev) (n : Fin 32) (a : Nat) (b : List Byte) (k : Nat) : Dev :=
  (List.range k).foldl (fun d k =>
    (d.dramWrite n (a / 64 + k) ((b.drop (64 * k)).take 64) false).heldApply n (a / 64 + k) ((b.drop (64 * k)).take 64)) d

theorem homeLines_effect (d : Dev) (n : Fin 32) {a k : Nat} {b : List Byte} (ha : a % 64 = 0) (hk : 64 * k ≤ b.length) :
    let e := d.homeLines n a b k
    (∀ x, memGet (e.tile n).dram x = if a ≤ x ∧ x < a + 64 * k then b.getD (x - a) 0 else memGet (d.tile n).dram x) ∧
      d.dramSide n e ∧ d.linesOnly e := by
  induction k with
  | zero =>
    refine ⟨fun x => ?_, .refl n d, .refl d⟩
    rw [if_neg (by omega)]
    rfl
  | succ k ih =>
    obtain ⟨hbytes, hside, honly⟩ := ih (by omega)
    obtain ⟨hline, hside', honly'⟩ := lineWrite_effect (d.homeLines n a b k) n (a / 64 + k) ((b.drop (64 * k)).take 64)
    have hplace : 64 * (a / 64 + k) = a + 64 * k := by omega
    have hlen : (((b.drop (64 * k)).take 64).take 64).length = 64 := by simp; omega
    dsimp only
    rw [Dev.homeLines, List.range_succ, List.foldl_append, ← Dev.homeLines, List.foldl_cons, List.foldl_nil]
    refine ⟨fun x => ?_, hside.trans hside', honly.trans honly'⟩
    rw [hline, memGet_memPutBytes, hplace, hlen, hbytes]
    by_cases hin : a + 64 * k ≤ x ∧ x < a + 64 * k + 64
    · rw [if_pos hin, if_pos (by omega), List.getD_eq_getElem _ _ (by omega), List.getD_eq_getElem _ _ (by omega)]
      simp only [List.getElem_take, List.getElem_drop]
      congr 1
      omega
    · rw [if_neg hin]
      by_cases hx : a ≤ x ∧ x < a + 64 * k
      · rw [if_pos hx, if_pos (by omega)]
      · rw [if_neg hx, if_neg (by omega)]

/-- A write of whole lines (R216): the bytes stand at their addresses, and no other byte changes. -/
theorem homeWrite_effect (d : Dev) (n : Fin 32) {a : Nat} {b : List Byte} (ha : a % 64 = 0) (hb : b.length % 64 = 0) :
    let e := d.homeWrite n a b
    (∀ x, memGet (e.tile n).dram x = if a ≤ x ∧ x < a + b.length then b.getD (x - a) 0 else memGet (d.tile n).dram x) ∧
      d.dramSide n e ∧ d.linesOnly e := by
  have hcount : 64 * ((b.length + 63) / 64) = b.length := by omega
  have hall := homeLines_effect d n ha hcount.le
  rw [hcount] at hall
  exact hall

/-- Bytes written through the home window read back. -/
theorem memBytes_homeWrite (d : Dev) (n : Fin 32) {a : Nat} {b : List Byte} (ha : a % 64 = 0) (hb : b.length % 64 = 0) :
    memBytes ((d.homeWrite n a b).tile n).dram a b.length = b := by
  obtain ⟨hbytes, -⟩ := homeWrite_effect d n ha hb
  apply List.ext_getElem
  · simp
  · intro i h1 h2
    have hget := hbytes (a + i)
    rw [if_pos (by omega), Nat.add_sub_cancel_left, List.getD_eq_getElem _ _ h2] at hget
    simpa [memBytes] using hget

/-! Reads. -/

theorem linesOnly_dramRead {d : Dev} {n : Fin 32} {l : Nat} (source : Nat) (h : d.poisoned n l = false) :
    d.linesOnly (d.dramRead n l source cleanRep).2.2 := by
  have hseen : d.linesOnly (d.ceSeen n 0) := by
    have hcount : d.linesOnly ((d.satAdd (MEM_CE_COUNT n) 0).onDarner n fun w => { w with ce := w.ce + 0 }) :=
      (linesOnly_satAdd d 0 (memBlock_of_mem (n := n) (by simp) (by simp))).trans (linesOnly_onTile _ n _)
    unfold Dev.ceSeen
    dsimp only
    split
    · exact (hcount.trans (linesOnly_onTile _ n _)).trans (linesOnly_latch_egMem _ n 0)
    · exact hcount
  have hread : (d.dramRead n l source cleanRep).2.2 = (d.ceSeen n 0).satAdd (MEM_LINK_CE_COUNT n) 0 := by
    simp [Dev.dramRead, cleanRep, h]
  rw [hread]
  exact hseen.trans (linesOnly_satAdd _ 0 (memBlock_of_mem (n := n) (by simp) (by simp)))

/-- The first `k` lines of a read through the home window, none reported. -/
def Dev.linesRead (d : Dev) (n : Fin 32) (a k : Nat) : List Byte × Bool × Dev :=
  (List.range k).foldl (fun (x : List Byte × Bool × Dev) i =>
    let r := x.2.2.dramRead n (a / 64 + i) 1 (repOf [] (a / 64 + i))
    (x.1 ++ r.1, x.2.1 || r.2.1, r.2.2)) ([], false, d)

theorem linesRead_clean {d : Dev} {n : Fin 32} {a : Nat} (ha : a % 64 = 0) (h : ∀ l, d.poisoned n l = false) (k : Nat) :
    ∃ e, d.linesRead n a k = (memBytes (d.tile n).dram a (64 * k), false, e) ∧ d.darnerOnly n e ∧ d.linesOnly e := by
  induction k with
  | zero => exact ⟨d, rfl, .refl n d, .refl d⟩
  | succ k ih =>
    obtain ⟨e, he, honly, hlines⟩ := ih
    obtain ⟨hdram, -, hpoison⟩ := honly.fields
    have hclean : e.poisoned n (a / 64 + k) = false := (hpoison _).trans (h _)
    obtain ⟨x, hx, hread⟩ := dramRead_clean 1 hclean
    have hline : e.dramLine n (a / 64 + k) = memBytes (d.tile n).dram (a + 64 * k) 64 := by
      rw [Dev.dramLine, hdram]
      congr 1
      omega
    have hrep : repOf [] (a / 64 + k) = cleanRep := rfl
    have hlines' := linesOnly_dramRead (d := e) 1 hclean
    rw [hx] at hlines'
    refine ⟨x, ?_, honly.trans hread, hlines.trans hlines'⟩
    rw [Dev.linesRead, List.range_succ, List.foldl_append, ← Dev.linesRead, he, List.foldl_cons, List.foldl_nil]
    simp only [hrep, hx, hline, Bool.or_self, Nat.mul_succ, memBytes_add]

/-- A read of whole lines with nothing wrong: the bytes of DRAM, which stays as it is. -/
theorem homeRead_clean {d : Dev} {n : Fin 32} {a k : Nat} (ha : a % 64 = 0) (hk : k % 64 = 0) (h : ∀ l, d.poisoned n l = false) :
    ∃ e, d.homeRead n a k [] = (memBytes (d.tile n).dram a k, false, e) ∧ d.darnerOnly n e ∧ d.linesOnly e := by
  have hcount : 64 * ((k + 63) / 64) = k := by omega
  have hall := linesRead_clean ha h ((k + 63) / 64)
  rw [hcount] at hall
  exact hall

end Sys2Proof.Machine
end

section
/-! Slots of the residency directory (R205, R219, R222): records written on several tiles, and a slot that becomes EMPTY. -/

namespace Sys2Proof.Machine

open Reg

/-! Lines written on several tiles. -/

/-- A write of lines at the same place of each of several tiles; what is written on a tile may depend on the package. -/
def Dev.homeWrites (d : Dev) (l : List (Fin 32)) (a : Nat) (row : Dev → Fin 32 → List Byte) : Dev :=
  l.foldl (fun d n => d.homeWrite n a (row d n)) d

theorem homeWrites_cons (d : Dev) (m : Fin 32) (t : List (Fin 32)) (a : Nat) (row : Dev → Fin 32 → List Byte) :
    d.homeWrites (m :: t) a row = (d.homeWrite m a (row d m)).homeWrites t a row := rfl

theorem homeWrites_effect {l : List (Fin 32)} (hl : l.Nodup) (d : Dev) {a : Nat} {row : Dev → Fin 32 → List Byte} (ha : a % 64 = 0)
    (hrow : ∀ x n, (row x n).length % 64 = 0) :
    let e := d.homeWrites l a row
    (∀ n ∈ l, ∃ x, d.linesOnly x ∧ memBytes (e.tile n).dram a (row x n).length = row x n) ∧ (∀ n, n ∉ l → e.tile n = d.tile n) ∧
      d.linesOnly e := by
  induction l generalizing d with
  | nil => exact ⟨fun n hn => absurd hn (List.not_mem_nil), fun _ _ => rfl, .refl d⟩
  | cons m t ih =>
    obtain ⟨hm, ht⟩ := List.nodup_cons.mp hl
    obtain ⟨-, ⟨-, hothers, -⟩, hfirst⟩ := homeWrite_effect d m ha (hrow d m)
    obtain ⟨hrest, hout, honly⟩ := ih ht (d.homeWrite m a (row d m))
    rw [homeWrites_cons]
    refine ⟨fun n hn => ?_, fun n hn => ?_, hfirst.trans honly⟩
    · obtain rfl | hn := List.mem_cons.mp hn
      · exact ⟨d, .refl d, by rw [hout n hm, memBytes_homeWrite d n ha (hrow d n)]⟩
      · obtain ⟨x, hx, hbytes⟩ := hrest n hn
        exact ⟨x, hfirst.trans hx, hbytes⟩
    · obtain ⟨hne, hnt⟩ := not_or.mp (mt List.mem_cons.mpr hn)
      rw [hout n hnt, hothers n hne]

theorem maskTiles_nodup (d : Dev) (w : Word) : (d.maskTiles w).Nodup := (List.nodup_finRange 32).filter _

theorem slotRec_line (s : Nat) : slotRec s % 64 = 0 := by unfold slotRec; omega

/-! KV pages. -/

theorem linesOnly_kvPages (d : Dev) (n : Fin 32) : d.linesOnly (d.kvPages n) :=
  linesOnly_setN d _ (memBlock_of_mem (n := n) (by simp) (by simp))

theorem linesOnly_kvPagesAll (d : Dev) : d.linesOnly d.kvPagesAll := linesOnly_foldl (fun e n => linesOnly_kvPages e n) _ d

theorem tiles_kvPages (d : Dev) (n : Fin 32) : (d.kvPages n).tiles = d.tiles := tiles_setN d _ _

theorem tiles_kvPagesAll (d : Dev) : d.kvPagesAll.tiles = d.tiles :=
  foldl_view_same Dev.tiles _ _ (fun e n _ => tiles_kvPages e n) d

/-! A slot becomes EMPTY. -/

/-- The commit record and UNITS of a slot are cleared on its tiles in service. -/
def Dev.recordsCleared (d : Dev) (s : Nat) : Dev :=
  d.homeWrites (d.maskTiles (d.getR (WTR_SLOT_TILES s))) (slotRec s) fun _ _ => List.replicate 0x840 0

/-- The registers of a slot as it becomes EMPTY. -/
def Dev.slotCleared (d : Dev) (s reason : Nat) : Dev :=
  ((((d.setF (WTR_SLOT_STATE_STATE s) 0).setF (WTR_SLOT_STATE_DAMAGED s) 0).setF (WTR_SLOT_STATE_RETIRED_OVERLAP s) 0).setF
    (WTR_SLOT_STATE_REASON s) reason).setN (WTR_SLOT_TILES s) 0

/-- What follows: the damaged units are forgotten, the loss is shown, and the KV pages of the tiles are counted again. -/
def Dev.slotForgotten (d : Dev) (s reason st : Nat) : Dev :=
  let d : Dev := { d with res := { d.res with damaged := d.res.damaged.filter fun x => x.1 != s } }
  let d : Dev := if 2 ≤ st then d.latch egWtr 2 else d
  let d := d.logHub 0x000B s reason
  if st = 4 then d.kvPagesAll else d

theorem slotEmpty_eq (d : Dev) (s reason : Nat) :
    d.slotEmpty s reason = ((d.recordsCleared s).slotCleared s reason).slotForgotten s reason (d.slotState s) := rfl

theorem recordsCleared_effect (d : Dev) (s : Nat) :
    let e := d.recordsCleared s
    (∀ n ∈ d.maskTiles (d.getR (WTR_SLOT_TILES s)), ∀ a, slotRec s ≤ a → a < slotRec s + 0x840 → memGet (e.tile n).dram a = 0) ∧
      d.linesOnly e := by
  obtain ⟨hbytes, -, honly⟩ := homeWrites_effect (maskTiles_nodup d (d.getR (WTR_SLOT_TILES s))) d (a := slotRec s)
    (row := fun _ _ => List.replicate 0x840 0) (slotRec_line s) (fun _ _ => by rw [List.length_replicate])
  refine ⟨fun n hn a ha hlt => ?_, honly⟩
  obtain ⟨x, -, hzero⟩ := hbytes n hn
  rw [List.length_replicate] at hzero
  have hget := getD_memBytes ((d.recordsCleared s).tile n).dram (slotRec s) (i := a - slotRec s) (k := 0x840) (by omega)
  rw [Nat.add_sub_cancel' ha] at hget
  rw [← hget]
  refine (congrArg (fun l => l.getD (a - slotRec s) 0) hzero).trans ?_
  rw [List.getD_eq_getElem _ _ (by rw [List.length_replicate]; omega), List.getElem_replicate]

theorem getR_slotCleared (d : Dev) (s reason : Nat) {p : Nat} (h1 : p ≠ WTR_SLOT_STATE s) (h2 : p ≠ WTR_SLOT_TILES s) :
    (d.slotCleared s reason).getR p = d.getR p := by
  rw [Dev.slotCleared, getR_setN, if_neg h2, getR_setF_ne _ _ h1, getR_setF_ne _ _ h1, getR_setF_ne _ _ h1, getR_setF_ne _ _ h1]

theorem slotCleared_shown (d : Dev) (s : Nat) {reason : Nat} (hr : reason < 256) :
    let e := d.slotCleared s reason
    e.slotState s = 0 ∧ e.getF (WTR_SLOT_STATE_REASON s) = reason ∧ e.getR (WTR_SLOT_TILES s) = 0 := by
  have hstate : ∀ x : Dev, (x.setN (WTR_SLOT_TILES s) 0).getR (WTR_SLOT_STATE s) = x.getR (WTR_SLOT_STATE s) := fun x => by
    rw [getR_setN, if_neg (by simp only [WTR_SLOT_STATE, WTR_SLOT_TILES]; omega)]
  refine ⟨?_, ?_, ?_⟩
  · rw [Dev.slotState, Dev.slotCleared, getF_congr (hstate _), getF_setF_ne _ _ _ _ (by simp) (by simp),
      getF_setF_ne _ _ _ _ (by simp) (by simp), getF_setF_ne _ _ _ _ (by simp) (by simp), getF_setF_self _ _ _ (by simp)]
    rfl
  · rw [Dev.slotCleared, getF_congr (hstate _), getF_setF_self _ _ _ (by simp)]
    exact Nat.mod_eq_of_lt hr
  · rw [Dev.slotCleared, getR_setN, if_pos rfl]
    rfl

/-- The registers that a slot's loss can write: its own two, the loss event's, the log's head, those of the memory controllers. -/
def slotRegs (s p : Nat) : Prop :=
  p = WTR_SLOT_STATE s ∨ p = WTR_SLOT_TILES s ∨ p = WTR_EVENT ∨ p = WTR_EVENT_SEQ ∨ p = HUB_LOG_HEAD ∨ memBlock p

theorem not_memBlock_of_hub {p : Nat} (h : p < 0x100100 ∨ (0x100200 ≤ p ∧ p < 0x1000000)) : ¬ memBlock p := by
  unfold memBlock
  omega

theorem memBlock_pend : memBlock (INT_PEND 0) := .inr (by decide)

theorem slotForgotten_effect (d : Dev) (s reason st : Nat) :
    let e := d.slotForgotten s reason st
    (∀ p, p ≠ WTR_EVENT → p ≠ WTR_EVENT_SEQ → p ≠ HUB_LOG_HEAD → ¬ memBlock p → e.getR p = d.getR p) ∧
      (2 ≤ st → e.regBit WTR_EVENT 2 = true) ∧
      e.tiles = d.tiles ∧ e.res.job = d.res.job ∧ e.now = d.now ∧ e.mbx = d.mbx ∧ e.out = d.out := by
  obtain ⟨x, hx⟩ : ∃ x : Dev, x = { d with res := { d.res with damaged := d.res.damaged.filter fun x => x.1 != s } } := ⟨_, rfl⟩
  obtain ⟨y, hy⟩ : ∃ y : Dev, y = if 2 ≤ st then x.latch egWtr 2 else x := ⟨_, rfl⟩
  have hyregs : ∀ p, p ≠ WTR_EVENT → p ≠ WTR_EVENT_SEQ → ¬ memBlock p → y.getR p = d.getR p := by
    intro p h1 h2 hp
    have hpx : x.getR p = d.getR p := by rw [hx]; rfl
    rw [hy]
    split
    · rw [getR_latch_ne x egWtr 2 p h1 h2 (ne_of_not_memBlock hp memBlock_pend), hpx]
    · exact hpx
  have hevent : 2 ≤ st → y.regBit WTR_EVENT 2 = true := fun h => by
    rw [hy, if_pos h]
    exact regBit_latch_self x egWtr 2 (by decide) (by decide)
  have hyrest : y.tiles = d.tiles ∧ y.res.job = d.res.job ∧ y.now = d.now ∧ y.mbx = d.mbx ∧ y.out = d.out := by
    rw [hy]
    split <;> simp [hx]
  obtain ⟨z, hz⟩ : ∃ z, z = y.logHub 0x000B s reason := ⟨_, rfl⟩
  have hzregs : ∀ p, p ≠ HUB_LOG_HEAD → ¬ memBlock p → z.getR p = y.getR p := fun p h1 hp => by
    rw [hz]
    exact getR_logEntry_ne _ _ _ _ _ _ _ h1 (ne_of_not_memBlock hp memBlock_pend)
  have hzrest : z.tiles = y.tiles ∧ z.res = y.res ∧ z.now = y.now ∧ z.mbx = y.mbx ∧ z.out = y.out := by
    rw [hz, Dev.logHub]
    simp
  have he : d.slotForgotten s reason st = if st = 4 then z.kvPagesAll else z := by rw [hz, hy, hx]; rfl
  obtain ⟨htiles, hjob, hnow, hmbx, hout⟩ := hyrest
  obtain ⟨htiles', hres', hnow', hmbx', hout'⟩ := hzrest
  have hlines : z.linesOnly (d.slotForgotten s reason st) ∧ (d.slotForgotten s reason st).tiles = z.tiles := by
    rw [he]
    split
    · exact ⟨linesOnly_kvPagesAll z, tiles_kvPagesAll z⟩
    · exact ⟨.refl z, rfl⟩
  obtain ⟨honly, hsame⟩ := hlines
  obtain ⟨hres, hsent, hbox, htime, -⟩ := honly.fields
  refine ⟨fun p h1 h2 h3 hp => ?_, fun h => ?_, hsame.trans (htiles'.trans htiles), ?_, htime.trans (hnow'.trans hnow),
    hbox.trans (hmbx'.trans hmbx), hsent.trans (hout'.trans hout)⟩
  · rw [honly.2 p hp, hzregs p h3 hp, hyregs p h1 h2 hp]
  · have hp : ¬ memBlock WTR_EVENT := not_memBlock_of_hub (by decide)
    rw [regBit_congr ((honly.2 _ hp).trans (hzregs _ (by decide) hp)), hevent h]
  · rw [hres, hres', hjob]

/-- What the loss of a slot leaves (R222). -/
structure Dev.slotGone (d e : Dev) (s reason : Nat) : Prop where
  state : e.slotState s = 0
  reason : e.getF (WTR_SLOT_STATE_REASON s) = reason
  mask : e.getR (WTR_SLOT_TILES s) = 0
  event : 2 ≤ d.slotState s → e.regBit WTR_EVENT 2 = true
  records : ∀ n ∈ d.maskTiles (d.getR (WTR_SLOT_TILES s)), ∀ a, slotRec s ≤ a → a < slotRec s + 0x840 → memGet (e.tile n).dram a = 0
  regs : ∀ p, ¬ slotRegs s p → e.getR p = d.getR p
  job : e.res.job = d.res.job
  now : e.now = d.now
  mbx : e.mbx = d.mbx
  out : e.out = d.out

theorem slotEmpty_effect (d : Dev) {s reason : Nat} (hs : s < 16) (hr : reason < 256) : d.slotGone (d.slotEmpty s reason) s reason := by
  obtain ⟨hzero, honly⟩ := recordsCleared_effect d s
  obtain ⟨hres, hsent, hbox, htime, -⟩ := honly.fields
  obtain ⟨hstate, hreason, hmask⟩ := slotCleared_shown (d.recordsCleared s) s hr
  obtain ⟨hregs, hevent, htiles, hjob, hnow, hmbx, hout⟩ :=
    slotForgotten_effect ((d.recordsCleared s).slotCleared s reason) s reason (d.slotState s)
  rw [slotEmpty_eq]
  have hown : ∀ p, p = WTR_SLOT_STATE s ∨ p = WTR_SLOT_TILES s → (((d.recordsCleared s).slotCleared s reason).slotForgotten s reason
      (d.slotState s)).getR p = ((d.recordsCleared s).slotCleared s reason).getR p := fun p hp => by
    simp only [WTR_SLOT_STATE, WTR_SLOT_TILES] at hp
    exact hregs p (by simp only [WTR_EVENT]; omega) (by simp only [WTR_EVENT_SEQ]; omega) (by simp only [HUB_LOG_HEAD]; omega)
      (not_memBlock_of_hub (by omega))
  refine ⟨?_, ?_, ?_, hevent, fun n hn a ha hlt => ?_, fun p hp => ?_, ?_, ?_, ?_, ?_⟩
  · exact (getF_congr (hown _ (.inl rfl))).trans hstate
  · exact (getF_congr (hown _ (.inl rfl))).trans hreason
  · rw [hown _ (.inr rfl), hmask]
  · rw [tile_congr htiles, tile_congr (e := (d.recordsCleared s).slotCleared s reason) (d := d.recordsCleared s)
      (by simp [Dev.slotCleared])]
    exact hzero n hn a ha hlt
  · simp only [slotRegs, not_or] at hp
    obtain ⟨h1, h2, h3, h4, h5, h6⟩ := hp
    rw [hregs p h3 h4 h5 h6, getR_slotCleared _ _ _ h1 h2, honly.2 p h6]
  · rw [hjob, Dev.slotCleared]
    simp [hres]
  · rw [hnow, Dev.slotCleared]
    simp [htime]
  · rw [hmbx, Dev.slotCleared]
    simp [hbox]
  · rw [hout, Dev.slotCleared]
    simp [hsent]

end Sys2Proof.Machine
end

section
/-! The running load (R211, R225, R226): its chunks, its Reads, and a load that fails. -/

namespace Sys2Proof.Machine

open Reg

/-! Chunks. -/

theorem chunk_setChunk (j : LoadJob) (c y : Nat) (x : ChunkSt) :
    (j.setChunk c x).chunk y = if y = c ∧ c < j.chunks.length then x else j.chunk y := by
  rw [LoadJob.setChunk, LoadJob.chunk, LoadJob.chunk, List.getD_eq_getElem?_getD, List.getD_eq_getElem?_getD, List.getElem?_set]
  by_cases hy : y = c
  · subst hy
    by_cases hlt : y < j.chunks.length
    · simp [hlt]
    · simp [hlt]
  · simp [hy, Ne.symm hy]

theorem chunk_setChunk_self (j : LoadJob) {c : Nat} (x : ChunkSt) (h : c < j.chunks.length) : (j.setChunk c x).chunk c = x := by
  rw [chunk_setChunk, if_pos ⟨rfl, h⟩]

theorem chunk_setChunk_ne (j : LoadJob) {c y : Nat} (x : ChunkSt) (h : y ≠ c) : (j.setChunk c x).chunk y = j.chunk y := by
  rw [chunk_setChunk, if_neg fun hc => h hc.1]

theorem onLoad_eq {d : Dev} {j : LoadJob} (hj : d.res.job = some j) (f : LoadJob → LoadJob) :
    d.onLoad f = { d with res := { d.res with job := some (f j) } } := by
  rw [Dev.onLoad, hj]
  rfl

/-- The package with another running load. -/
def Dev.withJob (d : Dev) (i : LoadJob) : Dev := { d with res := { d.res with job := some i } }

@[simp] theorem job_withJob (d : Dev) (i : LoadJob) : (d.withJob i).res.job = some i := by cases d; rfl
@[simp] theorem getR_withJob (d : Dev) (i : LoadJob) (p : Nat) : (d.withJob i).getR p = d.getR p := by cases d; rfl
@[simp] theorem tiles_withJob (d : Dev) (i : LoadJob) : (d.withJob i).tiles = d.tiles := by cases d; rfl
@[simp] theorem tile_withJob (d : Dev) (i : LoadJob) (n : Fin 32) : (d.withJob i).tile n = d.tile n := by cases d; rfl
@[simp] theorem out_withJob (d : Dev) (i : LoadJob) : (d.withJob i).out = d.out := by cases d; rfl
@[simp] theorem now_withJob (d : Dev) (i : LoadJob) : (d.withJob i).now = d.now := by cases d; rfl

theorem onLoad_of_job {d : Dev} {j : LoadJob} (hj : d.res.job = some j) (f : LoadJob → LoadJob) : d.onLoad f = d.withJob (f j) :=
  onLoad_eq hj f

/-! Reads (R211). -/

/-- A step that issues Reads: of a running load only chunks that were not begun change, and Reads are sent. -/
def Dev.issuesReads (d e : Dev) : Prop := ∀ j, d.res.job = some j → ∃ (l : List ChunkSt) (o : List Output),
  e = { d.withJob { j with chunks := l } with out := d.out ++ o } ∧
    ∀ x, (j.chunk x).st ≠ 0 → ({ j with chunks := l } : LoadJob).chunk x = j.chunk x

theorem Dev.issuesReads.refl (d : Dev) : d.issuesReads d := fun j hj => by
  refine ⟨j.chunks, [], ?_, fun _ _ => rfl⟩
  have hres : d.res = { d.res with job := some j } := by rw [← hj]
  rw [List.append_nil, Dev.withJob, ← hres]

theorem Dev.issuesReads.trans {d e x : Dev} (h : d.issuesReads e) (g : e.issuesReads x) : d.issuesReads x := fun j hj => by
  obtain ⟨l, o, rfl, hkept⟩ := h j hj
  obtain ⟨l', o', rfl, hkept'⟩ := g _ rfl
  refine ⟨l', o ++ o', by rw [← List.append_assoc]; rfl, fun y hy => ?_⟩
  exact (hkept' y (by rw [hkept y hy]; exact hy)).trans (hkept y hy)

theorem issuesReads_foldl {α : Type} {f : Dev → α → Dev} (hstep : ∀ (d : Dev) (a : α), d.issuesReads (f d a)) (l : List α) (d : Dev) :
    d.issuesReads (l.foldl f d) := by
  induction l generalizing d with
  | nil => exact .refl d
  | cons a t ih => exact (hstep d a).trans (ih (f d a))

theorem issuesReads_issueReads (d : Dev) : d.issuesReads d.issueReads := by
  unfold Dev.issueReads
  split
  case h_1 => exact .refl d
  case h_2 =>
    split
    case isTrue => exact .refl d
    case isFalse =>
      refine issuesReads_foldl (fun e c => ?_) _ d
      split
      case h_1 => exact .refl e
      case h_2 j hj =>
        split
        case isTrue hc =>
          intro k hk
          obtain rfl : j = k := Option.some.inj (hj.symm.trans hk)
          rw [onLoad_of_job hj]
          refine ⟨j.chunks.set c { j.chunk c with st := 1 }, [_], rfl, fun x hx => ?_⟩
          exact chunk_setChunk_ne j _ fun h => hx (h ▸ hc.1)
        case isFalse => exact .refl e

/-- The hub issues the Reads that it may (R211). -/
theorem issueReads_effect {d : Dev} {j : LoadJob} (hj : d.res.job = some j) : ∃ i : LoadJob,
    d.issueReads.res.job = some i ∧ i = { j with chunks := i.chunks } ∧ (∀ x, (j.chunk x).st ≠ 0 → i.chunk x = j.chunk x) ∧
      d.issueReads.tiles = d.tiles ∧ d.issueReads.mbx = d.mbx ∧ ∀ p, d.issueReads.getR p = d.getR p := by
  obtain ⟨l, o, he, hkept⟩ := issuesReads_issueReads d j hj
  rw [he]
  exact ⟨{ j with chunks := l }, rfl, rfl, hkept, rfl, rfl, fun _ => rfl⟩

/-! WRG_STATUS.LOAD. -/

/-- The status registers of the Wringers. -/
def wrgStatusReg (p : Nat) : Prop := 0x1000000 ≤ p ∧ p % 0x100000 = 0x50000

theorem getR_wrgLoad_ne (d : Dev) (n : Fin 32) {p : Nat} (h : ¬ wrgStatusReg p) : (d.wrgLoad n).getR p = d.getR p := by
  refine getR_setF_ne d _ fun hp => h ?_
  simp only [WRG_STATUS, tileBase] at hp
  unfold wrgStatusReg
  omega

theorem sameBesideAges_setF (d : Dev) (f : Fld) (v : Nat) : d.sameBesideAges (d.setF f v) := by cases d; rfl

theorem sameBesideAges_wrgLoad (d : Dev) (n : Fin 32) : d.sameBesideAges (d.wrgLoad n) := sameBesideAges_setF d _ _

theorem wrgLoadAll_effect (d : Dev) :
    d.sameBesideAges d.wrgLoadAll ∧ ∀ p, ¬ wrgStatusReg p → d.wrgLoadAll.getR p = d.getR p :=
  ⟨sameBesideAges_foldl sameBesideAges_wrgLoad _ d,
    fun p hp => foldl_view_same (fun x : Dev => x.getR p) _ _ (fun x n _ => getR_wrgLoad_ne x n hp) d⟩

theorem Dev.sameBesideAges.rest {d e : Dev} (h : d.sameBesideAges e) : e.mbx = d.mbx ∧ e.now = d.now ∧ e.rwb = d.rwb ∧ e.srv = d.srv := by
  unfold Dev.sameBesideAges at h
  rw [h]
  simp

/-! A load that fails (R226). -/

/-- What a failed load leaves: its ending is decided, its slot is EMPTY, and registers beside the slot's and the Wringers' status stay. -/
structure Dev.loadFailed (d e : Dev) (j : LoadJob) (det : Nat) : Prop where
  job : ∃ i, e.res.job = some i ∧ i.ending = some (5, det, d.now)
  state : e.slotState j.slot = 0
  reason : e.getF (WTR_SLOT_STATE_REASON j.slot) = 4
  regs : ∀ p, ¬ slotRegs j.slot p → ¬ wrgStatusReg p → e.getR p = d.getR p

theorem not_wrgStatusReg_of_hub {p : Nat} (h : p < 0x1000000) : ¬ wrgStatusReg p := fun hp => by
  unfold wrgStatusReg at hp
  omega

theorem loadFail_effect {d : Dev} {j : LoadJob} {det : Nat} (hj : d.res.job = some j) (hend : j.ending = none) (hreg : j.region = none)
    (hs : j.slot < 16) (hdet : det ≠ 0x0A) : d.loadFailed (d.loadFail det) j det := by
  have hgone := slotEmpty_effect d hs (reason := 4) (by decide)
  have hstop : d.loadFail det = ((d.slotEmpty j.slot 4).onLoad fun i =>
      { i with ending := some (5, det, (d.slotEmpty j.slot 4).now), chunks := i.chunks.map fun x => { x with data := [] } }).wrgLoadAll := by
    simp [Dev.loadFail, Dev.loadStop, hdet, hj, hend, hreg]
  rw [hstop, onLoad_of_job (hgone.job.trans hj), hgone.now]
  generalize hx : (d.slotEmpty j.slot 4).withJob _ = x
  obtain ⟨hsame, hregs⟩ := wrgLoadAll_effect x
  have hall : ∀ p, ¬ wrgStatusReg p → x.wrgLoadAll.getR p = (d.slotEmpty j.slot 4).getR p := fun p hp => by
    rw [hregs p hp, ← hx, getR_withJob]
  have hslot : ¬ wrgStatusReg (WTR_SLOT_STATE j.slot) := not_wrgStatusReg_of_hub (by simp only [WTR_SLOT_STATE]; omega)
  refine ⟨?_, ?_, ?_, fun p hp hw => by rw [hall p hw, hgone.regs p hp]⟩
  · obtain ⟨-, -, -, -, hres⟩ := hsame.fields
    rw [hres, ← hx]
    exact ⟨_, rfl, rfl⟩
  · exact (getF_congr (hall _ hslot)).trans hgone.state
  · exact (getF_congr (hall _ hslot)).trans hgone.reason

end Sys2Proof.Machine
end

section
/-! A mailbox command that starts and one that ends (R440, R441). -/

namespace Sys2Proof.Machine

open Reg

/-- The registers that the mailbox's bookkeeping writes: two of its own, the hub's counters, the pending words. -/
def mbxRegs (p : Nat) : Prop :=
  p = HUB_MBX_CMD ∨ p = HUB_MBX_STATUS ∨ (0x800000 ≤ p ∧ p < 0x810000) ∨ (0x100100 ≤ p ∧ p < 0x100200)

/-- Nothing but those registers, the ages of latched events and the mailbox's state differs. -/
def Dev.mbxOnly (d e : Dev) : Prop :=
  e = { d with regs := e.regs, ages := e.ages, mbx := e.mbx } ∧ ∀ p, ¬ mbxRegs p → e.getR p = d.getR p

theorem Dev.mbxOnly.trans {d e x : Dev} (h : d.mbxOnly e) (g : e.mbxOnly x) : d.mbxOnly x := by
  obtain ⟨hsame, hregs⟩ := h
  obtain ⟨hsame', hregs'⟩ := g
  exact ⟨by rw [hsame', hsame], fun p hp => (hregs' p hp).trans (hregs p hp)⟩

theorem mbxOnly_of_ages {d e : Dev} (h : d.sameBesideAges e) (hr : ∀ p, ¬ mbxRegs p → e.getR p = d.getR p) : d.mbxOnly e := by
  refine ⟨?_, hr⟩
  rw [Dev.sameBesideAges] at h
  rw [h]

theorem mbxOnly_setF (d : Dev) {f : Fld} (v : Nat) (h : mbxRegs f.off) : d.mbxOnly (d.setF f v) :=
  mbxOnly_of_ages (by cases d; rfl) fun _ hp => getR_setF_ne d v fun he => hp (he ▸ h)

theorem mbxOnly_mbx (d : Dev) (m : Mailbox) : d.mbxOnly { d with mbx := m } := ⟨rfl, fun _ _ => rfl⟩

theorem mbxOnly_edge (d : Dev) : d.mbxOnly (d.edge 0) :=
  mbxOnly_of_ages (by rw [Dev.sameBesideAges]; apply dev_ext; simp) fun p hp =>
    getR_edge_ne d 0 p fun he => hp (.inr (.inr (.inr (by rw [he]; decide))))

theorem Dev.mbxOnly.fields {d e : Dev} (h : d.mbxOnly e) :
    e.res = d.res ∧ e.out = d.out ∧ e.tiles = d.tiles ∧ e.now = d.now ∧ e.rwb = d.rwb := by
  obtain ⟨hsame, -⟩ := h
  rw [hsame]
  exact ⟨rfl, rfl, rfl, rfl, rfl⟩

/-- A count of the hub's block writes its counters and may latch an overflow. -/
theorem getR_count_hubBlock (d : Dev) (ev k : Nat) {p : Nat} (hp : p < 0x800000 ∨ 0x810000 ≤ p) (hpend : p < 0x100100 ∨ 0x100200 ≤ p) :
    (d.count .hub ev k).getR p = d.getR p := by
  refine count_closed (R := fun x y => y.getR p = x.getR p) (fun _ => rfl) (fun h g => g.trans h) (fun x c v hc => ?_) (fun x c => ?_) d ev k
  · simp only [pmcSize] at hc
    refine getR_setPair_ne x v ?_ ?_
    · simp only [PMC_CNT_LO, pmcBase, hubPmc]; omega
    · simp only [PMC_CNT_HI, pmcBase, hubPmc]; omega
  · refine getR_latch_ne x _ c p ?_ ?_ ?_
    · simp only [pmcGroup, egHubPmc, PMC_OVF, hubPmc]; omega
    · simp only [pmcGroup, egHubPmc, PMC_OVF_SEQ, hubPmc]; omega
    · simp only [pmcGroup, egHubPmc, INT_PEND]; omega

theorem mbxOnly_count (d : Dev) (ev k : Nat) : d.mbxOnly (d.count .hub ev k) :=
  mbxOnly_of_ages (sameBesideAges_count d .hub ev k) fun p hp => by
    simp only [mbxRegs, not_or] at hp
    exact getR_count_hubBlock d ev k (by omega) (by omega)

/-! The end of a command. -/

theorem mbxEnd_effect (d : Dev) {st det : Nat} (hst : st < 16) (hdet : det < 256) :
    let e := d.mbxEnd st det
    d.mbxOnly e ∧ e.mbxBusy = false ∧ e.getF HUB_MBX_STATUS_STATUS = st ∧ e.getF HUB_MBX_STATUS_DETAIL = det ∧ e.isPending 0 = true := by
  have hstatus : ∀ x : Dev, (x.edge 0).getR HUB_MBX_STATUS = x.getR HUB_MBX_STATUS := fun x => getR_edge_ne x 0 _ (by decide)
  refine ⟨?_, ?_, ?_, ?_, isPending_edge _ 0 (by decide)⟩
  · exact (((mbxOnly_mbx d _).trans (mbxOnly_setF _ _ (.inr (.inl rfl)))).trans (mbxOnly_setF _ _ (.inr (.inl rfl)))).trans (mbxOnly_edge _)
  · simp [Dev.mbxEnd, Dev.mbxBusy]
  · rw [Dev.mbxEnd, getF_congr (hstatus _), getF_setF_ne _ _ _ _ (by simp) (by simp), getF_setF_self _ _ _ (by simp)]
    exact Nat.mod_eq_of_lt (by simpa using hst)
  · rw [Dev.mbxEnd, getF_congr (hstatus _), getF_setF_self _ _ _ (by simp)]
    exact Nat.mod_eq_of_lt (by simpa using hdet)

/-- A command that ends with an error leaves the load, the tiles and what is sent. -/
theorem mbxFail_effect (d : Dev) {det : Nat} (hdet : det < 256) :
    let e := d.mbxFail det
    e.getF HUB_MBX_STATUS_STATUS = 5 ∧ e.getF HUB_MBX_STATUS_DETAIL = det ∧ e.mbxBusy = false ∧ e.tiles = d.tiles ∧ e.res = d.res ∧
      e.out = d.out := by
  obtain ⟨honly, hbusy, hstatus, hdetail, -⟩ := mbxEnd_effect d (st := 5) (by decide) hdet
  obtain ⟨hres, hout, htiles, -⟩ := honly.fields
  exact ⟨hstatus, hdetail, hbusy, htiles, hres, hout⟩

/-- A command that ends DONE. -/
theorem mbxDone_effect (d : Dev) :
    let e := d.mbxDone
    d.mbxOnly e ∧ e.getF HUB_MBX_STATUS_STATUS = 2 ∧ e.mbxBusy = false := by
  obtain ⟨honly, hbusy, hstatus, -⟩ := mbxEnd_effect d (st := 2) (det := 0) (by decide) (by decide)
  exact ⟨honly, hstatus, hbusy⟩

/-! The start of a command. -/

/-- A command of the mailbox begun at `now`: what its body is given. -/
def Dev.mbxBegun (d : Dev) (code now : Nat) : Dev := (d.mbxStart code).at_ now

theorem mbxStart_effect (d : Dev) (code : Nat) :
    let e := d.mbxStart code
    d.mbxOnly e ∧ e.mbx.run = some ⟨code, d.mbxParams, false, .owner⟩ ∧ e.getF HUB_MBX_STATUS_STATUS = 1 := by
  have hcount : ∀ x : Dev, (x.count .hub 0x0F 1).getR HUB_MBX_STATUS = x.getR HUB_MBX_STATUS := fun x =>
    getR_count_hubBlock x _ _ (by decide) (by decide)
  refine ⟨?_, ?_, ?_⟩
  · exact ((((((mbxOnly_mbx d _).trans (mbxOnly_setF _ _ (.inl rfl))).trans (mbxOnly_setF _ _ (.inr (.inl rfl)))).trans
      (mbxOnly_setF _ _ (.inr (.inl rfl)))).trans (mbxOnly_setF _ _ (.inr (.inl rfl)))).trans
      (mbxOnly_setF _ _ (.inr (.inl rfl)))).trans (mbxOnly_count _ _ _)
  · obtain ⟨hmbx, -⟩ := (sameBesideAges_count (((((({ d with mbx := { d.mbx with
      run := some ⟨code, d.mbxParams, false, .owner⟩, rejected := false } } : Dev).setF HUB_MBX_CMD_CODE code).setF HUB_MBX_STATUS_CODE code).setF
      HUB_MBX_STATUS_STATUS 1).setF HUB_MBX_STATUS_DETAIL 0).setF HUB_MBX_STATUS_ABORT_RESULT 0) .hub 0x0F 1).rest
    refine (congrArg Mailbox.run hmbx).trans ?_
    simp
  · rw [Dev.mbxStart, getF_congr (hcount _), getF_setF_ne _ _ _ _ (by simp) (by simp), getF_setF_ne _ _ _ _ (by simp) (by simp),
      getF_setF_self _ _ _ (by simp)]
    rfl

/-- What a command's body finds: its parameters, itself BUSY, and the package beside the mailbox as it was. -/
structure Dev.begins (d e : Dev) (now : Nat) : Prop where
  param : ∀ k, k < 8 → e.param k = d.getN (HUB_MBX_P k)
  status : e.getF HUB_MBX_STATUS_STATUS = 1
  busy : e.mbxBusy = true
  now : e.now = max d.now now
  res : e.res = d.res
  tiles : e.tiles = d.tiles
  out : e.out = d.out
  rwb : e.rwb = d.rwb
  regs : ∀ p, ¬ mbxRegs p → e.getR p = d.getR p

theorem mbxBegun_effect (d : Dev) (code now : Nat) : d.begins (d.mbxBegun code now) now := by
  obtain ⟨honly, hrun, hstatus⟩ := mbxStart_effect d code
  obtain ⟨hres, hout, htiles, hnow, hrwb⟩ := honly.fields
  have hrun' : (d.mbxBegun code now).mbx.run = some ⟨code, d.mbxParams, false, .owner⟩ := by rw [Dev.mbxBegun, mbx_at_, hrun]
  refine ⟨fun k hk => ?_, (getF_congr (getR_at_ _ _ _)).trans hstatus, ?_, ?_, ?_, ?_, ?_, ?_, fun p hp => ?_⟩
  · rw [Dev.param, hrun']
    simp [Dev.mbxParams, hk]
  · rw [Dev.mbxBusy, hrun']
    rfl
  · rw [Dev.mbxBegun, now_at_, hnow]
  · rw [Dev.mbxBegun, res_at_, hres]
  · rw [Dev.mbxBegun, tiles_at_, htiles]
  · rw [Dev.mbxBegun, out_at_, hout]
  · rw [Dev.mbxBegun, rwb_at_, hrwb]
  · rw [Dev.mbxBegun, getR_at_, honly.2 p hp]

/-- The mailbox takes a command: neither a reset nor a fatal error, no command BUSY, and boot has not refused them all. -/
structure Dev.mbxReady (d : Dev) : Prop where
  warm : d.rst.warm = none
  fatal : d.rst.fatal = none
  idle : d.mbxBusy = false
  open_ : d.mbxRefusesAll = false

/-- A command that needs no grant runs its body. -/
theorem mbxIssueDev_eq {d : Dev} (h : d.mbxReady) (code : Nat) (body : Flash → Dev → Dev) (f : Flash) :
    mbxIssueDev code false body f d = body f (d.mbxStart code) := by
  obtain ⟨honly, -⟩ := mbxStart_effect d code
  have hopen : (d.mbxStart code).mbxRefusesAll = false := by
    rw [← h.open_, Dev.mbxRefusesAll, Dev.mbxRefusesAll, getF_congr (honly.2 _ (by unfold mbxRegs; decide))]
  simp [mbxIssueDev, mbxIssue, h.warm, h.fatal, h.idle, hopen]

end Sys2Proof.Machine
end

section
/-! The drives (R198, R199): their links and their readiness. -/

namespace Sys2Proof.Machine

open Reg

theorem driveStatus_cases (k : Fin 2) : driveStatus k = 0x700000 ∨ driveStatus k = 0x700004 := by
  unfold driveStatus
  split <;> simp

theorem driveStatus_ne_event (k : Fin 2) : driveStatus k ≠ WTR_EVENT ∧ driveStatus k ≠ WTR_EVENT_SEQ ∧ driveStatus k ≠ INT_PEND 0 := by
  obtain h | h := driveStatus_cases k <;> rw [h] <;> decide

theorem flag_setF_self (d : Dev) (o b v : Nat) (hb : b < 32) : (d.setF ⟨o, b, b⟩ v).flag ⟨o, b, b⟩ = (v % 2 == 1) := by
  rw [Dev.flag, getF_setF_self _ _ _ hb, Nat.add_sub_cancel_left, pow_one]

theorem flag_congr {d e : Dev} {f : Fld} (h : e.getR f.off = d.getR f.off) : e.flag f = d.flag f := by
  rw [Dev.flag, Dev.flag, getF_congr h]

theorem flag_setF_apart (d : Dev) {f g : Fld} (v : Nat) (hg : g.hi < 32) (h : g.hi < f.lo ∨ f.hi < g.lo) :
    (d.setF f v).flag g = d.flag g := by
  rw [Dev.flag, Dev.flag, getF_setF_ne d f g v hg (.inr h)]

/-- A latched event of the residency engine beside a drive's status register. -/
theorem driveEvent_effect (d : Dev) (k : Fin 2) (b : Nat) (hb : b < 32) :
    let e := d.latch egWtr b
    e.getR (driveStatus k) = d.getR (driveStatus k) ∧ e.regBit WTR_EVENT b = true ∧ d.sameBesideAges e ∧
      ∀ p, p ≠ WTR_EVENT → p ≠ WTR_EVENT_SEQ → p ≠ INT_PEND 0 → e.getR p = d.getR p := by
  obtain ⟨h1, h2, h3⟩ := driveStatus_ne_event k
  exact ⟨getR_latch_ne d egWtr b _ h1 h2 h3, regBit_latch_self d egWtr b hb (by decide), latch_only d egWtr b,
    fun p => getR_latch_ne d egWtr b p⟩

/-- A drive's link is down (R199). -/
def Dev.linkLost (d : Dev) (k : Fin 2) : Dev := ((d.setF ⟨driveStatus k, 31, 31⟩ 0).setF ⟨driveStatus k, 30, 30⟩ 0).latch egWtr 0

theorem linkLost_effect (d : Dev) (k : Fin 2) :
    let e := d.linkLost k
    e.flag ⟨driveStatus k, 31, 31⟩ = false ∧ e.flag ⟨driveStatus k, 30, 30⟩ = false ∧ e.regBit WTR_EVENT 0 = true ∧
      d.keepsRegs e [driveStatus k, WTR_EVENT, WTR_EVENT_SEQ, INT_PEND 0] ∧ d.sameBesideAges e := by
  obtain ⟨hstatus, hevent, hsame, hregs⟩ :=
    driveEvent_effect ((d.setF ⟨driveStatus k, 31, 31⟩ 0).setF ⟨driveStatus k, 30, 30⟩ 0) k 0 (by decide)
  refine ⟨?_, ?_, hevent, fun p hp => ?_, ((sameBesideAges_setF d _ _).trans (sameBesideAges_setF _ _ _)).trans hsame⟩
  · rw [Dev.linkLost, flag_congr hstatus, flag_setF_apart _ _ (by simp) (by simp), flag_setF_self _ _ _ _ (by decide)]
    rfl
  · rw [Dev.linkLost, flag_congr hstatus, flag_setF_self _ _ _ _ (by decide)]
    rfl
  · simp only [List.mem_cons, List.not_mem_nil, or_false, not_or] at hp
    obtain ⟨h0, h1, h2, h3⟩ := hp
    exact (hregs p h1 h2 h3).trans ((getR_setF_ne _ _ h0).trans (getR_setF_ne _ _ h0))

section
variable {s : State} {k : Fin 2} (hf : s.dev.frozen = false)
include hf

theorem driveLinkDown_unneeded (now : Nat) (h : (s.dev.res.job.any fun i => i.needs k) = false) :
    ∃ e : Dev, exec (.driveLinkDown k now) s = .next (s.put e) ∧ e.flag ⟨driveStatus k, 31, 31⟩ = false ∧
      e.flag ⟨driveStatus k, 30, 30⟩ = false ∧ e.regBit WTR_EVENT 0 = true ∧
      s.dev.keepsRegs e [driveStatus k, WTR_EVENT, WTR_EVENT_SEQ, INT_PEND 0] ∧
      e = { s.dev with regs := e.regs, ages := e.ages, now := max s.dev.now now } := by
  obtain ⟨hup, hready, hevent, hregs, hsame⟩ := linkLost_effect (s.dev.at_ now) k
  obtain ⟨-, -, -, -, hres⟩ := hsame.fields
  refine ⟨(s.dev.at_ now).linkLost k, ?_, hup, hready, hevent, fun p hp => (hregs p hp).trans (getR_at_ _ _ _), hsame⟩
  change execDriveLinkDown k now s = _
  refine onRun_eq hf (if_neg ?_)
  change ¬ (((s.dev.at_ now).linkLost k).res.job.any fun j => j.needs k) = true
  rw [hres, res_at_, h]
  exact Bool.false_ne_true

theorem driveLinkDown_needed (now : Nat) {j : LoadJob} (hj : s.dev.res.job = some j) (h : j.needs k = true) (hreg : j.region = none)
    (hs : j.slot < 16) :
    ∃ e : Dev, exec (.driveLinkDown k now) s = .next (s.put e) ∧ e.flag ⟨driveStatus k, 31, 31⟩ = false ∧
      (∃ i, e.res.job = some i ∧ i.ending = some (5, 0x05, max s.dev.now now)) ∧ e.slotState j.slot = 0 ∧
      e.getF (WTR_SLOT_STATE_REASON j.slot) = 4 := by
  obtain ⟨hup, -, -, -, hsame⟩ := linkLost_effect (s.dev.at_ now) k
  obtain ⟨-, -, -, -, hres⟩ := hsame.fields
  obtain ⟨-, hnow, -⟩ := hsame.rest
  have hend : j.ending = none := by
    rw [LoadJob.needs, Bool.and_eq_true, Option.isNone_iff_eq_none] at h
    exact h.1
  have hjob : ((s.dev.at_ now).linkLost k).res.job = some j := by rw [hres, res_at_, hj]
  have hfail := loadFail_effect hjob hend hreg hs (det := 0x05) (by decide)
  refine ⟨_, ?_, ?_, (hnow.trans (now_at_ _ _)) ▸ hfail.job, hfail.state, hfail.reason⟩
  · change execDriveLinkDown k now s = _
    refine onRun_eq hf (if_pos ?_)
    change (((s.dev.at_ now).linkLost k).res.job.any fun j => j.needs k) = true
    rw [hjob]
    exact h
  · refine (flag_congr (hfail.regs _ ?_ ?_)).trans hup
    · obtain hk | hk := driveStatus_cases k <;>
        simp only [slotRegs, hk, WTR_SLOT_STATE, WTR_SLOT_TILES, WTR_EVENT, WTR_EVENT_SEQ, HUB_LOG_HEAD, memBlock] <;> omega
    · exact not_wrgStatusReg_of_hub (by obtain hk | hk := driveStatus_cases k <;> simp only [hk] <;> decide)

theorem driveLinkUp_effect (speed width : BitVec 4) :
    ∃ e : Dev, exec (.driveLinkUp k speed width) s = .next (s.put e) ∧ e.flag ⟨driveStatus k, 31, 31⟩ = true ∧
      e.getF ⟨driveStatus k, 23, 20⟩ = speed.toNat ∧ e.getF ⟨driveStatus k, 19, 16⟩ = width.toNat ∧
      e.flag ⟨driveStatus k, 30, 30⟩ = s.dev.flag ⟨driveStatus k, 30, 30⟩ ∧ s.dev.keepsRegs e [driveStatus k] ∧
      e = { s.dev with regs := e.regs, out := s.dev.out ++ [.signal "NVME_INIT" [k]] } := by
  obtain ⟨x, hx⟩ : ∃ x, x = ((s.dev.setF ⟨driveStatus k, 31, 31⟩ 1).setF ⟨driveStatus k, 23, 20⟩ speed.toNat).setF
      ⟨driveStatus k, 19, 16⟩ width.toNat := ⟨_, rfl⟩
  have hregs : ∀ p, (x.emit (.signal "NVME_INIT" [k])).getR p = x.getR p := getR_emit x _
  refine ⟨x.emit (.signal "NVME_INIT" [k]), ?_, ?_, ?_, ?_, ?_, fun p hp => ?_, ?_⟩
  · rw [hx]
    change execDriveLinkUp k speed width s = _
    exact onRun_eq hf rfl
  · rw [flag_congr (hregs _), hx, flag_setF_apart _ _ (by simp) (by simp), flag_setF_apart _ _ (by simp) (by simp),
      flag_setF_self _ _ _ _ (by decide)]
    rfl
  · rw [getF_congr (hregs _), hx, getF_setF_ne _ _ _ _ (by decide : (23 : Nat) < 32) (.inr (.inr (by decide : (19 : Nat) < 20))),
      getF_setF_self _ _ _ (by decide : (23 : Nat) < 32)]
    exact Nat.mod_eq_of_lt speed.isLt
  · rw [getF_congr (hregs _), hx, getF_setF_self _ _ _ (by decide : (19 : Nat) < 32)]
    exact Nat.mod_eq_of_lt width.isLt
  · rw [flag_congr (hregs _), hx, flag_setF_apart _ _ (by simp) (by simp), flag_setF_apart _ _ (by simp) (by simp),
      flag_setF_apart _ _ (by simp) (by simp)]
  · have hne : p ≠ driveStatus k := by simpa using hp
    rw [hregs, hx, getR_setF_ne _ _ hne, getR_setF_ne _ _ hne, getR_setF_ne _ _ hne]
  · apply dev_ext
    simp [hx]

theorem driveReady_linked (maxRead : BitVec 16) (h : s.dev.flag ⟨driveStatus k, 31, 31⟩ = true) :
    ∃ e : Dev, exec (.driveReady k maxRead) s = .next (s.put e) ∧ e.flag ⟨driveStatus k, 30, 30⟩ = true ∧
      e.getF ⟨driveStatus k, 15, 0⟩ = maxRead.toNat ∧ e.regBit WTR_EVENT 1 = true ∧
      s.dev.keepsRegs e [driveStatus k, WTR_EVENT, WTR_EVENT_SEQ, INT_PEND 0] ∧
      e = { s.dev with regs := e.regs, ages := e.ages } := by
  obtain ⟨x, hx⟩ : ∃ x, x = (s.dev.setF ⟨driveStatus k, 30, 30⟩ 1).setF ⟨driveStatus k, 15, 0⟩ maxRead.toNat := ⟨_, rfl⟩
  obtain ⟨hstatus, hevent, hsame, hregs⟩ := driveEvent_effect x k 1 (by decide)
  have hset : s.dev.sameBesideAges x := hx ▸ (sameBesideAges_setF _ _ _).trans (sameBesideAges_setF _ _ _)
  refine ⟨x.latch egWtr 1, ?_, ?_, ?_, hevent, fun p hp => ?_, hset.trans hsame⟩
  · rw [hx]
    change execDriveReady k maxRead s = _
    exact onRun_eq hf (if_pos h)
  · rw [flag_congr hstatus, hx, flag_setF_apart _ _ (by simp) (by simp), flag_setF_self _ _ _ _ (by decide)]
    rfl
  · rw [getF_congr hstatus, hx, getF_setF_self _ _ _ (by decide : (15 : Nat) < 32)]
    exact Nat.mod_eq_of_lt maxRead.isLt
  · simp only [List.mem_cons, List.not_mem_nil, or_false, not_or] at hp
    obtain ⟨h0, h1, h2, h3⟩ := hp
    rw [hregs p h1 h2 h3, hx, getR_setF_ne _ _ h0, getR_setF_ne _ _ h0]

theorem driveReady_unlinked (maxRead : BitVec 16) (h : s.dev.flag ⟨driveStatus k, 31, 31⟩ = false) :
    exec (.driveReady k maxRead) s = .next s := by
  change execDriveReady k maxRead s = _
  exact onRun_eq hf (if_neg (by rw [h]; exact Bool.false_ne_true))

end

end Sys2Proof.Machine
end

section
/-! Reads of a running load (R200, R209 to R211): a good chunk, a Read issued again, a load that ends, and a chunk forwarded. -/

namespace Sys2Proof.Machine

open Reg

/-! A Read issued again. -/

/-- The Read of a chunk, as the hub issues it. -/
def LoadJob.readOf (j : LoadJob) (c : Nat) : Output := .signal "NVME_READ" [cDrive j.man c, cLba j.man c, cLength j.man c, c]

/-- The chunk's Read is issued again, and the retry is counted. -/
def Dev.chunkAgain (d : Dev) (j : LoadJob) (c : Nat) (x : ChunkSt) : Dev := ((d.withJob (j.setChunk c x)).chunkRetry).emit (j.readOf c)

theorem chunkAgain_effect (d : Dev) {j : LoadJob} {c : Nat} (x : ChunkSt) (hc : c < j.chunks.length) :
    let e := d.chunkAgain j c x
    ((∃ i, e.res.job = some i ∧ i.chunk c = x ∧ i.retries = j.retries + 1) ∧
      e.getN WTR_CHUNK_RETRY_COUNT = min (d.getN WTR_CHUNK_RETRY_COUNT + 1) 0xFFFFFFFF) ∧
      e.out = d.out ++ [j.readOf c] ∧ e.tiles = d.tiles := by
  have hjob : ((d.withJob (j.setChunk c x)).satInc WTR_CHUNK_RETRY_COUNT).res.job = some (j.setChunk c x) := by rw [res_satInc, job_withJob]
  have he : d.chunkAgain j c x = (((d.withJob (j.setChunk c x)).satInc WTR_CHUNK_RETRY_COUNT).withJob
      { j.setChunk c x with retries := j.retries + 1 }).emit (j.readOf c) := by
    rw [Dev.chunkAgain, Dev.chunkRetry, onLoad_of_job hjob]
    rfl
  dsimp only
  rw [he]
  refine ⟨⟨⟨_, rfl, ?_, rfl⟩, ?_⟩, ?_, ?_⟩
  · exact chunk_setChunk_self j x hc
  · rw [getN_congr (getR_emit _ _ _), getN_congr (getR_withJob _ _ _), getN_satInc, getN_congr (getR_withJob _ _ _)]
  · rw [out_emit, out_withJob, out_satInc, out_withJob]
  · rw [tiles_emit, tiles_withJob, tiles_satInc, tiles_withJob]

/-- The package once the data of a Read has been counted. -/
def Dev.dataCounted (d : Dev) (now : Nat) (data : List Byte) : Dev := (d.at_ now).count .hub 0x0E ((data.length + 63) / 64)

theorem dataCounted_effect (d : Dev) (now : Nat) (data : List Byte) :
    let e := d.dataCounted now data
    e.res = d.res ∧ e.out = d.out ∧ e.tiles = d.tiles ∧ e.now = max d.now now ∧
      e.getR WTR_CHUNK_RETRY_COUNT = d.getR WTR_CHUNK_RETRY_COUNT := by
  have honly := mbxOnly_count (d.at_ now) 0x0E ((data.length + 63) / 64)
  obtain ⟨hres, hout, htiles, hnow, -⟩ := honly.fields
  refine ⟨hres.trans (res_at_ _ _), hout.trans (out_at_ _ _), htiles.trans (tiles_at_ _ _), hnow.trans (now_at_ _ _), ?_⟩
  rw [Dev.dataCounted, honly.2 _ (by unfold mbxRegs; decide), getR_at_]

theorem readFailed_first {d : Dev} {j : LoadJob} {k : Fin 2} {c : Nat} (hj : d.res.job = some j) (hk : cDrive j.man c = k)
    (herr : (j.chunk c).errs = 0) : d.readFailed k c = d.chunkAgain j c { j.chunk c with errs := 1 } := by
  unfold Dev.readFailed
  rw [hj]
  dsimp only
  rw [if_pos herr, onLoad_of_job hj, ← hk]
  rfl

theorem readFailed_second {d : Dev} {j : LoadJob} {c : Nat} (k : Nat) (hj : d.res.job = some j) (herr : (j.chunk c).errs ≠ 0) :
    d.readFailed k c = d.loadFail 0x04 := by
  unfold Dev.readFailed
  rw [hj]
  exact if_neg herr

/-- The job with the bytes of chunk `c` in the chunk buffer. -/
def LoadJob.kept (j : LoadJob) (c : Nat) (b : List Byte) : LoadJob :=
  { j.setChunk c { j.chunk c with st := 2, data := b } with srcBytes := j.srcBytes + b.length }

theorem chunk_kept {j : LoadJob} {c : Nat} (b : List Byte) (hc : c < j.chunks.length) :
    (j.kept c b).chunk c = { j.chunk c with st := 2, data := b } ∧ ∀ x, x ≠ c → (j.kept c b).chunk x = j.chunk x :=
  ⟨chunk_setChunk_self j _ hc, fun _ hx => chunk_setChunk_ne j _ hx⟩

/-- A Read has brought `b` for chunk `c`: by its CRC the chunk is kept, read again, or the load ends (R209, R210). -/
def Dev.chunkArrived (d : Dev) (j : LoadJob) (c : Nat) (b : List Byte) : Dev :=
  if chunkCrc c b = cCrc j.man c then (d.withJob (j.kept c b)).issueReads
  else if (j.chunk c).crcs = 0 then d.chunkAgain j c { j.chunk c with crcs := 1, errs := 0 }
  else d.loadFail 0x03

section
variable {s : State} {k : Fin 2} {c : Nat} {j : LoadJob} (hf : s.dev.frozen = false) (hj : s.dev.res.job = some j)
  (hend : j.ending = none) (hc : c < j.chunks.length) (hk : cDrive j.man c = k) (hreg : j.region = none) (hs : j.slot < 16)
  (hreads : s.dev.readsChunk k c = true)

include hf hj hreads in
theorem exec_driveReadComplete_bad (data : List Byte) (now : Nat) :
    exec (.driveReadComplete k c false data now) s = .next (s.put ((s.dev.at_ now).readFailed k c)) := by
  have hr : (s.dev.at_ now).readsChunk k c = true := hreads
  have hjob : (s.dev.at_ now).res.job = some j := hj
  change execDriveReadComplete k c false data now s = _
  refine onRun_eq hf ?_
  dsimp only
  rw [hjob]
  dsimp only
  rw [if_neg (not_not.mpr hr), if_pos Bool.false_ne_true]

include hf hreads in
theorem exec_driveCmdTimeout (now : Nat) : exec (.driveCmdTimeout k c now) s =
    .next (s.put (((s.dev.at_ now).emit (.signal "NVME_ABORT" [k, c])).readFailed k c)) := by
  have hr : (s.dev.at_ now).readsChunk k c = true := hreads
  change execDriveCmdTimeout k c now s = _
  exact onRun_eq hf (if_pos hr)

include hf hj hk hreads in
theorem exec_driveReadComplete_ok (data : List Byte) (now : Nat) : exec (.driveReadComplete k c true data now) s =
    .next (s.put ((s.dev.dataCounted now data).chunkArrived j c (data.take (cLength j.man c)))) := by
  have hr : (s.dev.at_ now).readsChunk k c = true := hreads
  have hjob : (s.dev.at_ now).res.job = some j := hj
  obtain ⟨hres, -⟩ := dataCounted_effect s.dev now data
  have hcounted : (s.dev.dataCounted now data).res.job = some j := by rw [hres, hj]
  change execDriveReadComplete k c true data now s = _
  refine onRun_eq hf ?_
  dsimp only
  rw [hjob]
  dsimp only
  rw [if_neg (not_not.mpr hr), if_neg (not_not.mpr rfl), ← Dev.dataCounted, onLoad_of_job hcounted, onLoad_of_job hcounted, ← hk]
  rfl

include hf hj hend hc hk hreads in
theorem driveReadComplete_good {data : List Byte} (now : Nat) (hcrc : chunkCrc c (data.take (cLength j.man c)) = cCrc j.man c) :
    ∃ (e : Dev) (i : LoadJob), exec (.driveReadComplete k c true data now) s = .next (s.put e) ∧ e.res.job = some i ∧
      i.chunk c = { j.chunk c with st := 2, data := data.take (cLength j.man c) } ∧
      i.srcBytes = j.srcBytes + (data.take (cLength j.man c)).length ∧ i.ending = none ∧ i.retries = j.retries ∧
      (∀ x, (j.chunk x).st ≠ 0 → x ≠ c → i.chunk x = j.chunk x) ∧ e.tiles = s.dev.tiles := by
  obtain ⟨-, -, htiles, -⟩ := dataCounted_effect s.dev now data
  have hexec := exec_driveReadComplete_ok hf hj hk hreads data now
  rw [Dev.chunkArrived, if_pos hcrc] at hexec
  obtain ⟨hself, hothers⟩ := chunk_kept (data.take (cLength j.man c)) hc
  obtain ⟨i, hjob, hi, hkept, hsame, -⟩ := issueReads_effect (job_withJob (s.dev.dataCounted now data)
    (j.kept c (data.take (cLength j.man c))))
  refine ⟨_, i, hexec, hjob, ?_, by rw [hi]; rfl, by rw [hi]; exact hend, by rw [hi]; rfl, fun x hx hne => ?_, hsame.trans htiles⟩
  · rw [hkept c (by rw [hself]; exact two_ne_zero), hself]
  · rw [hkept x (by rwa [hothers x hne]), hothers x hne]

include hf hj hc hk hreads in
theorem driveReadComplete_crc_first {data : List Byte} (now : Nat) (hcrc : chunkCrc c (data.take (cLength j.man c)) ≠ cCrc j.man c)
    (hfirst : (j.chunk c).crcs = 0) :
    ∃ e : Dev, exec (.driveReadComplete k c true data now) s = .next (s.put e) ∧
      ((∃ i, e.res.job = some i ∧ i.chunk c = { j.chunk c with crcs := 1, errs := 0 } ∧ i.retries = j.retries + 1) ∧
        e.getN WTR_CHUNK_RETRY_COUNT = min (s.dev.getN WTR_CHUNK_RETRY_COUNT + 1) 0xFFFFFFFF) ∧
      e.out = s.dev.out ++ [j.readOf c] ∧ e.tiles = s.dev.tiles := by
  obtain ⟨-, hout, htiles, -, hcount⟩ := dataCounted_effect s.dev now data
  have hexec := exec_driveReadComplete_ok hf hj hk hreads data now
  rw [Dev.chunkArrived, if_neg hcrc, if_pos hfirst] at hexec
  obtain ⟨⟨hagain, hretry⟩, hsent, hkept⟩ := chunkAgain_effect (s.dev.dataCounted now data) { j.chunk c with crcs := 1, errs := 0 } hc
  rw [getN_congr hcount] at hretry
  rw [hout] at hsent
  rw [htiles] at hkept
  exact ⟨_, hexec, ⟨hagain, hretry⟩, hsent, hkept⟩

include hf hj hend hk hreg hs hreads in
theorem driveReadComplete_crc_second {data : List Byte} (now : Nat) (hcrc : chunkCrc c (data.take (cLength j.man c)) ≠ cCrc j.man c)
    (hsecond : (j.chunk c).crcs ≠ 0) :
    ∃ e : Dev, exec (.driveReadComplete k c true data now) s = .next (s.put e) ∧
      (∃ i, e.res.job = some i ∧ i.ending = some (5, 0x03, max s.dev.now now)) ∧ e.slotState j.slot = 0 ∧
      e.getF (WTR_SLOT_STATE_REASON j.slot) = 4 := by
  obtain ⟨hres, -, -, hnow, -⟩ := dataCounted_effect s.dev now data
  have hjob : (s.dev.dataCounted now data).res.job = some j := by rw [hres, hj]
  have hexec := exec_driveReadComplete_ok hf hj hk hreads data now
  rw [Dev.chunkArrived, if_neg hcrc, if_neg hsecond] at hexec
  have hfail := loadFail_effect hjob hend hreg hs (det := 0x03) (by decide)
  exact ⟨_, hexec, hnow ▸ hfail.job, hfail.state, hfail.reason⟩

include hf hj hc hk hreads in
theorem readFails_first (data : List Byte) (now : Nat) (herr : (j.chunk c).errs = 0) :
    (∃ e : Dev, exec (.driveReadComplete k c false data now) s = .next (s.put e) ∧
      ((∃ i, e.res.job = some i ∧ i.chunk c = { j.chunk c with errs := 1 } ∧ i.retries = j.retries + 1) ∧
        e.getN WTR_CHUNK_RETRY_COUNT = min (s.dev.getN WTR_CHUNK_RETRY_COUNT + 1) 0xFFFFFFFF) ∧
      e.out = s.dev.out ++ [j.readOf c] ∧ e.tiles = s.dev.tiles) ∧
    (∃ e : Dev, exec (.driveCmdTimeout k c now) s = .next (s.put e) ∧
      ((∃ i, e.res.job = some i ∧ i.chunk c = { j.chunk c with errs := 1 } ∧ i.retries = j.retries + 1) ∧
        e.getN WTR_CHUNK_RETRY_COUNT = min (s.dev.getN WTR_CHUNK_RETRY_COUNT + 1) 0xFFFFFFFF) ∧
      e.out = s.dev.out ++ [.signal "NVME_ABORT" [k, c], j.readOf c] ∧ e.tiles = s.dev.tiles) := by
  constructor
  · have hexec := exec_driveReadComplete_bad hf hj hreads data now
    rw [readFailed_first (d := s.dev.at_ now) hj hk herr] at hexec
    exact ⟨_, hexec, chunkAgain_effect (s.dev.at_ now) { j.chunk c with errs := 1 } hc⟩
  · have hexec := exec_driveCmdTimeout hf hreads now
    rw [readFailed_first (d := (s.dev.at_ now).emit _) hj hk herr] at hexec
    obtain ⟨hagain, hsent, hkept⟩ := chunkAgain_effect ((s.dev.at_ now).emit (.signal "NVME_ABORT" [k, c])) { j.chunk c with errs := 1 } hc
    refine ⟨_, hexec, hagain, hsent.trans ?_, hkept⟩
    rw [out_emit, out_at_, List.append_assoc]
    rfl

include hf hj hend hreg hs hreads in
theorem readFails_second (data : List Byte) (now : Nat) (herr : (j.chunk c).errs ≠ 0) (i : Instr)
    (hi : i = .driveReadComplete k c false data now ∨ i = .driveCmdTimeout k c now) :
    ∃ e : Dev, exec i s = .next (s.put e) ∧ (∃ i, e.res.job = some i ∧ i.ending = some (5, 0x04, max s.dev.now now)) ∧
      e.slotState j.slot = 0 ∧ e.getF (WTR_SLOT_STATE_REASON j.slot) = 4 := by
  have hend' : ∀ d : Dev, d.res.job = some j → d.now = max s.dev.now now →
      (∃ i, (d.readFailed k c).res.job = some i ∧ i.ending = some (5, 0x04, max s.dev.now now)) ∧
        (d.readFailed k c).slotState j.slot = 0 ∧ (d.readFailed k c).getF (WTR_SLOT_STATE_REASON j.slot) = 4 := fun d hjob hnow => by
    have hfail := loadFail_effect hjob hend hreg hs (det := 0x04) (by decide)
    rw [readFailed_second k hjob herr]
    exact ⟨hnow ▸ hfail.job, hfail.state, hfail.reason⟩
  obtain rfl | rfl := hi
  · exact ⟨_, exec_driveReadComplete_bad hf hj hreads data now, hend' _ hj rfl⟩
  · exact ⟨_, exec_driveCmdTimeout hf hreads now, hend' _ hj rfl⟩

end

/-- With no load, a Read's completion and its timeout mean nothing. -/
theorem read_of_no_load {s : State} (hf : s.dev.frozen = false) (hj : s.dev.res.job = none) (k : Fin 2) (c : Nat) (data : List Byte)
    (now : Nat) (i : Instr) (hi : i = .driveReadComplete k c true data now ∨ i = .driveCmdTimeout k c now) :
    exec i s = .next (s.put (s.dev.at_ now)) := by
  have hjob : (s.dev.at_ now).res.job = none := hj
  obtain rfl | rfl := hi
  · change execDriveReadComplete k c true data now s = _
    refine onRun_eq hf ?_
    simp only [hjob]
  · have hr : (s.dev.at_ now).readsChunk k c = false := by rw [Dev.readsChunk, hjob]; rfl
    change execDriveCmdTimeout k c now s = _
    exact onRun_eq hf (if_neg (by rw [hr]; exact Bool.false_ne_true))

/-! A chunk forwarded to its tile (R210, R211). -/

/-- The chunks that the job writes to the tile of chunk `c`. -/
def LoadJob.tileChunks (j : LoadJob) (c : Nat) : List Nat :=
  (List.range j.chunks.length).filter fun x => cTile j.man x == cTile j.man c && j.wants (cRegion j.man x)

theorem getF_wrgLoad_self {d : Dev} {n : Fin 32} {j : LoadJob} (hj : d.res.job = some j) (hend : j.ending = none)
    (h : ∃ c, c < j.chunks.length ∧ (j.chunk c).st = 3 ∧ cTile j.man c = n) : (d.wrgLoad n).getF (WRG_STATUS_LOAD n) = 1 := by
  obtain ⟨c, hc, hst, htile⟩ := h
  have hbusy : (List.range j.chunks.length).any (fun c => (j.chunk c).st == 3 && cTile j.man c == n) = true :=
    List.any_eq_true.mpr ⟨c, List.mem_range.mpr hc, by simp [hst, htile]⟩
  rw [Dev.wrgLoad, getF_setF_self _ _ _ (by simp)]
  simp only [hj, hend, hbusy, Option.isNone_none, Bool.true_and, if_true]
  rfl

theorem chunkForward_effect {s : State} {c : Nat} {j : LoadJob} (hf : s.dev.frozen = false) (hj : s.dev.res.job = some j)
    (hend : j.ending = none) (hc : c < j.chunks.length) (hst : (j.chunk c).st = 2)
    (hothers : ∀ x, x < j.chunks.length → x ≠ c → cTile j.man x = cTile j.man c → x < c ∧ (j.chunk x).st = 4) :
    ∃ (e : Dev) (i : LoadJob), exec (.chunkForward c) s = .next (s.put e) ∧ e.res.job = some i ∧ i.chunk c = { j.chunk c with st := 3 } ∧
      (j.wants (cRegion j.man c) = true → e.getF (WRG_STATUS_LOAD (cTile j.man c)) = 1) ∧ i.ending = none ∧ e.tiles = s.dev.tiles := by
  have hmem : ∀ x ∈ j.tileChunks c, x = c ∨ (x < c ∧ (j.chunk x).st = 4) := by
    intro x hx
    simp only [LoadJob.tileChunks, List.mem_filter, List.mem_range, Bool.and_eq_true, beq_iff_eq] at hx
    obtain ⟨hlt, htile, -⟩ := hx
    by_cases hxc : x = c
    · exact .inl hxc
    · exact .inr (hothers x hlt hxc htile)
  have hearlier : ((j.tileChunks c).any fun x => decide (x < c) && decide ((j.chunk x).st < 3)) = false := by
    rw [List.any_eq_false]
    intro x hx
    obtain rfl | ⟨-, h4⟩ := hmem x hx
    · simp
    · simp [h4]
  have hbuffer : ((j.tileChunks c).filter fun x => (j.chunk x).st == 3) = [] := by
    rw [List.filter_eq_nil_iff]
    intro x hx
    obtain rfl | ⟨-, h4⟩ := hmem x hx
    · simp [hst]
    · simp [h4]
  obtain ⟨i, hi⟩ : ∃ i, i = ({ j.setChunk c { j.chunk c with st := 3 } with
      heads := if j.heads.any fun x => x.1 == (cTile j.man c).val then j.heads
        else j.heads ++ [((cTile j.man c).val, min 8 (s.dev.getF (QNT_CTRL_HEADROOM (cTile j.man c))))] } : LoadJob) := ⟨_, rfl⟩
  have hself : i.chunk c = { j.chunk c with st := 3 } := by
    rw [hi]
    exact chunk_setChunk_self j _ hc
  have hiend : i.ending = none := by rw [hi]; exact hend
  have hexec : exec (.chunkForward c) s = .next (s.put (((s.dev.withJob i).wrgLoad (cTile j.man c)).issueReads)) := by
    change execChunkForward c s = _
    refine onRun_eq hf ?_
    rw [hj]
    dsimp only
    rw [← LoadJob.tileChunks, hearlier, hbuffer, if_neg (by simp [hend, hst]), onLoad_of_job hj, hi]
  obtain ⟨-, -, htiles, -, hres⟩ := (sameBesideAges_wrgLoad (s.dev.withJob i) (cTile j.man c)).fields
  obtain ⟨i', hjob, hi', hkept, hsame, -, hregs⟩ := issueReads_effect (hres.symm ▸ job_withJob s.dev i :
    ((s.dev.withJob i).wrgLoad (cTile j.man c)).res.job = some i)
  have hlen : c < i.chunks.length := by
    rw [hi]
    exact hc.trans_eq List.length_set.symm
  have htile : cTile i.man c = cTile j.man c := by rw [hi]; rfl
  refine ⟨_, i', hexec, hjob, ?_, fun _ => ?_, by rw [hi']; exact hiend, hsame.trans htiles⟩
  · rw [hkept c (by rw [hself]; exact Nat.succ_ne_zero 2), hself]
  · rw [getF_congr (hregs _)]
    exact getF_wrgLoad_self (job_withJob s.dev i) hiend ⟨c, hlen, by rw [hself], htile⟩

end Sys2Proof.Machine
end

section
/-! Chunks converted and written (R212 to R216). -/

namespace Sys2Proof.Machine

open Reg

/-- The details with which a chunk's output can fail (R213, R215). -/
theorem wringChunk_detail {k : Nat} {m : List Byte} {c h limit : Nat} {b : List Byte} {det : Nat}
    (hdet : (wringChunk k m c h limit b).2.2 = some det) : det = 0x14 ∨ det = 0x0B := by
  unfold wringChunk at hdet
  dsimp only at hdet
  split at hdet
  · cases hdet
  · split at hdet
    · split at hdet
      · cases hdet
      · exact .inl (Option.some.inj hdet).symm
    · split at hdet
      · cases hdet
      · split at hdet
        · exact .inr (Option.some.inj hdet).symm
        · cases hdet

/-- The job once chunk `c` is written on tile `n` with the quantised blocks `qs`. -/
def LoadJob.wrung (j : LoadJob) (c : Nat) (n : Fin 32) (qs : List QBlock) : LoadJob :=
  (j.stat (cTensor j.man c) n qs).setChunk c { j.chunk c with st := 4, data := [] }

/-- A chunk's output written from `a` on, and counted; the job is then `i`. -/
def Dev.chunkStored (d : Dev) (n : Fin 32) (a : Nat) (b : List Byte) (i : LoadJob) : Dev :=
  let d := d.homeWrite n a b
  let d := (d.setPair (WRG_LOAD_BYTES_LO n) (WRG_LOAD_BYTES_HI n) (d.getPair (WRG_LOAD_BYTES_LO n) (WRG_LOAD_BYTES_HI n) + b.length)).withJob i
  d.setN WTR_LOAD_DONE (d.getN WTR_LOAD_DONE + 1)

/-- After the last chunk of region `r` of the job, zeros from BYTES to the end of its unit (R216). -/
def Dev.unitFilled (d : Dev) (n : Fin 32) (i : LoadJob) (r : Nat) : Dev :=
  if i.regionWritten r then
    d.homeWrite n (rUnit i.man r * unitBytes + rBytes i.man r) (List.replicate (unitBytes - rBytes i.man r) 0)
  else d

theorem not_memBlock_wrg {n : Fin 32} {p : Nat} (h : tileBase n + 0x50000 ≤ p) (hlt : p < tileBase n + 0x60000) : ¬ memBlock p := by
  simp only [tileBase] at h hlt
  unfold memBlock
  omega

theorem getPair_congr {d e : Dev} {lo hi : Nat} (h1 : e.getR lo = d.getR lo) (h2 : e.getR hi = d.getR hi) :
    e.getPair lo hi = d.getPair lo hi := by rw [Dev.getPair, Dev.getPair, getN_congr h1, getN_congr h2]

theorem chunkStored_effect (d : Dev) (n : Fin 32) {a : Nat} {b : List Byte} (i : LoadJob) (ha : a % 64 = 0) (hb : b.length % 64 = 0) :
    let e := d.chunkStored n a b i
    (∀ x, memGet (e.tile n).dram x = if a ≤ x ∧ x < a + b.length then b.getD (x - a) 0 else memGet (d.tile n).dram x) ∧
      d.dramSide n e ∧ e.res.job = some i ∧
      e.getPair (WRG_LOAD_BYTES_LO n) (WRG_LOAD_BYTES_HI n) =
        (d.getPair (WRG_LOAD_BYTES_LO n) (WRG_LOAD_BYTES_HI n) + b.length) % 2 ^ 64 ∧
      e.getN WTR_LOAD_DONE = (d.getN WTR_LOAD_DONE + 1) % 2 ^ 32 := by
  obtain ⟨hbytes, hside, honly⟩ := homeWrite_effect d n ha hb
  obtain ⟨x, hx⟩ : ∃ x, x = d.homeWrite n a b := ⟨_, rfl⟩
  obtain ⟨v, hv⟩ : ∃ v, v = x.getPair (WRG_LOAD_BYTES_LO n) (WRG_LOAD_BYTES_HI n) + b.length := ⟨_, rfl⟩
  obtain ⟨y, hy⟩ : ∃ y, y = (x.setPair (WRG_LOAD_BYTES_LO n) (WRG_LOAD_BYTES_HI n) v).withJob i := ⟨_, rfl⟩
  have he : d.chunkStored n a b i = y.setN WTR_LOAD_DONE (y.getN WTR_LOAD_DONE + 1) := by rw [hy, hv, hx, Dev.chunkStored]
  rw [← hx] at hbytes hside honly
  have hytiles : (y.setN WTR_LOAD_DONE (y.getN WTR_LOAD_DONE + 1)).tiles = x.tiles := by simp [hy]
  have hyout : (y.setN WTR_LOAD_DONE (y.getN WTR_LOAD_DONE + 1)).out = x.out := by simp [hy]
  have hn : WTR_LOAD_DONE < WRG_LOAD_BYTES_LO n ∧ WRG_LOAD_BYTES_LO n < WRG_LOAD_BYTES_HI n := by
    simp only [WRG_LOAD_BYTES_LO, WRG_LOAD_BYTES_HI, WTR_LOAD_DONE, tileBase]
    omega
  have hlo : x.getR (WRG_LOAD_BYTES_LO n) = d.getR (WRG_LOAD_BYTES_LO n) := honly.2 _ (not_memBlock_wrg (n := n) (by simp) (by simp))
  have hhi : x.getR (WRG_LOAD_BYTES_HI n) = d.getR (WRG_LOAD_BYTES_HI n) := honly.2 _ (not_memBlock_wrg (n := n) (by simp) (by simp))
  dsimp only
  rw [he]
  refine ⟨fun z => ?_, ?_, ?_, ?_, ?_⟩
  · rw [tile_congr hytiles, hbytes]
  · obtain ⟨hstore, hothers, hout⟩ := hside
    exact ⟨by rw [tile_congr hytiles, hstore], fun m hm => (tile_congr hytiles m).trans (hothers m hm), hyout.trans hout⟩
  · rw [res_setN, hy, job_withJob]
  · rw [getPair_congr (d := x.setPair (WRG_LOAD_BYTES_LO n) (WRG_LOAD_BYTES_HI n) v), getPair_setPair_self _ _ _ _ (by omega), hv,
      getPair_congr hlo hhi]
    · rw [getR_setN, if_neg (by omega), hy, getR_withJob]
    · rw [getR_setN, if_neg (by omega), hy, getR_withJob]
  · rw [getN_setN, if_pos rfl, hy, getN_congr (getR_withJob _ _ _), getN_congr (getR_setPair_ne _ _ (by omega) (by omega)),
      getN_congr (honly.2 _ (not_memBlock_of_hub (by decide)))]

theorem unitFilled_effect (d : Dev) (n : Fin 32) (i : LoadJob) {r : Nat} (hle : rBytes i.man r ≤ unitBytes) (hline : rBytes i.man r % 64 = 0) :
    let e := d.unitFilled n i r
    (∀ x, x < rUnit i.man r * unitBytes + rBytes i.man r ∨ rUnit i.man r * unitBytes + unitBytes ≤ x →
      memGet (e.tile n).dram x = memGet (d.tile n).dram x) ∧ d.dramSide n e ∧ d.linesOnly e := by
  dsimp only
  rw [Dev.unitFilled]
  split
  · simp only [unitBytes] at hle ⊢
    obtain ⟨hbytes, hside, honly⟩ := homeWrite_effect d n (a := rUnit i.man r * 0x200000 + rBytes i.man r)
      (b := List.replicate (0x200000 - rBytes i.man r) 0) (by omega) (by rw [List.length_replicate]; omega)
    refine ⟨fun x hx => ?_, hside, honly⟩
    rw [hbytes, if_neg (by rw [List.length_replicate]; omega)]
  · exact ⟨fun _ _ => rfl, .refl n d, .refl d⟩

section
variable {s : State} {n : Fin 32} {c : Nat} {j : LoadJob} (hf : s.dev.frozen = false) (hj : s.dev.res.job = some j)
  (hs : j.slot < 16) (hreg : j.region = none) (hend : j.ending = none) (hc : c < j.chunks.length) (hst : (j.chunk c).st = 3)
  (htile : cTile j.man c = n) (hfirst : ∀ y, y < c → (j.chunk y).st = 3 → cTile j.man y ≠ n)

include hc hst htile hfirst in
theorem nextChunk_eq : ((List.range j.chunks.length).find? fun c => (j.chunk c).st == 3 && cTile j.man c == n) = some c := by
  rw [List.find?_range_eq_some]
  refine ⟨by simp [hst, htile], List.mem_range.mpr hc, fun y hy => ?_⟩
  by_cases h3 : (j.chunk y).st = 3
  · simp [hfirst y hy h3]
  · simp [h3]

/-- The output of the chunk that the tile converts next. -/
def Dev.wringOut (d : Dev) (n : Fin 32) (j : LoadJob) (c : Nat) : List Byte × List QBlock × Option Nat :=
  wringChunk d.free j.man c (((j.heads.find? fun h => h.1 == n.val).map Prod.snd).getD 0) (d.zeroLimit n) (j.chunk c).data

include hf hj hend hc hst htile hfirst

theorem exec_chunkWring_bad (now : Nat) {det : Nat} (hout : (s.dev.wringOut n j c).2.2 = some det) :
    exec (.chunkWring n now) s = .next (s.put ((((s.dev.at_ now).withJob (j.stat (cTensor j.man c) n (s.dev.wringOut n j c).2.1)).latch
      (egWrg n) (if det = 0x14 then 0 else 1)).loadFail det)) := by
  have hjob : (s.dev.at_ now).res.job = some j := hj
  have hsame : (s.dev.at_ now).wringOut n j c = s.dev.wringOut n j c := rfl
  change execChunkWring n now s = _
  refine onRun_eq hf ?_
  dsimp only
  rw [hjob]
  dsimp only
  rw [nextChunk_eq hc hst htile hfirst]
  dsimp only
  rw [if_neg (by simp [hend]), ← Dev.wringOut, hsame, hout, onLoad_of_job hjob]

include hreg in
theorem exec_chunkWring_good (now : Nat) (hout : (s.dev.wringOut n j c).2.2 = none) :
    exec (.chunkWring n now) s = .next (s.put (((((s.dev.at_ now).withJob (j.stat (cTensor j.man c) n (s.dev.wringOut n j c).2.1)).chunkStored n
      (rUnit j.man (cRegion j.man c) * unitBytes + cOffset j.man c) (s.dev.wringOut n j c).1 (j.wrung c n (s.dev.wringOut n j c).2.1)).unitFilled n
      (j.wrung c n (s.dev.wringOut n j c).2.1) (cRegion j.man c)).wrgLoad n)) := by
  have hjob : (s.dev.at_ now).res.job = some j := hj
  have hsame : (s.dev.at_ now).wringOut n j c = s.dev.wringOut n j c := rfl
  have hstored : ∀ (i : LoadJob) (a : Nat) (b : List Byte) (v : Nat), ((((s.dev.at_ now).withJob i).homeWrite n a b).setPair
      (WRG_LOAD_BYTES_LO n) (WRG_LOAD_BYTES_HI n) v).res.job = some i := fun i a b v => by
    obtain ⟨hres, -⟩ := (linesOnly_homeWrite ((s.dev.at_ now).withJob i) n a b).fields
    rw [res_setPair, hres, job_withJob]
  change execChunkWring n now s = _
  refine onRun_eq hf ?_
  dsimp only
  rw [hjob]
  dsimp only
  rw [nextChunk_eq hc hst htile hfirst]
  dsimp only
  rw [if_neg (by simp [hend]), ← Dev.wringOut, hsame, hout, onLoad_of_job hjob]
  dsimp only
  simp only [hreg, Option.isNone_none, if_true]
  rw [onLoad_of_job (hstored _ _ _ _), res_setN, job_withJob, Option.any_some]
  rfl

include hreg in
theorem chunkWring_good (now : Nat) (hout : (s.dev.wringOut n j c).2.2 = none) (hoff : cOffset j.man c % 64 = 0)
    (hlen : (s.dev.wringOut n j c).1.length % 64 = 0) (hle : rBytes j.man (cRegion j.man c) ≤ unitBytes)
    (hline : rBytes j.man (cRegion j.man c) % 64 = 0)
    (hin : cOffset j.man c + (s.dev.wringOut n j c).1.length ≤ rBytes j.man (cRegion j.man c)) :
    let b := (s.dev.wringOut n j c).1
    let base := rUnit j.man (cRegion j.man c) * unitBytes
    ∃ (e : Dev) (i : LoadJob), exec (.chunkWring n now) s = .next (s.put e) ∧ e.res.job = some i ∧
      i.chunk c = { j.chunk c with st := 4, data := [] } ∧ memBytes (e.tile n).dram (base + cOffset j.man c) b.length = b ∧
      (∀ a, a < base ∨ base + unitBytes ≤ a → memGet (e.tile n).dram a = memGet (s.dev.tile n).dram a) ∧
      e.getPair (WRG_LOAD_BYTES_LO n) (WRG_LOAD_BYTES_HI n) =
        (s.dev.getPair (WRG_LOAD_BYTES_LO n) (WRG_LOAD_BYTES_HI n) + b.length) % 2 ^ 64 ∧
      e.getN WTR_LOAD_DONE = (s.dev.getN WTR_LOAD_DONE + 1) % 2 ^ 32 ∧ s.dev.onlyTile e n ∧ (e.tile n).store = (s.dev.tile n).store ∧
      e.out = s.dev.out := by
  have hexec := exec_chunkWring_good hf hj hreg hend hc hst htile hfirst now hout
  generalize (s.dev.wringOut n j c).2.1 = qs at hexec
  obtain ⟨b, hb⟩ : ∃ b, b = (s.dev.wringOut n j c).1 := ⟨_, rfl⟩
  obtain ⟨base, hbase⟩ : ∃ base, base = rUnit j.man (cRegion j.man c) * unitBytes := ⟨_, rfl⟩
  simp only [← hb, ← hbase] at hexec hlen hin ⊢
  have hplace : (base + cOffset j.man c) % 64 = 0 := by
    rw [hbase, unitBytes]
    omega
  obtain ⟨hbytes, ⟨hstore, hothers, hsent⟩, hjob, hpair, hcount⟩ := chunkStored_effect
    ((s.dev.at_ now).withJob (j.stat (cTensor j.man c) n qs)) n (j.wrung c n qs) hplace hlen
  generalize ((s.dev.at_ now).withJob (j.stat (cTensor j.man c) n qs)).chunkStored n (base + cOffset j.man c) b (j.wrung c n qs) = y at *
  obtain ⟨hzeros, ⟨hstore', hothers', hsent'⟩, honly⟩ := unitFilled_effect y n (j.wrung c n qs) (r := cRegion j.man c) hle hline
  have hman : (j.wrung c n qs).man = j.man := rfl
  rw [hman, ← hbase] at hzeros
  obtain ⟨hres, -⟩ := honly.fields
  generalize y.unitFilled n (j.wrung c n qs) (cRegion j.man c) = z at *
  obtain ⟨-, hout', htiles, -, hres'⟩ := (sameBesideAges_wrgLoad z n).fields
  have hregs : ∀ p, ¬ memBlock p → ¬ wrgStatusReg p → (z.wrgLoad n).getR p = y.getR p := fun p hp hw => by
    rw [getR_wrgLoad_ne z n hw, honly.2 p hp]
  have hwrg : ∀ p, p = WRG_LOAD_BYTES_LO n ∨ p = WRG_LOAD_BYTES_HI n → (z.wrgLoad n).getR p = y.getR p := fun p hp => by
    simp only [WRG_LOAD_BYTES_LO, WRG_LOAD_BYTES_HI] at hp
    exact hregs p (not_memBlock_wrg (n := n) (by omega) (by omega)) (by unfold wrgStatusReg; simp only [tileBase] at hp; omega)
  have htile' : (z.wrgLoad n).tile n = z.tile n := tile_congr htiles n
  refine ⟨_, j.wrung c n qs, hexec, ?_, ?_, ?_, fun a ha => ?_, ?_, ?_, fun m hm => ?_, ?_, ?_⟩
  · rw [hres', hres, hjob]
  · exact chunk_setChunk_self _ _ hc
  · rw [htile']
    apply List.ext_getElem
    · simp
    · intro i h1 h2
      have hget := hbytes (base + cOffset j.man c + i)
      rw [if_pos (by omega), Nat.add_sub_cancel_left, List.getD_eq_getElem _ _ h2,
        ← hzeros (base + cOffset j.man c + i) (.inl (by omega))] at hget
      simpa [memBytes] using hget
  · rw [htile', hzeros a (by omega), hbytes, if_neg (by omega)]
    rfl
  · rw [getPair_congr (hwrg _ (.inl rfl)) (hwrg _ (.inr rfl)), hpair]
    exact congrArg (fun v => (v + b.length) % 2 ^ 64)
      (getPair_congr ((getR_withJob _ _ _).trans (getR_at_ s.dev now _)) ((getR_withJob _ _ _).trans (getR_at_ s.dev now _)))
  · rw [getN_congr (hregs _ (not_memBlock_of_hub (by decide)) (not_wrgStatusReg_of_hub (by decide))), hcount]
    exact congrArg (fun v => (v + 1) % 2 ^ 32) (getN_congr ((getR_withJob _ _ _).trans (getR_at_ s.dev now _)))
  · rw [tile_congr htiles m, hothers' m hm, hothers m hm]
    rfl
  · rw [htile', hstore', hstore]
    rfl
  · rw [hout', hsent', hsent]
    rfl

include hs hreg in
theorem chunkWring_bad (now : Nat) {det : Nat} (hout : (s.dev.wringOut n j c).2.2 = some det) :
    ∃ e : Dev, exec (.chunkWring n now) s = .next (s.put e) ∧
      (∃ i, e.res.job = some i ∧ i.ending = some (5, det, max s.dev.now now)) ∧ e.slotState j.slot = 0 ∧
      e.getF (WTR_SLOT_STATE_REASON j.slot) = 4 := by
  have hdet : det ≠ 0x0A := by
    obtain h | h := wringChunk_detail hout <;> omega
  have hfail := loadFail_effect (d := ((s.dev.at_ now).withJob (j.stat (cTensor j.man c) n (s.dev.wringOut n j c).2.1)).latch
    (egWrg n) (if det = 0x14 then 0 else 1)) (j := j.stat (cTensor j.man c) n (s.dev.wringOut n j c).2.1)
    (by rw [res_latch, job_withJob]) hend hreg hs hdet
  refine ⟨_, exec_chunkWring_bad hf hj hend hc hst htile hfirst now hout, ?_, hfail.state, hfail.reason⟩
  have hjob := hfail.job
  rw [now_latch, now_withJob, now_at_] at hjob
  exact hjob

end

end Sys2Proof.Machine
end

section
/-! A region verified, a load committed, and a VERIFYING slot read back (R205, R209, R225, R227). -/

namespace Sys2Proof.Machine

open Reg

/-! RCRC of a unit. -/

theorem leVal_lt (l : List Byte) : leVal l < 256 ^ l.length := by
  induction l with
  | nil => exact Nat.one_pos
  | cons b t ih =>
    have hb := b.isLt
    rw [leVal, List.length_cons, pow_succ]
    omega

theorem rCrc_lt (m : List Byte) (r : Nat) : rCrc m r < 2 ^ 32 :=
  (leVal_lt _).trans_le (Nat.pow_le_pow_right (by decide : 0 < 256) (List.length_take_le 4 _))

theorem splice_length {l b : List Byte} {off : Nat} (h : off + b.length ≤ l.length) : (splice l off b).length = l.length := by
  simp only [splice, List.length_append, List.length_take, List.length_drop]
  omega

theorem getD_splice {l b : List Byte} {off i : Nat} (h : off ≤ l.length) (hi : i < b.length) : (splice l off b).getD (off + i) 0 = b.getD i 0 := by
  have hlen : (l.take off).length = off := List.length_take_of_le h
  rw [splice, List.append_assoc, List.getD_append_right _ _ _ _ (by omega), hlen, Nat.add_sub_cancel_left, List.getD_append _ _ _ _ hi]

theorem putRcrc_effect (d : Dev) (s : Nat) (n : Fin 32) (u v : Nat) :
    let e := d.putRcrc s n u v
    memLe (e.tile n).dram (slotRec s + 0x840 + 4 * u) 4 = v % 2 ^ 32 ∧ d.dramSide n e ∧ d.linesOnly e := by
  obtain ⟨a, ha⟩ : ∃ a, a = slotRec s + 0x840 + 4 * u := ⟨_, rfl⟩
  have hoff : a % 64 + 4 ≤ 64 := by
    rw [ha, slotRec]
    omega
  obtain ⟨b, hb⟩ : ∃ b, b = splice (d.dramLine n (a / 64)) (a % 64) (leBytes 4 v) := ⟨_, rfl⟩
  have hlen : b.length = 64 := by
    rw [hb, splice_length (by rw [leBytes_length, Dev.dramLine, memBytes_length]; exact hoff), Dev.dramLine, memBytes_length]
  obtain ⟨hdram, hside, honly⟩ := lineWrite_effect d n (a / 64) b
  have he : d.putRcrc s n u v = (d.dramWrite n (a / 64) b false).heldApply n (a / 64) b := by rw [hb, ha, Dev.putRcrc]
  rw [← he, List.take_of_length_le hlen.le] at hdram
  rw [← he] at hside honly
  refine ⟨?_, hside, honly⟩
  rw [← ha, memLe, show (2 : Nat) ^ 32 = 256 ^ 4 by decide, ← leVal_leBytes 4 v]
  refine congrArg leVal (List.ext_getElem (by simp [leBytes_length]) fun i h1 h2 => ?_)
  have h4 : i < 4 := by simpa using h1
  have hget : memGet ((d.putRcrc s n u v).tile n).dram (a + i) = (leBytes 4 v).getD i 0 := by
    rw [hdram, memGet_memPutBytes, if_pos (by omega), show a + i - 64 * (a / 64) = a % 64 + i by omega, hb,
      getD_splice (by rw [Dev.dramLine, memBytes_length]; omega) (by rwa [leBytes_length])]
  rw [List.getD_eq_getElem _ _ h2] at hget
  simpa [memBytes] using hget

/-! REGION_VERIFY. -/

/-- A register of a Wringer is none that a slot's loss writes. -/
theorem not_slotRegs_wrg {s p : Nat} {n : Fin 32} (hs : s < 16) (h : tileBase n + 0x50000 ≤ p) (hlt : p < tileBase n + 0x60000) :
    ¬ slotRegs s p := by
  have hfar : 0x1000000 ≤ p := by
    simp only [tileBase] at h
    omega
  simp only [slotRegs, not_or, WTR_SLOT_STATE, WTR_SLOT_TILES, WTR_EVENT, WTR_EVENT_SEQ, HUB_LOG_HEAD]
  exact ⟨by omega, by omega, by omega, by omega, by omega, not_memBlock_wrg h hlt⟩

/-- The job once region `r` is found as `res`, with resident CRC `v`. -/
def LoadJob.checked (j : LoadJob) (r v res : Nat) : LoadJob :=
  { j with regions := j.regions.set r (res, v), resBytes := j.resBytes + rBytes j.man r }

section
variable {s : State} {j : LoadJob} {r : Nat} (hf : s.dev.frozen = false) (hj : s.dev.res.job = some j) (hreg : j.region = none)
  (hend : j.ending = none) (hr : r < mRegions j.man) (hw : j.regionWritten r = true) (hst : (j.regions.getD r (0, 0)).1 = 3)
  (hline : rBytes j.man r % 64 = 0) (hclean : ∀ l, s.dev.poisoned (rTile j.man r) l = false)

/-- The resident CRC of a region of the job (R209). -/
def Dev.regionCrc (d : Dev) (j : LoadJob) (r : Nat) : Nat :=
  residentCrc (rTile j.man r) (rUnit j.man r) (memBytes (d.tile (rTile j.man r)).dram (rUnit j.man r * unitBytes) (rBytes j.man r))

include hf hj hreg hend hr hw hst hline hclean

/-- The region is read back, its CRC is kept in the directory, and the job is told; a wrong CRC then ends the load. -/
theorem exec_regionVerify (now : Nat) (h0 : rCrc j.man r ≠ 0) : ∃ x : Dev,
    x.res.job = some (j.checked r (s.dev.regionCrc j r) (if s.dev.regionCrc j r = rCrc j.man r then 0 else 1)) ∧
    memLe (x.tile (rTile j.man r)).dram (slotRec j.slot + 0x840 + 4 * rUnit j.man r) 4 = s.dev.regionCrc j r % 2 ^ 32 ∧
    s.dev.dramSide (rTile j.man r) x ∧ x.now = max s.dev.now now ∧
    exec (.regionVerify r [] now) s = .next (s.put
      (if s.dev.regionCrc j r = rCrc j.man r then x else (x.latch (egWrg (rTile j.man r)) 2).loadFail 0x0C)) := by
  have hjob : (s.dev.at_ now).res.job = some j := hj
  have hwants : j.wants r = true := by
    rw [LoadJob.wants, hreg]
    exact decide_eq_true hr
  obtain ⟨e, hread, hdarner, honly⟩ := homeRead_clean (d := s.dev.at_ now) (n := rTile j.man r) (a := rUnit j.man r * unitBytes)
    (by rw [unitBytes]; omega) hline hclean
  obtain ⟨-, hstore, -⟩ := hdarner.fields
  obtain ⟨-, hothers, hout⟩ := hdarner
  obtain ⟨v, hv⟩ : ∃ v, v = s.dev.regionCrc j r := ⟨_, rfl⟩
  obtain ⟨hrcrc, hside, honly'⟩ := putRcrc_effect e j.slot (rTile j.man r) (rUnit j.man r) v
  obtain ⟨y, hy⟩ : ∃ y, y = e.putRcrc j.slot (rTile j.man r) (rUnit j.man r) v := ⟨_, rfl⟩
  rw [← hy] at hrcrc hside honly'
  obtain ⟨hres, -, -, hnow, -⟩ := (honly.trans honly').fields
  have hyjob : y.res.job = some j := by rw [hres, hjob]
  have hreadSide : s.dev.dramSide (rTile j.man r) e := ⟨hstore, hothers, hout⟩
  have hload : ∀ res, y.onLoad (fun i => { i with regions := i.regions.set r (res, v), resBytes := i.resBytes + rBytes i.man r }) =
      y.withJob (j.checked r v res) := fun _ => onLoad_of_job hyjob _
  have hwhole : ¬ j.region.isSome = true := by
    rw [hreg]
    exact Bool.false_ne_true
  have hvread : (s.dev.at_ now).regionCrc j r = v := hv.symm
  rw [← hv]
  refine ⟨y.withJob (j.checked r v (if v = rCrc j.man r then 0 else 1)), job_withJob _ _, hrcrc, hreadSide.trans hside, hnow, ?_⟩
  change execRegionVerify r [] now s = _
  refine onRun_eq hf ?_
  simp only [hjob]
  rw [if_neg (by simp only [hend, hwants, hw, hst]; decide)]
  simp only [hread]
  rw [← Dev.regionCrc, hvread, ← hy, hload, if_neg Bool.false_ne_true, if_neg h0]
  by_cases hgood : v = rCrc j.man r
  · simp only [if_pos hgood]
    exact (if_neg (by decide)).trans (if_neg hwhole)
  · simp only [if_neg hgood]
    exact if_pos (.inl trivial)

theorem regionVerify_good (now : Nat) (hv : s.dev.regionCrc j r = rCrc j.man r) (h0 : s.dev.regionCrc j r ≠ 0) :
    ∃ (e : Dev) (i : LoadJob), exec (.regionVerify r [] now) s = .next (s.put e) ∧ e.res.job = some i ∧
      i.regions = j.regions.set r (0, s.dev.regionCrc j r) ∧ i.resBytes = j.resBytes + rBytes j.man r ∧ i.ending = none ∧
      memLe (e.tile (rTile j.man r)).dram (slotRec j.slot + 0x840 + 4 * rUnit j.man r) 4 = s.dev.regionCrc j r ∧
      s.dev.onlyTile e (rTile j.man r) ∧ e.out = s.dev.out := by
  obtain ⟨x, hjob, hrcrc, ⟨-, hothers, hout⟩, -, hexec⟩ :=
    exec_regionVerify hf hj hreg hend hr hw hst hline hclean now (hv ▸ h0)
  rw [if_pos hv] at hjob hexec
  rw [Nat.mod_eq_of_lt (hv ▸ rCrc_lt j.man r)] at hrcrc
  exact ⟨x, _, hexec, hjob, rfl, rfl, hend, hrcrc, hothers, hout⟩

theorem regionVerify_bad (hs : j.slot < 16) (now : Nat) (hv : s.dev.regionCrc j r ≠ rCrc j.man r) (h0 : rCrc j.man r ≠ 0) :
    ∃ e : Dev, exec (.regionVerify r [] now) s = .next (s.put e) ∧
      ((∃ i, e.res.job = some i ∧ i.ending = some (5, 0x0C, max s.dev.now now)) ∧ e.slotState j.slot = 0 ∧
        e.getF (WTR_SLOT_STATE_REASON j.slot) = 4) ∧ e.regBit (WRG_EVENT (rTile j.man r)) 2 = true := by
  obtain ⟨x, hjob, -, -, hnow, hexec⟩ := exec_regionVerify hf hj hreg hend hr hw hst hline hclean now h0
  rw [if_neg hv] at hjob hexec
  have hn := (rTile j.man r).isLt
  have hfail := loadFail_effect (d := x.latch (egWrg (rTile j.man r)) 2) ((congrArg Resid.job (res_latch _ _ _)).trans hjob) hend hreg hs
    (det := 0x0C) (by decide)
  refine ⟨_, hexec, ⟨?_, hfail.state, hfail.reason⟩, ?_⟩
  · have hended := hfail.job
    rwa [now_latch, hnow] at hended
  · rw [regBit_congr (hfail.regs (WRG_EVENT (rTile j.man r)) ?_ ?_)]
    · refine regBit_latch_self x (egWrg (rTile j.man r)) 2 (by decide) ?_
      simp only [egWrg, WRG_EVENT, tileBase, INT_PEND]
      omega
    · exact not_slotRegs_wrg (n := rTile j.man r) hs (by simp) (by simp)
    · simp only [wrgStatusReg, WRG_EVENT, tileBase]
      omega

end

/-! LOAD_COMMIT. -/

/-- A slot becomes READY, with LAST_USE. -/
def Dev.slotReady (d : Dev) (s : Nat) : Dev := (d.setF (WTR_SLOT_STATE_STATE s) 3).setPair (WTR_SLOT_USE_LO s) (WTR_SLOT_USE_HI s) d.now

theorem slotReady_effect (d : Dev) (s : Nat) :
    let e := d.slotReady s
    e.slotState s = 3 ∧ e.getPair (WTR_SLOT_USE_LO s) (WTR_SLOT_USE_HI s) = d.now % 2 ^ 64 ∧ d.sameBesideAges e ∧
      ∀ p, p ≠ WTR_SLOT_STATE s → p ≠ WTR_SLOT_USE_LO s → p ≠ WTR_SLOT_USE_HI s → e.getR p = d.getR p := by
  have hapart : WTR_SLOT_STATE s < WTR_SLOT_USE_LO s ∧ WTR_SLOT_USE_LO s < WTR_SLOT_USE_HI s := by
    simp only [WTR_SLOT_STATE, WTR_SLOT_USE_LO, WTR_SLOT_USE_HI]
    omega
  refine ⟨?_, getPair_setPair_self _ _ _ _ (by omega), ?_, fun p h1 h2 h3 => ?_⟩
  · rw [Dev.slotState, Dev.slotReady, getF_congr (getR_setPair_ne _ _ (p := WTR_SLOT_STATE s) (by omega) (by omega)), getF_setF_self _ _ _ (by simp)]
    rfl
  · cases d
    rfl
  · rw [Dev.slotReady, getR_setPair_ne _ _ h2 h3, getR_setF_ne _ _ h1]

theorem commitRecord_length (j : LoadJob) (n : Fin 32) (seq headroom : Nat) : (commitRecord j n seq headroom).length = 64 := by
  simp only [commitRecord, List.length_append, leBytes_length, List.length_cons, List.length_nil]

/-- The commit record that a load writes on a tile. -/
def LoadJob.record (j : LoadJob) (d : Dev) (n : Fin 32) : List Byte := commitRecord j n (d.getN WTR_LOAD_SEQ) (d.headOf j n)

/-- The load once its commit is done at `t`. -/
def LoadJob.committed (j : LoadJob) (t : Nat) : LoadJob := { j with ending := some (2, 0, t) }

theorem record_congr (j : LoadJob) {d e : Dev} {n : Fin 32} (h1 : e.getR WTR_LOAD_SEQ = d.getR WTR_LOAD_SEQ)
    (h2 : e.getR (QNT_CTRL n) = d.getR (QNT_CTRL n)) : j.record e n = j.record d n := by
  rw [LoadJob.record, LoadJob.record, Dev.headOf, Dev.headOf, getN_congr h1, getF_congr h2]

theorem not_memBlock_qnt (n : Fin 32) : ¬ memBlock (QNT_CTRL n) := by
  simp only [QNT_CTRL, tileBase, memBlock]
  omega

section
variable {s : State} {j : LoadJob} (hf : s.dev.frozen = false) (hj : s.dev.res.job = some j)
include hf hj

theorem loadCommit_effect (hreg : j.region = none) (hend : j.ending = none) (now : Nat)
    (hall : ∀ q, q < mRegions j.man → (j.regions.getD q (3, 0)).1 = 0 ∨ (j.regions.getD q (3, 0)).1 = 4) :
    ∃ (e : Dev) (i : LoadJob), exec (.loadCommit now) s = .next (s.put e) ∧ e.res.job = some i ∧ i.ending = some (2, 0, max s.dev.now now) ∧
      e.slotState j.slot = 3 ∧ e.getPair (WTR_SLOT_USE_LO j.slot) (WTR_SLOT_USE_HI j.slot) = max s.dev.now now % 2 ^ 64 ∧
      e.getN WTR_LOAD_COUNT = min (s.dev.getN WTR_LOAD_COUNT + 1) 0xFFFFFFFF ∧
      (∀ t ∈ s.dev.maskTiles (mTileMask j.man), memBytes (e.tile t).dram (slotRec j.slot) 64 = j.record s.dev t) ∧
      (∀ t, t ∉ s.dev.maskTiles (mTileMask j.man) → e.tile t = s.dev.tile t) ∧ e.out = s.dev.out := by
  have hjob : (s.dev.at_ now).res.job = some j := hj
  obtain ⟨x, hx⟩ : ∃ x, x = (s.dev.at_ now).homeWrites (s.dev.maskTiles (mTileMask j.man)) (slotRec j.slot) j.record := ⟨_, rfl⟩
  obtain ⟨hrecords, hothers, honly⟩ := homeWrites_effect (maskTiles_nodup s.dev (mTileMask j.man)) (s.dev.at_ now) (row := j.record)
    (slotRec_line j.slot) (fun _ _ => by rw [LoadJob.record, commitRecord_length])
  rw [← hx] at hrecords hothers honly
  obtain ⟨hres, hout, -, hnow, -⟩ := honly.fields
  obtain ⟨hstate, huse, hsame, hregs⟩ := slotReady_effect x j.slot
  obtain ⟨-, hout', htiles, -, hres'⟩ := hsame.fields
  obtain ⟨-, hnow', -⟩ := hsame.rest
  obtain ⟨y, hy⟩ : ∃ y, y = x.slotReady j.slot := ⟨_, rfl⟩
  rw [← hy] at hstate huse hregs hout' htiles hres' hnow'
  have hyjob : (y.satInc WTR_LOAD_COUNT).res.job = some j := by rw [res_satInc, hres', hres, hjob]
  have hslot : ∀ p, 0x700100 ≤ p → ((y.satInc WTR_LOAD_COUNT).withJob (j.committed (max s.dev.now now))).getR p =
      y.getR p := fun p hp => by rw [getR_withJob, getR_satInc_ne _ (by simp only [WTR_LOAD_COUNT]; omega)]
  have htile : ∀ t, ((y.satInc WTR_LOAD_COUNT).withJob (j.committed (max s.dev.now now))).tile t = x.tile t := fun t => by
    rw [tile_withJob, tile_congr (tiles_satInc _ _), tile_congr htiles]
  refine ⟨(y.satInc WTR_LOAD_COUNT).withJob (j.committed (max s.dev.now now)), _, ?_, job_withJob _ _, rfl, ?_, ?_, ?_,
    fun t ht => ?_, fun t ht => ?_, ?_⟩
  · change execLoadCommit now s = _
    refine onRun_eq hf ?_
    simp only [hjob]
    have hverified : ((List.range (mRegions j.man)).all fun r =>
        (j.regions.getD r (3, 0)).1 == 0 || (j.regions.getD r (3, 0)).1 == 4) = true := by
      rw [List.all_eq_true]
      intro q hq
      have hstate := hall q (List.mem_range.mp hq)
      rwa [Bool.or_eq_true, beq_iff_eq, beq_iff_eq]
    rw [if_neg (by rw [hend, hreg, hverified]; decide)]
    have hfold : List.foldl (fun d n => d.homeWrite n (slotRec j.slot) (commitRecord j n (d.getN WTR_LOAD_SEQ) (d.headOf j n)))
        (s.dev.at_ now) ((s.dev.at_ now).maskTiles (mTileMask j.man)) = x := hx.symm
    rw [hfold, ← Dev.slotReady, ← hy, onLoad_of_job hyjob, hnow', hnow, now_at_, LoadJob.committed]
  · exact (getF_congr (hslot _ (by simp))).trans hstate
  · rw [getPair_congr (hslot _ (by simp only [WTR_SLOT_USE_LO]; omega)) (hslot _ (by simp only [WTR_SLOT_USE_HI]; omega)), huse, hnow, now_at_]
  · rw [getN_congr (getR_withJob _ _ _), getN_satInc, getN_congr (hregs _ (by simp only [WTR_LOAD_COUNT, WTR_SLOT_STATE]; omega)
      (by simp only [WTR_LOAD_COUNT, WTR_SLOT_USE_LO]; omega) (by simp only [WTR_LOAD_COUNT, WTR_SLOT_USE_HI]; omega)),
      getN_congr (honly.2 _ (not_memBlock_of_hub (by decide))), getN_congr (getR_at_ _ _ _)]
  · obtain ⟨z, hz, hbytes⟩ := hrecords t ht
    have hrow : j.record z t = j.record s.dev t := record_congr j (hz.2 _ (not_memBlock_of_hub (by decide))) (hz.2 _ (not_memBlock_qnt t))
    rw [hrow, LoadJob.record, commitRecord_length, ← LoadJob.record] at hbytes
    rw [htile t, hbytes]
  · rw [htile t, hothers t ht]
    rfl
  · rw [out_withJob, out_satInc, hout', hout, out_at_]

/-! LOAD_REPORT. -/

theorem loadReport_sent {st det t : Nat} (hend : j.ending = some (st, det, t)) (hst : st < 8) (hdet : det < 2 ^ 8) :
    ∃ e : Dev, exec (.loadReport true) s = .next (s.put e) ∧
      e.out = s.dev.out ++ [.hostWrite j.repAddr ((s.dev.loadReport j st det t).take j.repLen)] ∧ e.res.job = none ∧
      e.mbxBusy = false ∧ e.getF HUB_MBX_STATUS_STATUS = st ∧ e.getF HUB_MBX_STATUS_DETAIL = det ∧ e.isPending 0 = true ∧
      e.tiles = s.dev.tiles := by
  obtain ⟨x, hx⟩ : ∃ x : Dev, x = ({ s.dev with res := { s.dev.res with job := none } } : Dev).emit
    (.hostWrite j.repAddr ((s.dev.loadReport j st det t).take j.repLen)) := ⟨_, rfl⟩
  obtain ⟨honly, hbusy, hstatus, hdetail, hpending⟩ := mbxEnd_effect x (st := st) (det := det) (by omega) hdet
  obtain ⟨hres, hout, htiles, -⟩ := honly.fields
  refine ⟨x.mbxEnd st det, ?_, ?_, ?_, hbusy, hstatus, hdetail, hpending, ?_⟩
  · rw [hx]
    change execLoadReport true s = _
    refine onRun_eq hf ?_
    simp only [hj, hend, if_true]
  · rw [hout, hx, out_emit]
  · rw [hres, hx, res_emit]
  · rw [htiles, hx, tiles_emit]

theorem loadReport_unsent {st det t : Nat} (hend : j.ending = some (st, det, t)) (hst : st < 8) (hdet : det < 2 ^ 8) :
    ∃ e : Dev, exec (.loadReport false) s = .next (s.put e) ∧ e.out = s.dev.out ∧ e.res.job = none ∧ e.mbxBusy = false ∧
      e.getF HUB_MBX_STATUS_STATUS = (if st = 2 then 5 else st) ∧ e.getF HUB_MBX_STATUS_DETAIL = (if st = 2 then 0x12 else det) ∧
      e.tiles = s.dev.tiles := by
  obtain ⟨x, hx⟩ : ∃ x : Dev, x = { s.dev with res := { s.dev.res with job := none } } := ⟨_, rfl⟩
  obtain ⟨st', hst'⟩ : ∃ st', st' = if st = 2 then 5 else st := ⟨_, rfl⟩
  obtain ⟨det', hdet'⟩ : ∃ det', det' = if st = 2 then 0x12 else det := ⟨_, rfl⟩
  obtain ⟨honly, hbusy, hstatus, hdetail, -⟩ := mbxEnd_effect x (st := st') (det := det') (by rw [hst']; split <;> omega)
    (by rw [hdet']; split <;> omega)
  obtain ⟨hres, hout, htiles, -⟩ := honly.fields
  refine ⟨x.mbxEnd st' det', ?_, ?_, ?_, hbusy, hst' ▸ hstatus, hdet' ▸ hdetail, ?_⟩
  · rw [hx, hst', hdet']
    change execLoadReport false s = _
    refine onRun_eq hf ?_
    simp only [hj, hend]
    by_cases h2 : st = 2
    · simp [h2, Dev.mbxFail]
    · simp [h2]
  · rw [hout, hx]
  · rw [hres, hx]
  · rw [htiles, hx]

end

end Sys2Proof.Machine
end

section
/-! A VERIFYING slot read back (R227). -/

namespace Sys2Proof.Machine

open Reg

/-- What reads of clean lines leave: DRAM, the poisoned lines, and everything that accesses of lines leave. -/
structure Dev.readsOnly (d e : Dev) : Prop where
  lines : d.linesOnly e
  dram : ∀ n, (e.tile n).dram = (d.tile n).dram
  poison : ∀ n l, e.poisoned n l = d.poisoned n l

theorem Dev.readsOnly.refl (d : Dev) : d.readsOnly d := ⟨.refl d, fun _ => rfl, fun _ _ => rfl⟩

theorem Dev.readsOnly.trans {d e x : Dev} (h : d.readsOnly e) (g : e.readsOnly x) : d.readsOnly x :=
  ⟨h.lines.trans g.lines, fun n => (g.dram n).trans (h.dram n), fun n l => (g.poison n l).trans (h.poison n l)⟩

theorem readsOnly_of_darner {d e : Dev} {n : Fin 32} (h : d.darnerOnly n e) (hl : d.linesOnly e) : d.readsOnly e := by
  obtain ⟨hdram, -, hpoison⟩ := h.fields
  obtain ⟨-, hothers, -⟩ := h
  refine ⟨hl, fun m => ?_, fun m l => ?_⟩
  · by_cases hm : m = n
    · rw [hm, hdram]
    · rw [hothers m hm]
  · by_cases hm : m = n
    · rw [hm, hpoison]
    · rw [Dev.poisoned, Dev.darner, hothers m hm]
      rfl

/-- The bytes of a unit by RLEN, and whether their resident CRC is RCRC's. -/
def Dev.unitGood (d : Dev) (s : Nat) (n : Fin 32) (u : Nat) : Prop :=
  residentCrc n u (memBytes (d.tile n).dram (u * unitBytes) (64 * memLe (d.tile n).dram (slotRec s + 0x10840 + 2 * u) 2)) =
    memLe (d.tile n).dram (slotRec s + 0x840 + 4 * u) 4

theorem unitGood_congr {d e : Dev} {n : Fin 32} (h : (e.tile n).dram = (d.tile n).dram) (s u : Nat) : e.unitGood s n u ↔ d.unitGood s n u := by
  rw [Dev.unitGood, Dev.unitGood, h]

theorem slotUnits_congr {d e : Dev} {s : Nat} {n : Fin 32} (hr : e.getR (WTR_SLOT_TILES s) = d.getR (WTR_SLOT_TILES s))
    (h : (e.tile n).dram = (d.tile n).dram) : e.slotUnits s n = d.slotUnits s n := by
  have hunit : ∀ u, e.slotUnit s n u = d.slotUnit s n u := fun u => by rw [Dev.slotUnit, Dev.slotUnit, regBit_congr hr, h]
  rw [Dev.slotUnits, Dev.slotUnits, funext hunit]

/-- One unit read back. -/
def unitRead (s : Nat) (n : Fin 32) (x : Bool × Dev) (u : Nat) : Bool × Dev :=
  let r := x.2.homeRead n (u * unitBytes) (64 * memLe (x.2.tile n).dram (slotRec s + 0x10840 + 2 * u) 2) []
  (x.1 && !r.2.1 && residentCrc n u r.1 == memLe (x.2.tile n).dram (slotRec s + 0x840 + 4 * u) 4, r.2.2)

/-- The units of a tile read back. -/
def tileRead (s : Nat) (x : Bool × Dev) (n : Fin 32) : Bool × Dev := (x.2.slotUnits s n).foldl (unitRead s n) x

theorem unitRead_effect {x : Bool × Dev} (s : Nat) (n : Fin 32) (u : Nat) (h : ∀ n l, x.2.poisoned n l = false) :
    ((unitRead s n x u).1 = true ↔ x.1 = true ∧ x.2.unitGood s n u) ∧ x.2.readsOnly (unitRead s n x u).2 := by
  obtain ⟨e, hread, hdarner, honly⟩ := homeRead_clean (d := x.2) (n := n) (a := u * unitBytes)
    (k := 64 * memLe (x.2.tile n).dram (slotRec s + 0x10840 + 2 * u) 2) (by rw [unitBytes]; omega) (by omega) (h n)
  rw [unitRead, hread]
  refine ⟨?_, readsOnly_of_darner hdarner honly⟩
  simp only [Bool.not_false, Bool.and_true, Bool.and_eq_true, beq_iff_eq, Dev.unitGood]

theorem unitReads_effect {x : Bool × Dev} (s : Nat) (n : Fin 32) (l : List Nat) (h : ∀ n l, x.2.poisoned n l = false) :
    ((l.foldl (unitRead s n) x).1 = true ↔ x.1 = true ∧ ∀ u ∈ l, x.2.unitGood s n u) ∧ x.2.readsOnly (l.foldl (unitRead s n) x).2 := by
  induction l generalizing x with
  | nil => exact ⟨by simp, .refl _⟩
  | cons u t ih =>
    obtain ⟨hgood, hread⟩ := unitRead_effect s n u h
    obtain ⟨hall, hrest⟩ := ih fun m k => (hread.poison m k).trans (h m k)
    rw [List.foldl_cons]
    refine ⟨?_, hread.trans hrest⟩
    rw [hall, hgood, List.forall_mem_cons, and_assoc]
    simp only [unitGood_congr (hread.dram n)]

theorem tileReads_effect {x : Bool × Dev} {s : Nat} (hs : s < 16) (l : List (Fin 32)) (h : ∀ n l, x.2.poisoned n l = false) :
    ((l.foldl (tileRead s) x).1 = true ↔ x.1 = true ∧ ∀ n ∈ l, ∀ u ∈ x.2.slotUnits s n, x.2.unitGood s n u) ∧
      x.2.readsOnly (l.foldl (tileRead s) x).2 := by
  induction l generalizing x with
  | nil => exact ⟨by simp, .refl _⟩
  | cons m t ih =>
    obtain ⟨hgood, hread⟩ : ((tileRead s x m).1 = true ↔ _) ∧ x.2.readsOnly (tileRead s x m).2 := unitReads_effect s m (x.2.slotUnits s m) h
    obtain ⟨hall, hrest⟩ := ih fun n k => (hread.poison n k).trans (h n k)
    have hmask : (tileRead s x m).2.getR (WTR_SLOT_TILES s) = x.2.getR (WTR_SLOT_TILES s) :=
      hread.lines.2 _ (not_memBlock_of_hub (by simp only [WTR_SLOT_TILES]; omega))
    rw [List.foldl_cons]
    refine ⟨?_, hread.trans hrest⟩
    rw [hall, hgood, List.forall_mem_cons, and_assoc]
    simp only [slotUnits_congr hmask (hread.dram _), unitGood_congr (hread.dram _)]

section
variable {s : State} {slot : Fin 16} (hf : s.dev.frozen = false) (hst : s.dev.slotState slot = 2)
  (hclean : ∀ n l, s.dev.poisoned n l = false)
include hf hst hclean

/-- Every unit of the slot's tiles has its CRC. -/
def Dev.slotGood (d : Dev) (s : Nat) : Prop := ∀ n ∈ d.maskTiles (d.getR (WTR_SLOT_TILES s)), ∀ u ∈ d.slotUnits s n, d.unitGood s n u

theorem exec_slotReverify (now : Nat) : ∃ (b : Bool) (x : Dev), (b = true ↔ s.dev.slotGood slot) ∧ (s.dev.at_ now).readsOnly x ∧
    exec (.slotReverify slot [] now) s = .next (s.put (if b then x.slotReady slot else x.slotEmpty slot 7)) := by
  obtain ⟨x, hx⟩ : ∃ x, x = ((s.dev.at_ now).maskTiles ((s.dev.at_ now).getR (WTR_SLOT_TILES slot))).foldl (tileRead slot)
    (true, s.dev.at_ now) := ⟨_, rfl⟩
  obtain ⟨hall, hread⟩ := tileReads_effect (x := (true, s.dev.at_ now)) slot.isLt
    ((s.dev.at_ now).maskTiles ((s.dev.at_ now).getR (WTR_SLOT_TILES slot))) hclean
  rw [← hx] at hall hread
  refine ⟨x.1, x.2, hall.trans (and_iff_right rfl), hread, ?_⟩
  change execSlotReverify slot [] now s = _
  refine onRun_eq hf ?_
  rw [hx]
  exact if_neg (not_not.mpr hst)

theorem slotReverify_good (now : Nat) (h : s.dev.slotGood slot) : ∃ e : Dev, exec (.slotReverify slot [] now) s = .next (s.put e) ∧
    e.slotState slot = 3 ∧ e.getPair (WTR_SLOT_USE_LO slot) (WTR_SLOT_USE_HI slot) = max s.dev.now now % 2 ^ 64 ∧
    ∀ n, (e.tile n).dram = (s.dev.tile n).dram := by
  obtain ⟨b, x, hb, hread, hexec⟩ := exec_slotReverify hf hst hclean now
  rw [if_pos (hb.mpr h)] at hexec
  obtain ⟨hstate, huse, hsame, -⟩ := slotReady_effect x slot
  obtain ⟨-, -, htiles, -⟩ := hsame.fields
  obtain ⟨-, -, -, hnow, -⟩ := hread.lines.fields
  refine ⟨_, hexec, hstate, huse.trans (by rw [hnow, now_at_]), fun n => ?_⟩
  rw [tile_congr htiles, hread.dram]
  rfl

theorem slotReverify_bad (now : Nat) (h : ¬ s.dev.slotGood slot) : ∃ e : Dev, exec (.slotReverify slot [] now) s = .next (s.put e) ∧
    e.slotState slot = 0 ∧ e.getF (WTR_SLOT_STATE_REASON slot) = 7 := by
  obtain ⟨b, x, hb, -, hexec⟩ := exec_slotReverify hf hst hclean now
  rw [if_neg (mt hb.mp h)] at hexec
  have hgone := slotEmpty_effect x slot.isLt (reason := 7) (by decide)
  exact ⟨_, hexec, hgone.state, hgone.reason⟩

end

end Sys2Proof.Machine
end

section
/-! What a mailbox command on the slots reads (R223 to R225, R228): it is as it was when the command was given. -/

namespace Sys2Proof.Machine

open Reg

/-- A command that needs no grant, given to a mailbox that takes it. -/
theorem onDevF_mbxIssue {s : State} {e : Dev} {code : Nat} {body : Flash → Dev → Dev} (h : s.dev.mbxReady)
    (he : body s.flash (s.dev.mbxStart code) = e) : onDevF (mbxIssueDev code false body) s = .next (s.put e) := by
  rw [onDevF, mbxIssueDev_eq h, he]

/-- The unit is one of a BOUND slot. -/
def Dev.unitBound (d : Dev) (n : Fin 32) (u : Nat) : Bool := (d.unitSlot n u).any fun s => d.slotState s == 4

theorem placement_eq (d : Dev) (m : List Byte) (r : Nat) : d.placement m r =
    if unitReserved (rTile m r) (rUnit m r) then some 0x09
    else if (d.retiredPages (rTile m r)).any fun p => p / 64 == rUnit m r && decide (p % 64 * 32768 < rBytes m r) then some 0x08
    else if d.unitBound (rTile m r) (rUnit m r) then some 0x07
    else if d.kvUnit (rTile m r) (rUnit m r) then some 0x06
    else none := by
  rw [Dev.placement, Dev.unitBound]
  cases d.unitSlot (rTile m r) (rUnit m r) with
  | none => rfl
  | some s => rfl

section
variable {d e : Dev} {now : Nat} (h : d.begins e now)
include h

theorem begins_getR {p : Nat} (hp : p = HUB_TILE_INSERVICE ∨ (0x700000 ≤ p ∧ p < 0x800000) ∨ 0x1000000 ≤ p) : e.getR p = d.getR p :=
  h.regs p (by simp only [mbxRegs, HUB_TILE_INSERVICE, HUB_MBX_CMD, HUB_MBX_STATUS] at hp ⊢; omega)

theorem begins_tile (n : Fin 32) : e.tile n = d.tile n := tile_congr h.tiles n

theorem begins_slotState {t : Nat} (ht : t < 16) : e.slotState t = d.slotState t :=
  getF_congr (begins_getR h (.inr (.inl (by simp only [WTR_SLOT_STATE]; omega))))

theorem begins_driveOk (k : Nat) : e.driveOk k = d.driveOk k := by
  refine flag_congr (begins_getR h (.inr (.inl ?_)))
  unfold driveReady
  split <;> decide

theorem begins_inService (n : Nat) : e.inService n = d.inService n := regBit_congr (begins_getR h (.inl rfl)) n

theorem begins_slotTiles {t : Nat} (ht : t < 16) : e.getR (WTR_SLOT_TILES t) = d.getR (WTR_SLOT_TILES t) :=
  begins_getR h (.inr (.inl (by simp only [WTR_SLOT_TILES]; omega)))

theorem begins_slotUnit {t : Nat} (ht : t < 16) (n : Fin 32) (u : Nat) : e.slotUnit t n u = d.slotUnit t n u := by
  rw [Dev.slotUnit, Dev.slotUnit, regBit_congr (begins_slotTiles h ht), begins_tile h]

theorem begins_maskTiles (w : Word) : e.maskTiles w = d.maskTiles w := by
  simp only [Dev.maskTiles, begins_inService h]

theorem begins_latest {f : Fld} (hf : 0x1000000 ≤ f.off) : e.latest f = d.latest f := by
  rw [Dev.latest, Dev.latest, h.rwb, getF_congr (begins_getR h (.inr (.inr hf)))]

theorem begins_retiredPages (n : Fin 32) : e.retiredPages n = d.retiredPages n := by
  have hoff : ∀ i, 0x1000000 ≤ MEM_SKIP n i := fun i => by
    simp only [MEM_SKIP, tileBase]
    omega
  simp only [Dev.retiredPages, begins_latest h (f := MEM_SKIP_VALID n _) (hoff _), begins_latest h (f := MEM_SKIP_PAGE n _) (hoff _)]

theorem begins_unitSlot (n : Fin 32) (u : Nat) : e.unitSlot n u = d.unitSlot n u := by
  refine List.find?_congr fun t ht => ?_
  rw [begins_slotState h (List.mem_range.mp ht), begins_slotUnit h (List.mem_range.mp ht)]

theorem begins_kvUnit (n : Fin 32) (u : Nat) : e.kvUnit n u = d.kvUnit n u := by
  simp only [Dev.kvUnit, begins_tile h]

theorem begins_unitBound (n : Fin 32) (u : Nat) : e.unitBound n u = d.unitBound n u := by
  rw [Dev.unitBound, Dev.unitBound, begins_unitSlot h]
  cases hs : d.unitSlot n u with
  | none => rfl
  | some t => rw [Option.any_some, Option.any_some, begins_slotState h (List.mem_range.mp (List.mem_of_find?_eq_some hs))]

theorem begins_placement (m : List Byte) (r : Nat) : e.placement m r = d.placement m r := by
  rw [placement_eq, placement_eq, begins_retiredPages h, begins_unitBound h, begins_kvUnit h]

theorem begins_loadCheck {slot : Nat} (hs : slot < 16) (drive len shard : Nat) (man : Option (List Byte)) :
    e.loadCheck slot drive len shard man = d.loadCheck slot drive len shard man := by
  simp only [Dev.loadCheck, begins_slotState h hs, begins_driveOk h, begins_inService h, begins_placement h]

theorem begins_slotCommit {slot : Nat} (hs : slot < 16) : e.slotCommit slot = d.slotCommit slot := by
  rw [Dev.slotCommit, Dev.slotCommit, begins_slotTiles h hs, begins_maskTiles h]
  simp only [Dev.dramBytes, begins_tile h]

theorem begins_rewriteCheck {slot : Nat} (hs : slot < 16) (n : Fin 32) (u : Nat) (man : Option (List Byte)) :
    e.rewriteCheck slot n u man = d.rewriteCheck slot n u man := by
  simp only [Dev.rewriteCheck, begins_slotCommit h hs, begins_slotState h hs, begins_slotUnit h hs, h.res, begins_driveOk h]

theorem begins_paramsZero (hz : ∀ k, 1 ≤ k → k < 8 → d.getN (HUB_MBX_P k) = 0) {j : Nat} (hj : 1 ≤ j) : e.paramsZeroFrom j = true := by
  rw [Dev.paramsZeroFrom, List.all_eq_true]
  intro i hi
  have hlt := List.mem_range.mp hi
  by_cases hij : i < j
  · simp [hij]
  · simp [hij, h.param i hlt, hz i (by omega) hlt]

end

end Sys2Proof.Machine
end

section
/-! The commands on slots (R223 to R225, R228, R229). -/

namespace Sys2Proof.Machine

open Reg

/-- A command that ends with an error: its status and detail, and nothing beside the mailbox changed. -/
def Dev.commandFailed (d e : Dev) (det : Nat) : Prop :=
  e.getF HUB_MBX_STATUS_STATUS = 5 ∧ e.getF HUB_MBX_STATUS_DETAIL = det ∧ e.mbxBusy = false ∧
    e.tiles = d.tiles ∧ e.res = d.res ∧ e.out = d.out

theorem commandFailed_of_begins {d e : Dev} {now det : Nat} (h : d.begins e now) (hdet : det < 2 ^ 8) :
    d.commandFailed (e.mbxFail det) det := by
  obtain ⟨hstatus, hdetail, hbusy, htiles, hres, hout⟩ := mbxFail_effect e hdet
  exact ⟨hstatus, hdetail, hbusy, htiles.trans h.tiles, hres.trans h.res, hout.trans h.out⟩

/-! MODEL_LOAD. -/

/-- The tiles of the mask are claimed. -/
def Dev.tilesClaimed (d : Dev) (m : List Byte) (slot : Nat) : Dev := (d.maskTiles (mTileMask m)).foldl (fun d n => d.claimTile m slot n) d

/-- The slot becomes LOADING. -/
def Dev.slotLoading (d : Dev) (m : List Byte) (slot ctx : Nat) : Dev :=
  let d := ((d.setF (WTR_SLOT_STATE_STATE slot) 1).setF (WTR_SLOT_STATE_CONTEXT slot) ctx).setR (WTR_SLOT_TILES slot) (mTileMask m)
  let d := d.setPair (WTR_SLOT_MODEL_LO slot) (WTR_SLOT_MODEL_HI slot) (mLe m 8 8)
  ((d.setN WTR_LOAD_SEQ (d.getN WTR_LOAD_SEQ + 1)).setN WTR_LOAD_CHUNKS (mChunks m)).setN WTR_LOAD_DONE 0

theorem linesOnly_tilesClaimed (d : Dev) (m : List Byte) (slot : Nat) : d.linesOnly (d.tilesClaimed m slot) :=
  linesOnly_foldl (fun e n => (linesOnly_homeWrite e n _ _).trans (linesOnly_homeWrite _ n _ _)) _ d

/-- With every slot EMPTY nothing is evicted. -/
theorem loadClaim_empty {d : Dev} {slot : Nat} (hs : slot < 16) (h : ∀ t, t < 16 → d.slotState t = 0) (m : List Byte) (ctx : Nat) :
    d.loadClaim m slot ctx = (0, (d.tilesClaimed m slot).slotLoading m slot ctx) := by
  have hkept : ∀ l : List Nat, (∀ t ∈ l, t < 16) → l.foldl (fun (x : Nat × Dev) s =>
      if s ≠ slot ∧ x.2.slotState s ≠ 0 ∧ (List.range (mRegions m)).any fun r => x.2.slotUnit s (rTile m r) (rUnit m r) then
        (x.1 + 2 ^ s, x.2.evict s 2)
      else x) (0, d) = (0, d) := by
    intro l hl
    induction l with
    | nil => rfl
    | cons t l ih =>
      rw [List.foldl_cons, if_neg fun hc => hc.2.1 (h t (hl t (List.mem_cons_self)))]
      exact ih fun y hy => hl y (List.mem_cons_of_mem _ hy)
  have hown : ¬ 2 ≤ d.slotState slot := by rw [h slot hs]; decide
  rw [Dev.loadClaim, if_neg hown, hkept _ fun _ => List.mem_range.mp]
  rfl

theorem slotLoading_effect (d : Dev) (m : List Byte) {slot ctx : Nat} (hctx : ctx < 256) :
    let e := d.slotLoading m slot ctx
    e.slotState slot = 1 ∧ e.getF (WTR_SLOT_STATE_CONTEXT slot) = ctx ∧ e.getR (WTR_SLOT_TILES slot) = mTileMask m ∧
      e.getN WTR_LOAD_SEQ = (d.getN WTR_LOAD_SEQ + 1) % 2 ^ 32 ∧ e.getN WTR_LOAD_CHUNKS = mChunks m % 2 ^ 32 ∧ e.getN WTR_LOAD_DONE = 0 ∧
      d.sameBesideAges e ∧ ∀ p, p < 0x700000 → e.getR p = d.getR p := by
  obtain ⟨x, hx⟩ : ∃ x, x = (d.setF (WTR_SLOT_STATE_STATE slot) 1).setF (WTR_SLOT_STATE_CONTEXT slot) ctx := ⟨_, rfl⟩
  obtain ⟨y, hy⟩ : ∃ y, y = (x.setR (WTR_SLOT_TILES slot) (mTileMask m)).setPair (WTR_SLOT_MODEL_LO slot) (WTR_SLOT_MODEL_HI slot)
    (mLe m 8 8) := ⟨_, rfl⟩
  have he : d.slotLoading m slot ctx = ((y.setN WTR_LOAD_SEQ (y.getN WTR_LOAD_SEQ + 1)).setN WTR_LOAD_CHUNKS (mChunks m)).setN
      WTR_LOAD_DONE 0 := by rw [hy, hx, Dev.slotLoading]
  have hload : ∀ p, p ≠ WTR_LOAD_SEQ → p ≠ WTR_LOAD_CHUNKS → p ≠ WTR_LOAD_DONE → (d.slotLoading m slot ctx).getR p = y.getR p := by
    intro p h1 h2 h3
    rw [he, getR_setN, if_neg h3, getR_setN, if_neg h2, getR_setN, if_neg h1]
  have hslot : ∀ p, 0x700100 ≤ p → (d.slotLoading m slot ctx).getR p = y.getR p := fun p hp =>
    hload p (by simp only [WTR_LOAD_SEQ]; omega) (by simp only [WTR_LOAD_CHUNKS]; omega) (by simp only [WTR_LOAD_DONE]; omega)
  have hstate : y.getR (WTR_SLOT_STATE slot) = x.getR (WTR_SLOT_STATE slot) := by
    rw [hy, getR_setPair_ne _ _ (by simp only [WTR_SLOT_STATE, WTR_SLOT_MODEL_LO]; omega)
      (by simp only [WTR_SLOT_STATE, WTR_SLOT_MODEL_HI]; omega), getR_setR_ne _ _ (by simp only [WTR_SLOT_STATE, WTR_SLOT_TILES]; omega)]
  have hlow : ∀ p, p < 0x700100 → y.getR p = d.getR p := fun p hp => by
    rw [hy, getR_setPair_ne _ _ (by simp only [WTR_SLOT_MODEL_LO]; omega) (by simp only [WTR_SLOT_MODEL_HI]; omega),
      getR_setR_ne _ _ (by simp only [WTR_SLOT_TILES]; omega), hx, getR_setF_ne _ _ (by simp only [WTR_SLOT_STATE]; omega),
      getR_setF_ne _ _ (by simp only [WTR_SLOT_STATE]; omega)]
  refine ⟨?_, ?_, ?_, ?_, ?_, ?_, ?_, fun p hp => ?_⟩
  · rw [Dev.slotState, getF_congr ((hslot _ (by simp)).trans hstate), hx, getF_setF_ne _ _ _ _ (by simp) (by simp),
      getF_setF_self _ _ _ (by simp)]
    rfl
  · rw [getF_congr ((hslot _ (by simp)).trans hstate), hx, getF_setF_self _ _ _ (by simp)]
    exact Nat.mod_eq_of_lt hctx
  · rw [hslot _ (by simp only [WTR_SLOT_TILES]; omega), hy, getR_setPair_ne _ _ (by simp only [WTR_SLOT_TILES, WTR_SLOT_MODEL_LO]; omega)
      (by simp only [WTR_SLOT_TILES, WTR_SLOT_MODEL_HI]; omega), getR_setR_self]
  · rw [he, getN_setN, if_neg (by decide), getN_setN, if_neg (by decide), getN_setN, if_pos rfl, getN_congr (hlow _ (by decide))]
  · rw [he, getN_setN, if_neg (by decide), getN_setN, if_pos rfl]
  · rw [he, getN_setN, if_pos rfl, Nat.zero_mod]
  · rw [Dev.sameBesideAges]
    apply dev_ext
    simp [he, hy, hx]
  · rw [hload p (by simp only [WTR_LOAD_SEQ]; omega) (by simp only [WTR_LOAD_CHUNKS]; omega) (by simp only [WTR_LOAD_DONE]; omega),
      hlow p (by omega)]

/-- A job of MODEL_LOAD or REGION_REWRITE with its Reads begun. -/
theorem jobBegun_effect (d : Dev) (j : LoadJob) : ∃ i : LoadJob, (d.withJob j).issueReads.res.job = some i ∧ i = { j with chunks := i.chunks } ∧
    (d.withJob j).issueReads.tiles = d.tiles ∧ (d.withJob j).issueReads.mbxBusy = d.mbxBusy ∧
      ∀ p, (d.withJob j).issueReads.getR p = d.getR p := by
  obtain ⟨i, hjob, hi, -, htiles, hmbx, hregs⟩ := issueReads_effect (job_withJob d j)
  exact ⟨i, hjob, hi, htiles, by rw [Dev.mbxBusy, hmbx]; rfl, hregs⟩

section
variable {s : State} {slot : Fin 16} {m : List Byte} (hready : s.dev.mbxReady) (hslot : s.dev.getN (HUB_MBX_P 0) / 2 ^ 28 = slot)
  (hzero : s.dev.getN (HUB_MBX_P 0) % 2 ^ 19 = 0) (hlen : m.length ≤ s.dev.getN (HUB_MBX_P 3))
include hready hslot hzero hlen

theorem exec_modelLoad_bad (now : Nat) {det : Nat}
    (hcheck : s.dev.loadCheck slot (s.dev.getN (HUB_MBX_P 0) / 2 ^ 19 % 2) (s.dev.getN (HUB_MBX_P 3)) (s.dev.getN (HUB_MBX_P 7)) (some m) =
      some det) : exec (.modelLoad now (some m) false) s = .next (s.put ((s.dev.mbxBegun 0x0101 now).mbxFail det)) := by
  have hbegun := mbxBegun_effect s.dev 0x0101 now
  change execModelLoad now (some m) false s = _
  refine onDevF_mbxIssue hready ?_
  dsimp only
  rw [← Dev.mbxBegun]
  generalize s.dev.mbxBegun 0x0101 now = b at *
  simp only [Bool.false_eq_true, false_and, if_false, Option.map_some, hbegun.param 0 (by decide), hbegun.param 3 (by decide),
    hbegun.param 7 (by decide), hslot, hzero, List.take_of_length_le hlen, begins_loadCheck hbegun slot.isLt, hcheck, ne_eq, not_true_eq_false]

/-- The job that MODEL_LOAD leaves. -/
def Dev.loadJob (d : Dev) (slot : Nat) (m : List Byte) (now : Nat) : LoadJob :=
  newJob slot (d.getN (HUB_MBX_P 0) / 2 ^ 20 % 256) (d.getN (HUB_MBX_P 0) / 2 ^ 19 % 2)
    (d.getN (HUB_MBX_P 1) + d.getN (HUB_MBX_P 2) * 2 ^ 32) m (d.getN (HUB_MBX_P 4) + d.getN (HUB_MBX_P 5) * 2 ^ 32) (d.getN (HUB_MBX_P 6))
    now none 0 0

theorem exec_modelLoad_good (now : Nat) (hempty : ∀ t, t < 16 → s.dev.slotState t = 0)
    (hcheck : s.dev.loadCheck slot (s.dev.getN (HUB_MBX_P 0) / 2 ^ 19 % 2) (s.dev.getN (HUB_MBX_P 3)) (s.dev.getN (HUB_MBX_P 7)) (some m) =
      none) : exec (.modelLoad now (some m) false) s = .next (s.put (((((s.dev.mbxBegun 0x0101 now).tilesClaimed m slot).slotLoading m slot
        (s.dev.getN (HUB_MBX_P 0) / 2 ^ 20 % 256)).withJob (s.dev.loadJob slot m (max s.dev.now now))).issueReads)) := by
  have hbegun := mbxBegun_effect s.dev 0x0101 now
  change execModelLoad now (some m) false s = _
  refine onDevF_mbxIssue hready ?_
  dsimp only
  rw [← Dev.mbxBegun]
  generalize s.dev.mbxBegun 0x0101 now = b at *
  have hclaim := loadClaim_empty (d := b) slot.isLt (fun t ht => (begins_slotState hbegun ht).trans (hempty t ht)) m
  simp only [Bool.false_eq_true, false_and, if_false, Option.map_some, hbegun.param 0 (by decide), hbegun.param 3 (by decide),
    hbegun.param 7 (by decide), hslot, hzero, List.take_of_length_le hlen, begins_loadCheck hbegun slot.isLt, hcheck, ne_eq, not_true_eq_false,
    hclaim, hbegun.param 1 (by decide), hbegun.param 2 (by decide), hbegun.param 4 (by decide), hbegun.param 5 (by decide),
    hbegun.param 6 (by decide), hbegun.now]
  rfl

theorem modelLoad_fails (now : Nat) {det : Nat}
    (hcheck : s.dev.loadCheck slot (s.dev.getN (HUB_MBX_P 0) / 2 ^ 19 % 2) (s.dev.getN (HUB_MBX_P 3)) (s.dev.getN (HUB_MBX_P 7)) (some m) =
      some det) (hdet : det < 2 ^ 8) :
    ∃ e : Dev, exec (.modelLoad now (some m) false) s = .next (s.put e) ∧ s.dev.commandFailed e det :=
  ⟨_, exec_modelLoad_bad hready hslot hzero hlen now hcheck, commandFailed_of_begins (mbxBegun_effect s.dev 0x0101 now) hdet⟩

theorem modelLoad_begins (now : Nat) (hempty : ∀ t, t < 16 → s.dev.slotState t = 0)
    (hcheck : s.dev.loadCheck slot (s.dev.getN (HUB_MBX_P 0) / 2 ^ 19 % 2) (s.dev.getN (HUB_MBX_P 3)) (s.dev.getN (HUB_MBX_P 7)) (some m) =
      none) :
    ∃ (e : Dev) (j : LoadJob), exec (.modelLoad now (some m) false) s = .next (s.put e) ∧ e.res.job = some j ∧ j.man = m ∧ j.slot = slot ∧
      j.ctx = s.dev.getN (HUB_MBX_P 0) / 2 ^ 20 % 256 ∧ j.region = none ∧ j.ending = none ∧
      j.repAddr = s.dev.getN (HUB_MBX_P 4) + s.dev.getN (HUB_MBX_P 5) * 2 ^ 32 ∧ j.repLen = s.dev.getN (HUB_MBX_P 6) ∧ j.evicted = 0 ∧
      e.slotState slot = 1 ∧ e.getF (WTR_SLOT_STATE_CONTEXT slot) = s.dev.getN (HUB_MBX_P 0) / 2 ^ 20 % 256 ∧
      e.getR (WTR_SLOT_TILES slot) = mTileMask m ∧ e.getN WTR_LOAD_SEQ = (s.dev.getN WTR_LOAD_SEQ + 1) % 2 ^ 32 ∧
      e.getN WTR_LOAD_CHUNKS = mChunks m % 2 ^ 32 ∧ e.getN WTR_LOAD_DONE = 0 ∧ e.getF HUB_MBX_STATUS_STATUS = 1 ∧ e.mbxBusy = true := by
  have hbegun := mbxBegun_effect s.dev 0x0101 now
  have hexec := exec_modelLoad_good hready hslot hzero hlen now hempty hcheck
  generalize s.dev.mbxBegun 0x0101 now = b at *
  have honly := linesOnly_tilesClaimed b m slot
  obtain ⟨hstate, hctx, hmask, hseq, hchunks, hdone, hsame, hregs⟩ :=
    slotLoading_effect (b.tilesClaimed m slot) m (slot := slot) (ctx := s.dev.getN (HUB_MBX_P 0) / 2 ^ 20 % 256) (Nat.mod_lt _ (by decide))
  obtain ⟨-, -, hmbx, -⟩ := honly.fields
  obtain ⟨hmbx', -⟩ := hsame.rest
  obtain ⟨x, hx⟩ : ∃ x, x = (b.tilesClaimed m slot).slotLoading m slot (s.dev.getN (HUB_MBX_P 0) / 2 ^ 20 % 256) := ⟨_, rfl⟩
  rw [← hx] at hexec hstate hctx hmask hseq hchunks hdone hregs hmbx'
  obtain ⟨i, hjob, hi, -, hbusy, hkept⟩ := jobBegun_effect x (s.dev.loadJob slot m (max s.dev.now now))
  refine ⟨_, i, hexec, hjob, ?_, ?_, ?_, ?_, ?_, ?_, ?_, ?_, (getF_congr (hkept _)).trans hstate, (getF_congr (hkept _)).trans hctx,
    (hkept _).trans hmask, ?_, (getN_congr (hkept _)).trans hchunks, (getN_congr (hkept _)).trans hdone, ?_, ?_⟩
  -- the job's own fields
  iterate 8
    rw [hi]
    rfl
  · rw [getN_congr (hkept _), hseq, getN_congr (honly.2 _ (not_memBlock_of_hub (by decide))), getN_congr (begins_getR hbegun (by decide))]
  · rw [getF_congr (hkept _), getF_congr (hregs _ (by decide)), getF_congr (honly.2 _ (not_memBlock_of_hub (by decide))), hbegun.status]
  · rw [hbusy, Dev.mbxBusy, hmbx', hmbx, ← Dev.mbxBusy, hbegun.busy]

end

end Sys2Proof.Machine
end

section
/-! MODEL_EVICT, REGION_REWRITE and DRIVE_IMAGE (R198, R228, R229). -/

namespace Sys2Proof.Machine

open Reg

/-! MODEL_EVICT. -/

section
variable {s : State} {slot : Fin 16} (hready : s.dev.mbxReady) (hp0 : s.dev.getN (HUB_MBX_P 0) = slot * 2 ^ 28)
  (hzero : ∀ k, 1 ≤ k → k < 8 → s.dev.getN (HUB_MBX_P k) = 0)
include hready hp0 hzero

/-- MODEL_EVICT by the state of its slot. -/
theorem exec_modelEvict (now : Nat) : exec (.modelEvict now) s = .next (s.put
    (if s.dev.slotState slot = 0 then (s.dev.mbxBegun 0x0102 now).mbxDone
     else if s.dev.slotState slot = 4 then (s.dev.mbxBegun 0x0102 now).mbxFail 0x0E
     else ((s.dev.mbxBegun 0x0102 now).evict slot 1).mbxDone)) := by
  have hbegun := mbxBegun_effect s.dev 0x0102 now
  change execModelEvict now s = _
  refine onDevF_mbxIssue hready ?_
  dsimp only
  rw [← Dev.mbxBegun]
  generalize s.dev.mbxBegun 0x0102 now = b at *
  have hslot : s.dev.getN (HUB_MBX_P 0) / 2 ^ 28 = slot := by rw [hp0]; omega
  have hlow : s.dev.getN (HUB_MBX_P 0) % 2 ^ 28 = 0 := by rw [hp0]; omega
  rw [hbegun.param 0 (by decide), hslot, hlow, begins_paramsZero hbegun hzero (by decide), begins_slotState hbegun slot.isLt]
  exact if_neg (by decide)

theorem modelEvict_empty (now : Nat) (hst : s.dev.slotState slot = 0) : ∃ e : Dev, exec (.modelEvict now) s = .next (s.put e) ∧
    (e.getF HUB_MBX_STATUS_STATUS = 2 ∧ e.mbxBusy = false) ∧ e.tiles = s.dev.tiles := by
  have hexec := exec_modelEvict hready hp0 hzero now
  rw [if_pos hst] at hexec
  obtain ⟨honly, hdone⟩ := mbxDone_effect (s.dev.mbxBegun 0x0102 now)
  obtain ⟨-, -, htiles, -⟩ := honly.fields
  exact ⟨_, hexec, hdone, htiles.trans (mbxBegun_effect s.dev 0x0102 now).tiles⟩

theorem modelEvict_bound (now : Nat) (hst : s.dev.slotState slot = 4) :
    ∃ e : Dev, exec (.modelEvict now) s = .next (s.put e) ∧ s.dev.commandFailed e 0x0E := by
  have hexec := exec_modelEvict hready hp0 hzero now
  rw [if_neg (by rw [hst]; decide), if_pos hst] at hexec
  exact ⟨_, hexec, commandFailed_of_begins (mbxBegun_effect s.dev 0x0102 now) (by decide)⟩

theorem modelEvict_ready (now : Nat) (hst : s.dev.slotState slot = 3) : ∃ e : Dev, exec (.modelEvict now) s = .next (s.put e) ∧
    (e.getF HUB_MBX_STATUS_STATUS = 2 ∧ e.mbxBusy = false) ∧ e.slotState slot = 0 ∧ e.getF (WTR_SLOT_STATE_REASON slot) = 1 ∧
    e.getR (WTR_SLOT_TILES slot) = 0 ∧ e.regBit WTR_EVENT 2 = true ∧
    e.getN WTR_EVICT_COUNT = min (s.dev.getN WTR_EVICT_COUNT + 1) 0xFFFFFFFF ∧
    ∀ n ∈ s.dev.maskTiles (s.dev.getR (WTR_SLOT_TILES slot)), ∀ a, slotRec slot ≤ a → a < slotRec slot + 0x840 →
      memGet (e.tile n).dram a = 0 := by
  have hbegun := mbxBegun_effect s.dev 0x0102 now
  have hexec := exec_modelEvict hready hp0 hzero now
  rw [if_neg (by rw [hst]; decide), if_neg (by rw [hst]; decide), Dev.evict] at hexec
  generalize s.dev.mbxBegun 0x0102 now = b at *
  obtain ⟨x, hx⟩ : ∃ x, x = b.satInc WTR_EVICT_COUNT := ⟨_, rfl⟩
  rw [← hx] at hexec
  have hregs : ∀ p, p ≠ WTR_EVICT_COUNT → x.getR p = b.getR p := fun p hp => by rw [hx, getR_satInc_ne _ hp]
  have hgone := slotEmpty_effect x slot.isLt (reason := 1) (by decide)
  generalize x.slotEmpty slot 1 = y at *
  obtain ⟨honly, hdone⟩ := mbxDone_effect y
  obtain ⟨-, -, htiles, -⟩ := honly.fields
  have hkept : ∀ p, 0x700000 ≤ p → p < 0x800000 → y.mbxDone.getR p = y.getR p := fun p h1 h2 =>
    honly.2 p (by simp only [mbxRegs, HUB_MBX_CMD, HUB_MBX_STATUS]; omega)
  have hbefore : x.slotState slot = 3 := by
    rw [Dev.slotState, getF_congr (hregs _ (by simp only [WTR_SLOT_STATE, WTR_EVICT_COUNT]; omega)), ← Dev.slotState,
      begins_slotState hbegun slot.isLt, hst]
  have hmask : x.maskTiles (x.getR (WTR_SLOT_TILES slot)) = s.dev.maskTiles (s.dev.getR (WTR_SLOT_TILES slot)) := by
    have hservice : ∀ n, x.inService n = b.inService n := regBit_congr (hregs _ (by decide))
    rw [hregs _ (by simp only [WTR_SLOT_TILES, WTR_EVICT_COUNT]; omega), begins_slotTiles hbegun slot.isLt, ← begins_maskTiles hbegun]
    simp only [Dev.maskTiles, hservice]
  refine ⟨_, hexec, hdone, ?_, ?_, ?_, ?_, ?_, fun n hn a ha hlt => ?_⟩
  · exact (getF_congr (hkept _ (by simp only [WTR_SLOT_STATE]; omega) (by simp only [WTR_SLOT_STATE]; omega))).trans hgone.state
  · exact (getF_congr (hkept _ (by simp only [WTR_SLOT_STATE]; omega) (by simp only [WTR_SLOT_STATE]; omega))).trans hgone.reason
  · exact (hkept _ (by simp only [WTR_SLOT_TILES]; omega) (by simp only [WTR_SLOT_TILES]; omega)).trans hgone.mask
  · rw [regBit_congr (hkept _ (by decide) (by decide)), hgone.event (by rw [hbefore]; decide)]
  · have hcount : ¬ slotRegs slot WTR_EVICT_COUNT := by
      simp only [slotRegs, not_or, WTR_EVICT_COUNT, WTR_SLOT_STATE, WTR_SLOT_TILES, WTR_EVENT, WTR_EVENT_SEQ, HUB_LOG_HEAD]
      exact ⟨by omega, by omega, by omega, by omega, by omega, not_memBlock_of_hub (by decide)⟩
    rw [getN_congr (hkept _ (by decide) (by decide)), getN_congr (hgone.regs _ hcount), hx, getN_satInc,
      getN_congr (begins_getR hbegun (by decide))]
  · rw [tile_congr htiles]
    exact hgone.records n (hmask ▸ hn) a ha hlt

end

/-! REGION_REWRITE. -/

section
variable {s : State} {slot : Fin 16} {n : Fin 32} {u : Nat} {m : List Byte} (hready : s.dev.mbxReady) (hu : u < unitsPerTile)
  (hp0 : s.dev.getN (HUB_MBX_P 0) = slot * 2 ^ 28 + n * 2 ^ 23 + u * 2 ^ 9)
  (hzero : ∀ k, 1 ≤ k → k < 8 → s.dev.getN (HUB_MBX_P k) = 0)

/-- The job that REGION_REWRITE leaves for region `r` of the manifest. -/
def Dev.rewriteJob (d : Dev) (slot : Nat) (m : List Byte) (r now : Nat) : LoadJob :=
  newJob slot (mLe (d.slotCommit slot) 0x1D 1) (mLe (d.slotCommit slot) 0x1E 1) (mLe (d.slotCommit slot) 0x20 8) m 0 0 now (some r) 0 0

include hready hu hp0 hzero

/-- REGION_REWRITE by the result of its checks. -/
theorem exec_regionRewrite (now : Nat) : exec (.regionRewrite now (some m) false) s = .next (s.put
    (match s.dev.rewriteCheck slot n u (some m) with
     | .inl det => (s.dev.mbxBegun 0x0103 now).mbxFail det
     | .inr (m', r) => ((s.dev.mbxBegun 0x0103 now).withJob (s.dev.rewriteJob slot m' r (max s.dev.now now))).issueReads)) := by
  have hbegun := mbxBegun_effect s.dev 0x0103 now
  change execRegionRewrite now (some m) false s = _
  refine onDevF_mbxIssue hready ?_
  dsimp only
  rw [← Dev.mbxBegun]
  generalize s.dev.mbxBegun 0x0103 now = b at *
  rw [unitsPerTile] at hu
  have hslot : s.dev.getN (HUB_MBX_P 0) / 2 ^ 28 = slot := by rw [hp0]; omega
  have htile : (Fin.ofNat 32 (s.dev.getN (HUB_MBX_P 0) / 2 ^ 23) : Fin 32) = n := by
    apply Fin.ext
    rw [hp0, Fin.val_ofNat]
    omega
  have hunit : s.dev.getN (HUB_MBX_P 0) / 2 ^ 9 % 2 ^ 14 = u := by rw [hp0]; omega
  have hlow : s.dev.getN (HUB_MBX_P 0) % 2 ^ 9 = 0 := by rw [hp0]; omega
  rw [hbegun.param 0 (by decide), hslot, htile, hunit, hlow, begins_paramsZero hbegun hzero (by decide), begins_rewriteCheck hbegun slot.isLt,
    begins_slotCommit hbegun slot.isLt, if_neg (by decide)]
  cases s.dev.rewriteCheck slot n u (some m) with
  | inl det => simp
  | inr x =>
    simp only [Bool.false_eq_true, if_false, Dev.rewriteJob, ← hbegun.now]
    rfl

theorem regionRewrite_fails (now : Nat) {det : Nat} (hcheck : s.dev.rewriteCheck slot n u (some m) = .inl det) (hdet : det < 2 ^ 8) :
    ∃ e : Dev, exec (.regionRewrite now (some m) false) s = .next (s.put e) ∧ s.dev.commandFailed e det := by
  have hexec := exec_regionRewrite (m := m) hready hu hp0 hzero now
  rw [hcheck] at hexec
  exact ⟨_, hexec, commandFailed_of_begins (mbxBegun_effect s.dev 0x0103 now) hdet⟩

theorem regionRewrite_begins (now : Nat) {m' : List Byte} {r : Nat} (hcheck : s.dev.rewriteCheck slot n u (some m) = .inr (m', r)) :
    ∃ (e : Dev) (j : LoadJob), exec (.regionRewrite now (some m) false) s = .next (s.put e) ∧ e.res.job = some j ∧ j.man = m' ∧
      j.region = some r ∧ j.slot = slot ∧ j.ending = none ∧ e.mbxBusy = true ∧ e.tiles = s.dev.tiles ∧
      e.slotState slot = s.dev.slotState slot := by
  have hexec := exec_regionRewrite (m := m) hready hu hp0 hzero now
  rw [hcheck] at hexec
  have hbegun := mbxBegun_effect s.dev 0x0103 now
  obtain ⟨i, hjob, hi, htiles, hbusy, hkept⟩ := jobBegun_effect (s.dev.mbxBegun 0x0103 now) (s.dev.rewriteJob slot m' r (max s.dev.now now))
  refine ⟨_, i, hexec, hjob, ?_, ?_, ?_, ?_, hbusy.trans hbegun.busy, htiles.trans hbegun.tiles,
    (getF_congr (hkept _)).trans (begins_slotState hbegun slot.isLt)⟩
  -- the job's own fields
  iterate 4
    rw [hi]
    rfl

end

/-! DRIVE_IMAGE. -/

section
variable {s : State} {k : Fin 2} (hready : s.dev.mbxReady) (hp0 : s.dev.getN (HUB_MBX_P 0) = k * 2 ^ 31)
  (hp6 : s.dev.getN (HUB_MBX_P 6) = 0) (hp7 : s.dev.getN (HUB_MBX_P 7) = 0) (hmax : s.dev.getN (HUB_MBX_P 3) ≤ 0x4000000)
  (hsector : s.dev.getN (HUB_MBX_P 3) % 512 = 0)

/-- WRITE_EN of a drive. -/
def writeEn (k : Fin 2) : Fld := if k = 0 then WTR_DRIVE_CTRL_WRITE_EN_A else WTR_DRIVE_CTRL_WRITE_EN_B

include hready hp0 hp6 hp7 hmax hsector

/-- DRIVE_IMAGE by WRITE_EN and READY of its drive. -/
theorem exec_driveImage (now : Nat) (data : List Byte) : exec (.driveImage now (some data) true none) s = .next (s.put
    (if s.dev.flag (writeEn k) = false then (s.dev.mbxBegun 0x0104 now).mbxFail 0x10
     else if s.dev.driveOk k = false then (s.dev.mbxBegun 0x0104 now).mbxFail 0x05
     else ((s.dev.mbxBegun 0x0104 now).emits [.signal "NVME_WRITE" [k, s.dev.getN (HUB_MBX_P 1) + s.dev.getN (HUB_MBX_P 2) * 2 ^ 32,
       s.dev.getN (HUB_MBX_P 3)], .signal "NVME_FLUSH" [k]]).mbxDone)) := by
  have hbegun := mbxBegun_effect s.dev 0x0104 now
  change execDriveImage now (some data) true none s = _
  refine onDevF_mbxIssue hready ?_
  dsimp only
  rw [← Dev.mbxBegun]
  generalize s.dev.mbxBegun 0x0104 now = b at *
  have hdrive : s.dev.getN (HUB_MBX_P 0) / 2 ^ 31 = k := by rw [hp0]; omega
  have hlow : s.dev.getN (HUB_MBX_P 0) % 2 ^ 31 = 0 := by rw [hp0]; omega
  have hfld : (if k.val = 0 then WTR_DRIVE_CTRL_WRITE_EN_A else WTR_DRIVE_CTRL_WRITE_EN_B) = writeEn k := by
    simp only [writeEn, Fin.ext_iff, Fin.val_zero]
  have hen : b.flag (writeEn k) = s.dev.flag (writeEn k) := by
    refine flag_congr (begins_getR hbegun ?_)
    unfold writeEn
    split <;> decide
  have hlast : b.paramsZeroFrom 6 = true := by
    rw [Dev.paramsZeroFrom, List.all_eq_true]
    intro i hi
    have hlt := List.mem_range.mp hi
    by_cases h6 : i < 6
    · simp [h6]
    · obtain rfl | rfl : i = 6 ∨ i = 7 := by omega
      · simp [hbegun.param 6 (by decide), hp6]
      · simp [hbegun.param 7 (by decide), hp7]
  simp only [hbegun.param 0 (by decide), hbegun.param 1 (by decide), hbegun.param 2 (by decide), hbegun.param 3 (by decide), hdrive, hlow, hlast,
    hsector, hfld, hen, begins_driveOk hbegun, if_true, Bool.not_eq_true]
  exact if_neg (by simp [hmax])

theorem driveImage_writes (now : Nat) (data : List Byte) (hen : s.dev.flag (writeEn k) = true) (hok : s.dev.driveOk k = true) :
    ∃ e : Dev, exec (.driveImage now (some data) true none) s = .next (s.put e) ∧ (e.getF HUB_MBX_STATUS_STATUS = 2 ∧ e.mbxBusy = false) ∧
      e.out = s.dev.out ++ [.signal "NVME_WRITE" [k, s.dev.getN (HUB_MBX_P 1) + s.dev.getN (HUB_MBX_P 2) * 2 ^ 32,
        s.dev.getN (HUB_MBX_P 3)], .signal "NVME_FLUSH" [k]] ∧ e.tiles = s.dev.tiles := by
  have hexec := exec_driveImage hready hp0 hp6 hp7 hmax hsector now data
  rw [if_neg (by rw [hen]; decide), if_neg (by rw [hok]; decide)] at hexec
  have hbegun := mbxBegun_effect s.dev 0x0104 now
  obtain ⟨honly, hdone⟩ := mbxDone_effect ((s.dev.mbxBegun 0x0104 now).emits [.signal "NVME_WRITE" [k, s.dev.getN (HUB_MBX_P 1) +
    s.dev.getN (HUB_MBX_P 2) * 2 ^ 32, s.dev.getN (HUB_MBX_P 3)], .signal "NVME_FLUSH" [k]])
  obtain ⟨-, hout, htiles, -⟩ := honly.fields
  refine ⟨_, hexec, hdone, ?_, ?_⟩
  · rw [hout, out_emits, hbegun.out]
  · rw [htiles, tiles_emits, hbegun.tiles]

theorem driveImage_locked (now : Nat) (data : List Byte) (hen : s.dev.flag (writeEn k) = false) :
    ∃ e : Dev, exec (.driveImage now (some data) true none) s = .next (s.put e) ∧ s.dev.commandFailed e 0x10 := by
  have hexec := exec_driveImage hready hp0 hp6 hp7 hmax hsector now data
  rw [if_pos hen] at hexec
  exact ⟨_, hexec, commandFailed_of_begins (mbxBegun_effect s.dev 0x0104 now) (by decide)⟩

theorem driveImage_unready (now : Nat) (data : List Byte) (hen : s.dev.flag (writeEn k) = true) (hok : s.dev.driveOk k = false) :
    ∃ e : Dev, exec (.driveImage now (some data) true none) s = .next (s.put e) ∧ s.dev.commandFailed e 0x05 := by
  have hexec := exec_driveImage hready hp0 hp6 hp7 hmax hsector now data
  rw [if_neg (by rw [hen]; decide), if_pos hok] at hexec
  exact ⟨_, hexec, commandFailed_of_begins (mbxBegun_effect s.dev 0x0104 now) (by decide)⟩

end

end Sys2Proof.Machine
end

section
/-! Drive reads, the stages of a model load, and the commands on model slots. -/

namespace Sys2Proof.Machine

open Reg

/-- Settles O46, a theorem for each event of a drive, each stage of a load and each command: a load that fails in any of them ends through
`loadFail_effect`, and every claim about DRAM comes from `homeWrite_effect` and `homeRead_clean`. -/
theorem modelLoads : Obligations.ModelLoads := by
  unfold Obligations.ModelLoads
  refine ⟨fun s k now c speed width maxRead data j hf => ⟨?_, ?_, ?_, ?_, ?_, ?_, ?_⟩,
    fun s n c r now j hf hj hs hreg => ⟨?_, ?_, ?_, ?_⟩, fun s now slot hwarm hfatal hidle hopen => ?_⟩
  -- the drives
  · exact driveLinkDown_unneeded hf now
  · exact fun hj hneeds hreg hs => driveLinkDown_needed hf now hj hneeds hreg hs
  · exact driveLinkUp_effect hf speed width
  · exact driveReady_linked hf maxRead
  · exact driveReady_unlinked hf maxRead
  · exact fun hj hend hc hk hreg hs => ⟨fun hreads =>
      ⟨driveReadComplete_good hf hj hend hc hk hreads now,
        fun hcrc => ⟨driveReadComplete_crc_first hf hj hc hk hreads now hcrc, driveReadComplete_crc_second hf hj hend hk hreg hs hreads now hcrc⟩,
        readFails_first hf hj hc hk hreads data now, readFails_second hf hj hend hreg hs hreads data now⟩,
      chunkForward_effect hf hj hend hc⟩
  · exact fun hj => read_of_no_load hf hj k c data now
  -- the stages of a load
  · exact fun hend hc hst htile hfirst =>
      ⟨fun hout hoff hlen _ ⟨hle, hline, hin⟩ => chunkWring_good hf hj hreg hend hc hst htile hfirst now hout hoff hlen hle hline hin,
        fun _ hout => chunkWring_bad hf hj hs hreg hend hc hst htile hfirst now hout⟩
  · rintro hend hr - hw hst rfl - hline - hclean
    exact ⟨regionVerify_good hf hj hreg hend hr hw hst hline hclean now, regionVerify_bad hf hj hreg hend hr hw hst hline hclean hs now⟩
  · exact fun hend => loadCommit_effect hf hj hreg hend now
  · exact fun st det t hend hst hdet => ⟨loadReport_sent hf hj hend hst hdet, loadReport_unsent hf hj hend hst hdet⟩
  -- the commands on slots
  · have hready : s.dev.mbxReady := ⟨hwarm, hfatal, hidle, hopen⟩
    refine ⟨fun m hslot hzero hlen => ⟨?_, fun det => modelLoad_fails hready hslot hzero hlen now⟩, fun hp0 hzero => ⟨?_, ?_, ?_⟩,
      fun n u m hu hp0 hzero => ⟨?_, ?_⟩, fun k data hp0 hp6 hp7 hmax hsector => ⟨?_, ?_, ?_⟩, fun hf hst hclean => ⟨?_, ?_⟩⟩
    · exact fun hcheck hempty => modelLoad_begins hready hslot hzero hlen now hempty hcheck
    · exact modelEvict_empty hready hp0 hzero now
    · exact modelEvict_ready hready hp0 hzero now
    · exact modelEvict_bound hready hp0 hzero now
    · exact fun m' r => regionRewrite_begins hready hu hp0 hzero now
    · exact fun det => regionRewrite_fails hready hu hp0 hzero now
    · exact driveImage_writes hready hp0 hp6 hp7 hmax hsector now data
    · exact driveImage_locked hready hp0 hp6 hp7 hmax hsector now data
    · exact driveImage_unready hready hp0 hp6 hp7 hmax hsector now data
    · exact slotReverify_good hf hst hclean now
    · exact slotReverify_bad hf hst hclean now

end Sys2Proof.Machine
end

section
/-! States that meet the hypotheses of the statement on model loads. -/

namespace Sys2Proof.Machine

open Reg

/-! A model of one chunk of 64 bytes, copied to unit 1 of tile 0. -/

/-- The chunk. -/
def witnessChunk : List Byte := List.replicate 64 0x2A

/-- The manifest's header up to MANIFEST_CRC. -/
def witnessHeader : List Byte :=
  leBytes 4 0x4D575A4B ++ leBytes 2 1 ++ leBytes 2 0x100 ++ leBytes 8 7 ++ leBytes 8 1 ++ leBytes 4 0 ++ leBytes 4 1 ++ leBytes 4 1 ++
    leBytes 4 1 ++ leBytes 4 1 ++ leBytes 4 1 ++ leBytes 8 64 ++ List.replicate 196 0

/-- Its entries: one tensor, one region and one chunk. -/
def witnessEntries : List Byte :=
  leBytes 2 0 ++ [15, 15, 32] ++ List.replicate 27 0 ++
    (leBytes 4 0 ++ leBytes 4 1 ++ leBytes 4 64 ++ leBytes 4 (residentCrc 0 1 witnessChunk) ++ leBytes 4 0 ++ leBytes 4 1 ++ leBytes 8 0) ++
    (leBytes 4 0 ++ leBytes 4 64 ++ leBytes 8 0 ++ leBytes 4 0 ++ leBytes 4 64 ++ leBytes 4 (chunkCrc 0 witnessChunk) ++ leBytes 4 0)

/-- The manifest. -/
def witnessManifest : List Byte :=
  witnessHeader ++ leBytes 4 (crc32c (witnessHeader ++ [0, 0, 0, 0] ++ witnessEntries)) ++ witnessEntries

theorem crc32c_lt (b : List Byte) : crc32c b < 2 ^ 32 := Nat.mod_lt _ (by decide)

theorem witnessManifest_crc : manifestCrc witnessManifest = mLe witnessManifest 0xFC 4 := by
  obtain ⟨c, hc⟩ : ∃ c, c = crc32c (witnessHeader ++ [0, 0, 0, 0] ++ witnessEntries) := ⟨_, rfl⟩
  have hlt : c < 256 ^ 4 := hc ▸ crc32c_lt _
  have hman : witnessManifest = witnessHeader ++ (leBytes 4 c ++ witnessEntries) := by rw [witnessManifest, ← hc, List.append_assoc]
  have hlen : witnessHeader.length = 0xFC := by decide +kernel
  have hcrc : (leBytes 4 c).length = 4 := leBytes_length 4 c
  have htake : witnessManifest.take 0xFC = witnessHeader := by rw [hman, List.take_left' hlen]
  have hdrop : witnessManifest.drop 0xFC = leBytes 4 c ++ witnessEntries := by rw [hman, List.drop_left' hlen]
  have hrest : witnessManifest.drop 0x100 = witnessEntries := by
    rw [show 0x100 = 0xFC + 4 from rfl, ← List.drop_drop, hdrop, List.drop_left' hcrc]
  rw [manifestCrc, htake, hrest, ← hc, mLe, hdrop, List.take_left' hcrc, leVal_leBytes, Nat.mod_eq_of_lt hlt]

/-- The package after reset with tile 0 in service and drive A linked and ready, asked to load that model to slot 2. -/
def modelLoadWitness : State :=
  let d := ((State.reset.dev.setN HUB_TILE_INSERVICE 1).setF WTR_DRIVE_STATUSA_LINK_UP 1).setF WTR_DRIVE_STATUSA_READY 1
  State.reset.put ((d.setN (HUB_MBX_P 0) (2 * 2 ^ 28)).setN (HUB_MBX_P 3) 352)

theorem modelLoadWitness_checks : modelLoadWitness.dev.loadCheck 2 0 352 0 (some witnessManifest) = none := by
  rw [Dev.loadCheck, if_neg (by decide +kernel), if_neg (by decide +kernel), if_neg (by decide +kernel), if_neg (not_not.mpr witnessManifest_crc),
    if_neg (by decide +kernel), if_neg (by decide +kernel), if_neg (by decide +kernel), if_neg (by decide +kernel)]
  decide +kernel

theorem modelLoadWitness_params : modelLoadWitness.dev.getN (HUB_MBX_P 0) = 2 * 2 ^ 28 ∧ modelLoadWitness.dev.getN (HUB_MBX_P 3) = 352 ∧
    modelLoadWitness.dev.getN (HUB_MBX_P 7) = 0 := by
  decide +kernel

/-- MODEL_LOAD begins. -/
theorem modelLoads_load : ∃ (e : Dev) (j : LoadJob),
    exec (.modelLoad 0 (some witnessManifest) false) modelLoadWitness = .next (modelLoadWitness.put e) ∧ e.res.job = some j ∧ e.slotState 2 = 1 ∧ e.mbxBusy = true := by
  obtain ⟨hload, -⟩ := modelLoads.2.2 modelLoadWitness 0 2 (by decide +kernel) (by decide +kernel) (by decide +kernel) (by decide +kernel)
  obtain ⟨hgood, -⟩ := hload witnessManifest (by decide +kernel) (by decide +kernel) (by decide +kernel)
  obtain ⟨hp0, hp3, hp7⟩ := modelLoadWitness_params
  simp only [hp0, hp3, hp7] at hgood
  obtain ⟨e, j, he, hjob, -, -, -, -, -, -, -, -, hstate, -, -, -, -, -, -, hbusy⟩ := hgood modelLoadWitness_checks (by decide +kernel)
  exact ⟨e, j, he, hjob, hstate, hbusy⟩

/-! That load in slot 2, with its chunk in each state. -/

/-- The load with its chunk and its region as given, and its ending. -/
def witnessJob (x : ChunkSt) (regions : List (Nat × Nat)) (ending : Option (Nat × Nat × Nat)) : LoadJob :=
  { newJob 2 0 0 0 witnessManifest 0x1000 64 0 none 0 0 with chunks := [x], regions := regions, ending := ending }

/-- The package that runs it; `f` gives the DRAM of tile 0. -/
def stageWitness (x : ChunkSt) (regions : List (Nat × Nat)) (ending : Option (Nat × Nat × Nat)) (f : Mem → Mem) : State :=
  let d := ((State.reset.dev.setN HUB_TILE_INSERVICE 1).setF (WTR_SLOT_STATE_STATE 2) 1).setN (WTR_SLOT_TILES 2) 1
  State.reset.put ((d.onTile 0 fun t => { t with dram := f t.dram }).withJob (witnessJob x regions ending))

/-- The chunk is being read: its drive's link that goes down fails the load, its bytes with their CRC are kept, others are read again. -/
def readingWitness : State := stageWitness ⟨1, 0, 0, []⟩ [(3, 0)] none id

theorem modelLoads_linkDown : ∃ e : Dev, exec (.driveLinkDown 0 0) readingWitness = .next (readingWitness.put e) ∧ e.slotState 2 = 0 := by
  obtain ⟨-, hdown, -⟩ := modelLoads.1 readingWitness 0 0 0 0 0 0 [] (witnessJob ⟨1, 0, 0, []⟩ [(3, 0)] none) (by decide +kernel)
  obtain ⟨e, he, -, -, hstate, -⟩ := hdown rfl (by decide +kernel) rfl (by decide)
  exact ⟨e, he, hstate⟩

theorem modelLoads_read : ∃ e x : Dev,
    exec (.driveReadComplete 0 0 true witnessChunk 0) readingWitness = .next (readingWitness.put e) ∧
    (∃ i, e.res.job = some i ∧ (i.chunk 0).st = 2) ∧
    exec (.driveReadComplete 0 0 true [] 0) readingWitness = .next (readingWitness.put x) ∧ x.getN WTR_CHUNK_RETRY_COUNT = 1 := by
  obtain ⟨-, -, -, -, -, hgood, -⟩ := modelLoads.1 readingWitness 0 0 0 0 0 0 witnessChunk (witnessJob ⟨1, 0, 0, []⟩ [(3, 0)] none)
    (by decide +kernel)
  obtain ⟨hread, -⟩ := hgood rfl rfl (by decide) (by decide +kernel) rfl (by decide)
  obtain ⟨hkept, -⟩ := hread (by decide +kernel)
  obtain ⟨e, i, he, hjob, hchunk, -⟩ := hkept (by decide +kernel)
  obtain ⟨-, -, -, -, -, hbad, -⟩ := modelLoads.1 readingWitness 0 0 0 0 0 0 [] (witnessJob ⟨1, 0, 0, []⟩ [(3, 0)] none) (by decide +kernel)
  obtain ⟨hread', -⟩ := hbad rfl rfl (by decide) (by decide +kernel) rfl (by decide)
  obtain ⟨-, hwrong, -⟩ := hread' (by decide +kernel)
  obtain ⟨hfirst, -⟩ := hwrong (by decide +kernel)
  obtain ⟨x, hx, ⟨-, hcount⟩, -⟩ := hfirst rfl
  exact ⟨e, x, he, ⟨i, hjob, by rw [hchunk]⟩, hx, hcount.trans (by decide +kernel)⟩

/-- The chunk is in the input buffer of tile 0: it is written at unit 1. -/
def wringWitness : State := stageWitness ⟨3, 0, 0, witnessChunk⟩ [(3, 0)] none id

theorem modelLoads_wring : ∃ e : Dev, exec (.chunkWring 0 0) wringWitness = .next (wringWitness.put e) ∧
    memBytes (e.tile 0).dram 0x200000 64 = witnessChunk := by
  obtain ⟨hwring, -⟩ := modelLoads.2.1 wringWitness 0 0 0 0 (witnessJob ⟨3, 0, 0, witnessChunk⟩ [(3, 0)] none) (by decide +kernel) rfl
    (by decide) rfl
  obtain ⟨hgood, -⟩ := hwring rfl (by decide) rfl (by decide +kernel) (fun _ hy => absurd hy (Nat.not_lt_zero _))
  obtain ⟨e, -, he, -, -, hbytes, -⟩ := hgood (by decide +kernel) (by decide +kernel) (by decide +kernel) (by decide +kernel) (by decide +kernel)
  exact ⟨e, he, hbytes⟩

/-- The chunk is written: its region is verified with the chunk in DRAM, and fails with DRAM as after reset. -/
def writtenWitness (f : Mem → Mem) : State := stageWitness ⟨4, 0, 0, []⟩ [(3, 0)] none f

theorem modelLoads_verify : ∃ e x : Dev,
    exec (.regionVerify 0 [] 0) (writtenWitness fun m => memPutBytes m 0x200000 witnessChunk) =
      .next ((writtenWitness fun m => memPutBytes m 0x200000 witnessChunk).put e) ∧ (∃ i, e.res.job = some i ∧ i.resBytes = 64) ∧
    exec (.regionVerify 0 [] 0) (writtenWitness id) = .next ((writtenWitness id).put x) ∧ x.regBit (WRG_EVENT 0) 2 = true := by
  obtain ⟨-, hgood, -⟩ := modelLoads.2.1 (writtenWitness fun m => memPutBytes m 0x200000 witnessChunk) 0 0 0 0
    (witnessJob ⟨4, 0, 0, []⟩ [(3, 0)] none) (by decide +kernel) rfl (by decide) rfl
  obtain ⟨hverified, -⟩ := hgood rfl (by decide +kernel) (by decide) (by decide +kernel) rfl (by decide +kernel) (by decide +kernel)
    (by decide +kernel) (by decide +kernel) (fun _ => rfl)
  obtain ⟨e, i, he, hjob, -, hbytes, -⟩ := hverified (by decide +kernel) (by decide +kernel)
  obtain ⟨-, hbad, -⟩ := modelLoads.2.1 (writtenWitness id) 0 0 0 0 (witnessJob ⟨4, 0, 0, []⟩ [(3, 0)] none) (by decide +kernel) rfl
    (by decide) rfl
  obtain ⟨-, hfails⟩ := hbad rfl (by decide +kernel) (by decide) (by decide +kernel) rfl (by decide +kernel) (by decide +kernel)
    (by decide +kernel) (by decide +kernel) (fun _ => rfl)
  obtain ⟨x, hx, -, hevent⟩ := hfails (by decide +kernel) (by decide +kernel)
  exact ⟨e, x, he, ⟨i, hjob, hbytes.trans (by decide +kernel)⟩, hx, hevent⟩

/-- The region is verified: the commit makes slot 2 READY. -/
theorem modelLoads_commit : ∃ e : Dev, exec (.loadCommit 0) (stageWitness ⟨4, 0, 0, []⟩ [(0, 0)] none id) =
    .next ((stageWitness ⟨4, 0, 0, []⟩ [(0, 0)] none id).put e) ∧ e.slotState 2 = 3 := by
  obtain ⟨-, -, hcommit, -⟩ := modelLoads.2.1 (stageWitness ⟨4, 0, 0, []⟩ [(0, 0)] none id) 0 0 0 0 (witnessJob ⟨4, 0, 0, []⟩ [(0, 0)] none)
    (by decide +kernel) rfl (by decide) rfl
  obtain ⟨e, -, he, -, -, hstate, -⟩ := hcommit rfl (by decide +kernel)
  exact ⟨e, he, hstate⟩

/-- The load has ended DONE: a report that host memory does not take is REPORT_DMA. -/
theorem modelLoads_report : ∃ e : Dev, exec (.loadReport false) (stageWitness ⟨4, 0, 0, []⟩ [(0, 0)] (some (2, 0, 9)) id) =
    .next ((stageWitness ⟨4, 0, 0, []⟩ [(0, 0)] (some (2, 0, 9)) id).put e) ∧ e.getF HUB_MBX_STATUS_DETAIL = 0x12 := by
  obtain ⟨-, -, -, hreport⟩ := modelLoads.2.1 (stageWitness ⟨4, 0, 0, []⟩ [(0, 0)] (some (2, 0, 9)) id) 0 0 0 0
    (witnessJob ⟨4, 0, 0, []⟩ [(0, 0)] (some (2, 0, 9))) (by decide +kernel) rfl (by decide) rfl
  obtain ⟨-, e, he, -, -, -, -, hdetail, -⟩ := hreport 2 0 9 rfl (by decide) (by decide)
  exact ⟨e, he, hdetail⟩

/-! Slot 2 with unit 1 of tile 0, whose RCRC is 0. -/

/-- The slot in a state, with MODEL_EVICT of it as the mailbox's parameters. -/
def slotWitness (state : Nat) : State :=
  let d := ((State.reset.dev.setN HUB_TILE_INSERVICE 1).setF (WTR_SLOT_STATE_STATE 2) state).setN (WTR_SLOT_TILES 2) 1
  State.reset.put ((d.setN (HUB_MBX_P 0) (2 * 2 ^ 28)).onTile 0 fun t => { t with dram := memPut t.dram (slotRec 2 + 0x40) 2 })

/-- READY, the slot is evicted, and its commit record is cleared. -/
theorem modelLoads_evict : ∃ e : Dev, exec (.modelEvict 0) (slotWitness 3) = .next ((slotWitness 3).put e) ∧ e.slotState 2 = 0 ∧
    memGet (e.tile 0).dram (slotRec 2 + 0x40) = 0 := by
  obtain ⟨-, hevict, -⟩ := modelLoads.2.2 (slotWitness 3) 0 2 (by decide +kernel) (by decide +kernel) (by decide +kernel) (by decide +kernel)
  obtain ⟨-, hready, -⟩ := hevict (by decide +kernel) (by decide +kernel)
  obtain ⟨e, he, -, hstate, -, -, -, -, hzero⟩ := hready (by decide +kernel)
  exact ⟨e, he, hstate, hzero 0 (by decide +kernel) _ (by decide) (by decide)⟩

/-- VERIFYING, the slot is lost: unit 1 does not have its CRC. -/
theorem modelLoads_reverify : ∃ e : Dev, exec (.slotReverify 2 [] 0) (slotWitness 2) = .next ((slotWitness 2).put e) ∧
    e.getF (WTR_SLOT_STATE_REASON 2) = 7 := by
  obtain ⟨-, -, -, -, hreverify⟩ := modelLoads.2.2 (slotWitness 2) 0 2 (by decide +kernel) (by decide +kernel) (by decide +kernel)
    (by decide +kernel)
  have hdarner : ∀ n, (slotWitness 2).dev.darner n = Darner.reset := by decide +kernel
  obtain ⟨-, hbad⟩ := hreverify (by decide +kernel) (by decide +kernel) (fun n _ => by rw [Dev.poisoned, hdarner n]; rfl)
  have hunit : 1 ∈ (slotWitness 2).dev.slotUnits 2 0 := List.mem_filter.mpr ⟨List.mem_range.mpr (by decide), by decide +kernel⟩
  obtain ⟨e, he, -, hreason⟩ := hbad fun hall => absurd (hall 0 (by decide +kernel) 1 hunit) (by decide +kernel)
  exact ⟨e, he, hreason⟩

/-- A REGION_REWRITE of a slot that is EMPTY ends with detail 0x0F. -/
theorem modelLoads_rewrite : ∃ e : Dev, exec (.regionRewrite 0 (some []) false) (slotWitness 0) = .next ((slotWitness 0).put e) ∧
    e.getF HUB_MBX_STATUS_DETAIL = 0x0F := by
  obtain ⟨-, -, hrewrite, -⟩ := modelLoads.2.2 (slotWitness 0) 0 2 (by decide +kernel) (by decide +kernel) (by decide +kernel)
    (by decide +kernel)
  obtain ⟨-, hbad⟩ := hrewrite 0 0 [] (by decide) (by decide +kernel) (by decide +kernel)
  obtain ⟨e, he, -, hdetail, -⟩ := hbad 0x0F (by decide +kernel) (by decide)
  exact ⟨e, he, hdetail⟩

/-- The package after reset with drive A ready and its writes enabled, and DRIVE_IMAGE of one sector as the mailbox's parameters. -/
def imageWitness : State :=
  let d := (State.reset.dev.setF WTR_DRIVE_STATUSA_READY 1).setF WTR_DRIVE_CTRL_WRITE_EN_A 1
  State.reset.put ((d.setN (HUB_MBX_P 1) 8).setN (HUB_MBX_P 3) 512)

theorem modelLoads_image : ∃ e : Dev, exec (.driveImage 0 (some []) true none) imageWitness = .next (imageWitness.put e) ∧
    e.out = [.signal "NVME_WRITE" [0, 8, 512], .signal "NVME_FLUSH" [0]] := by
  obtain ⟨-, -, -, himage, -⟩ := modelLoads.2.2 imageWitness 0 0 (by decide +kernel) (by decide +kernel) (by decide +kernel) (by decide +kernel)
  obtain ⟨hwrites, -⟩ := himage 0 [] (by decide +kernel) (by decide +kernel) (by decide +kernel) (by decide +kernel) (by decide +kernel)
  obtain ⟨e, he, -, hout, -⟩ := hwrites (by decide +kernel) (by decide +kernel)
  exact ⟨e, he, hout.trans (by decide +kernel)⟩

end Sys2Proof.Machine
end

section
/-! The records and registers of the Hamper (R65, R238): a block of keys or values leaves all but its tensor's record and the Hamper's
registers. -/

namespace Sys2Proof.Machine

open Reg

/-! The Hamper's registers. -/

theorem getR_latch_egHmp (d : Dev) (n : Fin 32) (b : Nat) {p : Nat} (hp : 0x1000000 ≤ p) (h1 : p ≠ HMP_EVENT n) (h2 : p ≠ HMP_EVENT_SEQ n) :
    (d.latch (egHmp n) b).getR p = d.getR p :=
  getR_latch_ne d _ b p h1 h2 (by simp only [egHmp, INT_PEND]; omega)

theorem regBit_latch_egHmp (d : Dev) (n : Fin 32) {b : Nat} (hb : b < 32) : (d.latch (egHmp n) b).regBit (HMP_EVENT n) b = true :=
  regBit_latch_self d (egHmp n) b hb (by simp only [egHmp, HMP_EVENT, tileBase, INT_PEND]; omega)

/-- An event of R249 marks the tile and changes nothing else of any tile. -/
theorem hmpEvent_effect (d : Dev) (n : Fin 32) {b : Nat} (hb : b < 32) : (d.hmpEvent n b).regBit (HMP_EVENT n) b = true ∧
    (d.hmpEvent n b).tile n = { d.tile n with hmpFault := true } ∧ d.onlyTile (d.hmpEvent n b) n := by
  have htile := tile_congr (tiles_latch (d.onTile n fun t => { t with hmpFault := true }) (egHmp n) b)
  exact ⟨regBit_latch_egHmp _ n hb, (htile n).trans (tile_onTile_self d n _), fun m hm => (htile m).trans (tile_onTile_ne d _ hm)⟩

/-! The tensor's record. -/

section
variable (d : Dev) (n : Fin 32) (t : Nat)

theorem statOnly_satAdd {o : Nat} (k : Nat) (ho : o < QNT_LIMITS n ∨ QNT_TABLE_BASE n < o) : d.statOnly n t (d.satAdd o k) :=
  statOnly_of_regs n t (by cases d; rfl) fun _ hlow hhigh => getR_satAdd_ne d k (by omega)

theorem statOnly_latch_egHmp (b : Nat) : d.statOnly n t (d.latch (egHmp n) b) := by
  refine statOnly_of_regs n t (latch_only _ _ _) fun p hlow hhigh => ?_
  simp only [QNT_TABLE_BASE, QNT_LIMITS] at hlow hhigh
  refine getR_latch_egHmp d n b ?_ ?_ ?_
  · simp only [tileBase] at hlow; omega
  · simp only [HMP_EVENT]; omega
  · simp only [HMP_EVENT_SEQ]; omega

theorem statOnly_hmpAmax (amax : Word) : d.statOnly n t (d.hmpAmax n t amax) := by
  have hwrite := fun (x : Dev) (v : Nat) => statOnly_write x n t (off := 4) (k := 4) v (by decide) (.inl (by decide))
  unfold Dev.hmpAmax
  extract_lets touched
  have htouched : d.statOnly n t touched :=
    statOnly_ite d n t (.refl n t d) ((hwrite d 0).trans (statOnly_setStatFlag _ n t 0))
  exact statOnly_ite d n t (htouched.trans (hwrite touched _)) htouched

theorem statOnly_hmpBlock (q : QBlock) : d.statOnly n t (d.hmpBlock n t q) := by
  have hsat := fun (x : Dev) (k : Nat) => statOnly_satAdd x n t (o := HMP_SAT_COUNT n) k
    (.inr (by simp only [HMP_SAT_COUNT, QNT_TABLE_BASE]; omega))
  have hzero := fun (x : Dev) (k : Nat) => statOnly_satAdd x n t (o := HMP_ZERO_COUNT n) k
    (.inr (by simp only [HMP_ZERO_COUNT, QNT_TABLE_BASE]; omega))
  unfold Dev.hmpBlock
  extract_lets d1 d2 d3 d4
  have h1 : d.statOnly n t d1 := (hsat d q.sat).trans (hzero _ q.zero)
  have h2 : d.statOnly n t d2 := statOnly_ite d n t (h1.trans (statOnly_latch_egHmp d1 n t 0)) h1
  have h3 : d.statOnly n t d3 := h2.trans (statOnly_count d2 n t 0x0E 1)
  have h4 : d.statOnly n t d4 := statOnly_ite d n t (h3.trans (statOnly_count d3 n t 0x0F 1)) h3
  exact h4.trans (statOnly_hmpAmax d4 n t q.amax)

end

/-! Counting an event changes nothing that the Hamper reads. -/

section
variable (d : Dev) (n : Fin 32) (ev k : Nat)

theorem getR_count_block {p : Nat} (h : tileBase n ≤ p) (hlt : p < tileBase n + 0x90000) : (d.count (.tile n) ev k).getR p = d.getR p :=
  (countOnly_count d n ev k).2 p (not_counterRegs_of_lt h hlt)

theorem getR_count_hmpArea : (d.count (.tile n) ev k).getR (HMP_AREA n) = d.getR (HMP_AREA n) :=
  getR_count_block d n ev k (by simp only [HMP_AREA]; omega) (by simp only [HMP_AREA]; omega)

theorem out_count : (d.count (.tile n) ev k).out = d.out := by
  obtain ⟨-, -, hout⟩ := (countOnly_count d n ev k).fields
  exact hout

theorem bins_count : (d.count (.tile n) ev k).bins n = d.bins n := getF_congr (getR_count_hmpArea d n ev k)

theorem binAt_count (b : Nat) : (d.count (.tile n) ev k).binAt n b = d.binAt n b :=
  congrArg (32768 * · + 32768 * b) (getF_congr (f := HMP_AREA_BASE n) (getR_count_hmpArea d n ev k))

theorem statAt_count (t : Nat) : (d.count (.tile n) ev k).statAt n t = d.statAt n t := statAt_congr (statOnly_count d n t ev k).base t

theorem zeroLimit_count : (d.count (.tile n) ev k).zeroLimit n = d.zeroLimit n := (statOnly_count d n 0 ev k).zeroLimit

theorem tsLe_count (a len : Nat) : (d.count (.tile n) ev k).tsLe n a len = d.tsLe n a len := by
  rw [Dev.tsLe, tile_count, Dev.tsLe]

theorem pageValid_count (a : Nat) : (d.count (.tile n) ev k).pageValid n a = d.pageValid n a := tsLe_count d n ev k _ 2

theorem tsWords_count (a len : Nat) : (d.count (.tile n) ev k).tsWords n a len = d.tsWords n a len := by
  simp only [Dev.tsWords, tsLe_count]

end

end Sys2Proof.Machine
end

section
/-! Writes to known bytes of tile store: what they leave of the tile, of the package, and of the values read elsewhere. -/

namespace Sys2Proof.Machine

open Reg

/-- What writes of tile store within `S`, with the counts and events that go with them, leave unchanged. -/
structure Dev.writesIn (n : Fin 32) (S : Set Nat) (d e : Dev) : Prop where
  tile : e.tile n = { d.tile n with store := (e.tile n).store, troubled := (e.tile n).troubled }
  others : d.onlyTile e n
  out : e.out = d.out
  base : e.getR (QNT_TABLE_BASE n) = d.getR (QNT_TABLE_BASE n)
  limits : e.getR (QNT_LIMITS n) = d.getR (QNT_LIMITS n)
  beside : ∀ y, y ∉ S → memGet (e.tile n).store y = memGet (d.tile n).store y

/-- The bytes of a tensor's record. -/
def recordBytes (a : Nat) : Set Nat := Set.Ico a (a + 32)

theorem Dev.writesIn.refl (n : Fin 32) (S : Set Nat) (d : Dev) : d.writesIn n S d := ⟨rfl, fun _ _ => rfl, rfl, rfl, rfl, fun _ _ => rfl⟩

section
variable {n : Fin 32} {S T : Set Nat} {d e x : Dev}

theorem Dev.writesIn.trans (h : d.writesIn n S e) (g : e.writesIn n S x) : d.writesIn n S x where
  tile := by rw [g.tile, h.tile]
  others m hm := (g.others m hm).trans (h.others m hm)
  out := g.out.trans h.out
  base := g.base.trans h.base
  limits := g.limits.trans h.limits
  beside y hy := (g.beside y hy).trans (h.beside y hy)

theorem Dev.writesIn.mono (h : d.writesIn n S e) (hST : S ⊆ T) : d.writesIn n T e :=
  ⟨h.tile, h.others, h.out, h.base, h.limits, fun y hy => h.beside y fun hyS => hy (hST hyS)⟩

/-- A fold whose steps each write in `S`, from every package that writes in `S` lead to. -/
theorem writesIn_foldl {α : Type} {f : Dev → α → Dev} (l : List α) (h : d.writesIn n S e)
    (hstep : ∀ x, d.writesIn n S x → ∀ a ∈ l, x.writesIn n S (f x a)) : d.writesIn n S (l.foldl f e) := by
  induction l generalizing e with
  | nil => exact h
  | cons a t ih =>
    exact ih (h.trans (hstep e h a List.mem_cons_self)) fun x hx b hb => hstep x hx b (List.mem_cons_of_mem a hb)

theorem Dev.statOnly.writesIn {t : Nat} (h : d.statOnly n t e) : d.writesIn n (recordBytes (d.statAt n t)) e :=
  ⟨h.tile, h.others, h.out, h.base, h.limits, fun y hy => h.beside y (by simp only [recordBytes, Set.mem_Ico] at hy; omega)⟩

theorem writesIn_tsWrite (d : Dev) (n : Fin 32) (a : Nat) (l : List Byte) : d.writesIn n (Set.Ico a (a + l.length)) (d.tsWrite n a l) := by
  have htile := tile_onTile_self d n fun t => { t with store := memPutBytes t.store a l }
  refine ⟨by rw [Dev.tsWrite, htile], fun m hm => tile_onTile_ne d _ hm, rfl, rfl, rfl, fun y hy => ?_⟩
  rw [Dev.tsWrite, htile]
  exact (memGet_memPutBytes _ _ _ _).trans (if_neg hy)

theorem writesIn_tsPutLe (d : Dev) (n : Fin 32) (a k v : Nat) : d.writesIn n (Set.Ico a (a + k)) (d.tsPutLe n a k v) := by
  have hwrite := writesIn_tsWrite d n a (leBytes k v)
  rwa [leBytes_length] at hwrite

/-! What is read beside the bytes written. -/

theorem Dev.writesIn.statAt (h : d.writesIn n S e) (t : Nat) : e.statAt n t = d.statAt n t := statAt_congr h.base t

theorem Dev.writesIn.zeroLimit (h : d.writesIn n S e) : e.zeroLimit n = d.zeroLimit n := getF_congr h.limits

theorem Dev.writesIn.tsLe (h : d.writesIn n S e) {a k : Nat} (ha : ∀ y, a ≤ y → y < a + k → y ∉ S) : e.tsLe n a k = d.tsLe n a k :=
  congrArg leVal (memBytes_congr fun y hlow hhigh => h.beside y (ha y hlow hhigh))

theorem Dev.writesIn.tsWords (h : d.writesIn n S e) {a k : Nat} (ha : ∀ y, a ≤ y → y < a + 4 * k → y ∉ S) :
    e.tsWords n a k = d.tsWords n a k := by
  refine List.map_congr_left fun i hi => congrArg (BitVec.ofNat 32) (h.tsLe fun y hlow hhigh => ha y ?_ ?_)
  · omega
  · have hik := List.mem_range.mp hi
    omega

end

end Sys2Proof.Machine
end

section
/-! HAPPEND of one row (R234, R238, R249): the bytes of a page that keys and values take, and what is read back. -/

namespace Sys2Proof.Machine

open Reg

/-! Places in a page image (R234). -/

/-- The codes of block `b` of a token's keys. -/
def keyCodesAt (bin pos b : Nat) : Nat := bin + kpAt (b / 4) + 64 + 64 * pos + 16 * (b % 4)

/-- The codes of a block of keys and its scale. -/
def keyBytes (bin pos b : Nat) : Set Nat :=
  Set.Ico (keyCodesAt bin pos b) (keyCodesAt bin pos b + 16) ∪ {bin + kpAt (b / 4) + 4160 + 4 * pos + b % 4}

/-- The two key panels behind the header of the first. -/
def keyRegion (bin : Nat) : Set Nat := Set.Ico (bin + 64) (bin + vpAt 0)

/-- The four value panels. -/
def valueRegion (bin : Nat) : Set Nat := Set.Ico (bin + vpAt 0) (bin + trailerAt)

/-- The bytes of a page image. -/
def pageBytes (bin : Nat) : Set Nat := Set.Ico bin (bin + 32768)

theorem mem_keyBytes {bin pos b y : Nat} : y ∈ keyBytes bin pos b ↔ (keyCodesAt bin pos b ≤ y ∧ y < keyCodesAt bin pos b + 16) ∨
    y = bin + kpAt (b / 4) + 4160 + 4 * pos + b % 4 := Iff.rfl

theorem keyBytes_subset {bin pos b : Nat} (hpos : pos < 64) (hb : b < 8) : keyBytes bin pos b ⊆ keyRegion bin := by
  intro y hy
  simp only [mem_keyBytes, keyCodesAt, kpAt] at hy
  simp only [keyRegion, Set.mem_Ico, vpAt]
  omega

/-- The codes of a block stand apart from what any other block of the token takes. -/
theorem keyCodes_notMem {bin pos b c j : Nat} (hpos : pos < 64) (hbc : b ≠ c) (hj : j < 16) :
    keyCodesAt bin pos b + j ∉ keyBytes bin pos c := by
  simp only [mem_keyBytes, keyCodesAt, kpAt]
  omega

theorem keyCodes_mem {bin pos b j : Nat} (hpos : pos < 64) (hb : b < 8) (hj : j < 16) : keyCodesAt bin pos b + j ∈ keyRegion bin :=
  keyBytes_subset hpos hb (mem_keyBytes.mpr (.inl (by omega)))

theorem keyRegion_subset (bin : Nat) : keyRegion bin ⊆ pageBytes bin :=
  Set.Ico_subset_Ico (by omega) (by simp only [vpAt]; omega)

theorem valueRegion_subset (bin : Nat) : valueRegion bin ⊆ pageBytes bin :=
  Set.Ico_subset_Ico (by simp only [vpAt]; omega) (by simp only [trailerAt]; omega)

/-! One block of keys. -/

/-- A block of keys in K4F with the bin's key scale. -/
def Dev.keyBlock (d : Dev) (n : Fin 32) (bin : Nat) (xs : List Word) : QBlock :=
  quantise .k4f (tscaleUsed (BitVec.ofNat 32 (d.tsLe n (bin + 4) 4))) (d.zeroLimit n) xs none

theorem appendKeys_eq (d : Dev) (n : Fin 32) (t bin pos b : Nat) (xs : List Word) : d.appendKeys n t bin pos b xs =
    ((d.tsWrite n (keyCodesAt bin pos b) (packCodes 4 (d.keyBlock n bin xs).codes)).tsPutLe n
      (bin + kpAt (b / 4) + 4160 + 4 * pos + b % 4) 1 (d.keyBlock n bin xs).scale).hmpBlock n t (d.keyBlock n bin xs) := rfl

theorem packed_keyBlock_length (d : Dev) (n : Fin 32) (bin : Nat) {xs : List Word} (h : xs.length = 32) :
    (packCodes 4 (d.keyBlock n bin xs).codes).length = 16 := by
  rw [packCodes_length, Dev.keyBlock, quantise_codes_length, h]

theorem tsWords_length (d : Dev) (n : Fin 32) (a k : Nat) : (d.tsWords n a k).length = k := by simp [Dev.tsWords]

theorem appendKeys_effect (d : Dev) (n : Fin 32) (t bin b : Nat) {pos : Nat} {xs : List Word} (hpos : pos < 64) (h : xs.length = 32) :
    d.writesIn n (keyBytes bin pos b ∪ recordBytes (d.statAt n t)) (d.appendKeys n t bin pos b xs) ∧
      ∀ j, j < 16 → keyCodesAt bin pos b + j ∉ recordBytes (d.statAt n t) →
        memGet ((d.appendKeys n t bin pos b xs).tile n).store (keyCodesAt bin pos b + j) =
          (packCodes 4 (d.keyBlock n bin xs).codes).getD j 0 := by
  have hlen := packed_keyBlock_length d n bin h
  rw [appendKeys_eq]
  generalize d.keyBlock n bin xs = q at hlen ⊢
  have hcodes := writesIn_tsWrite d n (keyCodesAt bin pos b) (packCodes 4 q.codes)
  have hscale := writesIn_tsPutLe (d.tsWrite n (keyCodesAt bin pos b) (packCodes 4 q.codes)) n
    (bin + kpAt (b / 4) + 4160 + 4 * pos + b % 4) 1 q.scale
  have hblock := (statOnly_hmpBlock ((d.tsWrite n (keyCodesAt bin pos b) (packCodes 4 q.codes)).tsPutLe n
    (bin + kpAt (b / 4) + 4160 + 4 * pos + b % 4) 1 q.scale) n t q).writesIn
  rw [hscale.statAt, hcodes.statAt] at hblock
  rw [hlen] at hcodes
  refine ⟨?_, fun j hj hrec => ?_⟩
  · refine ((hcodes.mono fun y hy => .inl (.inl hy)).trans (hscale.mono fun y hy => .inl (.inr ?_))).trans
      (hblock.mono Set.subset_union_right)
    simp only [Set.mem_Ico] at hy
    exact Set.mem_singleton_iff.mpr (by omega)
  · rw [hblock.beside _ hrec, hscale.beside _ (by simp only [Set.mem_Ico, keyCodesAt, kpAt]; omega), Dev.tsWrite, tile_onTile_self]
    dsimp only
    rw [memGet_memPutBytes, if_pos (by omega), Nat.add_sub_cancel_left]

/-! The keys of a row. -/

/-- The first `k` blocks of a row's keys appended. -/
def Dev.keysTo (d : Dev) (n : Fin 32) (row t bin pos k : Nat) : Dev :=
  (List.range k).foldl (fun d b => d.appendKeys n t bin pos b (d.tsWords n (row + 128 * b) 32)) d

theorem keysTo_succ (d : Dev) (n : Fin 32) (row t bin pos k : Nat) : d.keysTo n row t bin pos (k + 1) =
    (d.keysTo n row t bin pos k).appendKeys n t bin pos k ((d.keysTo n row t bin pos k).tsWords n (row + 128 * k) 32) := by
  simp [Dev.keysTo, List.range_succ]

/-- The keys of a row that lies apart from the page and from the record are appended as the row gives them. -/
theorem keysTo_effect (d : Dev) (n : Fin 32) {row t bin pos k : Nat} (hpos : pos < 64) (hk : k ≤ 8)
    (hrec : d.statAt n t + 32 ≤ bin ∨ bin + 32768 ≤ d.statAt n t) (hpage : row + 2048 ≤ bin ∨ bin + 32768 ≤ row)
    (hrow : row + 2048 ≤ d.statAt n t ∨ d.statAt n t + 32 ≤ row) :
    d.writesIn n (keyRegion bin ∪ recordBytes (d.statAt n t)) (d.keysTo n row t bin pos k) ∧
      ∀ b j, b < k → j < 16 → memGet ((d.keysTo n row t bin pos k).tile n).store (keyCodesAt bin pos b + j) =
        (packCodes 4 (d.keyBlock n bin (d.tsWords n (row + 128 * b) 32)).codes).getD j 0 := by
  have hcodes : ∀ b j, b < 8 → j < 16 → keyCodesAt bin pos b + j ∉ recordBytes (d.statAt n t) := by
    intro b j hb hj
    simp only [recordBytes, Set.mem_Ico, keyCodesAt, kpAt]
    omega
  induction k with
  | zero => exact ⟨.refl n _ d, by omega⟩
  | succ k ih =>
    obtain ⟨hframe, hkeys⟩ := ih (by omega)
    rw [keysTo_succ]
    generalize d.keysTo n row t bin pos k = x at hframe hkeys ⊢
    have hscale : x.tsLe n (bin + 4) 4 = d.tsLe n (bin + 4) 4 := hframe.tsLe fun y hlow hhigh => by
      simp only [keyRegion, recordBytes, Set.mem_union, Set.mem_Ico]
      omega
    have hwords : x.tsWords n (row + 128 * k) 32 = d.tsWords n (row + 128 * k) 32 := hframe.tsWords fun y hlow hhigh => by
      simp only [keyRegion, recordBytes, Set.mem_union, Set.mem_Ico, vpAt]
      omega
    have hquant : x.keyBlock n bin (d.tsWords n (row + 128 * k) 32) = d.keyBlock n bin (d.tsWords n (row + 128 * k) 32) := by
      rw [Dev.keyBlock, hscale, hframe.zeroLimit, Dev.keyBlock]
    obtain ⟨hstep, hnew⟩ := appendKeys_effect x n t bin k hpos (tsWords_length d n (row + 128 * k) 32)
    rw [hframe.statAt] at hstep hnew
    rw [hquant] at hnew
    rw [hwords]
    refine ⟨hframe.trans (hstep.mono (Set.union_subset_union_left _ (keyBytes_subset hpos (by omega)))), fun b j hb hj => ?_⟩
    obtain rfl | hlt := (Nat.lt_succ_iff_lt_or_eq.mp hb).symm
    · exact hnew j hj (hcodes b j (by omega) hj)
    · rw [hstep.beside _ (not_or.mpr ⟨keyCodes_notMem hpos (by omega) hj, hcodes b j (by omega) hj⟩), hkeys b j hlt hj]

/-! The values of a row. -/

theorem appendValues_writesIn (d : Dev) (n : Fin 32) (t bin : Nat) {pos b : Nat} {xs : List Word} (hpos : pos < 64) (hb : b < 8)
    (h : xs.length = 32) : d.writesIn n (valueRegion bin ∪ recordBytes (d.statAt n t)) (d.appendValues n t bin pos b xs) := by
  unfold Dev.appendValues
  extract_lets st q written
  have hlen : q.codes.length = 32 := (quantise_codes_length _ _ _ _ _).trans h
  have hwritten : d.writesIn n (valueRegion bin) written := by
    refine writesIn_foldl _ (.refl n _ d) fun x _ c hc => (writesIn_tsPutLe x n _ 1 c.1).mono ?_
    have hindex : c.2 < 32 := hlen ▸ List.snd_lt_of_mem_zipIdx hc
    exact Set.Ico_subset_Ico (by simp only [vpAt]; omega) (by simp only [vpAt, trailerAt]; omega)
  have hblock := (statOnly_hmpBlock written n t q).writesIn
  rw [hwritten.statAt] at hblock
  exact (hwritten.mono Set.subset_union_left).trans (hblock.mono Set.subset_union_right)

/-- The values of a row appended. -/
def Dev.valuesAppended (d : Dev) (n : Fin 32) (row t bin pos : Nat) : Dev :=
  (List.range 8).foldl (fun d b => d.appendValues n t bin pos b (d.tsWords n (row + 1024 + 128 * b) 32)) d

theorem valuesAppended_writesIn (d : Dev) (n : Fin 32) (row t bin : Nat) {pos : Nat} (hpos : pos < 64) :
    d.writesIn n (valueRegion bin ∪ recordBytes (d.statAt n t)) (d.valuesAppended n row t bin pos) := by
  refine writesIn_foldl _ (.refl n _ d) fun x hx b hb => ?_
  rw [← hx.statAt t]
  exact appendValues_writesIn x n t bin hpos (List.mem_range.mp hb) (tsWords_length ..)

/-! The whole row. -/

theorem pageValid_lt (d : Dev) (n : Fin 32) (a : Nat) : d.pageValid n a < 2 ^ 16 :=
  (leVal_lt _).trans_le (by rw [memBytes_length]; decide)

theorem appendRow_eq (d : Dev) (n : Fin 32) (row kt vt bin pos : Nat) : d.appendRow n row kt vt bin pos =
    let e := (d.keysTo n row kt bin pos 8).valuesAppended n row vt bin pos
    e.tsPutLe n (bin + trailerAt) 2 (max (e.pageValid n bin) (pos + 1)) := rfl

theorem appendRow_effect (d : Dev) (n : Fin 32) {row kt vt bin pos : Nat} (hpos : pos < 64)
    (hkr : d.statAt n kt + 32 ≤ bin ∨ bin + 32768 ≤ d.statAt n kt) (hvr : d.statAt n vt + 32 ≤ bin ∨ bin + 32768 ≤ d.statAt n vt)
    (hpage : row + 2048 ≤ bin ∨ bin + 32768 ≤ row) (hrow : row + 2048 ≤ d.statAt n kt ∨ d.statAt n kt + 32 ≤ row) :
    let e := d.appendRow n row kt vt bin pos
    e.pageValid n bin = max (d.pageValid n bin) (pos + 1) ∧
      (∀ b j, b < 8 → j < 16 → memGet (e.tile n).store (keyCodesAt bin pos b + j) =
        (packCodes 4 (d.keyBlock n bin (d.tsWords n (row + 128 * b) 32)).codes).getD j 0) ∧
      d.writesIn n (pageBytes bin ∪ (recordBytes (d.statAt n kt) ∪ recordBytes (d.statAt n vt))) e := by
  obtain ⟨hkeys, hcodes⟩ := keysTo_effect d n hpos (le_refl 8) hkr hpage hrow
  have hvalues := valuesAppended_writesIn (d.keysTo n row kt bin pos 8) n row vt bin hpos
  rw [hkeys.statAt] at hvalues
  rw [appendRow_eq]
  generalize d.keysTo n row kt bin pos 8 = x at hkeys hcodes hvalues ⊢
  generalize x.valuesAppended n row vt bin pos = e at hvalues ⊢
  have htrailer : ∀ y, bin + trailerAt ≤ y → y < bin + trailerAt + 2 →
      y ∉ keyRegion bin ∪ recordBytes (d.statAt n kt) ∧ y ∉ valueRegion bin ∪ recordBytes (d.statAt n vt) := by
    simp only [keyRegion, valueRegion, recordBytes, Set.mem_union, Set.mem_Ico, vpAt, trailerAt]
    omega
  have hvalid : e.pageValid n bin = d.pageValid n bin :=
    (hvalues.tsLe fun y h1 h2 => (htrailer y h1 h2).2).trans (hkeys.tsLe fun y h1 h2 => (htrailer y h1 h2).1)
  have hput := writesIn_tsPutLe e n (bin + trailerAt) 2 (max (e.pageValid n bin) (pos + 1))
  refine ⟨?_, fun b j hb hj => ?_, ?_⟩
  · have hlt := pageValid_lt e n bin
    rw [Dev.pageValid, Dev.tsLe, Dev.tsPutLe, tile_onTile_self]
    dsimp only
    rw [memLe_memPutLe_self, Nat.mod_eq_of_lt (by omega), hvalid]
  · have hmem := keyCodes_mem (bin := bin) hpos hb hj
    simp only [keyRegion, Set.mem_Ico, vpAt] at hmem
    rw [hput.beside _ (by simp only [Set.mem_Ico, trailerAt]; omega), hvalues.beside, hcodes b j hb hj]
    simp only [valueRegion, recordBytes, Set.mem_union, Set.mem_Ico, vpAt]
    omega
  · refine ((hkeys.mono ?_).trans (hvalues.mono ?_)).trans (hput.mono ?_)
    · exact Set.union_subset_union (keyRegion_subset bin) Set.subset_union_left
    · exact Set.union_subset_union (valueRegion_subset bin) Set.subset_union_right
    · exact (Set.Ico_subset_Ico (by omega) (by simp only [trailerAt]; omega)).trans Set.subset_union_left

/-! The command. -/

/-- What a row's entry of the append map makes of it (R238, R249). -/
def Dev.appendEntry (d : Dev) (n : Fin 32) (row a2 ent : Nat) : Dev :=
  if ent.testBit 31 then d
  else if d.bins n ≤ ent / 64 % 1024 then d.hmpEvent n 4
  else d.appendRow n row (a2 % 4096) (a2 / 4096 % 4096) (d.binAt n (ent / 64 % 1024)) (ent % 64)

section
variable {s : State} {p : Issue} {a0 a1 a2 : BitVec 26} (hf : s.dev.frozen = false) (hi : s.dev.issues p.tile 4 = true)
  (hb : happendBad a0.toNat a1.toNat a2.toNat 16 0 = false)
include hf hi hb

theorem exec_happend : exec (.happend p a0 a1 a2 16 0) s = .next (s.put
    ((s.dev.count (.tile p.tile) 0x14 1).appendEntry p.tile a0.toNat a2.toNat (s.dev.tsLe p.tile a1.toNat 4))) := by
  change execHappend p a0 a1 a2 16 0 s = _
  refine onRun_eq hf ((helperIssue_effect _ hi hb).trans ?_)
  rw [← tsLe_count s.dev p.tile 0x14 1]
  rfl

variable (hskip : (s.dev.tsLe p.tile a1.toNat 4).testBit 31 = false)
include hskip

theorem exec_happend_mapErr (hbin : s.dev.bins p.tile ≤ s.dev.tsLe p.tile a1.toNat 4 / 64 % 1024) :
    exec (.happend p a0 a1 a2 16 0) s = .next (s.put ((s.dev.count (.tile p.tile) 0x14 1).hmpEvent p.tile 4)) := by
  rw [exec_happend hf hi hb, Dev.appendEntry, if_neg (by simp [hskip]), bins_count, if_pos hbin]

theorem exec_happend_row (hbin : s.dev.tsLe p.tile a1.toNat 4 / 64 % 1024 < s.dev.bins p.tile) :
    exec (.happend p a0 a1 a2 16 0) s = .next (s.put ((s.dev.count (.tile p.tile) 0x14 1).appendRow p.tile a0.toNat
      (a2.toNat % 4096) (a2.toNat / 4096 % 4096) (s.dev.binAt p.tile (s.dev.tsLe p.tile a1.toNat 4 / 64 % 1024))
      (s.dev.tsLe p.tile a1.toNat 4 % 64))) := by
  rw [exec_happend hf hi hb, Dev.appendEntry, if_neg (by simp [hskip]), bins_count, if_neg (Nat.not_le.mpr hbin), binAt_count]

end

end Sys2Proof.Machine
end

section
/-! HFLUSH of one bin (R242), and the statement on the Hamper's instructions. -/

namespace Sys2Proof.Machine

open Reg

/-- FLAGS of a page image, as HFLUSH writes them to a slot: FULL follows `full`. -/
def fullFlags (fl : Nat) (full : Bool) : Nat := fl - fl % 2 + if full then 1 else 0

theorem testBit_fullFlags (fl : Nat) (full : Bool) : (fullFlags fl full).testBit 0 = full := by
  rw [Nat.testBit_zero, fullFlags]
  cases full
  · simp; omega
  · simp; omega

/-- Tile store with a page's data copied to a slot and the flags written there. -/
def flushedStore (m : Mem) (bin slot : Nat) (full : Bool) : Mem :=
  let copied := memPutBytes m slot (memBytes m bin pageData)
  memPutLe copied (slot + trailerAt + 3) 1 (fullFlags (memLe copied (slot + trailerAt + 3) 1) full)

section
variable (m : Mem) (bin slot : Nat) (full : Bool)

theorem memGet_flushedStore_ne {x : Nat} (h : x ≠ slot + trailerAt + 3) :
    memGet (flushedStore m bin slot full) x = memGet (memPutBytes m slot (memBytes m bin pageData)) x :=
  (memGet_memPutBytes _ _ _ _).trans (if_neg (by rw [leBytes_length]; omega))

theorem memGet_flushedStore_copy {j : Nat} (hj : j < pageData) (h : j ≠ trailerAt + 3) :
    memGet (flushedStore m bin slot full) (slot + j) = memGet m (bin + j) := by
  rw [memGet_flushedStore_ne m bin slot full (by omega), memGet_memPutBytes, if_pos (by rw [memBytes_length]; omega),
    Nat.add_sub_cancel_left, getD_memBytes m bin hj]

theorem memGet_flushedStore_out {x : Nat} (h : x < slot ∨ slot + pageData ≤ x) : memGet (flushedStore m bin slot full) x = memGet m x := by
  have hflags : x ≠ slot + trailerAt + 3 := by simp only [pageData, trailerAt] at h ⊢; omega
  rw [memGet_flushedStore_ne m bin slot full hflags, memGet_memPutBytes, if_neg (by rw [memBytes_length]; omega)]

theorem memLe_flushedStore_full : (memLe (flushedStore m bin slot full) (slot + trailerAt + 3) 1).testBit 0 = full := by
  rw [flushedStore, memLe_memPutLe_self, show 256 ^ 1 = 2 ^ 8 from rfl, Nat.testBit_mod_two_pow, testBit_fullFlags]
  rfl

end

theorem satInc_onTile (d : Dev) (n : Fin 32) (f : Tile → Tile) (o : Nat) : (d.onTile n f).satInc o = (d.satInc o).onTile n f := by
  simp only [Dev.satInc, Dev.satAdd, Dev.setN, Dev.setR, Dev.getN, Dev.getR, Dev.onTile, Dev.tile]

theorem onTile_congr {d : Dev} {n : Fin 32} {f g : Tile → Tile} (h : f (d.tile n) = g (d.tile n)) : d.onTile n f = d.onTile n g := by
  rw [Dev.onTile, h, Dev.onTile]

/-- A bin's page in its slot, counted. -/
def Dev.binCopied (d : Dev) (n : Fin 32) (bin slot : Nat) : Dev :=
  (d.satInc (HMP_FLUSH_COUNT n)).onTile n fun t =>
    { t with store := flushedStore (d.tile n).store bin slot (d.pageValid n bin == 64) }

/-- Beside the copy and its count a flush latches an event, where the page is not full. -/
theorem flushBin_eq (d : Dev) (n : Fin 32) (bin slot : Nat) : d.flushBin n bin slot =
    if d.pageValid n bin == 64 then d.binCopied n bin slot else (d.binCopied n bin slot).latch (egHmp n) 3 := by
  have htile : (d.satInc (HMP_FLUSH_COUNT n)).tile n = d.tile n := tile_congr (tiles_satInc d _) n
  unfold Dev.flushBin
  extract_lets full copied fl flagged
  have hcopied : copied = (d.satInc (HMP_FLUSH_COUNT n)).onTile n fun t =>
      { t with store := memPutBytes t.store slot (memBytes (d.tile n).store bin pageData) } := satInc_onTile d n _ _
  have hflagged : flagged = d.binCopied n bin slot := by
    have hfl : fl = memLe (memPutBytes (d.tile n).store slot (memBytes (d.tile n).store bin pageData)) (slot + trailerAt + 3) 1 := by
      rw [show fl = copied.tsLe n (slot + trailerAt + 3) 1 from rfl, hcopied, Dev.tsLe, tile_onTile_self, htile]
    rw [show flagged = copied.tsPutLe n (slot + trailerAt + 3) 1 (fullFlags fl full) from rfl, hfl, hcopied, Dev.tsPutLe, onTile_onTile]
    exact onTile_congr (by rw [htile, flushedStore])
  rw [hflagged]

theorem binCopied_effect (d : Dev) (n : Fin 32) (bin slot : Nat) : let e := d.binCopied n bin slot
    e.tile n = { d.tile n with store := flushedStore (d.tile n).store bin slot (d.pageValid n bin == 64) } ∧ d.onlyTile e n ∧
      e.out = d.out ∧ e.getN (HMP_FLUSH_COUNT n) = min (d.getN (HMP_FLUSH_COUNT n) + 1) 0xFFFFFFFF := by
  have htile := tile_congr (tiles_satInc d (HMP_FLUSH_COUNT n))
  refine ⟨?_, fun m hm => (tile_onTile_ne _ _ hm).trans (htile m), ?_, (getN_congr (getR_onTile _ n _ _)).trans (getN_satInc d _)⟩
  · rw [Dev.binCopied, tile_onTile_self, htile]
  · rw [Dev.binCopied, out_onTile, Dev.satInc, Dev.satAdd, out_setN]

theorem flushBin_effect (d : Dev) (n : Fin 32) (bin slot : Nat) : let e := d.flushBin n bin slot
    e.tile n = { d.tile n with store := flushedStore (d.tile n).store bin slot (d.pageValid n bin == 64) } ∧ d.onlyTile e n ∧
      e.out = d.out ∧ e.getN (HMP_FLUSH_COUNT n) = min (d.getN (HMP_FLUSH_COUNT n) + 1) 0xFFFFFFFF ∧
      (d.pageValid n bin ≠ 64 → e.regBit (HMP_EVENT n) 3 = true) := by
  obtain ⟨htile, hothers, hout, hcount⟩ := binCopied_effect d n bin slot
  rw [flushBin_eq]
  generalize d.binCopied n bin slot = x at htile hothers hout hcount ⊢
  split
  case isTrue h => exact ⟨htile, hothers, hout, hcount, fun hne => absurd (beq_iff_eq.mp h) hne⟩
  case isFalse h =>
    have hsame := tile_congr (tiles_latch x (egHmp n) 3)
    have hkept := getN_congr (getR_latch_egHmp x n 3 (p := HMP_FLUSH_COUNT n)
      (by simp only [HMP_FLUSH_COUNT, tileBase]; omega) (by simp) (by simp))
    exact ⟨(hsame n).trans htile, fun m hm => (hsame m).trans (hothers m hm), (out_latch x _ _).trans hout, hkept.trans hcount,
      fun _ => regBit_latch_egHmp x n (by decide)⟩

/-! The commands, and the statement. -/

theorem exec_hflush {s : State} {p : Issue} {a0 a1 : BitVec 26} (hf : s.dev.frozen = false) (hi : s.dev.issues p.tile 4 = true)
    (hb : hflushBad a0.toNat a1.toNat 0 1 0 = false) (hbin : s.dev.tsLe p.tile a0.toNat 4 % 1024 < s.dev.bins p.tile) :
    exec (.hflush p a0 a1 0 1 0) s = .next (s.put ((s.dev.count (.tile p.tile) 0x14 1).flushBin p.tile
      (s.dev.binAt p.tile (s.dev.tsLe p.tile a0.toNat 4 % 1024)) a1.toNat)) := by
  change execHflush p a0 a1 0 1 0 s = _
  refine onRun_eq hf ((helperIssue_effect _ hi hb).trans ?_)
  rw [← tsLe_count s.dev p.tile 0x14 1, ← bins_count s.dev p.tile 0x14 1] at hbin
  rw [← tsLe_count s.dev p.tile 0x14 1, ← binAt_count s.dev p.tile 0x14 1]
  exact if_neg (Nat.not_le.mpr hbin)

section
variable {s : State} {p : Issue} {a0 a1 a2 : BitVec 26} (hf : s.dev.frozen = false) (hi : s.dev.issues p.tile 4 = true)
include hf hi

theorem happend_skip_effect (hb : happendBad a0.toNat a1.toNat a2.toNat 16 0 = false)
    (hskip : (s.dev.tsLe p.tile a1.toNat 4).testBit 31 = true) :
    ∃ e : Dev, exec (.happend p a0 a1 a2 16 0) s = .next (s.put e) ∧ e.tiles = s.dev.tiles ∧ e.out = s.dev.out := by
  obtain ⟨htiles, -, hout⟩ := (countOnly_count s.dev p.tile 0x14 1).fields
  refine ⟨_, exec_happend hf hi hb, ?_⟩
  rw [Dev.appendEntry, if_pos hskip]
  exact ⟨htiles, hout⟩

theorem happend_mapErr_effect (hb : happendBad a0.toNat a1.toNat a2.toNat 16 0 = false)
    (hskip : (s.dev.tsLe p.tile a1.toNat 4).testBit 31 = false) (hbin : s.dev.bins p.tile ≤ s.dev.tsLe p.tile a1.toNat 4 / 64 % 1024) :
    ∃ e : Dev, exec (.happend p a0 a1 a2 16 0) s = .next (s.put e) ∧ e.regBit (HMP_EVENT p.tile) 4 = true ∧
      e.tile p.tile = { s.dev.tile p.tile with hmpFault := true } ∧ s.dev.onlyTile e p.tile := by
  obtain ⟨hbit, htile, hothers⟩ := hmpEvent_effect (s.dev.count (.tile p.tile) 0x14 1) p.tile (b := 4) (by decide)
  rw [tile_count] at htile
  exact ⟨_, exec_happend_mapErr hf hi hb hskip hbin, hbit, htile, fun m hm => (hothers m hm).trans (tile_count s.dev p.tile m 0x14 1)⟩

theorem happend_row_effect (hb : happendBad a0.toNat a1.toNat a2.toNat 16 0 = false)
    (hskip : (s.dev.tsLe p.tile a1.toNat 4).testBit 31 = false) (hbin : s.dev.tsLe p.tile a1.toNat 4 / 64 % 1024 < s.dev.bins p.tile)
    {bin kr vr : Nat} (hat : s.dev.binAt p.tile (s.dev.tsLe p.tile a1.toNat 4 / 64 % 1024) = bin)
    (hk : s.dev.statAt p.tile (a2.toNat % 4096) = kr) (hv : s.dev.statAt p.tile (a2.toNat / 4096 % 4096) = vr)
    (hkr : kr + 32 ≤ bin ∨ bin + 32768 ≤ kr) (hvr : vr + 32 ≤ bin ∨ bin + 32768 ≤ vr)
    (hpage : a0.toNat + 2048 ≤ bin ∨ bin + 32768 ≤ a0.toNat) (hrow : a0.toNat + 2048 ≤ kr ∨ kr + 32 ≤ a0.toNat) :
    ∃ e : Dev, exec (.happend p a0 a1 a2 16 0) s = .next (s.put e) ∧
      e.pageValid p.tile bin = max (s.dev.pageValid p.tile bin) (s.dev.tsLe p.tile a1.toNat 4 % 64 + 1) ∧
      (∀ b j, b < 8 → j < 16 → memGet (e.tile p.tile).store (keyCodesAt bin (s.dev.tsLe p.tile a1.toNat 4 % 64) b + j) =
        (packCodes 4 (s.dev.keyBlock p.tile bin (s.dev.tsWords p.tile (a0.toNat + 128 * b) 32)).codes).getD j 0) ∧
      (∀ x, x < bin ∨ bin + 32768 ≤ x → x < kr ∨ kr + 32 ≤ x → x < vr ∨ vr + 32 ≤ x →
        memGet (e.tile p.tile).store x = memGet (s.dev.tile p.tile).store x) ∧
      (e.tile p.tile).dram = (s.dev.tile p.tile).dram ∧ (e.tile p.tile).vreg = (s.dev.tile p.tile).vreg ∧ s.dev.onlyTile e p.tile ∧
      e.out = s.dev.out := by
  have heffect := appendRow_effect (s.dev.count (.tile p.tile) 0x14 1) p.tile (row := a0.toNat) (kt := a2.toNat % 4096)
    (vt := a2.toNat / 4096 % 4096) (bin := bin) (Nat.mod_lt (s.dev.tsLe p.tile a1.toNat 4) (by decide : 0 < 64))
  simp only [statAt_count, pageValid_count, tsWords_count, Dev.keyBlock, tsLe_count, zeroLimit_count, hk, hv] at heffect
  obtain ⟨hvalid, hkeys, hframe⟩ := heffect hkr hvr hpage hrow
  have hrun := exec_happend_row hf hi hb hskip hbin
  rw [hat] at hrun
  have htile := hframe.tile
  rw [tile_count] at htile
  refine ⟨_, hrun, hvalid, hkeys, fun x hbin hkr hvr => ?_, ?_, ?_, fun m hm => ?_, ?_⟩
  · rw [hframe.beside, tile_count]
    simp only [pageBytes, recordBytes, Set.mem_union, Set.mem_Ico]
    omega
  · rw [htile]
  · rw [htile]
  · exact (hframe.others m hm).trans (tile_count s.dev p.tile m 0x14 1)
  · exact hframe.out.trans (out_count s.dev p.tile 0x14 1)

theorem hflush_effect (hb : hflushBad a0.toNat a1.toNat 0 1 0 = false)
    (hbin : s.dev.tsLe p.tile a0.toNat 4 % 1024 < s.dev.bins p.tile) {bin : Nat}
    (hat : s.dev.binAt p.tile (s.dev.tsLe p.tile a0.toNat 4 % 1024) = bin) :
    ∃ e : Dev, exec (.hflush p a0 a1 0 1 0) s = .next (s.put e) ∧
      e.tile p.tile = { s.dev.tile p.tile with
        store := flushedStore (s.dev.tile p.tile).store bin a1.toNat (s.dev.pageValid p.tile bin == 64) } ∧
      s.dev.onlyTile e p.tile ∧ e.out = s.dev.out ∧
      e.getN (HMP_FLUSH_COUNT p.tile) = min (s.dev.getN (HMP_FLUSH_COUNT p.tile) + 1) 0xFFFFFFFF ∧
      (s.dev.pageValid p.tile bin ≠ 64 → e.regBit (HMP_EVENT p.tile) 3 = true) := by
  obtain ⟨htile, hothers, hout, hcount, hevent⟩ := flushBin_effect (s.dev.count (.tile p.tile) 0x14 1) p.tile bin a1.toNat
  have hcounter := getN_congr (getR_count_block s.dev p.tile 0x14 1 (p := HMP_FLUSH_COUNT p.tile)
    (by simp only [HMP_FLUSH_COUNT]; omega) (by simp only [HMP_FLUSH_COUNT]; omega))
  have hrun := exec_hflush hf hi hb hbin
  rw [hat] at hrun
  rw [tile_count, pageValid_count] at htile
  rw [hcounter] at hcount
  rw [pageValid_count] at hevent
  exact ⟨_, hrun, htile, fun m hm => (hothers m hm).trans (tile_count s.dev p.tile m 0x14 1),
    hout.trans (out_count s.dev p.tile 0x14 1), hcount, hevent⟩

end

/-- Settles O32: a row's keys are written block by block beside its record and its values, so each block meets the bin's scale and the row
as they stood; a flush reads the page before it writes the slot. -/
theorem hamperRows : Obligations.HamperRows := by
  constructor
  · rintro s p n a0 a1 a2 hf rfl hi hb
    refine ⟨happend_skip_effect hf hi hb, happend_mapErr_effect hf hi hb, fun hskip hbin hkr hvr hpage hrow => ?_⟩
    exact happend_row_effect hf hi hb hskip hbin rfl rfl rfl hkr hvr hpage hrow
  · rintro s p n a0 a1 hf rfl hi hb _ _ hbin
    obtain ⟨e, hrun, htile, hothers, hout, hcount, hevent⟩ := hflush_effect hf hi hb hbin rfl
    have hstore := congrArg Tile.store htile
    refine ⟨e, hrun, fun j hj hne => ?_, ?_, fun x hx => ?_, hcount, hevent, ?_, hothers, hout⟩
    · exact (congrArg (memGet · _) hstore).trans (memGet_flushedStore_copy _ _ _ _ hj hne)
    · exact (congrArg (fun m => (memLe m _ 1).testBit 0) hstore).trans (memLe_flushedStore_full _ _ _ _)
    · exact (congrArg (memGet · x) hstore).trans (memGet_flushedStore_out _ _ _ _ hx)
    · rw [htile]

end Sys2Proof.Machine
end

section
/-! States that meet the hypotheses of the statement on the Hamper's instructions. -/

namespace Sys2Proof.Machine

open Reg

/-- A package as after reset in which a pass runs on tile 0, whose Hamper area of `bins` bins begins at 0x8000; the append map's entry at
0x20000 has SKIP where `skip`. -/
def hamperWitness (bins : Nat) (skip : Bool) : State :=
  let d := ((State.reset.dev.setF (TCTL_PASS_STATUS_STATE 0) 1).setF (HMP_AREA_BASE 0) 1).setF (HMP_AREA_BINS 0) bins
  State.reset.put (d.onTile 0 fun t => { t with store := memPut t.store 0x20003 (if skip then 0x80 else 0) })

/-- The row is skipped. -/
theorem hamperRows_skip : ∃ e : Dev, exec (.happend ⟨0, 0, 0⟩ 0x10000 0x20000 0 16 0) (hamperWitness 1 true) =
    .next ((hamperWitness 1 true).put e) ∧ e.tiles = (hamperWitness 1 true).dev.tiles := by
  obtain ⟨hskip, -⟩ := hamperRows.1 (hamperWitness 1 true) ⟨0, 0, 0⟩ 0 0x10000 0x20000 0 (by decide +kernel) rfl (by decide +kernel)
    (by decide)
  obtain ⟨e, he, htiles, -⟩ := hskip (by decide +kernel)
  exact ⟨e, he, htiles⟩

/-- An area without bins has no bin 0. -/
theorem hamperRows_mapErr : ∃ e : Dev, exec (.happend ⟨0, 0, 0⟩ 0x10000 0x20000 0 16 0) (hamperWitness 0 false) =
    .next ((hamperWitness 0 false).put e) ∧ e.regBit (HMP_EVENT 0) 4 = true := by
  obtain ⟨-, hmapErr, -⟩ := hamperRows.1 (hamperWitness 0 false) ⟨0, 0, 0⟩ 0 0x10000 0x20000 0 (by decide +kernel) rfl (by decide +kernel)
    (by decide)
  obtain ⟨e, he, hbit, -⟩ := hmapErr (by decide +kernel) (by decide +kernel)
  exact ⟨e, he, hbit⟩

/-- The row's token stands at position 0 of bin 0. -/
theorem hamperRows_append : ∃ e : Dev, exec (.happend ⟨0, 0, 0⟩ 0x10000 0x20000 0 16 0) (hamperWitness 1 false) =
    .next ((hamperWitness 1 false).put e) ∧ e.pageValid 0 0x8000 = 1 := by
  obtain ⟨-, -, happend⟩ := hamperRows.1 (hamperWitness 1 false) ⟨0, 0, 0⟩ 0 0x10000 0x20000 0 (by decide +kernel) rfl (by decide +kernel)
    (by decide)
  obtain ⟨e, he, hvalid, -⟩ := happend (by decide +kernel) (by decide +kernel) (.inl (by decide +kernel)) (.inl (by decide +kernel))
    (.inr (by decide +kernel)) (.inr (by decide +kernel))
  exact ⟨e, he, hvalid.trans (by decide +kernel)⟩

/-- Bin 0 holds no token: it is flushed to the slot at 0x18000 with FULL clear. -/
theorem hamperRows_flush : ∃ e : Dev, exec (.hflush ⟨0, 0, 0⟩ 0x20000 0x18000 0 1 0) (hamperWitness 1 false) =
    .next ((hamperWitness 1 false).put e) ∧ (e.tsLe 0 (0x18000 + trailerAt + 3) 1).testBit 0 = false ∧ e.regBit (HMP_EVENT 0) 3 = true := by
  obtain ⟨e, he, -, hfull, -, -, hevent, -⟩ := hamperRows.2 (hamperWitness 1 false) ⟨0, 0, 0⟩ 0 0x20000 0x18000 (by decide +kernel) rfl
    (by decide +kernel) (by decide) (by decide +kernel)
  exact ⟨e, he, hfull.trans (by decide +kernel), hevent (by decide +kernel)⟩

end Sys2Proof.Machine
end

section
/-! Route records (R264 to R267): XTOPK writes each row's record from the row's scores, which no earlier record covers. -/

namespace Sys2Proof.Machine

open Reg

/-! Tile store alone. -/

/-- The tile store of tile `n` holds `m`; nothing else of any tile differs, nor what has been sent. -/
def Dev.storeIs (n : Fin 32) (m : Mem) (d e : Dev) : Prop := e.tile n = { d.tile n with store := m } ∧ d.onlyTile e n ∧ e.out = d.out

section
variable {n : Fin 32} {m m' : Mem} {d e x : Dev}

theorem storeIs_of_same (ht : e.tiles = d.tiles) (ho : e.out = d.out) : d.storeIs n (d.tile n).store e :=
  ⟨tile_congr ht n, fun k _ => tile_congr ht k, ho⟩

theorem Dev.storeIs.trans (h : d.storeIs n m e) (g : e.storeIs n m' x) : d.storeIs n m' x := by
  obtain ⟨htile, hothers, hout⟩ := h
  obtain ⟨htile', hothers', hout'⟩ := g
  exact ⟨by rw [htile', htile], fun k hk => (hothers' k hk).trans (hothers k hk), hout'.trans hout⟩

theorem Dev.storeIs.store (h : d.storeIs n m e) : (e.tile n).store = m := congrArg Tile.store h.1

/-- What a step leaves unchanged that leaves every tile and what has been sent. -/
theorem Dev.storeIs.of_same (h : d.storeIs n m e) (ht : x.tiles = e.tiles) (ho : x.out = e.out) : d.storeIs n m x := by
  have hsame := storeIs_of_same (n := n) ht ho
  rw [h.store] at hsame
  exact h.trans hsame

end

theorem storeIs_tsWrite (d : Dev) (n : Fin 32) (a : Nat) (l : List Byte) :
    d.storeIs n (memPutBytes (d.tile n).store a l) (d.tsWrite n a l) :=
  ⟨tile_onTile_self d n _, fun _ hk => tile_onTile_ne d _ hk, rfl⟩

theorem storeIs_tsPutLe (d : Dev) (n : Fin 32) (a k v : Nat) :
    d.storeIs n (memPutLe (d.tile n).store a k v) (d.tsPutLe n a k v) :=
  ⟨tile_onTile_self d n _, fun _ hk => tile_onTile_ne d _ hk, rfl⟩

theorem tsWords_congr {d e : Dev} {n : Fin 32} {a k : Nat}
    (h : ∀ y, a ≤ y → y < a + 4 * k → memGet (e.tile n).store y = memGet (d.tile n).store y) : e.tsWords n a k = d.tsWords n a k := by
  refine List.map_congr_left fun i hi => congrArg (fun l => BitVec.ofNat 32 (leVal l)) (memBytes_congr fun y hlow hhigh => h y ?_ ?_)
  · omega
  · have hik := List.mem_range.mp hi
    omega

/-! The record of a row (R265, R266). -/

theorem topK_length_le (vs : List Word) (k : Nat) (taken : List Nat) : (topK vs k taken).length ≤ taken.length + k := by
  induction k generalizing taken with
  | zero => exact Nat.le_refl _
  | succ k ih =>
    unfold topK
    split
    · omega
    next e _ =>
      have hlen := ih (taken ++ [e])
      rw [List.length_append, List.length_singleton] at hlen
      omega

theorem length_entries (l : List (Nat × Word)) :
    (l.flatMap fun x => leBytes 2 (0x8000 + x.1) ++ [0, 0] ++ leBytes 4 x.2.toNat).length = 8 * l.length := by
  induction l with
  | nil => rfl
  | cons x t ih => simp only [List.flatMap_cons, List.length_append, leBytes_length, ih, List.length_cons, List.length_nil]; omega

/-- A record of at most eight choices fills its 64 bytes. -/
theorem routeRecord_length {k : Nat} (hk : k ≤ 8) (renorm : Bool) (bias : Option (List Word)) (scores : List Word) :
    (routeRecord k renorm bias scores).1.length = 64 := by
  unfold routeRecord
  extract_lets vs es ws sum ok chosen
  have hes : es.length ≤ 8 := (topK_length_le vs k []).trans (by simpa using hk)
  have hchosen : chosen.length = es.length := by
    rw [show chosen = if renorm && ok then ws.map fun w => fDiv vNan w sum else ws from rfl]
    split <;> simp [ws]
  rw [List.length_append, length_entries, List.length_zip, hchosen, List.length_replicate]
  omega

/-! The rows. -/

/-- The record of row `r` as the scores and the bias in tile store give it, and whether its renormalisation sum is refused. -/
def Dev.topkRow (d : Dev) (n : Fin 32) (a0 a2 param r : Nat) : List Byte × Bool :=
  routeRecord (param / 128 + 1) (param.testBit 6)
    (if param.testBit 5 then some (d.tsWords n a2 (128 * (param % 32 + 1))) else none)
    (d.tsWords n (a0 + 4 * (128 * (param % 32 + 1)) * r) (128 * (param % 32 + 1)))

/-- Row `r` of XTOPK. -/
def Dev.topkStep (d : Dev) (n : Fin 32) (a0 a1 a2 param r : Nat) : Dev :=
  (if (d.topkRow n a0 a2 param r).2 then d.latch (egXpt n) 1 else d).tsWrite n (a1 + 64 * r) (d.topkRow n a0 a2 param r).1

theorem topkRow_congr {d e : Dev} {n : Fin 32} {a0 a2 param r : Nat}
    (hscores : ∀ y, a0 + 512 * ((param % 32 + 1) * r) ≤ y → y < a0 + 512 * ((param % 32 + 1) * (r + 1)) →
      memGet (e.tile n).store y = memGet (d.tile n).store y)
    (hbias : param.testBit 5 = true → ∀ y, a2 ≤ y → y < a2 + 512 * (param % 32 + 1) →
      memGet (e.tile n).store y = memGet (d.tile n).store y) :
    e.topkRow n a0 a2 param r = d.topkRow n a0 a2 param r := by
  unfold Dev.topkRow
  generalize param % 32 + 1 = eb at hscores hbias ⊢
  have hs : e.tsWords n (a0 + 4 * (128 * eb) * r) (128 * eb) = d.tsWords n (a0 + 4 * (128 * eb) * r) (128 * eb) := by
    have hrow : 4 * (128 * eb) * r = 512 * (eb * r) := by ring
    rw [hrow]
    refine tsWords_congr fun y hlow hhigh => hscores y hlow ?_
    rw [Nat.mul_succ]
    omega
  rw [hs]
  split
  case isTrue h =>
    have hb : e.tsWords n a2 (128 * eb) = d.tsWords n a2 (128 * eb) := tsWords_congr fun y hlow hhigh => hbias h y hlow (by omega)
    rw [hb]
  case isFalse => rfl

theorem topkStep_storeIs (d : Dev) (n : Fin 32) (a0 a1 a2 param r : Nat) :
    d.storeIs n (memPutBytes (d.tile n).store (a1 + 64 * r) (d.topkRow n a0 a2 param r).1) (d.topkStep n a0 a1 a2 param r) := by
  unfold Dev.topkStep
  split
  · have hwrite := storeIs_tsWrite (d.latch (egXpt n) 1) n (a1 + 64 * r) (d.topkRow n a0 a2 param r).1
    rw [tile_congr (tiles_latch d (egXpt n) 1)] at hwrite
    exact (storeIs_of_same (tiles_latch d _ _) (out_latch d _ _)).trans hwrite
  · exact storeIs_tsWrite d n _ _

/-- The first `k` rows of XTOPK put their records in place, as the scores and the bias stood before. -/
theorem topkRows_storeIs {d : Dev} {n : Fin 32} {a0 a1 a2 count param : Nat} (hparam : param < 1024) {k : Nat}
    (hk : k ≤ count / (param % 32 + 1))
    (hscores : a1 + 64 * (count / (param % 32 + 1)) ≤ a0 ∨ a0 + 512 * count ≤ a1)
    (hbias : param.testBit 5 = true → a1 + 64 * (count / (param % 32 + 1)) ≤ a2 ∨ a2 + 512 * (param % 32 + 1) ≤ a1) :
    d.storeIs n (putRows (fun r => a1 + 64 * r) (fun r => (d.topkRow n a0 a2 param r).1) k (d.tile n).store)
      ((List.range k).foldl (fun d r => d.topkStep n a0 a1 a2 param r) d) := by
  induction k with
  | zero => exact storeIs_of_same rfl rfl
  | succ k ih =>
    have hprev := ih (by omega)
    rw [List.range_succ, List.foldl_append, List.foldl_cons, List.foldl_nil]
    generalize (List.range k).foldl (fun d r => d.topkStep n a0 a1 a2 param r) d = e at hprev ⊢
    have hlen : ∀ r, (d.topkRow n a0 a2 param r).1.length = 64 := fun r => routeRecord_length (by omega) _ _ _
    have hkept : ∀ y, y < a1 ∨ a1 + 64 * (count / (param % 32 + 1)) ≤ y → memGet (e.tile n).store y = memGet (d.tile n).store y := by
      intro y hy
      rw [hprev.store]
      exact memGet_putRows_out _ _ k _ fun j hj => by rw [hlen]; omega
    have hfits : (param % 32 + 1) * (k + 1) ≤ count := (Nat.mul_le_mul_left _ hk).trans (Nat.mul_div_le _ _)
    have hrow : e.topkRow n a0 a2 param k = d.topkRow n a0 a2 param k :=
      topkRow_congr (fun y hlow hhigh => hkept y (by omega)) fun h y hlow hhigh => hkept y (by have := hbias h; omega)
    have hstep := topkStep_storeIs e n a0 a1 a2 param k
    rw [hrow, hprev.store, ← putRows_succ (fun r => a1 + 64 * r) (fun r => (d.topkRow n a0 a2 param r).1)] at hstep
    exact hprev.trans hstep

/-! The command. -/

section
variable {s : State} {p : Issue} {a0 a1 a2 : BitVec 26} {count : BitVec 16} {param : BitVec 10} (hf : s.dev.frozen = false)
  (hi : s.dev.issues p.tile 4 = true) (hb : xtopkBad a0.toNat a1.toNat a2.toNat count.toNat param.toNat = false)
include hf hi hb

theorem exec_xtopk : exec (.xtopk p a0 a1 a2 count param) s = .next (s.put
    ((List.range (count.toNat / (param.toNat % 32 + 1))).foldl (fun d r => d.topkStep p.tile a0.toNat a1.toNat a2.toNat param.toNat r)
      (s.dev.count (.tile p.tile) 0x14 1))) := by
  change execXtopk p a0 a1 a2 count param s = _
  refine onRun_eq hf ((helperIssue_effect _ hi hb).trans ?_)
  rw [← Nat.mul_div_mul_left count.toNat (param.toNat % 32 + 1) (by decide : 0 < 128)]
  rfl

theorem xtopk_effect (hscores : a1.toNat + 64 * (count.toNat / (param.toNat % 32 + 1)) ≤ a0.toNat ∨ a0.toNat + 512 * count.toNat ≤ a1.toNat)
    (hbias : param.toNat.testBit 5 = true →
      a1.toNat + 64 * (count.toNat / (param.toNat % 32 + 1)) ≤ a2.toNat ∨ a2.toNat + 512 * (param.toNat % 32 + 1) ≤ a1.toNat) :
    ∃ e : Dev, exec (.xtopk p a0 a1 a2 count param) s = .next (s.put e) ∧
      s.dev.storeIs p.tile (putRows (fun r => a1.toNat + 64 * r) (fun r => (s.dev.topkRow p.tile a0.toNat a2.toNat param.toNat r).1)
        (count.toNat / (param.toNat % 32 + 1)) (s.dev.tile p.tile).store) e := by
  have hsame := tile_count s.dev p.tile p.tile 0x14 1
  have hrows := topkRows_storeIs (d := s.dev.count (.tile p.tile) 0x14 1) (n := p.tile) param.isLt (Nat.le_refl _) hscores hbias
  have hrow : ∀ r, (s.dev.count (.tile p.tile) 0x14 1).topkRow p.tile a0.toNat a2.toNat param.toNat r =
      s.dev.topkRow p.tile a0.toNat a2.toNat param.toNat r :=
    fun r => topkRow_congr (fun y _ _ => by rw [hsame]) fun _ y _ _ => by rw [hsame]
  simp only [hrow, hsame] at hrows
  exact ⟨_, exec_xtopk hf hi hb, (storeIs_of_same (countOnly_count s.dev p.tile 0x14 1).fields.1 (out_count s.dev p.tile 0x14 1)).trans hrows⟩

end

end Sys2Proof.Machine
end

section
/-! XCOMBINE of one row (R286 to R288), and the statement on the router's records. -/

namespace Sys2Proof.Machine

open Reg

/-! The answers of a row (R287, R288). -/

/-- The header in the return slot of choice `j` of the descriptor's row 0. -/
def Dev.answerHdr (d : Dev) (n : Fin 32) (a j : Nat) : XHdr :=
  xhdrOf (d.tsRead n (d.ddF n a 0x24 4 + j * d.ddF n a 0x28 4) 64)

/-- The return slot of a choice holds the running pass's answer to row 0. -/
def Dev.answered (d : Dev) (n : Fin 32) (a : Nat) (x : Nat × Choice) : Bool :=
  (d.answerHdr n a x.1).tag == d.tag n && (d.answerHdr n a x.1).srow == 0 &&
    (d.answerHdr n a x.1).targets.head?.any fun t => t.2.2 == x.1

/-- The valid choices of the record that row 0 uses. -/
def Dev.rowChoices (d : Dev) (n : Fin 32) (a route : Nat) : List (Nat × Choice) :=
  d.choices n (d.recordOf n (d.ddF n a 0x20 4) route).2 (d.ddF n a 1 1)

/-- Element `e` of row 0's sum. -/
def Dev.combinedAt (d : Dev) (n : Fin 32) (a route base e : Nat) : Word :=
  combineAcc (BitVec.ofNat 32 (d.tsLe n (base + 4 * e) 4)) ((d.rowChoices n a route).map fun x =>
    (x.2.weight, ofBf16 (BitVec.ofNat 16 (d.tsLe n (d.ddF n a 0x24 4 + x.1 * d.ddF n a 0x28 4 + 64 + 2 * e) 2))))

/-- Row 0's state byte. -/
def Dev.rowState (d : Dev) (n : Fin 32) (a : Nat) : Nat := d.tsLe n (d.ddF n a 0x1C 4) 1

/-- XCOMBINE of row 0 by the row's flags and its answers. -/
theorem combineRow_eq (d : Dev) (n : Fin 32) (a route base h : Nat) : d.combineRow n a route base h 0 =
    if (d.rowState n a).testBit 0 || (d.rowState n a).testBit 1 || (d.rowState n a).testBit 2 then d
    else if !(d.rowChoices n a route).all (d.answered n a) then
      (d.markRow n (d.ddF n a 0x1C 4) 2 (d.ddF n a 0 1)).latch (egXpt n) 2
    else if (d.rowChoices n a route).any fun x => (d.answerHdr n a x.1).kind == 3 then
      (d.markRow n (d.ddF n a 0x1C 4) 1 (d.ddF n a 0 1)).satInc (XPT_DEFER_COUNT n)
    else d.tsWrite n base (wordBytes ((List.range h).map (d.combinedAt n a route base))) := by
  have hgood : (fun x : Nat × Choice =>
      (d.answerHdr n a x.1).tag == d.tag n && (d.answerHdr n a x.1).srow == 0 &&
        (match (d.answerHdr n a x.1).targets.head? with
        | some t => t.2.2 == x.1
        | none => false)) = d.answered n a := by
    funext x
    unfold Dev.answered
    cases (d.answerHdr n a x.1).targets.head? <;> rfl
  unfold Dev.combineRow
  simp only [Nat.mul_zero, Nat.zero_add, Nat.add_zero]
  rw [← hgood]
  rfl

/-! Counting the instruction changes nothing that a row reads. -/

section
variable (d : Dev) (n : Fin 32) (ev k a route : Nat)

theorem ddF_count (off size : Nat) : (d.count (.tile n) ev k).ddF n a off size = d.ddF n a off size := tsLe_count d n ev k _ _

theorem ddBad_count : (d.count (.tile n) ev k).ddBad n a = d.ddBad n a := by
  simp only [Dev.ddBad, ddF_count]

theorem rowState_count : (d.count (.tile n) ev k).rowState n a = d.rowState n a := by
  simp only [Dev.rowState, ddF_count, tsLe_count]

theorem choice_count (j : Nat) : (d.count (.tile n) ev k).choice n a j = d.choice n a j := by
  simp only [Dev.choice, tsLe_count]

theorem rowChoices_count : (d.count (.tile n) ev k).rowChoices n a route = d.rowChoices n a route := by
  simp only [Dev.rowChoices, Dev.choices, Dev.recordOf, choice_count, ddF_count]

theorem answerHdr_count (j : Nat) : (d.count (.tile n) ev k).answerHdr n a j = d.answerHdr n a j := by
  simp only [Dev.answerHdr, ddF_count, tsRead_count]

theorem tag_count : (d.count (.tile n) ev k).tag n = d.tag n := by
  have hepoch : (d.count (.tile n) ev k).epoch n = d.epoch n :=
    getF_congr (getR_count_block d n ev k (by simp only [XPT_CTRL]; omega) (by simp only [XPT_CTRL]; omega))
  have hseq : (d.count (.tile n) ev k).passSeq n = d.passSeq n :=
    getF_congr (getR_count_block d n ev k (by simp only [TCTL_PASS_STATUS]; omega) (by simp only [TCTL_PASS_STATUS]; omega))
  rw [Dev.tag, hepoch, hseq, Dev.tag]

theorem answered_count : (d.count (.tile n) ev k).answered n a = d.answered n a := by
  funext x
  simp only [Dev.answered, answerHdr_count, tag_count]

theorem combinedAt_count (base e : Nat) : (d.count (.tile n) ev k).combinedAt n a route base e = d.combinedAt n a route base e := by
  simp only [Dev.combinedAt, rowChoices_count, ddF_count, tsLe_count]

end

/-! A row marked MISSING or DEFERRED (R287, R288). -/

section
variable (d : Dev) (n : Fin 32) (at_ bit disp : Nat)

theorem markRow_storeIs : ∃ m, d.storeIs n m (d.markRow n at_ bit disp) := by
  unfold Dev.markRow
  split
  · exact ⟨_, storeIs_of_same rfl rfl⟩
  · exact ⟨_, (storeIs_tsPutLe d n _ _ _).trans (storeIs_tsPutLe _ n _ _ _)⟩

theorem markRow_shows (hbit : bit < 8) (hfits : at_ + 3 < tsBytes) :
    ((d.markRow n at_ bit disp).tsLe n at_ 1).testBit bit = true ∧ (d.markRow n at_ bit disp).tsLe n (at_ + 2) 1 = disp % 256 := by
  have hstore : ((d.markRow n at_ bit disp).tile n).store =
      memPutLe (memPutLe (d.tile n).store at_ 1 (d.tsLe n at_ 1 ||| 2 ^ bit)) (at_ + 2) 1 disp := by
    rw [Dev.markRow, if_neg (Nat.not_le.mpr hfits), (storeIs_tsPutLe _ n _ _ _).store, (storeIs_tsPutLe d n _ _ _).store]
  have hstate : memLe (memPutLe (memPutLe (d.tile n).store at_ 1 (d.tsLe n at_ 1 ||| 2 ^ bit)) (at_ + 2) 1 disp) at_ 1 =
      (d.tsLe n at_ 1 ||| 2 ^ bit) % 2 ^ 8 := by
    refine Eq.trans (congrArg leVal (memBytes_congr fun y _ hy => ?_)) (memLe_memPutLe_self (d.tile n).store at_ 1 _)
    exact (memGet_memPutBytes _ _ _ _).trans (if_neg (by omega))
  rw [Dev.tsLe, Dev.tsLe, hstore, hstate, memLe_memPutLe_self, Nat.testBit_mod_two_pow, Nat.testBit_or, Nat.testBit_two_pow_self]
  exact ⟨by simp [hbit], rfl⟩

end

/-! What a row leaves. -/

theorem testBit_of_mod_eight {v b : Nat} (h : v % 8 = 0) (hb : b < 3) : v.testBit b = false := by
  have hlow := Nat.testBit_mod_two_pow v 3 b
  rw [show v % 2 ^ 3 = 0 from h, Nat.zero_testBit] at hlow
  simpa [hb] using hlow.symm

section
variable (d : Dev) (n : Fin 32) (a route base h : Nat)

theorem combineRow_storeIs : ∃ m, d.storeIs n m (d.combineRow n a route base h 0) := by
  obtain ⟨m, hm⟩ := markRow_storeIs d n (d.ddF n a 0x1C 4) 2 (d.ddF n a 0 1)
  obtain ⟨m', hm'⟩ := markRow_storeIs d n (d.ddF n a 0x1C 4) 1 (d.ddF n a 0 1)
  rw [combineRow_eq]
  split_ifs
  · exact ⟨_, storeIs_of_same rfl rfl⟩
  · exact ⟨m, hm.of_same (tiles_latch _ _ _) (out_latch _ _ _)⟩
  · exact ⟨m', hm'.of_same (tiles_satInc _ _) (out_satInc _ _)⟩
  · exact ⟨_, storeIs_tsWrite d n _ _⟩

theorem combineRow_flagged (hst : (d.rowState n a).testBit 0 = true ∨ (d.rowState n a).testBit 1 = true ∨ (d.rowState n a).testBit 2 = true) :
    d.combineRow n a route base h 0 = d := by
  rw [combineRow_eq, if_pos (by simpa [or_assoc] using hst)]

variable (hst : d.rowState n a % 8 = 0)
include hst

/-- A row without flags, by its answers. -/
theorem combineRow_unflagged : d.combineRow n a route base h 0 =
    if !(d.rowChoices n a route).all (d.answered n a) then
      (d.markRow n (d.ddF n a 0x1C 4) 2 (d.ddF n a 0 1)).latch (egXpt n) 2
    else if (d.rowChoices n a route).any fun x => (d.answerHdr n a x.1).kind == 3 then
      (d.markRow n (d.ddF n a 0x1C 4) 1 (d.ddF n a 0 1)).satInc (XPT_DEFER_COUNT n)
    else d.tsWrite n base (wordBytes ((List.range h).map (d.combinedAt n a route base))) := by
  rw [combineRow_eq, if_neg]
  simp [testBit_of_mod_eight hst]

theorem combineRow_missing (hall : (d.rowChoices n a route).all (d.answered n a) = false) (hfits : d.ddF n a 0x1C 4 + 3 < tsBytes) :
    let e := d.combineRow n a route base h 0
    (e.tsLe n (d.ddF n a 0x1C 4) 1).testBit 2 = true ∧ e.tsLe n (d.ddF n a 0x1C 4 + 2) 1 = d.ddF n a 0 1 ∧
      e.regBit (XPT_EVENT n) 2 = true := by
  obtain ⟨hflag, hlayer⟩ := markRow_shows d n (d.ddF n a 0x1C 4) 2 (d.ddF n a 0 1) (by decide) hfits
  have hrow := combineRow_unflagged d n a route base h hst
  rw [hall, if_pos (by decide)] at hrow
  dsimp only
  rw [hrow, Dev.tsLe, Dev.tsLe, tile_congr (tiles_latch _ _ _)]
  refine ⟨hflag, hlayer.trans (Nat.mod_eq_of_lt ?_), ?_⟩
  · exact (leVal_lt _).trans_eq (by simp)
  · exact regBit_latch_self _ (egXpt n) 2 (by decide) (by simp only [egXpt, XPT_EVENT, tileBase, INT_PEND]; omega)

variable (hall : (d.rowChoices n a route).all (d.answered n a) = true)
include hall

theorem combineRow_deferred (hdefer : ((d.rowChoices n a route).any fun x => (d.answerHdr n a x.1).kind == 3) = true)
    (hfits : d.ddF n a 0x1C 4 + 3 < tsBytes) :
    let e := d.combineRow n a route base h 0
    (e.tsLe n (d.ddF n a 0x1C 4) 1).testBit 1 = true ∧
      e.getN (XPT_DEFER_COUNT n) = min (d.getN (XPT_DEFER_COUNT n) + 1) 0xFFFFFFFF := by
  have hmark := markRow_shows d n (d.ddF n a 0x1C 4) 1 (d.ddF n a 0 1) (by decide) hfits
  have hregs : (d.markRow n (d.ddF n a 0x1C 4) 1 (d.ddF n a 0 1)).regs = d.regs := by
    unfold Dev.markRow
    split <;> rfl
  have hrow := combineRow_unflagged d n a route base h hst
  rw [hall, hdefer, if_neg (by decide), if_pos rfl] at hrow
  dsimp only
  rw [hrow, Dev.tsLe, tile_congr (tiles_satInc _ _), getN_satInc, getN_congr (getR_of_regs hregs _)]
  exact ⟨hmark.1, rfl⟩

theorem combineRow_sum (hdefer : ((d.rowChoices n a route).any fun x => (d.answerHdr n a x.1).kind == 3) = false) :
    let e := d.combineRow n a route base h 0
    (∀ j, j < h → e.tsLe n (base + 4 * j) 4 = (d.combinedAt n a route base j).toNat) ∧
      ∀ x, x < base ∨ base + 4 * h ≤ x → memGet (e.tile n).store x = memGet (d.tile n).store x := by
  obtain ⟨l, hl⟩ : ∃ l, l = (List.range h).map (d.combinedAt n a route base) := ⟨_, rfl⟩
  have hlen : l.length = h := by rw [hl]; simp
  have hrow := combineRow_unflagged d n a route base h hst
  rw [hall, hdefer, if_neg (by decide), if_neg (by decide), ← hl] at hrow
  have hstore := (storeIs_tsWrite d n base (wordBytes l)).store
  dsimp only
  rw [hrow, hstore]
  refine ⟨fun j hj => ?_, fun x hx => ?_⟩
  · rw [Dev.tsLe, hstore, memLe_word (memBytes_memPutBytes_self _ _ (wordBytes_length l)) (by omega : j < l.length)]
    simp [hl]
  · rw [memGet_memPutBytes, wordBytes_length, hlen, if_neg (by omega)]

end

/-! The command, and the statement. -/

theorem exec_xcombine {s : State} {p : Issue} {a0 a1 a2 : BitVec 26} {count : BitVec 16} {param : BitVec 10} (hf : s.dev.frozen = false)
    (hi : s.dev.issues p.tile 4 = true) (hb : xcombineBad a2.toNat count.toNat param.toNat = false)
    (hone : count.toNat = 2 + param.toNat % 128) (hdd : s.dev.ddBad p.tile a0.toNat = false) :
    exec (.xcombine p a0 a1 a2 count param) s = .next (s.put ((s.dev.count (.tile p.tile) 0x14 1).combineRow p.tile
      a0.toNat a1.toNat a2.toNat (128 * (param.toNat % 128 + 1)) 0)) := by
  change execXcombine p a0 a1 a2 count param s = _
  refine onRun_eq hf ((helperIssue_effect _ hi hb).trans ?_)
  have hrows : count.toNat / (1 + (param.toNat % 128 + 1)) = 1 := by
    rw [hone, show 1 + (param.toNat % 128 + 1) = 2 + param.toNat % 128 by omega]
    exact Nat.div_self (by omega)
  rw [← ddBad_count s.dev p.tile 0x14 1] at hdd
  dsimp only
  rw [if_neg (by simp [hdd]), hrows]
  rfl

/-- Settles O33: a record reads its scores where no earlier record was written; a row's flags and answers decide what becomes of it. -/
theorem routerRecords : Obligations.RouterRecords := by
  constructor
  · rintro s p n a0 a1 a2 count param hf rfl hi hb eb rows hscores hbias
    have hlen : ∀ r, (s.dev.topkRow p.tile a0.toNat a2.toNat param.toNat r).1.length = 64 :=
      fun r => routeRecord_length (by have := param.isLt; omega) _ _ _
    obtain ⟨e, hrun, he⟩ := xtopk_effect hf hi hb hscores hbias
    obtain ⟨htile, hothers, hout⟩ := id he
    refine ⟨e, hrun, fun r j hr hj => ?_, fun x hx => ?_, by rw [htile], hothers, hout⟩
    · rw [he.store, memGet_putRows_in _ _ rows _ hr ⟨by omega, by rw [hlen]; omega⟩ fun i _ hri => .inl (by omega),
        Nat.add_sub_cancel_left]
      rfl
    · rw [he.store, memGet_putRows_out _ _ rows _ fun i (hi : i < rows) => by rw [hlen]; omega]
  · rintro s p n a0 a1 a2 count param hf rfl hi hb hone hdd f h st ch hd good
    have hstate := rowState_count s.dev p.tile 0x14 1 a0.toNat
    have hchoices := rowChoices_count s.dev p.tile 0x14 1 a0.toNat a1.toNat
    have hfield := ddF_count s.dev p.tile 0x14 1 a0.toNat
    have hanswered := answered_count s.dev p.tile 0x14 1 a0.toNat
    have hhdr := answerHdr_count s.dev p.tile 0x14 1 a0.toNat
    have hsame := tile_count s.dev p.tile p.tile 0x14 1
    obtain ⟨m, hstore⟩ := combineRow_storeIs (s.dev.count (.tile p.tile) 0x14 1) p.tile a0.toNat a1.toNat a2.toNat h
    have htiles := storeIs_of_same (n := p.tile) (countOnly_count s.dev p.tile 0x14 1).fields.1 (out_count s.dev p.tile 0x14 1)
    obtain ⟨htile, hothers, hout⟩ := htiles.trans hstore
    refine ⟨_, exec_xcombine hf hi hb hone hdd, hothers, hout, by rw [htile], fun hst => ?_, fun hst hall hfits => ?_,
      fun hst hall hdefer hfits => ?_, fun hst hall hdefer => ?_⟩
    · rw [combineRow_flagged _ p.tile a0.toNat a1.toNat a2.toNat h (by rw [hstate]; exact hst), hsame]
    · have hmissing := combineRow_missing (s.dev.count (.tile p.tile) 0x14 1) p.tile a0.toNat a1.toNat a2.toNat h
        (by rw [hstate]; exact hst) (by rw [hchoices, hanswered]; exact hall) (by rw [hfield]; exact hfits)
      simp only [hfield] at hmissing
      exact hmissing
    · have hdeferred := combineRow_deferred (s.dev.count (.tile p.tile) 0x14 1) p.tile a0.toNat a1.toNat a2.toNat h
        (by rw [hstate]; exact hst) (by rw [hchoices, hanswered]; exact hall) (by simp only [hchoices, hhdr]; exact hdefer)
        (by rw [hfield]; exact hfits)
      have hcount := getN_congr (getR_count_block s.dev p.tile 0x14 1 (p := XPT_DEFER_COUNT p.tile)
        (by simp only [XPT_DEFER_COUNT]; omega) (by simp only [XPT_DEFER_COUNT]; omega))
      rw [hfield, hcount] at hdeferred
      exact hdeferred
    · have hsum := combineRow_sum (s.dev.count (.tile p.tile) 0x14 1) p.tile a0.toNat a1.toNat a2.toNat h
        (by rw [hstate]; exact hst) (by rw [hchoices, hanswered]; exact hall) (by simp only [hchoices, hhdr]; exact hdefer)
      simp only [combinedAt_count, hsame] at hsum
      exact hsum

end Sys2Proof.Machine
end

section
/-! States that meet the hypotheses of the statement on the router's records. -/

namespace Sys2Proof.Machine

open Reg

/-- Rows of scores that are all zero: XTOPK's record names expert 0. -/
theorem routerRecords_topk : ∃ e : Dev, exec (.xtopk ⟨0, 0, 0⟩ 0x1000 0 0 1 0) wringerWitness = .next (wringerWitness.put e) ∧
    memGet (e.tile 0).store 1 = 0x80 := by
  obtain ⟨e, he, hrecord, -⟩ := routerRecords.1 wringerWitness ⟨0, 0, 0⟩ 0 0x1000 0 0 1 0 (by decide +kernel) rfl (by decide +kernel)
    (by decide) (.inl (by decide)) (by decide)
  exact ⟨e, he, (hrecord 0 1 (by decide) (by decide)).trans (by decide +kernel)⟩

/-- A package as after reset in which a pass runs on tile 0: a descriptor of one choice at 0x1000, whose route record at 0x2000 holds expert 0
with weight 1.0. Its return slot at 0 holds a header of kind `kind` with `targets` targets, and 1.0 as its first element. -/
def combineWitness (kind targets : Byte) : State :=
  let bytes := [(0x1001, 1), (0x2001, 0x80), (0x2006, 0x80), (0x2007, 0x3F), (4, kind), (0xE, targets), (0x40, 0x80), (0x41, 0x3F)]
  wringerWitness.put (wringerWitness.dev.onTile 0 fun t => { t with store := bytes.foldl (fun m b => memPut m b.1 b.2) t.store })

theorem routerRecords_missing : ∃ e : Dev, exec (.xcombine ⟨0, 0, 0⟩ 0x1000 0x2000 0x4000 2 0) (combineWitness 2 0) =
    .next ((combineWitness 2 0).put e) ∧ (e.tsLe 0 0 1).testBit 2 = true ∧ e.regBit (XPT_EVENT 0) 2 = true := by
  obtain ⟨e, he, -, -, -, -, hmissing, -⟩ := routerRecords.2 (combineWitness 2 0) ⟨0, 0, 0⟩ 0 0x1000 0x2000 0x4000 2 0
    (by decide +kernel) rfl (by decide +kernel) (by decide) (by decide) (by decide +kernel)
  obtain ⟨hflag, -, hevent⟩ := hmissing (by decide +kernel) (by decide +kernel) (by decide +kernel)
  exact ⟨e, he, hflag, hevent⟩

theorem routerRecords_deferred : ∃ e : Dev, exec (.xcombine ⟨0, 0, 0⟩ 0x1000 0x2000 0x4000 2 0) (combineWitness 3 1) =
    .next ((combineWitness 3 1).put e) ∧ e.getN (XPT_DEFER_COUNT 0) = 1 := by
  obtain ⟨e, he, -, -, -, -, -, hdeferred, -⟩ := routerRecords.2 (combineWitness 3 1) ⟨0, 0, 0⟩ 0 0x1000 0x2000 0x4000 2 0
    (by decide +kernel) rfl (by decide +kernel) (by decide) (by decide) (by decide +kernel)
  obtain ⟨-, hcount⟩ := hdeferred (by decide +kernel) (by decide +kernel) (by decide +kernel) (by decide +kernel)
  exact ⟨e, he, hcount.trans (by decide +kernel)⟩

/-- The answer 1.0 of weight 1.0 is added to a base value of 0. -/
theorem routerRecords_sum : ∃ e : Dev, exec (.xcombine ⟨0, 0, 0⟩ 0x1000 0x2000 0x4000 2 0) (combineWitness 2 1) =
    .next ((combineWitness 2 1).put e) ∧ e.tsLe 0 0x4000 4 = 0x3F800000 := by
  obtain ⟨e, he, -, -, -, -, -, -, hsum⟩ := routerRecords.2 (combineWitness 2 1) ⟨0, 0, 0⟩ 0 0x1000 0x2000 0x4000 2 0
    (by decide +kernel) rfl (by decide +kernel) (by decide) (by decide) (by decide +kernel)
  obtain ⟨hwords, -⟩ := hsum (by decide +kernel) (by decide +kernel) (by decide +kernel)
  exact ⟨e, he, (hwords 0 (by decide)).trans (by decide +kernel)⟩

end Sys2Proof.Machine
end

section
/-! Router messages (R273): a header read back from its bytes, the answer to a message, and what the source of a tile does of its own. -/

namespace Sys2Proof.Machine

open Reg

/-! The header of a message with one target. -/

theorem bytesLe_here (n v : Nat) (b : List Byte) : bytesLe (leBytes n v ++ b) 0 n = v % 256 ^ n := imgLe_leBytes n v b

theorem bytesLe_skip {n off : Nat} (v : Nat) (b : List Byte) (size : Nat) (h : n ≤ off) :
    bytesLe (leBytes n v ++ b) off size = bytesLe b (off - n) size :=
  (imgLe_append b size (by rwa [leBytes_length])).trans (by rw [leBytes_length]; rfl)

theorem bytesLe_lt (l : List Byte) (off size : Nat) : bytesLe l off size < 256 ^ size :=
  (leVal_lt _).trans_le (Nat.pow_le_pow_right (by decide) (List.length_take_le _ _))

/-- The fields of a header fit their places. -/
structure XHdr.fits (h : XHdr) : Prop where
  tag : h.tag < 2 ^ 32
  kind : h.kind < 256
  flags : h.flags < 256
  age : h.age < 256
  disp : h.disp < 256
  src : h.src < 2 ^ 32
  srow : h.srow < 2 ^ 16
  retAddr : h.retAddr < 2 ^ 32
  rslot : h.rslot < 2 ^ 32
  elem : h.elem < 2 ^ 32
  payload : h.payload < 2 ^ 32
  targets : ∀ t ∈ h.targets, t.1 < 32 ∧ t.2.1 < 64 ∧ t.2.2 < 8

theorem xhdrOf_fits (l : List Byte) : (xhdrOf l).fits := by
  refine ⟨bytesLe_lt l 0 4, bytesLe_lt l 4 1, bytesLe_lt l 5 1, bytesLe_lt l 6 1, bytesLe_lt l 7 1, bytesLe_lt l 8 4, bytesLe_lt l 0xC 2,
    bytesLe_lt l 0x10 4, bytesLe_lt l 0x14 4, bytesLe_lt l 0x18 4, bytesLe_lt l 0x1C 4, fun t ht => ?_⟩
  obtain ⟨i, -, rfl⟩ := List.mem_map.mp ht
  exact ⟨Nat.mod_lt _ (by decide), Nat.mod_lt _ (by decide), Nat.mod_lt _ (by decide)⟩

theorem targetWord_fits {t : Nat × Nat × Nat} (h : t.1 < 32 ∧ t.2.1 < 64 ∧ t.2.2 < 8) : targetWord t < 256 ^ 4 ∧
    (targetWord t % 32, targetWord t / 32 % 64, targetWord t / 2048 % 8) = t := by
  obtain ⟨i, j, k⟩ := t
  simp only [targetWord, Prod.mk.injEq] at h ⊢
  omega

/-- A header with one target reads back from its bytes. -/
theorem xhdrOf_bytes {h : XHdr} (hfits : h.fits) {t : Nat × Nat × Nat} (ht : h.targets = [t]) (b : List Byte) :
    xhdrOf (h.bytes ++ b) = h := by
  obtain ⟨hlt, htarget⟩ := targetWord_fits (hfits.targets t (by simp [ht]))
  have hzero : ([0] : List Byte) = leBytes 1 0 := rfl
  have hmod := fun {v k : Nat} (hv : v < 256 ^ k) => Nat.mod_eq_of_lt hv
  unfold xhdrOf XHdr.bytes
  rw [ht, hzero]
  simp only [List.flatMap_cons, List.flatMap_nil, List.length_singleton, List.append_assoc, List.nil_append]
  simp (discharger := omega) only [bytesLe_skip, Nat.reduceSub, bytesLe_here]
  rw [hmod hfits.tag, hmod hfits.kind, hmod hfits.flags, hmod hfits.age, hmod hfits.disp, hmod hfits.src, hmod hfits.srow,
    hmod hfits.retAddr, hmod hfits.rslot, hmod hfits.elem, hmod hfits.payload]
  have hone : List.range (min 8 (1 % 256 ^ 1)) = [0] := rfl
  rw [hone, List.map_singleton]
  simp (discharger := omega) only [Nat.mul_zero, Nat.add_zero, bytesLe_here, Nat.reduceSub, hmod hlt, htarget]
  rw [← ht]

/-- A message given one of its targets keeps its header but for kind and targets. -/
theorem xhdrOf_retarget (m : Dmsg) {t : Nat × Nat × Nat} (ht : t ∈ (xhdrOf m.data).targets) :
    xhdrOf (retarget m t).data = { xhdrOf m.data with kind := 0, targets := [t] } := by
  have hfits : XHdr.fits { xhdrOf m.data with kind := 0, targets := [t] } :=
    { xhdrOf_fits m.data with
      kind := (by decide : 0 < 256)
      targets := fun u hu => (xhdrOf_fits m.data).targets u (List.mem_singleton.mp hu ▸ ht) }
  exact xhdrOf_bytes hfits rfl _

/-! Answers to messages of this package (R362). -/

theorem launched_of_same {d e x : Dev} {src : EndPt} {vc : Vc} {P : Dmsg → Prop} (ho : e.out = d.out) (hfab : e.fab = d.fab)
    (h : e.launched x src vc P) : d.launched x src vc P := by
  unfold Dev.launched at h ⊢
  rwa [ho, hfab] at h

/-- A message of tile `n` to a node of this package leaves it, and nothing else changes. -/
theorem sendMsg_launched {d : Dev} {n : Fin 32} (vc : Vc) {m : Dmsg} (hsrc : m.src = d.nodeOf (some n)) (hdst : m.dst.pkg = d.self) :
    let e := d.sendMsg vc m
    d.launched e (.tile n) vc (fun r => r.op = m.op ∧ r.err = m.err ∧ r.txn = m.txn ∧ r.dst = m.dst) ∧
      e.tiles = d.tiles ∧ e.regs = d.regs := by
  have hend : nodeEndpt m.src = .tile n := by rw [hsrc]; exact nodeEndpt_tile _ n
  have hsend : d.sendMsg vc m = if .tile n = nodeEndpt m.dst then d.emit (.arrive (nodeEndpt m.dst) (d.stampMsg m))
      else d.netSend (.tile n) (nodeEndpt m.dst) vc (d.stampMsg m) 0 := by
    rw [Dev.sendMsg, sendOut_own vc hdst, hend]
  dsimp only
  rw [hsend]
  split
  case isTrue h =>
    refine ⟨⟨d.stampMsg m, ⟨rfl, rfl, rfl, rfl⟩, fun _ => ⟨?_, rfl⟩, fun hne => absurd h hne⟩, rfl, rfl⟩
    rw [h]
    rfl
  case isFalse h =>
    exact ⟨⟨d.stampMsg m, ⟨rfl, rfl, rfl, rfl⟩, fun heq => absurd heq h, fun _ => ⟨rfl, _, rfl, rfl, rfl, rfl, rfl, rfl⟩⟩, rfl, rfl⟩

/-- The acknowledgement of a router message of this package. -/
theorem routerAck_launched {d : Dev} (n : Fin 32) {m : Dmsg} (h : m.src.pkg = d.self) :
    let e := d.routerAck n m 0
    d.launched e (.tile n) .resp (fun r => r.op = 9 ∧ r.err = 0 ∧ r.txn = m.txn ∧ r.dst = m.src) ∧ e.tiles = d.tiles ∧ e.regs = d.regs :=
  sendMsg_launched (m := ⟨9, 0, 0, m.addr, d.nodeOf (some n), m.src, 0, m.txn, 0, 0, 0, []⟩) .resp rfl h

theorem onSource_onSource (d : Dev) (n : Fin 32) (f g : Source → Source) :
    (d.onSource (some n) f).onSource (some n) g = d.onSource (some n) fun x => g (f x) := by
  simp only [Dev.onSource, onTile_onTile]

/-- A held message that waits for no copy is acknowledged at once, and leaves the source as it was. -/
theorem holdsCheck_ready {d : Dev} {n : Fin 32} {m : Dmsg} (h : d.source (some n) = Source.reset) (herr : m.err = 0) :
    (d.onSource (some n) fun x => { x with holds := x.holds ++ [(m, [])] }).holdsCheck (some n) = d.routerAck n m 0 := by
  have hsource : (d.onSource (some n) fun x => { x with holds := x.holds ++ [(m, [])] }).source (some n) =
      { Source.reset with holds := [(m, [])] } :=
    (src_onSource d n _).trans (congrArg (fun x : Source => { x with holds := x.holds ++ [(m, [])] }) h)
  have hsrc : (d.delud n).src = Source.reset := h
  unfold Dev.holdsCheck
  simp only [hsource, onSource_onSource, List.all_nil, List.filter_cons, List.filter_nil, if_true, List.foldl_cons,
    List.foldl_nil]
  rw [onSource_fixed (by rw [hsrc]; simp [Source.reset])]
  simp only [herr, if_true]
  rfl

/-! What a tile's own operations leave: everything of the tile but its Delud endpoint, and the router's counters. -/

/-- The registers of tile `n`'s router past its events. -/
def routerRegs (n p : Nat) : Prop := tileBase n + 0x70010 ≤ p ∧ p < tileBase n + 0x80000

structure Dev.sourceOnly (n : Fin 32) (d e : Dev) : Prop where
  tile : e.tile n = { d.tile n with delud := (e.tile n).delud }
  others : d.onlyTile e n
  regs : ∀ p, routerRegs n p → e.getR p = d.getR p

section
variable {n : Fin 32} {d e x : Dev}

theorem Dev.sourceOnly.trans (h : d.sourceOnly n e) (g : e.sourceOnly n x) : d.sourceOnly n x where
  tile := by rw [g.tile, h.tile]
  others k hk := (g.others k hk).trans (h.others k hk)
  regs p hp := (g.regs p hp).trans (h.regs p hp)

theorem sourceOnly_of_regs (ht : e.tiles = d.tiles) (hr : ∀ p, routerRegs n p → e.getR p = d.getR p) : d.sourceOnly n e :=
  ⟨by rw [tile_congr ht], fun k _ => tile_congr ht k, hr⟩

theorem sourceOnly_of_same (ht : e.tiles = d.tiles) (hr : e.regs = d.regs) : d.sourceOnly n e :=
  sourceOnly_of_regs ht fun p _ => getR_of_regs hr p

theorem sourceOnly_foldl {α : Type} {f : Dev → α → Dev} (hstep : ∀ (d : Dev) (a : α), d.sourceOnly n (f d a)) (l : List α) (d : Dev) :
    d.sourceOnly n (l.foldl f d) := by
  induction l generalizing d with
  | nil => exact sourceOnly_of_same rfl rfl
  | cons a t ih => exact (hstep d a).trans (ih (f d a))

theorem sourceOnly_ite {c : Prop} [Decidable c] {y : Dev} (h : d.sourceOnly n e) (g : d.sourceOnly n y) :
    d.sourceOnly n (if c then e else y) := by
  split
  · exact h
  · exact g

end

section
variable (d : Dev) (n : Fin 32)

theorem sourceOnly_satInc {o : Nat} (ho : o < 0x1000000) : d.sourceOnly n (d.satInc o) :=
  sourceOnly_of_regs (tiles_satInc d o) fun p hp => getR_satInc_ne d (by
    simp only [routerRegs, tileBase] at hp
    omega)

theorem sourceOnly_latch_egDld (b : Nat) : d.sourceOnly n (d.latch egDld b) :=
  sourceOnly_of_regs (tiles_latch d _ b) fun p hp => by
    simp only [routerRegs, tileBase] at hp
    exact getR_latch_ne d egDld b p (by simp only [egDld, DLD_EVENT]; omega) (by simp only [egDld, DLD_EVENT_SEQ]; omega)
      (by simp only [egDld, INT_PEND]; omega)

theorem sourceOnly_latch_egXpt (b : Nat) : d.sourceOnly n (d.latch (egXpt n) b) :=
  sourceOnly_of_regs (tiles_latch d _ b) fun p hp => by
    simp only [routerRegs, tileBase] at hp
    exact getR_latch_egXpt d n b (by simp only [XPT_EVENT, tileBase]; omega) (by simp only [XPT_EVENT_SEQ, tileBase]; omega) (by omega)

theorem sourceOnly_count (ev k : Nat) : d.sourceOnly n (d.count (.tile n) ev k) :=
  sourceOnly_of_regs (countOnly_count d n ev k).fields.1 fun p hp => getR_count_block d n ev k (by have := hp.1; omega) (by have := hp.2; omega)

theorem sourceOnly_onSource (f : Source → Source) : d.sourceOnly n (d.onSource (some n) f) :=
  ⟨by rw [tile_onSource_self], fun _ hk => tile_onSource_ne d f hk, fun _ _ => rfl⟩

theorem fabLaunch_same {d e : Dev} {vc : Vc} {m : Dmsg} (h : d.fabLaunch vc m = some e) : e.tiles = d.tiles ∧ e.regs = d.regs := by
  unfold Dev.fabLaunch at h
  dsimp only at h
  split at h
  · cases h
  · split at h
    · cases h
    · split at h <;> (cases h; exact ⟨rfl, rfl⟩)

/-- A message that leaves its source changes no tile and no register. -/
theorem sendOut_same {d e : Dev} {vc : Vc} {m : Dmsg} (h : d.sendOut vc m = some e) : e.tiles = d.tiles ∧ e.regs = d.regs := by
  unfold Dev.sendOut at h
  dsimp only at h
  split at h
  · split at h <;> (cases h; exact ⟨rfl, rfl⟩)
  · split at h
    · split at h <;> (cases h; exact ⟨rfl, rfl⟩)
    · exact fabLaunch_same h

theorem sourceOnly_sendMsg (vc : Vc) (m : Dmsg) : d.sourceOnly n (d.sendMsg vc m) := by
  unfold Dev.sendMsg
  split
  next h =>
    obtain ⟨htiles, hregs⟩ := sendOut_same h
    exact sourceOnly_of_same htiles hregs
  next => exact sourceOnly_satInc d n (by decide)

theorem sourceOnly_opError (owner : Owner) (code : Nat) (home : Node) : d.sourceOnly n (d.opError (some n) owner code home) := by
  unfold Dev.opError
  extract_lets counted granted noted
  have hcounted : d.sourceOnly n counted :=
    ((sourceOnly_latch_egDld d n 2).trans (sourceOnly_satInc _ n (by decide))).trans (sourceOnly_count _ n 0x16 1)
  have hgranted : d.sourceOnly n granted := sourceOnly_ite (hcounted.trans (sourceOnly_latch_egDld _ n 0)) hcounted
  have hnoted : d.sourceOnly n noted := by
    cases owner
    case helper => exact hgranted.trans (sourceOnly_latch_egXpt _ n 4)
    all_goals exact hgranted
  cases owner
  case gateway => exact sourceOnly_ite (hnoted.trans (sourceOnly_sendMsg _ n _ _)) hnoted
  all_goals exact hnoted.trans (sourceOnly_onSource _ n _)

theorem sourceOnly_startOp (i : SendItem) : d.sourceOnly n (d.startOp (some n) i) := by
  unfold Dev.startOp
  extract_lets num msg m k gw charged
  have hcharged : d.sourceOnly n charged := sourceOnly_ite (sourceOnly_of_same rfl rfl) (sourceOnly_of_same rfl rfl)
  split
  next x h =>
    obtain ⟨htiles, hregs⟩ := sendOut_same h
    exact ((hcharged.trans (sourceOnly_of_same htiles hregs)).trans (sourceOnly_count x n 0x15 1)).trans (sourceOnly_onSource _ n _)
  next => exact (hcharged.trans (sourceOnly_satInc _ n (by decide))).trans (sourceOnly_opError _ n _ _ _)

theorem sourceOnly_pumpItems (l : List SendItem) (blocked : List (Node × Vc)) : d.sourceOnly n (d.pumpItems (some n) l blocked) := by
  induction l generalizing d blocked with
  | nil => exact sourceOnly_of_same rfl rfl
  | cons i t ih =>
    unfold Dev.pumpItems
    exact sourceOnly_ite ((sourceOnly_onSource d n _).trans (ih _ _)) ((sourceOnly_startOp d n i).trans (ih _ _))

theorem sourceOnly_sendOp (owner : Owner) (use : TxUse) (vc : Vc) (m : Dmsg) : d.sourceOnly n (d.sendOp (some n) owner use vc m) := by
  unfold Dev.sendOp
  refine sourceOnly_ite ((sourceOnly_satInc d n (by decide)).trans (sourceOnly_opError _ n _ _ _)) (sourceOnly_ite (sourceOnly_opError d n _ _ _) ?_)
  exact ((sourceOnly_onSource d n _).trans (sourceOnly_onSource _ n _)).trans (sourceOnly_pumpItems _ n _ _)

theorem sourceOnly_routerAck (m : Dmsg) : d.sourceOnly n (d.routerAck n m 0) := sourceOnly_sendMsg d n _ _

theorem sourceOnly_sendDefer (m : Dmsg) : d.sourceOnly n (d.sendDefer n m) := sourceOnly_sendOp d n _ _ _ _

end

end Sys2Proof.Machine
end

section
/-! Router messages that arrive at a tile (R274, R275, R277, R278, R283, R289). -/

namespace Sys2Proof.Machine

open Reg

/-! The intakes and the elastic port of a tile. -/

theorem tile_onIntake (d : Dev) (n : Fin 32) (i : Fin 64) (f : Intake → Intake) : (d.onIntake n i f).tile n =
    { d.tile n with router := { d.router n with intakes := (d.router n).intakes.set i (f (d.intake n i)) } } := tile_onTile_self d n _

theorem intake_of_set {d e : Dev} {n : Fin 32} {i : Fin 64} {x : Intake}
    (h : (e.router n).intakes = (d.router n).intakes.set i x) : e.intake n i = x ∧ ∀ j, j ≠ i → e.intake n j = d.intake n j := by
  refine ⟨?_, fun j hj => ?_⟩
  · rw [Dev.intake, h]
    simp
  · rw [Dev.intake, h]
    simpa [Dev.intake] using Vector.getElem_set_ne i.isLt j.isLt (fun hij => hj (Fin.ext hij.symm))

/-- The accesses by which bytes enter the elastic port. -/
def landings (o : Owner) (a : Nat) (l : List Byte) : List Elastic :=
  let first := min (128 - a % 128) l.length
  let rest := l.drop first
  (if l.isEmpty then [] else [⟨a, l.take first, o⟩]) ++
    (List.range ((rest.length + 127) / 128)).map fun k => ⟨a + first + 128 * k, (rest.drop (128 * k)).take 128, o⟩

theorem elasticPut_eq (d : Dev) (n : Fin 32) (o : Owner) (a : Nat) (l : List Byte) :
    d.elasticPut n o a l = d.onTile n fun t => { t with elastic := t.elastic ++ landings o a l } := by
  unfold Dev.elasticPut landings
  simp only [List.append_assoc]

theorem elasticPut_effect (d : Dev) (n : Fin 32) (o : Owner) (a : Nat) (l : List Byte) : let e := d.elasticPut n o a l
    e.tile n = { d.tile n with elastic := (d.tile n).elastic ++ landings o a l } ∧ d.onlyTile e n ∧ e.out = d.out ∧ e.fab = d.fab ∧
      e.regs = d.regs := by
  rw [elasticPut_eq]
  exact ⟨tile_onTile_self d n _, fun _ hk => tile_onTile_ne d _ hk, rfl, rfl, rfl⟩

/-- The accesses that place a row in a slot of an intake (R277). -/
def Intake.rowLandings (x : Intake) (m : Dmsg) (slot : Nat) : List Elastic :=
  landings (dispOwner (xhdrOf m.data).disp) (x.base + slot * x.slotBytes) ((m.data.drop 64).take (xhdrOf m.data).elem) ++
    landings (dispOwner (xhdrOf m.data).disp) (x.sbase + slot * x.slotBytes / 16) ((m.data.drop 64).drop (xhdrOf m.data).elem)

theorem placeRow_eq (d : Dev) (n : Fin 32) (i : Fin 64) (m : Dmsg) (slot : Nat) : d.placeRow n i m slot =
    d.onTile n fun t => { t with elastic := t.elastic ++ (d.intake n i).rowLandings m slot } := by
  unfold Dev.placeRow Intake.rowLandings
  simp only [elasticPut_eq, onTile_onTile, List.append_assoc]

theorem tile_placeRow (d : Dev) (n : Fin 32) (i : Fin 64) (m : Dmsg) (slot : Nat) : (d.placeRow n i m slot).tile n =
    { d.tile n with elastic := (d.tile n).elastic ++ (d.intake n i).rowLandings m slot } := by
  rw [placeRow_eq, tile_onTile_self]

/-! A row at an intake. -/

/-- The row has been seen, and counts toward the intake's demand (R278). -/
def Dev.rowSeen (d : Dev) (n : Fin 32) (i : Fin 64) (h : XHdr) : Dev :=
  (d.onIntake n i fun x => { x with seen := x.seen ++ [(h.src, h.srow)] }).satInc (XPT_INTAKE_DEMAND n i)

/-- The row takes the next slot of the intake (R277). -/
def Dev.rowHeld (d : Dev) (n : Fin 32) (i : Fin 64) (m : Dmsg) : Dev :=
  (((d.rowSeen n i (xhdrOf m.data)).placeRow n i m (d.intake n i).held.length).onIntake n i fun x =>
    { x with held := x.held ++ [{ m with data := m.data.take 64 }] }).routerStat n

theorem routerStat_effect (d : Dev) (n : Fin 32) : (d.routerStat n).tiles = d.tiles ∧ (d.routerStat n).out = d.out ∧
    (d.routerStat n).fab = d.fab ∧ (d.routerStat n).srv = d.srv ∧ d.keepsRegs (d.routerStat n) [XPT_STATUS n] := by
  unfold Dev.routerStat
  refine ⟨by simp, by simp, by simp, by simp, fun p hp => ?_⟩
  rw [getR_setF_ne _ _ (by simpa using hp), getR_setF_ne _ _ (by simpa using hp)]

section
variable (d : Dev) (n : Fin 32) (i : Fin 64)

theorem rowSeen_effect (h : XHdr) : let e := d.rowSeen n i h
    e.tile n = { d.tile n with router := { d.router n with
      intakes := (d.router n).intakes.set i { d.intake n i with seen := (d.intake n i).seen ++ [(h.src, h.srow)] } } } ∧
    d.onlyTile e n ∧ e.out = d.out ∧ e.fab = d.fab ∧ d.keepsRegs e [XPT_INTAKE_DEMAND n i] ∧
    e.getN (XPT_INTAKE_DEMAND n i) = min (d.getN (XPT_INTAKE_DEMAND n i) + 1) 0xFFFFFFFF := by
  refine ⟨?_, fun k hk => ?_, ?_, ?_, fun p hp => ?_, ?_⟩
  · rw [Dev.rowSeen, tile_congr (tiles_satInc _ _), tile_onIntake]
  · rw [Dev.rowSeen, tile_congr (tiles_satInc _ _)]
    exact tile_onTile_ne d _ hk
  · rw [Dev.rowSeen, out_satInc]; rfl
  · rw [Dev.rowSeen, fab_satInc]; rfl
  · rw [Dev.rowSeen, getR_satInc_ne _ (by simpa using hp)]; rfl
  · rw [Dev.rowSeen, getN_satInc]; rfl

/-- A held row, as one change of the tile. -/
theorem rowHeld_eq (m : Dmsg) : d.rowHeld n i m = ((d.rowSeen n i (xhdrOf m.data)).onTile n fun t => { t with
    router := { t.router with intakes := t.router.intakes.set i { t.router.intakes[i] with
      held := t.router.intakes[i].held ++ [{ m with data := m.data.take 64 }] } }
    elastic := t.elastic ++ ((d.rowSeen n i (xhdrOf m.data)).intake n i).rowLandings m (d.intake n i).held.length }).routerStat n := by
  rw [Dev.rowHeld, placeRow_eq, Dev.onIntake, Dev.onRouter, onTile_onTile]

theorem rowHeld_effect (m : Dmsg) : let e := d.rowHeld n i m
    e.tile n = { d.tile n with
      router := { d.router n with intakes := (d.router n).intakes.set i { d.intake n i with
        seen := (d.intake n i).seen ++ [((xhdrOf m.data).src, (xhdrOf m.data).srow)]
        held := (d.intake n i).held ++ [{ m with data := m.data.take 64 }] } }
      elastic := (d.tile n).elastic ++ (d.intake n i).rowLandings m (d.intake n i).held.length } ∧
    d.onlyTile e n ∧ e.out = d.out ∧ e.fab = d.fab ∧ d.keepsRegs e [XPT_INTAKE_DEMAND n i, XPT_STATUS n] ∧
    e.getN (XPT_INTAKE_DEMAND n i) = min (d.getN (XPT_INTAKE_DEMAND n i) + 1) 0xFFFFFFFF := by
  obtain ⟨htile, hothers, hout, hfab, hregs, hdemand⟩ := rowSeen_effect d n i (xhdrOf m.data)
  dsimp only
  rw [rowHeld_eq]
  generalize d.rowSeen n i (xhdrOf m.data) = x at htile hothers hout hfab hregs hdemand ⊢
  obtain ⟨hseen, -⟩ := intake_of_set (congrArg (fun t : Tile => t.router.intakes) htile)
  generalize hf : (fun t : Tile => ({ t with
    router := { t.router with intakes := t.router.intakes.set i { t.router.intakes[i] with
      held := t.router.intakes[i].held ++ [{ m with data := m.data.take 64 }] } }
    elastic := t.elastic ++ (x.intake n i).rowLandings m (d.intake n i).held.length } : Tile)) = f
  obtain ⟨htiles, hout', hfab', -, hregs'⟩ := routerStat_effect (x.onTile n f) n
  refine ⟨?_, fun k hk => ?_, ?_, ?_, fun p hp => ?_, ?_⟩
  · rw [tile_congr htiles, tile_onTile_self, ← hf, hseen, htile]
    simp only [Vector.set_set, Vector.getElem_set_self, Fin.getElem_fin]
    rfl
  · rw [tile_congr htiles, tile_onTile_ne _ _ hk, hothers k hk]
  · rw [hout', out_onTile, hout]
  · exact hfab'.trans hfab
  · rw [hregs' p (by simp at hp ⊢; omega), getR_onTile]
    exact hregs p (by simp at hp ⊢; omega)
  · rw [getN_congr (hregs' _ (by simp only [List.mem_singleton, XPT_INTAKE_DEMAND, XPT_STATUS]; omega))]
    rw [getN_congr (getR_onTile x n f _), hdemand]

end

/-! A FORWARD at an open intake (R277, R278). -/

/-- Intake `i` is open for the row of a header: on, of its dispatch, not closed, and the row not seen before. -/
structure Intake.opensTo (x : Intake) (h : XHdr) : Prop where
  on : x.on = true
  disp : x.disp = h.disp
  opened : x.closed = false
  unseen : x.seen.contains (h.src, h.srow) = false

theorem Intake.opensTo.takes {x : Intake} {h : XHdr} (hopen : x.opensTo h) : ¬ (¬ x.on = true ∨ x.disp ≠ h.disp) := by
  simp [hopen.on, hopen.disp]

section
variable {d : Dev} {n : Fin 32} {m : Dmsg} {t : Nat × Nat × Nat} {i : Fin 64} (ht : (xhdrOf m.data).targets = [t])
  (hi : i = Fin.ofNat 64 t.2.1) (hopen : (d.intake n i).opensTo (xhdrOf m.data))
include ht hi hopen

/-- With a slot free the row is held. -/
theorem forwardTake_held (hroom : (d.intake n i).held.length < (d.intake n i).cap) : d.forwardTake n m = (0, d.rowHeld n i m) := by
  unfold Dev.forwardTake
  simp only [ht, List.head?_cons, ← hi, if_neg hopen.takes, hopen.unseen, hopen.opened, hroom, Bool.false_eq_true, if_false, if_true]
  rfl

/-- At a full intake a row that does not rank ahead of the worst is refused, and a DEFER is sent. -/
theorem forwardTake_refused {w : Dmsg} (hfull : (d.intake n i).cap ≤ (d.intake n i).held.length)
    (hw : (d.intake n i).held[worstSlot (d.intake n i).held]? = some w) (hrank : ranksAhead (xhdrOf m.data) (xhdrOf w.data) = false) :
    d.forwardTake n m = (0, ((d.rowSeen n i (xhdrOf m.data)).satInc (XPT_REFUSE_COUNT n)).sendDefer n m) := by
  unfold Dev.forwardTake
  simp only [ht, List.head?_cons, ← hi, if_neg hopen.takes, hopen.unseen, hopen.opened, if_neg (Nat.not_lt.mpr hfull), hw, hrank,
    Bool.false_eq_true, if_false]
  rfl

end

/-! The arrivals as commands (R289). -/

/-- The arrival command of a message's kind. -/
def arrivalOf (c : Instr) (n : Fin 32) (m : Dmsg) (kind : Nat) : Prop :=
  (c = .forwardArrival n m ∧ kind = 0) ∨ (c = .coalescedArrival n m ∧ kind = 1) ∨ (c = .returnArrival n m ∧ (kind = 2 ∨ kind = 3))

/-- What tile `n` answers to a message of the package. -/
def Dev.acked (d e : Dev) (n : Fin 32) (m : Dmsg) : Prop :=
  d.launched e (.tile n) .resp fun r => r.op = 9 ∧ r.err = 0 ∧ r.txn = m.txn ∧ r.dst = m.src

theorem self_of_keepsRegs {d e : Dev} {l : List Nat} (h : d.keepsRegs e l) (hl : FAB_SELF ∉ l) : e.self = d.self := getF_congr (h _ hl)

theorem self_notMem_intake (n : Fin 32) (i : Fin 64) : FAB_SELF ∉ [XPT_INTAKE_DEMAND n i, XPT_STATUS n] := by
  simp only [List.mem_cons, List.not_mem_nil, or_false, FAB_SELF, XPT_INTAKE_DEMAND, XPT_STATUS, tileBase]
  omega

section
variable {s : State} {n : Fin 32} {m : Dmsg} {c : Instr} (hf : s.dev.frozen = false) (hop : m.op = 6)
  (hc : arrivalOf c n m (xhdrOf m.data).kind)
include hf hop hc

omit hop in
/-- What every list of kinds with the message's makes of it, its command makes of it. -/
theorem exec_arrival {e : Dev}
    (he : ∀ kinds : List Nat, kinds.contains (xhdrOf m.data).kind = true → s.dev.routerArrive n m kinds = e) :
    exec c s = .next (s.put e) := by
  obtain ⟨rfl, hk⟩ | ⟨rfl, hk⟩ | ⟨rfl, hk⟩ := hc
  · exact onRun_eq (f := fun d => d.routerArrive n m [0]) hf (he [0] (by simp [hk]))
  · exact onRun_eq (f := fun d => d.routerArrive n m [1]) hf (he [1] (by simp [hk]))
  · exact onRun_eq (f := fun d => d.routerArrive n m [2, 3]) hf (he [2, 3] (by simpa using hk))

theorem exec_arrival_stale (hage : s.dev.tagAgeAt n (xhdrOf m.data) = .stale) :
    exec c s = .next (s.put (s.dev.routerStale n m)) :=
  exec_arrival hf hc fun kinds hk => by
    rw [Dev.routerArrive, if_neg (by simp [hop, List.contains_iff_mem.mp hk]), hage]

theorem exec_arrival_next (hage : s.dev.tagAgeAt n (xhdrOf m.data) = .next) :
    exec c s = .next (s.put (s.dev.onRouter n fun r => { r with early := r.early ++ [m] })) :=
  exec_arrival hf hc fun kinds hk => by
    rw [Dev.routerArrive, if_neg (by simp [hop, List.contains_iff_mem.mp hk]), hage]

theorem exec_arrival_current (hage : s.dev.tagAgeAt n (xhdrOf m.data) = .current) : exec c s = .next (s.put (s.dev.routerTake n m)) :=
  exec_arrival hf hc fun kinds hk => by
    rw [Dev.routerArrive, if_neg (by simp [hop, List.contains_iff_mem.mp hk]), hage]

/-- A stale message is counted and acknowledged. -/
theorem arrival_stale_effect (hpkg : m.src.pkg = s.dev.self) (hage : s.dev.tagAgeAt n (xhdrOf m.data) = .stale) :
    ∃ e : Dev, exec c s = .next (s.put e) ∧ s.dev.acked e n m ∧
      e.getN (XPT_STALE_COUNT n) = min (s.dev.getN (XPT_STALE_COUNT n) + 1) 0xFFFFFFFF ∧ e.regBit (XPT_EVENT n) 0 = true ∧
      e.tiles = s.dev.tiles := by
  refine ⟨_, exec_arrival_stale hf hop hc hage, ?_⟩
  have hself : ((s.dev.satInc (XPT_STALE_COUNT n)).latch (egXpt n) 0).self = s.dev.self := by
    refine (getF_congr (getR_latch_egXpt_hub _ n 0 (by decide) (by decide))).trans (getF_congr (getR_satInc_ne _ ?_))
    simp only [FAB_SELF, XPT_STALE_COUNT, tileBase]
    omega
  obtain ⟨hack, htiles, hregs⟩ := routerAck_launched (d := (s.dev.satInc (XPT_STALE_COUNT n)).latch (egXpt n) 0) n (hpkg.trans hself.symm)
  refine ⟨launched_of_same (by simp) (by simp) hack, ?_, ?_, htiles.trans (by simp)⟩
  · rw [Dev.routerStale, getN_congr (getR_of_regs hregs _), getN_congr (getR_latch_egXpt _ n 0 _ _ _), getN_satInc]
    · simp only [XPT_STALE_COUNT, XPT_EVENT]; omega
    · simp only [XPT_STALE_COUNT, XPT_EVENT_SEQ]; omega
    · simp only [XPT_STALE_COUNT, tileBase]; omega
  · rw [Dev.routerStale, regBit_congr (getR_of_regs hregs _)]
    exact regBit_latch_self _ (egXpt n) 0 (by decide) (by simp only [egXpt, XPT_EVENT, tileBase, INT_PEND]; omega)

/-! Messages of the running pass. -/

section
variable (hage : s.dev.tagAgeAt n (xhdrOf m.data) = .current)
include hage

section
variable (hkind : (xhdrOf m.data).kind = 0) {t : Nat × Nat × Nat} {i : Fin 64} (ht : (xhdrOf m.data).targets = [t])
  (hi : i = Fin.ofNat 64 t.2.1) (hopen : (s.dev.intake n i).opensTo (xhdrOf m.data))
include hkind ht hi hopen

/-- A FORWARD that a full intake refuses. -/
theorem arrival_refused_effect {w : Dmsg} (hfull : (s.dev.intake n i).cap ≤ (s.dev.intake n i).held.length)
    (hw : (s.dev.intake n i).held[worstSlot (s.dev.intake n i).held]? = some w)
    (hrank : ranksAhead (xhdrOf m.data) (xhdrOf w.data) = false) :
    ∃ e : Dev, exec c s = .next (s.put e) ∧ (e.intake n i).held = (s.dev.intake n i).held ∧
      e.getN (XPT_REFUSE_COUNT n) = min (s.dev.getN (XPT_REFUSE_COUNT n) + 1) 0xFFFFFFFF ∧
      (e.tile n).elastic = (s.dev.tile n).elastic ∧ (e.tile n).store = (s.dev.tile n).store ∧ s.dev.onlyTile e n := by
  have hrun := exec_arrival_current hf hop hc hage
  rw [Dev.routerTake, hkind] at hrun
  simp only [forwardTake_refused ht hi hopen hfull hw hrank] at hrun
  obtain ⟨htile, hothers, -, -, hregs, -⟩ := rowSeen_effect s.dev n i (xhdrOf m.data)
  generalize s.dev.rowSeen n i (xhdrOf m.data) = x at htile hothers hregs hrun
  obtain ⟨hsame, hothers', hregs'⟩ := (sourceOnly_sendDefer (x.satInc (XPT_REFUSE_COUNT n)) n m).trans (sourceOnly_routerAck _ n m)
  rw [tile_congr (tiles_satInc x _), htile] at hsame
  obtain ⟨hheld, -⟩ := intake_of_set (congrArg (fun t : Tile => t.router.intakes) hsame)
  refine ⟨_, hrun, by rw [hheld], ?_, by rw [hsame], by rw [hsame], fun k hk => ?_⟩
  · refine (getN_congr (hregs' _ ?_)).trans ?_
    · simp only [routerRegs, XPT_REFUSE_COUNT]; omega
    · rw [getN_satInc, getN_congr (hregs _ (by simp only [List.mem_singleton, XPT_INTAKE_DEMAND, XPT_REFUSE_COUNT]; omega))]
  · exact (hothers' k hk).trans ((tile_congr (tiles_satInc x _) k).trans (hothers k hk))

/-- A FORWARD for an open intake with a free slot. -/
theorem arrival_held_effect (hpkg : m.src.pkg = s.dev.self) (hroom : (s.dev.intake n i).held.length < (s.dev.intake n i).cap) :
    ∃ e : Dev, exec c s = .next (s.put e) ∧ s.dev.acked e n m ∧
      (e.intake n i).held = (s.dev.intake n i).held ++ [{ m with data := m.data.take 64 }] ∧
      (e.intake n i).seen = (s.dev.intake n i).seen ++ [((xhdrOf m.data).src, (xhdrOf m.data).srow)] ∧
      (e.tile n).elastic = ((s.dev.placeRow n i m (s.dev.intake n i).held.length).tile n).elastic ∧
      e.getN (XPT_INTAKE_DEMAND n i) = min (s.dev.getN (XPT_INTAKE_DEMAND n i) + 1) 0xFFFFFFFF ∧
      (∀ j, j ≠ i → e.intake n j = s.dev.intake n j) ∧ (e.tile n).store = (s.dev.tile n).store ∧ s.dev.onlyTile e n := by
  have hrun := exec_arrival_current hf hop hc hage
  rw [Dev.routerTake, hkind] at hrun
  simp only [forwardTake_held ht hi hopen hroom] at hrun
  obtain ⟨htile, hothers, hout, hfab, hregs, hdemand⟩ := rowHeld_effect s.dev n i m
  generalize s.dev.rowHeld n i m = x at htile hothers hout hfab hregs hdemand hrun
  have hself := self_of_keepsRegs hregs (self_notMem_intake n i)
  obtain ⟨hack, htiles, hregs'⟩ := routerAck_launched (d := x) n (hpkg.trans hself.symm)
  rw [← tile_congr htiles] at htile
  obtain ⟨hintake, hintakes⟩ := intake_of_set (congrArg (fun t : Tile => t.router.intakes) htile)
  refine ⟨_, hrun, launched_of_same hout hfab hack, by rw [hintake], by rw [hintake], ?_, ?_, hintakes,
    by rw [htile], fun k hk => (tile_congr htiles k).trans (hothers k hk)⟩
  · rw [tile_placeRow, htile]
  · rw [getN_congr (getR_of_regs hregs' _), hdemand]

end

/-- A RETURN or DEFER goes whole to its return slot. -/
theorem arrival_return_effect (hpkg : m.src.pkg = s.dev.self) (hkind : (xhdrOf m.data).kind = 2 ∨ (xhdrOf m.data).kind = 3)
    {t : Nat × Nat × Nat} (ht : (xhdrOf m.data).targets = [t])
    (hfits : (xhdrOf m.data).retAddr + t.2.2 * (xhdrOf m.data).rslot + m.data.length ≤ tsBytes) :
    ∃ e : Dev, exec c s = .next (s.put e) ∧ s.dev.acked e n m ∧ (e.tile n).elastic = ((s.dev.elasticPut n (dispOwner (xhdrOf m.data).disp)
        ((xhdrOf m.data).retAddr + t.2.2 * (xhdrOf m.data).rslot) m.data).tile n).elastic ∧
      e.regs = s.dev.regs ∧ s.dev.onlyTile e n ∧ (e.tile n).store = (s.dev.tile n).store := by
  have hrun := exec_arrival_current hf hop hc hage
  have htake : s.dev.routerTake n m = (s.dev.elasticPut n (dispOwner (xhdrOf m.data).disp)
      ((xhdrOf m.data).retAddr + t.2.2 * (xhdrOf m.data).rslot) m.data).routerAck n m 0 := by
    have hreturn : s.dev.routerTake n m = s.dev.returnTake n m := by
      obtain hk | hk := hkind <;> (rw [Dev.routerTake, hk]; rfl)
    rw [hreturn, Dev.returnTake]
    simp only [ht, List.head?_cons, if_neg (Nat.not_lt.mpr hfits)]
  rw [htake] at hrun
  obtain ⟨htile, hothers, hout, hfab, hregs⟩ := elasticPut_effect s.dev n (dispOwner (xhdrOf m.data).disp)
    ((xhdrOf m.data).retAddr + t.2.2 * (xhdrOf m.data).rslot) m.data
  generalize s.dev.elasticPut n (dispOwner (xhdrOf m.data).disp) ((xhdrOf m.data).retAddr + t.2.2 * (xhdrOf m.data).rslot) m.data = x
    at htile hothers hout hfab hregs hrun ⊢
  have hself : x.self = s.dev.self := getF_congr (getR_of_regs hregs _)
  obtain ⟨hack, htiles, hregs'⟩ := routerAck_launched (d := x) n (hpkg.trans hself.symm)
  refine ⟨_, hrun, launched_of_same hout hfab hack, by rw [tile_congr htiles], hregs'.trans hregs,
    fun k hk => (tile_congr htiles k).trans (hothers k hk), by rw [tile_congr htiles, htile]⟩

/-- A COALESCED message whose one target is here is taken as a FORWARD of it. -/
theorem arrival_coalesced_effect (hpkg : m.src.pkg = s.dev.self) (hkind : (xhdrOf m.data).kind = 1) {t : Nat × Nat × Nat} {i : Fin 64}
    (ht : (xhdrOf m.data).targets = [t]) (htile : t.1 = n.val) (hsource : s.dev.source (some n) = Source.reset)
    (hi : i = Fin.ofNat 64 t.2.1) (hopen : (s.dev.intake n i).opensTo (xhdrOf m.data))
    (hroom : (s.dev.intake n i).held.length < (s.dev.intake n i).cap) :
    ∃ e : Dev, exec c s = .next (s.put e) ∧ s.dev.acked e n m ∧ (e.intake n i).held.length = (s.dev.intake n i).held.length + 1 ∧
      s.dev.onlyTile e n ∧ (e.tile n).store = (s.dev.tile n).store := by
  have hhdr := xhdrOf_retarget m (t := t) (by simp [ht])
  have htake := forwardTake_held (d := s.dev) (n := n) (m := retarget m t) (t := t) (by rw [hhdr]) hi
    (by rw [hhdr]; exact ⟨hopen.on, hopen.disp, hopen.opened, hopen.unseen⟩) hroom
  have hrun := exec_arrival_current hf hop hc hage
  have hown : (xhdrOf m.data).targets.filter (fun t => t.1 == n.val) = [t] := by simp [ht, htile]
  have hrest : (xhdrOf m.data).targets.filter (fun t => t.1 != n.val) = [] := by simp [ht, htile]
  have hcoalesced : s.dev.routerTake n m = ((s.dev.rowHeld n i (retarget m t)).onSource (some n) fun x =>
      { x with holds := x.holds ++ [({ m with err := 0 }, [])] }).holdsCheck (some n) := by
    rw [Dev.routerTake, hkind]
    unfold Dev.coalescedTake
    simp only [hown, hrest, List.foldl_cons, List.foldl_nil, htake, if_true]
  rw [hcoalesced] at hrun
  obtain ⟨hheld, hothers, hout, hfab, hregs, -⟩ := rowHeld_effect s.dev n i (retarget m t)
  generalize s.dev.rowHeld n i (retarget m t) = x at hheld hothers hout hfab hregs hrun
  have hkept : x.source (some n) = Source.reset := by
    rw [Dev.source, hheld]
    exact hsource
  rw [holdsCheck_ready hkept rfl] at hrun
  have hself := self_of_keepsRegs hregs (self_notMem_intake n i)
  obtain ⟨hack, htiles, -⟩ := routerAck_launched (d := x) (m := { m with err := 0 }) n (hpkg.trans hself.symm)
  rw [← tile_congr htiles] at hheld
  obtain ⟨hintake, -⟩ := intake_of_set (congrArg (fun t : Tile => t.router.intakes) hheld)
  exact ⟨_, hrun, launched_of_same hout hfab hack, by rw [hintake, List.length_append, List.length_singleton],
    fun k hk => (tile_congr htiles k).trans (hothers k hk), by rw [hheld]⟩

end
end

end Sys2Proof.Machine
end

section
/-! The barriers of a dispatch (R279, R280, R289): done reports of a tile, and END messages of a member. -/

namespace Sys2Proof.Machine

open Reg

/-! A group with one barrier. -/

/-- The group's barriers are `l`. -/
def Dev.setBarriers (d : Dev) (g : Fin 4) (l : List Barrier) : Dev := d.onGroup g fun x => { x with barriers := l }

theorem onGroup_onGroup (d : Dev) (g : Fin 4) (f h : Group → Group) : (d.onGroup g f).onGroup g h = d.onGroup g fun x => h (f x) := by
  simp [Dev.onGroup]

theorem onGroup_congr {d : Dev} {g : Fin 4} {f h : Group → Group} (heq : f (d.group g) = h (d.group g)) : d.onGroup g f = d.onGroup g h :=
  congrArg (fun x : Group => ({ d with srv := { d.srv with groups := d.srv.groups.set g x } } : Dev)) heq

@[simp] theorem setBarriers_setBarriers (d : Dev) (g : Fin 4) (l l' : List Barrier) : (d.setBarriers g l).setBarriers g l' = d.setBarriers g l' :=
  onGroup_onGroup d g _ _

@[simp] theorem group_setBarriers (d : Dev) (g : Fin 4) (l : List Barrier) : (d.setBarriers g l).group g = { d.group g with barriers := l } :=
  group_onGroup_self d g _

section
variable {d : Dev} {g : Fin 4} (ret : Bool) (disp seq tok : Nat) (f : Barrier → Barrier)

/-- A barrier that does not yet stand is made. -/
theorem onBarrier_new (h : (d.group g).barriers = []) :
    d.onBarrier g ret disp seq tok f = d.setBarriers g [f ⟨ret, disp, seq, tok, [], false, []⟩] :=
  onGroup_congr (by simp [h])

/-- The only barrier changes. -/
theorem onBarrier_only {b : Barrier} (h : (d.group g).barriers = [b]) (hret : b.ret = ret) (hdisp : b.disp = disp) (hseq : b.seq = seq) :
    d.onBarrier g ret disp seq tok f = d.setBarriers g [f b] :=
  onGroup_congr (by simp [h, hret, hdisp, hseq])

theorem barrier_only {b : Barrier} (h : (d.group g).barriers = [b]) (hret : b.ret = ret) (hdisp : b.disp = disp) (hseq : b.seq = seq) :
    d.barrier g ret disp seq = some b := by
  simp [Dev.barrier, h, hret, hdisp, hseq]

end

theorem groupTiles_setBarriers (d : Dev) (g : Fin 4) (l : List Barrier) : (d.setBarriers g l).groupTiles g = d.groupTiles g :=
  groupTiles_congr (by rw [group_setBarriers]; rfl) rfl

/-! Done reports (R279, R280). -/

/-- The barrier of a dispatch of which the one tile of the group has reported. -/
def reported (ret : Bool) (disp seq tok : Nat) (n : Fin 32) (sent : Bool) : Barrier := ⟨ret, disp, seq, tok, [n.val], sent, []⟩

/-- The done report of the group's one tile sends END to its one member. -/
theorem doneReport_last {d : Dev} {n : Fin 32} {g : Fin 4} {pkg : Nat} (ret : Bool) (disp tok : Nat) (hg : d.groupOf n = some g)
    (htiles : d.groupTiles g = [n]) (hnone : (d.group g).barriers = []) (hmember : (d.group g).memberList = [pkg]) :
    d.doneReport n ret disp tok = (d.setBarriers g [reported ret disp (d.passSeq n) tok n true]).emits
      [.mgmt pkg "END" [g.val, if ret then 1 else 0, disp, tok, d.groupEpoch g, d.passSeq n]] := by
  have hmade : d.onBarrier g ret disp (d.passSeq n) tok (fun b => { b with tok := tok, tiles := b.tiles ++ [n.val] }) =
      d.setBarriers g [reported ret disp (d.passSeq n) tok n false] := onBarrier_new ret disp (d.passSeq n) tok _ hnone
  have hone : ((d.setBarriers g [reported ret disp (d.passSeq n) tok n false]).group g).barriers =
      [reported ret disp (d.passSeq n) tok n false] := by rw [group_setBarriers]
  have hfound := barrier_only ret disp (d.passSeq n) hone rfl rfl rfl
  have hsent : (d.setBarriers g [reported ret disp (d.passSeq n) tok n false]).onBarrier g ret disp (d.passSeq n) tok
      (fun b => { b with sent := true }) = d.setBarriers g [reported ret disp (d.passSeq n) tok n true] :=
    (onBarrier_only ret disp (d.passSeq n) tok _ hone rfl rfl rfl).trans (setBarriers_setBarriers d g _ _)
  have hall : ¬ ((reported ret disp (d.passSeq n) tok n false).sent = true ∨
      ¬ ((d.setBarriers g [reported ret disp (d.passSeq n) tok n false]).groupTiles g).all
        (fun m => (reported ret disp (d.passSeq n) tok n false).tiles.contains m.val) = true) := by
    rw [groupTiles_setBarriers, htiles]
    simp [reported]
  have hmembers : ((d.setBarriers g [reported ret disp (d.passSeq n) tok n true]).group g).memberList = [pkg] := by
    rw [group_setBarriers]
    exact hmember
  unfold Dev.doneReport
  simp only [hg, hmade, hfound, if_neg hall, hsent, hmembers, List.map_singleton]
  rfl

/-! The runs of a tile (R279). -/

theorem tile_onRun (d : Dev) (n : Fin 32) (disp : Nat) (f : DispRun → DispRun) : (d.onRun n disp f).tile n =
    { d.tile n with router := { d.router n with runs := (d.router n).runs.map fun x => if x.disp = disp then f x else x } } :=
  tile_onTile_self d n _

theorem tile_onRun_ne (d : Dev) {n m : Fin 32} (disp : Nat) (f : DispRun → DispRun) (h : m ≠ n) : (d.onRun n disp f).tile m = d.tile m :=
  tile_onTile_ne d _ h

section
variable {d : Dev} {n : Fin 32} {r : DispRun} {disp : Nat} (hruns : (d.router n).runs = [r]) (hr : r.disp = disp)
include hruns hr

theorem dispRun_only : d.dispRun n disp = some r := by simp [Dev.dispRun, hruns, hr]

theorem runs_onRun_only (f : DispRun → DispRun) : ((d.onRun n disp f).router n).runs = [f r] := by
  rw [Dev.router, tile_onRun, hruns]
  simp [hr]

end

theorem dispIntakes_congr {d e : Dev} {n : Fin 32} (h : (e.router n).intakes = (d.router n).intakes) (disp : Nat) :
    e.dispIntakes n disp = d.dispIntakes n disp := by
  simp only [Dev.dispIntakes, Dev.intake, h]

theorem intakes_onRun (d : Dev) (n : Fin 32) (disp : Nat) (f : DispRun → DispRun) :
    ((d.onRun n disp f).router n).intakes = (d.router n).intakes := by rw [Dev.router, tile_onRun]

/-- A report that sends END: the run as `f` makes it, the barrier, and the message. -/
def Dev.reports (d : Dev) (n : Fin 32) (g : Fin 4) (pkg : Nat) (ret : Bool) (disp tok : Nat) (f : DispRun → DispRun) : Dev :=
  ((d.onRun n disp f).setBarriers g [reported ret disp (d.passSeq n) tok n true]).emits
    [.mgmt pkg "END" [g.val, if ret then 1 else 0, disp, tok, d.groupEpoch g, d.passSeq n]]

section
variable {s : State} {n : Fin 32} {g : Fin 4} {disp : BitVec 8} {pkg : Nat} {r : DispRun} {j : Fin 64} (hf : s.dev.frozen = false)
  (hg : s.dev.groupOf n = some g) (htiles : s.dev.groupTiles g = [n]) (hnone : (s.dev.group g).barriers = [])
  (hmember : (s.dev.group g).memberList = [pkg]) (hj : s.dev.dispIntakes n disp.toNat = [j]) (hruns : (s.dev.router n).runs = [r])
  (hr : r.disp = disp.toNat)

section
include hg htiles hnone hmember

theorem doneReport_onRun (ret : Bool) (disp tok : Nat) (f : DispRun → DispRun) :
    (s.dev.onRun n disp f).doneReport n ret disp tok = s.dev.reports n g pkg ret disp tok f :=
  doneReport_last (d := s.dev.onRun n disp f) ret disp tok hg htiles hnone hmember

end

include hf hj hruns hr

theorem exec_returnDone_open (hopen : (s.dev.intake n j).retClosed = false) : exec (.returnDone n disp) s = .next s := by
  change execReturnDone n disp s = .next (s.put s.dev)
  refine onRun_eq hf ?_
  simp only [hj, List.isEmpty_cons, Bool.false_eq_true, if_false]
  rw [Dev.returnDone, dispRun_only hruns hr]
  exact if_pos (by simp [hj, hopen])

include hg htiles hnone hmember

theorem exec_forwardDone (hended : r.ended = true) (hdone : r.fwdDone = false) (hquiet : s.dev.dispLive n disp.toNat [0, 1] = false) :
    exec (.forwardDone n disp) s =
      .next (s.put (s.dev.reports n g pkg false disp.toNat r.tokF fun x => { x with fwdDone := true })) := by
  change execForwardDone n disp s = _
  have hreport := doneReport_onRun hg htiles hnone hmember false disp.toNat r.tokF fun x => { x with fwdDone := true }
  have hintakes : (s.dev.reports n g pkg false disp.toNat r.tokF fun x => { x with fwdDone := true }).dispIntakes n disp.toNat = [j] :=
    (dispIntakes_congr (intakes_onRun s.dev n disp.toNat _) disp.toNat).trans hj
  refine onRun_eq hf ?_
  simp only [dispRun_only hruns hr, hreport, hintakes, hended, hdone, hquiet, not_true, Bool.false_eq_true, or_self, if_false,
    List.isEmpty_cons]

theorem exec_returnDone (hdone : r.retDone = false) (hquiet : s.dev.dispLive n disp.toNat [2, 3] = false)
    (hclosed : (s.dev.intake n j).retClosed = true) :
    exec (.returnDone n disp) s =
      .next (s.put (s.dev.reports n g pkg true disp.toNat r.tokR fun x => { x with retDone := true })) := by
  change execReturnDone n disp s = _
  have hreport := doneReport_onRun hg htiles hnone hmember true disp.toNat r.tokR fun x => { x with retDone := true }
  refine onRun_eq hf ?_
  simp only [hj, List.isEmpty_cons, Bool.false_eq_true, if_false]
  unfold Dev.returnDone
  simp only [dispRun_only hruns hr, hreport, hj, hdone, hquiet, hclosed, List.all_cons, List.all_nil, Bool.and_true, not_true,
    Bool.false_eq_true, or_self, if_false]

end

theorem reports_effect (d : Dev) (n : Fin 32) (g : Fin 4) (pkg : Nat) (ret : Bool) (disp tok : Nat) (f : DispRun → DispRun) {r : DispRun}
    (hruns : (d.router n).runs = [r]) (hr : r.disp = disp) : let e := d.reports n g pkg ret disp tok f
    (e.router n).runs = [f r] ∧ e.out = d.out ++ [.mgmt pkg "END" [g, if ret then 1 else 0, disp, tok, d.groupEpoch g, d.passSeq n]] ∧
      (∃ b, e.barrier g ret disp (d.passSeq n) = some b ∧ b.tiles = [n.val] ∧ b.sent = true) ∧ e.regs = d.regs ∧ d.onlyTile e n :=
  ⟨runs_onRun_only hruns hr f, rfl, ⟨reported ret disp (d.passSeq n) tok n true,
    barrier_only ret disp (d.passSeq n) (congrArg Group.barriers (group_setBarriers _ g _)) rfl rfl rfl, rfl, rfl⟩, rfl,
    fun _ hm => tile_onRun_ne d disp f hm⟩

/-! END messages (R280, R289). -/

/-- A barrier of which the group's one member has sent END. -/
def ended (ret : Bool) (disp seq tok pkg : Nat) : Barrier := ⟨ret, disp, seq, tok, [], false, [pkg]⟩

/-- A complete barrier is forgotten, and the group's one tile acts on it. -/
theorem barrierEnd_only {d : Dev} {n : Fin 32} {g : Fin 4} (b : Barrier) (cyc : Nat) (htiles : d.groupTiles g = [n]) :
    (d.setBarriers g [b]).barrierEnd g b cyc =
      if b.ret then (d.setBarriers g []).countCur n b.tok false cyc
      else ((d.setBarriers g []).onRouter n fun r => { r with closes := r.closes ++ [(b.disp, b.tok)] }).emit (.signal "CLOSE" [n.val, b.disp]) := by
  have hgone : ((d.setBarriers g [b]).onGroup g fun x => { x with barriers := x.barriers.filter fun y => y != b }) = d.setBarriers g [] := by
    rw [Dev.setBarriers, onGroup_onGroup]
    exact onGroup_congr (by simp)
  rw [Dev.barrierEnd, hgone, groupTiles_setBarriers, htiles]
  rfl

section
variable {s : State} {n : Fin 32} {g : Fin 4} {ret : Bool} {disp : BitVec 8} {tok : BitVec 12} {epoch seq : BitVec 16} {pkg : BitVec 17}
  {cyc : Nat} (hf : s.dev.frozen = false)
include hf

theorem exec_barrierEnd_stale (hage : tagAge (s.dev.groupEpoch g) (s.dev.groupSeq g) epoch.toNat seq.toNat = .stale) :
    exec (.barrierEnd g ret disp tok epoch seq pkg cyc) s = .next s := by
  change execBarrierEnd g ret disp tok epoch seq pkg cyc s = .next (s.put s.dev)
  exact onRun_eq hf (by rw [hage])

theorem exec_barrierEnd (htiles : s.dev.groupTiles g = [n]) (hnone : (s.dev.group g).barriers = [])
    (hmember : (s.dev.group g).memberList = [pkg.toNat])
    (hage : tagAge (s.dev.groupEpoch g) (s.dev.groupSeq g) epoch.toNat seq.toNat = .current) :
    exec (.barrierEnd g ret disp tok epoch seq pkg cyc) s = .next (s.put (
      if ret then (s.dev.setBarriers g []).countCur n tok.toNat false cyc
      else ((s.dev.setBarriers g []).onRouter n fun r => { r with closes := r.closes ++ [(disp.toNat, tok.toNat)] }).emit
        (.signal "CLOSE" [n.val, disp.toNat]))) := by
  change execBarrierEnd g ret disp tok epoch seq pkg cyc s = _
  have hmade : s.dev.onBarrier g ret disp.toNat seq.toNat tok.toNat (fun b => { b with ends := b.ends ++ [pkg.toNat] }) =
      s.dev.setBarriers g [ended ret disp.toNat seq.toNat tok.toNat pkg.toNat] := onBarrier_new ret _ _ _ _ hnone
  have hfound : (s.dev.setBarriers g [ended ret disp.toNat seq.toNat tok.toNat pkg.toNat]).barrier g ret disp.toNat seq.toNat =
      some (ended ret disp.toNat seq.toNat tok.toNat pkg.toNat) :=
    barrier_only ret _ _ (congrArg Group.barriers (group_setBarriers _ g _)) rfl rfl rfl
  have hmembers : ((s.dev.setBarriers g [ended ret disp.toNat seq.toNat tok.toNat pkg.toNat]).group g).memberList = [pkg.toNat] :=
    (congrArg Group.memberList (group_setBarriers _ g _)).trans hmember
  have hall : [pkg.toNat].all (fun p => (ended ret disp.toNat seq.toNat tok.toNat pkg.toNat).ends.contains p) = true := by simp [ended]
  refine onRun_eq hf ?_
  simp only [hage, hmade, hfound, hmembers, hall, if_true]
  exact barrierEnd_only _ cyc htiles

end

/-! Tokens (R141). -/

/-- A token below its largest count is counted. -/
theorem countCur_effect {d : Dev} {n : Fin 32} {t : Nat} (cyc : Nat) (h : d.tokCur n t < 255) : let e := d.countCur n t false cyc
    e.tile n = { d.tile n with seq := { d.seq n with cur := smPut (fun _ => 0) (d.seq n).cur t (d.tokCur n t + 1) } } ∧
      d.onlyTile e n ∧ e.out = d.out ∧ e.srv = d.srv := by
  have hcount : d.countCur n t false cyc = (d.count (.tile n) 0x17 1).setTokCur n t (d.tokCur n t + 1) := by
    have hsame : (d.count (.tile n) 0x17 1).tokCur n t = d.tokCur n t := by rw [Dev.tokCur, Dev.seq, tile_count, ← Dev.seq, ← Dev.tokCur]
    unfold Dev.countCur
    simp [Nat.not_le.mpr h, hsame]
  obtain ⟨htiles, hsrv, hout⟩ := (countOnly_count d n 0x17 1).fields
  dsimp only
  rw [hcount, Dev.setTokCur, Dev.onSeq]
  refine ⟨?_, fun m hm => ?_, hout, hsrv⟩
  · rw [tile_onTile_self, tile_congr htiles]
    rfl
  · rw [tile_onTile_ne _ _ hm, tile_congr htiles]

/-- The token's count advances and no other's. -/
theorem tokCur_of_put {d e : Dev} {n : Fin 32} {t v : Nat} (h : (e.seq n).cur = smPut (fun _ => 0) (d.seq n).cur t v) :
    e.tokCur n t = v ∧ ∀ u, u ≠ t → e.tokCur n u = d.tokCur n u := by
  refine ⟨?_, fun u hu => ?_⟩
  · rw [Dev.tokCur, h, smGet_smPut_self]
  · rw [Dev.tokCur, h, smGet_smPut_ne _ _ _ hu, Dev.tokCur]

end Sys2Proof.Machine
end

section
/-! Intakes closed and filled with zeros (R280), and the statement on messages and barriers. -/

namespace Sys2Proof.Machine

open Reg

/-! Zeros that wait at the elastic port. -/

theorem mem_landings {o : Owner} {a : Nat} {l : List Byte} {e : Elastic} (h : e ∈ landings o a l) : e.owner = o ∧ ∀ b ∈ e.data, b ∈ l := by
  unfold landings at h
  obtain h | h := List.mem_append.mp h
  · split at h
    · cases h
    · cases List.mem_singleton.mp h
      exact ⟨rfl, fun b hb => List.mem_of_mem_take hb⟩
  · obtain ⟨k, -, rfl⟩ := List.mem_map.mp h
    exact ⟨rfl, fun b hb => List.mem_of_mem_drop (List.mem_of_mem_drop (List.mem_of_mem_take hb))⟩

theorem landings_ne_nil (o : Owner) (a : Nat) {l : List Byte} (h : l ≠ []) : landings o a l ≠ [] := by
  simp [landings, h]

/-- The accesses that fill the free slots of an intake with zeros. -/
def Intake.zeros (x : Intake) : List Elastic := (List.range (x.cap - x.held.length)).flatMap fun k =>
  landings (dispOwner x.disp) (x.base + (x.held.length + k) * x.slotBytes) (List.replicate x.slotBytes 0) ++
    landings (dispOwner x.disp) (x.sbase + (x.held.length + k) * x.slotBytes / 16) (List.replicate (x.slotBytes / 16) 0)

section
variable {x : Intake}

theorem mem_zeros {e : Elastic} (h : e ∈ x.zeros) : e.owner = dispOwner x.disp ∧ ∀ b ∈ e.data, b = 0 := by
  obtain ⟨k, -, hk⟩ := List.mem_flatMap.mp h
  obtain hk | hk := List.mem_append.mp hk <;>
    exact ⟨(mem_landings hk).1, fun b hb => (List.mem_replicate.mp ((mem_landings hk).2 b hb)).2⟩

theorem zeros_of_full (h : x.cap ≤ x.held.length) : x.zeros = [] := by
  rw [Intake.zeros, Nat.sub_eq_zero_of_le h]
  rfl

theorem zeros_of_free (h : x.held.length < x.cap) (hslot : 0 < x.slotBytes) : x.zeros ≠ [] := by
  intro hnil
  have hfirst := List.flatMap_eq_nil_iff.mp hnil 0 (List.mem_range.mpr (Nat.sub_pos_of_lt h))
  exact landings_ne_nil _ _ (by simpa using hslot.ne') (List.append_eq_nil_iff.mp hfirst).1

end

/-! An intake that closes. -/

theorem foldl_elastic (d : Dev) (n : Fin 32) (f : Nat → List Elastic) (k : Nat) :
    (List.range k).foldl (fun d i => d.onTile n fun t => { t with elastic := t.elastic ++ f i }) d =
      d.onTile n fun t => { t with elastic := t.elastic ++ (List.range k).flatMap f } := by
  induction k with
  | zero => exact (onTile_tile d n).symm.trans (onTile_congr (by simp))
  | succ k ih =>
    rw [List.range_succ, List.foldl_append, ih, List.foldl_cons, List.foldl_nil, onTile_onTile]
    exact onTile_congr (by simp)

theorem closeIntake_open {d : Dev} {n : Fin 32} {i : Fin 64} (h : (d.intake n i).closed = false) : d.closeIntake n i =
    (d.onIntake n i fun x => { x with closed := true }).onTile n fun t => { t with elastic := t.elastic ++ (d.intake n i).zeros } := by
  unfold Dev.closeIntake
  simp only [h, Bool.false_eq_true, if_false, elasticPut_eq, onTile_onTile, List.append_assoc]
  exact foldl_elastic _ n _ _

/-- The tile with its open intake closed, shown in XPT_STATUS. -/
theorem closed_effect {d : Dev} {n : Fin 32} {i : Fin 64} (h : (d.intake n i).closed = false) :
    let e := (d.closeIntake n i).routerStat n
    e.tile n = { d.tile n with
      router := { d.router n with intakes := (d.router n).intakes.set i { d.intake n i with closed := true } }
      elastic := (d.tile n).elastic ++ (d.intake n i).zeros } ∧ d.onlyTile e n ∧ e.out = d.out := by
  obtain ⟨htiles, hout, -⟩ := routerStat_effect (d.closeIntake n i) n
  refine ⟨?_, fun m hm => ?_, hout.trans ?_⟩
  · rw [tile_congr htiles, closeIntake_open h, tile_onTile_self, tile_onIntake]
  · rw [tile_congr htiles, closeIntake_open h, tile_onTile_ne _ _ hm]
    exact tile_onTile_ne d _ hm
  · rw [closeIntake_open h]
    rfl

section
variable {s : State} {n : Fin 32} {j : Fin 64} {disp : BitVec 8} {tok : Nat} {cyc : Nat} (hf : s.dev.frozen = false)
  (hj : s.dev.dispIntakes n disp.toNat = [j]) (hcloses : (s.dev.router n).closes = [(disp.toNat, tok)])
  (hopen : (s.dev.intake n j).closed = false) (helastic : (s.dev.tile n).elastic = [])
include hf hj hcloses

/-- The close of a dispatch with one intake on the tile, which was told to close it. -/
theorem exec_intakeClose {x : Dev} (hx : x = (s.dev.closeIntake n j).routerStat n) : exec (.intakeClose n disp cyc) s = .next (s.put
    (if (x.tile n).elastic.any fun e => e.owner == dispOwner disp.toNat then x
      else (x.onRouter n fun r => { r with closes := r.closes.filter fun y => y != (disp.toNat, tok) }).countCur n tok false cyc)) := by
  change execIntakeClose n disp cyc s = _
  have hfind : (s.dev.router n).closes.find? (fun x => x.1 == disp.toNat) = some (disp.toNat, tok) := by simp [hcloses]
  refine onRun_eq hf ?_
  simp only [hfind, hj, List.foldl_cons, List.foldl_nil, ← hx]

include hopen helastic

theorem intakeClose_full (hfull : (s.dev.intake n j).cap ≤ (s.dev.intake n j).held.length) (htok : s.dev.tokCur n tok < 255) :
    ∃ e : Dev, exec (.intakeClose n disp cyc) s = .next (s.put e) ∧ (e.intake n j).closed = true ∧
      (e.intake n j).held = (s.dev.intake n j).held ∧ (e.router n).closes = [] ∧ e.tokCur n tok = s.dev.tokCur n tok + 1 ∧
      (e.tile n).elastic = [] ∧ s.dev.onlyTile e n ∧ e.out = s.dev.out := by
  obtain ⟨x, hx⟩ : ∃ x, x = (s.dev.closeIntake n j).routerStat n := ⟨_, rfl⟩
  obtain ⟨htile, hothers, hout⟩ := closed_effect hopen
  rw [← hx, helastic, zeros_of_full hfull, List.append_nil] at htile
  rw [← hx] at hothers hout
  have hrun := exec_intakeClose (cyc := cyc) hf hj hcloses hx
  rw [if_neg (by simp [htile])] at hrun
  obtain ⟨y, hy⟩ : ∃ y, y = x.onRouter n fun r => { r with closes := r.closes.filter fun y => y != (disp.toNat, tok) } := ⟨_, rfl⟩
  have hytile : y.tile n = { s.dev.tile n with
      router := { s.dev.router n with intakes := (s.dev.router n).intakes.set j { s.dev.intake n j with closed := true }, closes := [] }
      elastic := [] } := by
    rw [hy, Dev.onRouter, tile_onTile_self, htile]
    simp [hcloses]
  have hyseq : y.seq n = s.dev.seq n := by rw [Dev.seq, hytile, ← Dev.seq]
  have hycur : y.tokCur n tok = s.dev.tokCur n tok := by rw [Dev.tokCur, hyseq, ← Dev.tokCur]
  rw [← hy] at hrun
  obtain ⟨hcounted, hothers', hout', -⟩ := countCur_effect (d := y) (n := n) (t := tok) cyc (by rw [hycur]; exact htok)
  generalize y.countCur n tok false cyc = e at hrun hcounted hothers' hout'
  have hrouter : e.router n = y.router n := by rw [Dev.router, hcounted, ← Dev.router]
  have hcur : (e.seq n).cur = smPut (fun _ => 0) (y.seq n).cur tok (y.tokCur n tok + 1) := by rw [Dev.seq, hcounted]
  have hintakes : (e.router n).intakes = (s.dev.router n).intakes.set j { s.dev.intake n j with closed := true } := by
    rw [hrouter, Dev.router, hytile]
  obtain ⟨hintake, -⟩ := intake_of_set hintakes
  refine ⟨e, hrun, by rw [hintake], by rw [hintake], by rw [hrouter, Dev.router, hytile], ?_, by rw [hcounted, hytile],
    fun m hm => ?_, hout'.trans ?_⟩
  · rw [(tokCur_of_put hcur).1, hycur]
  · rw [hothers' m hm, hy, ← hothers m hm]
    exact tile_onTile_ne x _ hm
  · rw [hy]
    exact hout

theorem intakeClose_free (hfree : (s.dev.intake n j).held.length < (s.dev.intake n j).cap) (hslot : 0 < (s.dev.intake n j).slotBytes) :
    ∃ e : Dev, exec (.intakeClose n disp cyc) s = .next (s.put e) ∧ (e.intake n j).closed = true ∧
      (e.router n).closes = [(disp.toNat, tok)] ∧ e.tokCur n tok = s.dev.tokCur n tok ∧ (e.tile n).elastic ≠ [] ∧
      (∀ a ∈ (e.tile n).elastic, ∀ b ∈ a.data, b = 0) ∧ (e.tile n).store = (s.dev.tile n).store ∧ s.dev.onlyTile e n ∧
      e.out = s.dev.out := by
  obtain ⟨x, hx⟩ : ∃ x, x = (s.dev.closeIntake n j).routerStat n := ⟨_, rfl⟩
  obtain ⟨htile, hothers, hout⟩ := closed_effect hopen
  rw [← hx, helastic, List.nil_append] at htile
  rw [← hx] at hothers hout
  have hnonempty := zeros_of_free hfree hslot
  have howner : (s.dev.intake n j).disp = disp.toNat := by
    have hmem : j ∈ s.dev.dispIntakes n disp.toNat := by simp [hj]
    simp only [Dev.dispIntakes, List.mem_filter, Bool.and_eq_true, beq_iff_eq] at hmem
    exact hmem.2.2
  have hwaits : ((x.tile n).elastic.any fun e => e.owner == dispOwner disp.toNat) = true := by
    obtain ⟨a, ha⟩ := List.exists_mem_of_ne_nil _ hnonempty
    rw [htile, List.any_eq_true]
    exact ⟨a, ha, by rw [(mem_zeros ha).1, howner]; exact beq_self_eq_true _⟩
  have hrun := exec_intakeClose (cyc := cyc) hf hj hcloses hx
  rw [if_pos hwaits] at hrun
  have hintakes : (x.router n).intakes = (s.dev.router n).intakes.set j { s.dev.intake n j with closed := true } := by
    rw [Dev.router, htile]
  obtain ⟨hintake, -⟩ := intake_of_set hintakes
  refine ⟨x, hrun, by rw [hintake], ?_, ?_, by rw [htile]; exact hnonempty, fun a ha => ?_, by rw [htile], hothers, hout⟩
  · rw [Dev.router, htile]
    exact hcloses
  · rw [Dev.tokCur, Dev.seq, htile, ← Dev.seq, ← Dev.tokCur]
  · rw [htile] at ha
    exact (mem_zeros ha).2

end

end Sys2Proof.Machine
end

section
/-! The END of a member at the group's one tile, and the statement on router messages and barriers. -/

namespace Sys2Proof.Machine

open Reg

theorem router_onRouter (d : Dev) (n : Fin 32) (f : Router → Router) : (d.onRouter n f).router n = f (d.router n) :=
  congrArg Tile.router (tile_onTile_self d n _)

section
variable {s : State} {n : Fin 32} {g : Fin 4} {disp : BitVec 8} {tok : BitVec 12} {epoch seq : BitVec 16} {pkg : BitVec 17} {cyc : Nat}
  (hf : s.dev.frozen = false) (htiles : s.dev.groupTiles g = [n]) (hnone : (s.dev.group g).barriers = [])
  (hmember : (s.dev.group g).memberList = [pkg.toNat])
  (hage : tagAge (s.dev.groupEpoch g) (s.dev.groupSeq g) epoch.toNat seq.toNat = .current)
include hf htiles hnone hmember hage

/-- The forward END orders the intakes closed. -/
theorem barrierEnd_forward : ∃ e : Dev, exec (.barrierEnd g false disp tok epoch seq pkg cyc) s = .next (s.put e) ∧
    (e.router n).closes = (s.dev.router n).closes ++ [(disp.toNat, tok.toNat)] ∧
    e.out = s.dev.out ++ [.signal "CLOSE" [n, disp.toNat]] ∧ (e.group g).barriers = [] ∧ e.regs = s.dev.regs ∧ s.dev.onlyTile e n := by
  have hrun := exec_barrierEnd (ret := false) (disp := disp) (tok := tok) (cyc := cyc) hf htiles hnone hmember hage
  rw [if_neg Bool.false_ne_true] at hrun
  have hcloses := congrArg Router.closes (router_onRouter (s.dev.setBarriers g []) n fun r =>
    { r with closes := r.closes ++ [(disp.toNat, tok.toNat)] })
  obtain ⟨-, hothers, -⟩ := onRouter_effect (s.dev.setBarriers g []) n fun r => { r with closes := r.closes ++ [(disp.toNat, tok.toNat)] }
  exact ⟨_, hrun, hcloses, rfl, congrArg Group.barriers (group_setBarriers s.dev g []), rfl, hothers⟩

/-- The return END counts its token. -/
theorem barrierEnd_return (htok : s.dev.tokCur n tok.toNat < 255) :
    ∃ e : Dev, exec (.barrierEnd g true disp tok epoch seq pkg cyc) s = .next (s.put e) ∧
      e.tokCur n tok.toNat = s.dev.tokCur n tok.toNat + 1 ∧ (∀ t, t ≠ tok.toNat → e.tokCur n t = s.dev.tokCur n t) ∧
      (e.group g).barriers = [] ∧ e.out = s.dev.out ∧ s.dev.onlyTile e n := by
  obtain ⟨hcounted, hothers, hout, hsrv⟩ := countCur_effect (d := s.dev.setBarriers g []) (n := n) (t := tok.toNat) cyc htok
  refine ⟨_, exec_barrierEnd hf htiles hnone hmember hage, ?_⟩
  rw [if_pos rfl]
  generalize (s.dev.setBarriers g []).countCur n tok.toNat false cyc = e at hcounted hothers hout hsrv ⊢
  have hcur : (e.seq n).cur = smPut (fun _ => 0) (s.dev.seq n).cur tok.toNat (s.dev.tokCur n tok.toNat + 1) := by
    rw [Dev.seq, hcounted]
    rfl
  obtain ⟨htoken, htokens⟩ := tokCur_of_put hcur
  refine ⟨htoken, htokens, ?_, hout, hothers⟩
  rw [Dev.group, hsrv, ← Dev.group, group_setBarriers]

end

/-- Settles O35: each arrival by what its tag says of its age, each barrier by the group's one tile and one member. -/
theorem dispatchReception : Obligations.DispatchReception := by
  unfold Obligations.DispatchReception
  constructor
  · intro s n m c hf hop hpkg h ack hc
    refine ⟨fun hage => arrival_stale_effect hf hop hc hpkg hage, fun hage => exec_arrival_next hf hop hc hage,
      fun hage hkind t ht hon hdisp hopen hseen => ⟨fun hroom => ?_, fun w hfull hw hrank => ?_⟩,
      fun hage hkind t ht htile hsource hon hdisp hopen hseen hroom => ?_, fun hage hkind t ht hfits => ?_⟩
    · exact arrival_held_effect hf hop hc hage hkind ht rfl ⟨hon, hdisp, hopen, hseen⟩ hpkg hroom
    · exact arrival_refused_effect hf hop hc hage hkind ht rfl ⟨hon, hdisp, hopen, hseen⟩ hfull hw hrank
    · exact arrival_coalesced_effect hf hop hc hage hpkg hkind ht htile hsource rfl ⟨hon, hdisp, hopen, hseen⟩ hroom
    · exact arrival_return_effect hf hop hc hage hpkg hkind ht hfits
  · intro s n g disp tok epoch seq pkg cyc r j hf D x hg htiles hnone hmember hj
    refine ⟨fun hruns hr hended => ⟨fun hdone hquiet => ?_, fun hdone hquiet hclosed => ?_, fun hopen => ?_⟩,
      fun hage => ⟨?_, fun htok => ?_⟩, fun hage => exec_barrierEnd_stale hf hage,
      fun hcloses hopen helastic htok => ⟨fun hfull => ?_, fun hfree hslot => ?_⟩⟩
    · exact ⟨_, exec_forwardDone hf hg htiles hnone hmember hj hruns hr hended hdone hquiet, reports_effect s.dev n g _ _ _ _ _ hruns hr⟩
    · obtain ⟨hrun, hout, -, hregs, hothers⟩ := reports_effect s.dev n g pkg.toNat true disp.toNat r.tokR
        (fun x => { x with retDone := true }) hruns hr
      exact ⟨_, exec_returnDone hf hg htiles hnone hmember hj hruns hr hdone hquiet hclosed, hrun, hout, hregs, hothers⟩
    · exact exec_returnDone_open hf hj hruns hr hopen
    · exact barrierEnd_forward hf htiles hnone hmember hage
    · exact barrierEnd_return hf htiles hnone hmember hage htok
    · exact intakeClose_full hf hj hcloses hopen helastic hfull htok
    · exact intakeClose_free hf hj hcloses hopen helastic hfree hslot

end Sys2Proof.Machine
end

section
/-! States that meet the hypotheses of the statement on router messages and barriers. -/

namespace Sys2Proof.Machine

open Reg

/-- A package as after reset, the one member of running group 0 with tile 0. Dispatch 9 runs on the tile, its forward side ended and its
hub's order to close given with token 3; its intake 0, of one slot of 64 bytes, holds `held`. -/
def dispatchWitness (held : List Dmsg) : State :=
  let d := (State.reset.dev.setN HUB_TILE_INSERVICE 1).setF (SRV_GROUP_STATE_STATE 0) 2
  let d := d.onGroup 0 fun x => { x with cfg := some ⟨0, [0], 1, 0, 0, 0, 0, 0, [], Vector.replicate 32 0⟩ }
  let d := d.onIntake 0 0 fun _ => ⟨1, 9, 0, 0, 0x2000, 64, 0x8000, 1, held, [], false, true⟩
  State.reset.put (d.onRouter 0 fun r => { r with runs := [⟨9, 3, 4, true, false, false⟩], closes := [(9, 3)] })

/-- A message of tile 1 to tile 0 with a row of dispatch 9 for intake 0. -/
def rowMessage (tag kind : Nat) : Dmsg :=
  ⟨6, 0, 0, 0, ⟨0, 1, false⟩, ⟨0, 0, false⟩, 0, 7, 0, 0, 0,
    XHdr.bytes ⟨tag, kind, 0, 0, 9, 2 ^ 17, 2, 0x4000, 0x1000, 64, 64, [(0, 0, 0)]⟩ ++ List.replicate 64 1⟩

theorem dispatchReception_stale : ∃ e : Dev, exec (.forwardArrival 0 (rowMessage 5 0)) (dispatchWitness []) = .next ((dispatchWitness []).put e) ∧
    e.getN (XPT_STALE_COUNT 0) = 1 := by
  obtain ⟨hstale, -⟩ := dispatchReception.1 (dispatchWitness []) 0 (rowMessage 5 0) _ (by decide +kernel) rfl (by decide +kernel)
    (.inl ⟨rfl, by decide +kernel⟩)
  obtain ⟨e, he, -, hcount, -⟩ := hstale (by decide +kernel)
  exact ⟨e, he, hcount.trans (by decide +kernel)⟩

theorem dispatchReception_next : exec (.forwardArrival 0 (rowMessage 1 0)) (dispatchWitness []) = .next ((dispatchWitness []).put
    ((dispatchWitness []).dev.onRouter 0 fun r => { r with early := r.early ++ [rowMessage 1 0] })) := by
  obtain ⟨-, hnext, -⟩ := dispatchReception.1 (dispatchWitness []) 0 (rowMessage 1 0) _ (by decide +kernel) rfl (by decide +kernel)
    (.inl ⟨rfl, by decide +kernel⟩)
  exact hnext (by decide +kernel)

/-- The free slot takes the row. -/
theorem dispatchReception_held : ∃ e : Dev, exec (.forwardArrival 0 (rowMessage 0 0)) (dispatchWitness []) = .next ((dispatchWitness []).put e) ∧
    (e.intake 0 0).seen = [(2 ^ 17, 2)] := by
  obtain ⟨-, -, hforward, -⟩ := dispatchReception.1 (dispatchWitness []) 0 (rowMessage 0 0) _ (by decide +kernel) rfl (by decide +kernel)
    (.inl ⟨rfl, by decide +kernel⟩)
  obtain ⟨hheld, -⟩ := hforward (by decide +kernel) (by decide +kernel) (0, 0, 0) (by decide +kernel) (by decide +kernel) (by decide +kernel)
    (by decide +kernel) (by decide +kernel)
  obtain ⟨e, he, -, -, hseen, -⟩ := hheld (by decide +kernel)
  exact ⟨e, he, hseen.trans (by decide +kernel)⟩

/-- The slot is taken by a row that the new one does not rank ahead of. -/
theorem dispatchReception_refused : ∃ e : Dev, exec (.forwardArrival 0 (rowMessage 0 0)) (dispatchWitness [rowMessage 0 0]) =
    .next ((dispatchWitness [rowMessage 0 0]).put e) ∧ e.getN (XPT_REFUSE_COUNT 0) = 1 := by
  obtain ⟨-, -, hforward, -⟩ := dispatchReception.1 (dispatchWitness [rowMessage 0 0]) 0 (rowMessage 0 0) _ (by decide +kernel) rfl
    (by decide +kernel) (.inl ⟨rfl, by decide +kernel⟩)
  obtain ⟨-, hrefused⟩ := hforward (by decide +kernel) (by decide +kernel) (0, 0, 0) (by decide +kernel) (by decide +kernel)
    (by decide +kernel) (by decide +kernel) (by decide +kernel)
  obtain ⟨e, he, -, hcount, -⟩ := hrefused (rowMessage 0 0) (by decide +kernel) (by decide +kernel) (by decide +kernel)
  exact ⟨e, he, hcount.trans (by decide +kernel)⟩

theorem dispatchReception_coalesced : ∃ e : Dev, exec (.coalescedArrival 0 (rowMessage 0 1)) (dispatchWitness []) =
    .next ((dispatchWitness []).put e) ∧ (e.intake 0 0).held.length = 1 := by
  obtain ⟨-, -, -, hcoalesced, -⟩ := dispatchReception.1 (dispatchWitness []) 0 (rowMessage 0 1) _ (by decide +kernel) rfl
    (by decide +kernel) (.inr (.inl ⟨rfl, by decide +kernel⟩))
  obtain ⟨e, he, -, hheld, -⟩ := hcoalesced (by decide +kernel) (by decide +kernel) (0, 0, 0) (by decide +kernel) (by decide +kernel)
    (by decide +kernel) (by decide +kernel) (by decide +kernel) (by decide +kernel) (by decide +kernel) (by decide +kernel)
  exact ⟨e, he, hheld.trans (by decide +kernel)⟩

theorem dispatchReception_return : ∃ e : Dev, exec (.returnArrival 0 (rowMessage 0 2)) (dispatchWitness []) =
    .next ((dispatchWitness []).put e) ∧ (e.tile 0).elastic.map Elastic.addr = [0x4000] := by
  obtain ⟨-, -, -, -, hreturn⟩ := dispatchReception.1 (dispatchWitness []) 0 (rowMessage 0 2) _ (by decide +kernel) rfl
    (by decide +kernel) (.inr (.inr ⟨rfl, by decide +kernel⟩))
  obtain ⟨e, he, -, helastic, -⟩ := hreturn (by decide +kernel) (by decide +kernel) (0, 0, 0) (by decide +kernel) (by decide +kernel)
  exact ⟨e, he, (congrArg (List.map Elastic.addr) helastic).trans (by decide +kernel)⟩

/-- Both done reports of the tile. -/
theorem dispatchReception_done : (∃ e : Dev, exec (.forwardDone 0 9) (dispatchWitness []) = .next ((dispatchWitness []).put e) ∧
    (e.router 0).runs = [⟨9, 3, 4, true, true, false⟩]) ∧
    ∃ e : Dev, exec (.returnDone 0 9) (dispatchWitness []) = .next ((dispatchWitness []).put e) ∧
      (e.router 0).runs = [⟨9, 3, 4, true, false, true⟩] := by
  obtain ⟨hdone, -⟩ := dispatchReception.2 (dispatchWitness []) 0 0 9 3 0 0 0 0 ⟨9, 3, 4, true, false, false⟩ 0 (by decide +kernel)
    (by decide +kernel) (by decide +kernel) (by decide +kernel) (by decide +kernel) (by decide +kernel)
  obtain ⟨hforward, hreturn, -⟩ := hdone (by decide +kernel) rfl rfl
  obtain ⟨e, he, hruns, -⟩ := hforward rfl (by decide +kernel)
  obtain ⟨e', he', hruns', -⟩ := hreturn rfl (by decide +kernel) (by decide +kernel)
  exact ⟨⟨e, he, hruns⟩, e', he', hruns'⟩

/-- Both barriers complete with the member's END. -/
theorem dispatchReception_end : (∃ e : Dev, exec (.barrierEnd 0 false 9 3 0 0 0 5) (dispatchWitness []) = .next ((dispatchWitness []).put e) ∧
    (e.router 0).closes = [(9, 3), (9, 3)]) ∧
    ∃ e : Dev, exec (.barrierEnd 0 true 9 3 0 0 0 5) (dispatchWitness []) = .next ((dispatchWitness []).put e) ∧ e.tokCur 0 3 = 1 := by
  obtain ⟨-, hend, -⟩ := dispatchReception.2 (dispatchWitness []) 0 0 9 3 0 0 0 5 ⟨9, 3, 4, true, false, false⟩ 0 (by decide +kernel)
    (by decide +kernel) (by decide +kernel) (by decide +kernel) (by decide +kernel) (by decide +kernel)
  obtain ⟨⟨e, he, hcloses, -⟩, hreturn⟩ := hend (by decide +kernel)
  obtain ⟨e', he', htoken, -⟩ := hreturn (by decide +kernel)
  exact ⟨⟨e, he, hcloses.trans (by decide +kernel)⟩, e', he', htoken.trans (by decide +kernel)⟩

/-- An intake that holds its every slot. -/
theorem dispatchReception_close_full : ∃ e : Dev, exec (.intakeClose 0 9 5) (dispatchWitness [rowMessage 0 0]) =
    .next ((dispatchWitness [rowMessage 0 0]).put e) ∧ e.tokCur 0 3 = 1 := by
  obtain ⟨-, -, -, hclose⟩ := dispatchReception.2 (dispatchWitness [rowMessage 0 0]) 0 0 9 3 0 0 0 5 ⟨9, 3, 4, true, false, false⟩ 0
    (by decide +kernel) (by decide +kernel) (by decide +kernel) (by decide +kernel) (by decide +kernel) (by decide +kernel)
  obtain ⟨hfull, -⟩ := hclose (by decide +kernel) (by decide +kernel) (by decide +kernel) (by decide +kernel)
  obtain ⟨e, he, -, -, -, htoken, -⟩ := hfull (by decide +kernel)
  exact ⟨e, he, htoken.trans (by decide +kernel)⟩

/-- An intake with a slot free. -/
theorem dispatchReception_close_free : ∃ e : Dev, exec (.intakeClose 0 9 5) (dispatchWitness []) = .next ((dispatchWitness []).put e) ∧
    (e.intake 0 0).closed = true ∧ (e.router 0).closes = [(9, 3)] := by
  obtain ⟨-, -, -, hclose⟩ := dispatchReception.2 (dispatchWitness []) 0 0 9 3 0 0 0 5 ⟨9, 3, 4, true, false, false⟩ 0
    (by decide +kernel) (by decide +kernel) (by decide +kernel) (by decide +kernel) (by decide +kernel) (by decide +kernel)
  obtain ⟨-, hfree⟩ := hclose (by decide +kernel) (by decide +kernel) (by decide +kernel) (by decide +kernel)
  obtain ⟨e, he, hclosed, hcloses, -⟩ := hfree (by decide +kernel) (by decide +kernel)
  exact ⟨e, he, hclosed, hcloses⟩

end Sys2Proof.Machine
end

section
/-! The serving queues (R300 to R303): which registers and which parts of the serving engine the posting of a completion entry, the queues'
counts and the vectors of the queues change. -/

namespace Sys2Proof.Machine

open Reg

/-! Changes of registers alone. -/

/-- Nothing but registers differs. -/
def Dev.regsOnly (d e : Dev) : Prop := e = { d with regs := e.regs }

theorem Dev.regsOnly.refl (d : Dev) : d.regsOnly d := by cases d; exact Eq.refl _

theorem Dev.regsOnly.trans {d e x : Dev} (h : d.regsOnly e) (g : e.regsOnly x) : d.regsOnly x := by
  rw [Dev.regsOnly] at *
  rw [g, h]

theorem regsOnly_setN (d : Dev) (o v : Nat) : d.regsOnly (d.setN o v) := by cases d; rfl
theorem regsOnly_setF (d : Dev) (f : Fld) (v : Nat) : d.regsOnly (d.setF f v) := by cases d; rfl
theorem regsOnly_setPair (d : Dev) (lo hi v : Nat) : d.regsOnly (d.setPair lo hi v) := by cases d; rfl
theorem regsOnly_satInc (d : Dev) (o : Nat) : d.regsOnly (d.satInc o) := by cases d; rfl
theorem regsOnly_edge (d : Dev) (n : Nat) : d.regsOnly (d.edge n) := by rw [Dev.regsOnly]; apply dev_ext; simp

theorem regsOnly_foldl {α : Type} {f : Dev → α → Dev} (l : List α) (hstep : ∀ (d : Dev), ∀ a ∈ l, d.regsOnly (f d a)) (d : Dev) :
    d.regsOnly (l.foldl f d) := by
  induction l generalizing d with
  | nil => exact .refl d
  | cons a t ih => exact (hstep d a (List.mem_cons_self ..)).trans (ih (fun e b hb => hstep e b (List.mem_cons_of_mem _ hb)) (f d a))

theorem Dev.regsOnly.fields {d e : Dev} (h : d.regsOnly e) : e.srv = d.srv ∧ e.out = d.out ∧ e.tiles = d.tiles ∧ e.now = d.now ∧
    e.mbx = d.mbx ∧ e.rst = d.rst := by
  rw [h]
  exact ⟨rfl, rfl, rfl, rfl, rfl, rfl⟩

/-! The vectors of the queues and the queues' counts (R302, R324). -/

/-- SRV_SEQ_LIVE, the queues' HELD counts and the pending words. -/
def countRegs (p : Nat) : Prop :=
  p = SRV_SEQ_LIVE ∨ (0x201000 ≤ p ∧ p < 0x201800 ∧ p % 32 = 0x1C) ∨ (0x100100 ≤ p ∧ p < 0x100200)

theorem countRegs_held (q : Fin 64) : countRegs (SRV_CQ_HELD q) := by
  simp only [countRegs, SRV_CQ_HELD]
  omega

theorem srvCounts_effect (d : Dev) : d.regsOnly d.srvCounts ∧ ∀ p, ¬ countRegs p → d.srvCounts.getR p = d.getR p := by
  refine ⟨(regsOnly_setN d _ _).trans (regsOnly_foldl _ (fun e q _ => regsOnly_setN e _ _) _), fun p hp => ?_⟩
  refine (foldl_view_same (fun x : Dev => x.getR p) _ _ (fun e q _ => ?_) _).trans ?_
  · exact (getR_setN e _ p _).trans (if_neg fun h => hp (by rw [h]; exact countRegs_held q))
  · exact (getR_setN d _ p _).trans (if_neg fun h => hp (.inl h))

/-- An edge on one source leaves another pending. -/
theorem isPending_edge_of_pending (d : Dev) {n : Nat} (m : Nat) (h : d.isPending n = true) : (d.edge m).isPending n = true := by
  by_cases heq : n = m
  · subst heq
    by_cases hl : sourceListed n
    · exact isPending_edge d n hl
    · rwa [Dev.edge, if_neg hl]
  · rw [Dev.isPending, regBit_edge d m _ _ (Nat.mod_lt _ (by decide)) (by simp only [INT_PEND]; omega)]
    exact h

/-- The vectors of the queues in `l` rise, and only counts and pending words change. -/
theorem raiseCqs_effect (d : Dev) (l : List Nat) : d.regsOnly (d.raiseCqs l) ∧
    (∀ p, ¬ countRegs p → (d.raiseCqs l).getR p = d.getR p) ∧ ∀ q < 64, q ∈ l → (d.raiseCqs l).isPending (64 + q) = true := by
  obtain ⟨honly, hregs⟩ := srvCounts_effect d
  refine ⟨honly.trans (regsOnly_foldl _ (fun e q _ => ?_) _), fun p hp => ?_, fun q hq hmem => ?_⟩
  · split
    · exact regsOnly_edge e _
    · exact .refl e
  · refine (foldl_view_same (fun x : Dev => x.getR p) _ _ (fun e q hq => ?_) _).trans (hregs p hp)
    have hlt := List.mem_range.mp hq
    split
    · exact getR_edge_ne e _ p fun h => hp (by simp only [countRegs, INT_PEND] at h ⊢; omega)
    · rfl
  · have hkeep : ∀ (t : List Nat) (x : Dev), x.isPending (64 + q) = true →
        (t.foldl (fun d q => if l.contains q then d.edge (64 + q) else d) x).isPending (64 + q) = true := by
      intro t
      induction t with
      | nil => exact fun x h => h
      | cons a t ih =>
        refine fun x h => ih _ ?_
        dsimp only
        split
        · exact isPending_edge_of_pending x _ h
        · exact h
    obtain ⟨a, b, hab⟩ := List.append_of_mem (List.mem_range.mpr hq)
    rw [Dev.raiseCqs, hab, List.foldl_append, List.foldl_cons, if_pos (List.contains_iff_mem.mpr hmem)]
    exact hkeep b _ (isPending_edge _ _ (by simp [sourceListed]; omega))

/-! One queue. -/

/-- Completion queue `q` is the same in both: its registers, what the host has consumed, and whether the host can be reached. -/
structure Dev.sameQueue (q : Fin 64) (d e : Dev) : Prop where
  regs : ∀ p, p = SRV_CQ_CFG q ∨ p = SRV_CQ_BASE_LO q ∨ p = SRV_CQ_BASE_HI q ∨ p = SRV_CQ_TAIL q → e.getR p = d.getR p
  head : e.srv.cqHead = d.srv.cqHead
  host : e.rst = d.rst

section
variable {q : Fin 64} {d e : Dev} (h : d.sameQueue q e)
include h

theorem Dev.sameQueue.cqOn : e.cqOn q = d.cqOn q := flag_congr (h.regs _ (.inl rfl))

theorem Dev.sameQueue.cqSize : e.cqSize q = d.cqSize q := by rw [Dev.cqSize, Dev.cqSize, getF_congr (h.regs _ (.inl rfl))]

theorem Dev.sameQueue.cqTail : e.cqTail q = d.cqTail q := getF_congr (h.regs _ (.inr (.inr (.inr rfl))))

theorem Dev.sameQueue.cqUsed : e.cqUsed q = d.cqUsed q := by rw [Dev.cqUsed, Dev.cqUsed, h.cqTail, h.cqSize, h.head]

theorem Dev.sameQueue.cqReach : e.cqReach q = d.cqReach q := by rw [Dev.cqReach, Dev.cqReach, h.cqOn, h.host]

theorem Dev.sameQueue.cqFree : e.cqFree q = d.cqFree q := by rw [Dev.cqFree, Dev.cqFree, h.cqReach, h.cqUsed, h.cqSize]

theorem Dev.sameQueue.cqRoom (hs : e.srv.seqs = d.srv.seqs) : e.cqRoom q = d.cqRoom q := by
  rw [Dev.cqRoom, Dev.cqRoom, h.cqReach, h.cqUsed, h.cqSize, Dev.cqHeld, Dev.cqHeld, hs]

theorem Dev.sameQueue.compWrite {c : Comp} (hc : c.cq = q.val) (t : Nat) : e.compWrite c t = d.compWrite c t := by
  have hq : Fin.ofNat 64 c.cq = q := by rw [hc]; exact Fin.ofNat_val_eq_self q
  rw [Dev.compWrite, Dev.compWrite, hq, hc, h.cqTail, getPair_congr (h.regs _ (.inr (.inl rfl))) (h.regs _ (.inr (.inr (.inl rfl)))),
    getF_congr (h.regs _ (.inr (.inr (.inr rfl))))]

end

/-- The queues' registers in the block of SRV_CQq_ decide. -/
theorem sameQueue_of_regs {d e : Dev} (q : Fin 64) (hr : ∀ p, 0x201000 ≤ p → p < 0x201800 → p % 32 ≠ 4 → p % 32 ≠ 0x1C → e.getR p = d.getR p)
    (hh : e.srv.cqHead = d.srv.cqHead) (hs : e.rst = d.rst) : d.sameQueue q e :=
  ⟨fun p hp => hr p (by simp only [SRV_CQ_CFG, SRV_CQ_BASE_LO, SRV_CQ_BASE_HI, SRV_CQ_TAIL] at hp; omega)
    (by simp only [SRV_CQ_CFG, SRV_CQ_BASE_LO, SRV_CQ_BASE_HI, SRV_CQ_TAIL] at hp; omega)
    (by simp only [SRV_CQ_CFG, SRV_CQ_BASE_LO, SRV_CQ_BASE_HI, SRV_CQ_TAIL] at hp; omega)
    (by simp only [SRV_CQ_CFG, SRV_CQ_BASE_LO, SRV_CQ_BASE_HI, SRV_CQ_TAIL] at hp; omega), hh, hs⟩

/-! Posting (R302, R303). -/

/-- The registers that the posting of an entry to queue `q` can write. -/
def postRegs (q p : Nat) : Prop :=
  p = SRV_CQ_TAIL q ∨ p = SRV_TOKENS_LO ∨ p = SRV_TOKENS_HI ∨ (0x240000 ≤ p ∧ p < 0x280000)

/-- The sequence table without entry `i`. -/
def Serve.without (x : Serve) (i : Nat) : Serve := { x with seqs := x.seqs.filter fun y => y.idx != i }

theorem without_of_absent {x : Serve} {i : Nat} (h : ∀ y ∈ x.seqs, y.idx ≠ i) : x.without i = x := by
  have hall : x.seqs.filter (fun y => y.idx != i) = x.seqs := List.filter_eq_self.mpr fun y hy => by simp [h y hy]
  rw [Serve.without, hall]

/-- A freed entry leaves the table, and its customer has one live sequence fewer. -/
theorem freeSeq_effect (d : Dev) (i : Nat) :
    d.freeSeq i = { d with regs := (d.freeSeq i).regs, srv := d.srv.without i } ∧
    ∀ p, p < 0x240000 ∨ 0x280000 ≤ p → (d.freeSeq i).getR p = d.getR p := by
  unfold Dev.freeSeq
  split
  · next hnone =>
    have habsent := List.find?_eq_none.mp hnone
    rw [without_of_absent fun y hy hi => habsent y hy (by simp [hi])]
    exact ⟨rfl, fun _ _ => rfl⟩
  · next q _ =>
    refine ⟨?_, fun p hp => ?_⟩
    · apply dev_ext
      simp [Dev.onSrv, Serve.without]
    · have hcust := cust_lt q.sub
      refine (getR_setN d _ p _).trans (if_neg ?_)
      simp only [custAt]
      omega

/-- One entry posted: its bytes at the tail, the tail moved on, a FINAL entry's sequence freed. -/
theorem post_effect (d : Dev) {c : Comp} {q : Fin 64} (hc : c.cq = q.val) :
    d.post c = { d with regs := (d.post c).regs, out := d.out ++ [d.compWrite c d.now], srv := d.srv.without c.seq } ∧
    (∀ p, ¬ postRegs q p → (d.post c).getR p = d.getR p) ∧
    (d.post c).cqTail q = if d.cqTail q + 1 = d.cqSize q then 0 else (d.cqTail q + 1) % 2 ^ 16 := by
  have hq : Fin.ofNat 64 c.cq = q := by rw [hc]; exact Fin.ofNat_val_eq_self q
  obtain ⟨x, hx⟩ : ∃ x, x = d.emit (d.compWrite c d.now) := ⟨_, rfl⟩
  obtain ⟨y, hy⟩ : ∃ y : Dev, y = if d.cqTail q + 1 = d.cqSize q then
      (x.setF (SRV_CQ_TAIL_TAIL q) 0).setF (SRV_CQ_TAIL_PHASE q) (1 - d.getF (SRV_CQ_TAIL_PHASE q))
    else x.setF (SRV_CQ_TAIL_TAIL q) (d.cqTail q + 1) := ⟨_, rfl⟩
  obtain ⟨z, hz⟩ : ∃ z : Dev, z = if c.tokenValid then y.setPair SRV_TOKENS_LO SRV_TOKENS_HI (y.getPair SRV_TOKENS_LO SRV_TOKENS_HI + 1)
    else y := ⟨_, rfl⟩
  have hpost : d.post c = z.freeSeq c.seq := by
    rw [hz, hy, hx, Dev.compWrite, hq, hc, Dev.post, hq]
    rfl
  have hyonly : x.regsOnly y := by
    rw [hy]
    split
    · exact (regsOnly_setF x _ _).trans (regsOnly_setF _ _ _)
    · exact regsOnly_setF x _ _
  have hyregs : ∀ p, p ≠ SRV_CQ_TAIL q → y.getR p = x.getR p := fun p hp => by
    rw [hy]
    split
    · rw [getR_setF_ne _ _ hp, getR_setF_ne _ _ hp]
    · rw [getR_setF_ne _ _ hp]
  have hytail : y.cqTail q = if d.cqTail q + 1 = d.cqSize q then 0 else (d.cqTail q + 1) % 2 ^ 16 := by
    rw [hy, Dev.cqTail]
    split
    · rw [getF_setF_ne _ _ _ _ (by simp) (by simp), getF_setF_self _ _ _ (by simp)]
      rfl
    · exact getF_setF_self _ _ _ (by simp)
  have hzonly : y.regsOnly z := by
    rw [hz]
    split
    · exact regsOnly_setPair y _ _ _
    · exact .refl y
  have hzregs : ∀ p, p ≠ SRV_TOKENS_LO → p ≠ SRV_TOKENS_HI → z.getR p = y.getR p := fun p h1 h2 => by
    rw [hz]
    split
    · exact getR_setPair_ne y _ h1 h2
    · rfl
  obtain ⟨hfree, hfregs⟩ := freeSeq_effect z c.seq
  have hxz := hyonly.trans hzonly
  refine ⟨?_, fun p hp => ?_, ?_⟩
  · rw [hpost, hfree, hxz, hx]
    rfl
  · simp only [postRegs, not_or] at hp
    obtain ⟨h1, h2, h3, h4⟩ := hp
    rw [hpost, hfregs p (by omega), hzregs p h2 h3, hyregs p h1, hx, getR_emit]
  · rw [hpost, ← hytail]
    refine getF_congr ?_
    rw [hfregs _ (by simp only [SRV_CQ_TAIL]; omega), hzregs _ (by simp only [SRV_CQ_TAIL, SRV_TOKENS_LO]; omega)
      (by simp only [SRV_CQ_TAIL, SRV_TOKENS_HI]; omega)]

/-! Due entries. -/

theorem flushDue_none {d : Dev} (h : d.srv.due = []) : d.flushDue = (d, []) := by
  have hsame : d.onSrv (fun x => { x with due := [] }) = d := by
    obtain ⟨srv, hsrv⟩ : ∃ x, x = d.srv := ⟨_, rfl⟩
    rw [Dev.onSrv, ← h]
  simp only [Dev.flushDue, h, flushLoop]
  rw [hsame]

theorem flushDue_one {d : Dev} {c : Comp} (h : d.srv.due = [c]) (hroom : d.cqRoom (Fin.ofNat 64 c.cq) ≠ 0) :
    d.flushDue = ((d.post c).onSrv fun x => { x with due := [] }, [c.cq]) := by
  have hloop : flushLoop [c] d [] [] [] = (d.post c, [], [c.cq]) := by
    rw [flushLoop, if_neg (by simpa using hroom), flushLoop]
  simp only [Dev.flushDue, h, hloop]

theorem flushRaise_none {d : Dev} (h : d.srv.due = []) : d.flushRaise = d.raiseCqs [] := by
  rw [Dev.flushRaise, flushDue_none h]

/-- What the posting of the one entry that is due leaves (R302, R303, R458). -/
structure Dev.posts (d e : Dev) (c : Comp) (q : Fin 64) : Prop where
  rest : e = { d with regs := e.regs, out := d.out ++ [d.compWrite c d.now], srv := { d.srv.without c.seq with due := [] } }
  regs : ∀ p, ¬ postRegs q p → ¬ countRegs p → e.getR p = d.getR p
  tail : e.cqTail q = if d.cqTail q + 1 = d.cqSize q then 0 else (d.cqTail q + 1) % 2 ^ 16
  raised : e.isPending (64 + q) = true

theorem flushRaise_one {d : Dev} {c : Comp} {q : Fin 64} (h : d.srv.due = [c]) (hc : c.cq = q.val) (hroom : d.cqRoom q ≠ 0) :
    d.posts d.flushRaise c q := by
  have hq : Fin.ofNat 64 c.cq = q := by rw [hc]; exact Fin.ofNat_val_eq_self q
  obtain ⟨hpost, hregs, htail⟩ := post_effect d hc
  obtain ⟨honly, hcounts, hraised⟩ := raiseCqs_effect ((d.post c).onSrv fun x => { x with due := [] }) [c.cq]
  have he : d.flushRaise = ((d.post c).onSrv fun x => { x with due := [] }).raiseCqs [c.cq] := by
    rw [Dev.flushRaise, flushDue_one h (by rw [hq]; exact hroom)]
  have hkept : ∀ p, ¬ countRegs p → d.flushRaise.getR p = (d.post c).getR p := fun p hp => by
    rw [he, hcounts p hp]
    rfl
  refine ⟨?_, fun p hp hp' => (hkept p hp').trans (hregs p hp), ?_, ?_⟩
  · rw [he, honly, Dev.onSrv, hpost]
  · rw [← htail]
    exact getF_congr (hkept _ (by simp only [countRegs, SRV_CQ_TAIL, SRV_SEQ_LIVE]; omega))
  · rw [he]
    exact hraised q q.isLt (by simp [hc])

end Sys2Proof.Machine
end

section
/-! Doorbells and queue configuration (R300, R303, R324). -/

namespace Sys2Proof.Machine

open Reg

theorem latch_srv (d : Dev) {b : Nat} (hb : b < 32) : (d.latch egSrv b).regBit SRV_EVENT b = true ∧
    d.latch egSrv b = { d with regs := (d.latch egSrv b).regs, ages := (d.latch egSrv b).ages } :=
  ⟨regBit_latch_self d egSrv b hb (by decide), latch_only d egSrv b⟩

theorem getR_latch_srv (d : Dev) (b : Nat) {p : Nat} (h1 : p ≠ SRV_EVENT) (h2 : p ≠ SRV_EVENT_SEQ) (h3 : p ≠ INT_PEND 0) :
    (d.latch egSrv b).getR p = d.getR p := getR_latch_ne d egSrv b p h1 h2 h3

/-! The submission doorbell. -/

section
variable {s : State} (hf : s.dev.frozen = false) (q : Fin 64) (v : Word)
include hf

theorem exec_sqTailDoorbell_disabled (hoff : s.dev.sqOn q = false) : exec (.sqTailDoorbell q v) s = .next s := by
  change execSqTailDoorbell q v s = _
  exact onRun_eq hf (if_pos (by simp [hoff]))

theorem exec_sqTailDoorbell (hon : s.dev.sqOn q = true) (hv : wordField v 11 0 < s.dev.sqSize q) : exec (.sqTailDoorbell q v) s =
    .next (s.put { s.dev with srv := { s.dev.srv with sqTail := s.dev.srv.sqTail.set q (wordField v 11 0) } }) := by
  change execSqTailDoorbell q v s = _
  refine onRun_eq hf ?_
  rw [Dev.sqTail, if_neg (by simp [hon]), if_neg (by omega)]
  rfl

theorem exec_sqTailDoorbell_bad (hon : s.dev.sqOn q = true) (hv : s.dev.sqSize q ≤ wordField v 11 0) :
    ∃ e : Dev, exec (.sqTailDoorbell q v) s = .next (s.put e) ∧ e.regBit SRV_EVENT 0 = true ∧
      e = { s.dev with regs := e.regs, ages := e.ages } := by
  obtain ⟨hbit, honly⟩ := latch_srv s.dev (b := 0) (by decide)
  refine ⟨s.dev.latch egSrv 0, ?_, hbit, honly⟩
  change execSqTailDoorbell q v s = _
  refine onRun_eq hf ?_
  rw [Dev.sqTail, if_neg (by simp [hon]), if_pos hv]

end

/-! The completion doorbell. -/

/-- What the host has consumed of queue `q` is `v`. -/
def Dev.consumed (d : Dev) (q : Fin 64) (v : Nat) : Dev := d.onSrv fun x => { x with cqHead := x.cqHead.set q v }

theorem cqUsed_consumed (d : Dev) (q : Fin 64) (v : Nat) : (d.consumed q v).cqUsed q = (d.cqTail q + d.cqSize q - v) % d.cqSize q := by
  have hhead : (d.consumed q v).srv.cqHead[q] = v := Vector.getElem_set_self q.isLt
  rw [Dev.cqUsed, hhead]
  rfl

/-- An entry has room in a queue that reaches the host, holds none in reserve and is not full. -/
theorem cqRoom_consumed {d : Dev} {q : Fin 64} {v : Nat} (hon : d.cqOn q = true) (hdown : d.rst.hostDown = false) (hheld : d.cqHeld q = 0)
    (hused : (d.cqTail q + d.cqSize q - v) % d.cqSize q < d.cqSize q - 1) : (d.consumed q v).cqRoom q ≠ 0 := by
  have hreach : (d.consumed q v).cqReach q = true := by
    change (d.cqOn q && !d.rst.hostDown) = true
    rw [hon, hdown]
    rfl
  have hsize : (d.consumed q v).cqSize q = d.cqSize q := rfl
  have hheld' : (d.consumed q v).cqHeld q = 0 := hheld
  rw [Dev.cqRoom, if_pos hreach, cqUsed_consumed, hsize, hheld']
  omega

theorem cqHeadWrite_disabled {d : Dev} {q : Fin 64} (v : Nat) (hoff : d.cqOn q = false) : d.cqHeadWrite q v = d := by
  rw [Dev.cqHeadWrite, if_pos (by simp [hoff])]

theorem cqHeadWrite_bad {d : Dev} {q : Fin 64} {v : Nat} (hon : d.cqOn q = true) (hv : d.cqSize q ≤ v) :
    d.cqHeadWrite q v = d.latch egSrv 0 := by
  rw [Dev.cqHeadWrite, if_neg (by simp [hon]), if_pos (.inl hv)]

theorem cqHeadWrite_good {d : Dev} {q : Fin 64} {v : Nat} (hon : d.cqOn q = true) (hv : v < d.cqSize q)
    (hused : (v + d.cqSize q - d.srv.cqHead[q]) % d.cqSize q ≤ d.cqUsed q) : d.cqHeadWrite q v = (d.consumed q v).flushRaise := by
  rw [Dev.cqHeadWrite, if_neg (by simp [hon]), if_neg (by omega)]
  rfl

section
variable {s : State} (hf : s.dev.frozen = false) (q : Fin 64) (v : Word) (now : Nat)
include hf

theorem exec_cqHeadDoorbell : exec (.cqHeadDoorbell q v now) s = .next (s.put ((s.dev.at_ now).cqHeadWrite q (wordField v 15 0))) := by
  change execCqHeadDoorbell q v now s = _
  exact onRun_eq hf rfl

theorem exec_cqHeadDoorbell_disabled (hoff : s.dev.cqOn q = false) : exec (.cqHeadDoorbell q v now) s = .next (s.put (s.dev.at_ now)) := by
  rw [exec_cqHeadDoorbell hf, cqHeadWrite_disabled (d := s.dev.at_ now) _ hoff]

theorem exec_cqHeadDoorbell_bad (hon : s.dev.cqOn q = true) (hv : s.dev.cqSize q ≤ wordField v 15 0) :
    ∃ e : Dev, exec (.cqHeadDoorbell q v now) s = .next (s.put e) ∧ e.regBit SRV_EVENT 0 = true ∧
      e = { s.dev with regs := e.regs, ages := e.ages, now := max s.dev.now now } := by
  obtain ⟨hbit, honly⟩ := latch_srv (s.dev.at_ now) (b := 0) (by decide)
  exact ⟨(s.dev.at_ now).latch egSrv 0, by rw [exec_cqHeadDoorbell hf, cqHeadWrite_bad (d := s.dev.at_ now) hon hv], hbit, honly⟩

section
variable (hon : s.dev.cqOn q = true) (hv : wordField v 15 0 < s.dev.cqSize q)
  (hused : (wordField v 15 0 + s.dev.cqSize q - s.dev.srv.cqHead[q]) % s.dev.cqSize q ≤ s.dev.cqUsed q)
include hon hv hused

theorem exec_cqHeadDoorbell_good : exec (.cqHeadDoorbell q v now) s =
    .next (s.put ((s.dev.at_ now).consumed q (wordField v 15 0)).flushRaise) := by
  rw [exec_cqHeadDoorbell hf, cqHeadWrite_good (d := s.dev.at_ now) hon hv hused]

theorem cqHeadDoorbell_none (hdue : s.dev.srv.due = []) : ∃ e : Dev, exec (.cqHeadDoorbell q v now) s = .next (s.put e) ∧
    e = { s.dev with
      regs := e.regs, srv := { s.dev.srv with cqHead := s.dev.srv.cqHead.set q (wordField v 15 0) }, now := max s.dev.now now } := by
  refine ⟨_, exec_cqHeadDoorbell_good hf q v now hon hv hused, ?_⟩
  obtain ⟨honly, -⟩ := raiseCqs_effect ((s.dev.at_ now).consumed q (wordField v 15 0)) []
  rw [flushRaise_none (d := (s.dev.at_ now).consumed q (wordField v 15 0)) hdue, honly]
  rfl

/-- The entry that waited is posted, and the queue's vector rises. -/
theorem cqHeadDoorbell_one {c : Comp} (hdue : s.dev.srv.due = [c]) (hc : c.cq = q.val) (hdown : s.dev.rst.hostDown = false)
    (hheld : s.dev.cqHeld q = 0)
    (hroom : (s.dev.cqTail q + s.dev.cqSize q - wordField v 15 0) % s.dev.cqSize q < s.dev.cqSize q - 1) :
    ∃ e : Dev, exec (.cqHeadDoorbell q v now) s = .next (s.put e) ∧ e.out = s.dev.out ++ [s.dev.compWrite c (max s.dev.now now)] ∧
      e.srv.due = [] ∧ e.srv.cqHead[q] = wordField v 15 0 ∧
      e.cqTail q = (if s.dev.cqTail q + 1 = s.dev.cqSize q then 0 else (s.dev.cqTail q + 1) % 2 ^ 16) ∧
      e.isPending (64 + q) = true ∧ e.tiles = s.dev.tiles := by
  obtain ⟨hrest, -, htail, hraised⟩ := flushRaise_one (d := (s.dev.at_ now).consumed q (wordField v 15 0)) hdue hc
    (cqRoom_consumed (d := s.dev.at_ now) hon hdown hheld hroom)
  refine ⟨_, exec_cqHeadDoorbell_good hf q v now hon hv hused, ?_, ?_, ?_, htail, hraised, ?_⟩
  · rw [hrest]
    rfl
  · rw [hrest]
  · rw [hrest]
    exact Vector.getElem_set_self q.isLt
  · rw [hrest]
    rfl

end
end

/-! BAR2. -/

section
variable {s : State} (hf : s.dev.frozen = false) (q : Fin 64) {off : BitVec 25} {data : List Byte} (now : Nat)
include hf

theorem exec_bar2Write_sqTail {w : Word} (hw : w.toNat = leVal data) (hlen : data.length = 4)
    (hoff : off.toNat = 0x1000000 + 0x1000 * q.val) :
    exec (.bar2Write off data now) s = exec (.sqTailDoorbell q w) (s.put (s.dev.at_ now)) := by
  have hq : Fin.ofNat 64 ((off.toNat - 0x1000000) / 0x1000) = q := by
    apply Fin.ext
    rw [Fin.val_ofNat]
    omega
  have hfield : wordField w 11 0 = leVal data % 4096 := by rw [wordField, hw]; simp
  change execBar2Write off data now s = execSqTailDoorbell q w (s.put (s.dev.at_ now))
  refine (onRun_eq (e := (s.dev.at_ now).sqTail q (wordField w 11 0)) hf ?_).trans
    (onRun_eq (s := s.put (s.dev.at_ now)) (e := (s.dev.at_ now).sqTail q (wordField w 11 0)) hf rfl).symm
  dsimp only
  rw [if_neg (by omega), if_pos (by omega), if_pos ⟨hlen, by omega⟩, hq, hfield]

theorem exec_bar2Write_cqHead {w : Word} (hw : w.toNat = leVal data) (hlen : data.length = 4)
    (hoff : off.toNat = 0x1000000 + 0x1000 * q.val + 4) :
    exec (.bar2Write off data now) s = exec (.cqHeadDoorbell q w now) s := by
  have hq : Fin.ofNat 64 ((off.toNat - 0x1000000) / 0x1000) = q := by
    apply Fin.ext
    rw [Fin.val_ofNat]
    omega
  have hfield : wordField w 15 0 = leVal data % 65536 := by rw [wordField, hw]; simp
  rw [exec_cqHeadDoorbell hf]
  change execBar2Write off data now s = _
  refine onRun_eq hf ?_
  dsimp only
  rw [if_neg (by omega), if_pos (by omega), if_neg (by omega), if_pos ⟨hlen, by omega⟩, hq, hfield]

theorem bar2Write_ring (hoff : off.toNat < 0x1000000) (hsize : [4, 8, 16, 32, 64].contains data.length = true)
    (halign : off.toNat % data.length = 0) : ∃ e : Dev, exec (.bar2Write off data now) s = .next (s.put e) ∧
      (∀ a, memGet e.srv.ring a = if off.toNat ≤ a ∧ a < off.toNat + data.length then data.getD (a - off.toNat) 0
        else memGet s.dev.srv.ring a) ∧
      e = { s.dev with srv := { s.dev.srv with ring := e.srv.ring }, now := max s.dev.now now } := by
  refine ⟨(s.dev.at_ now).onSrv fun x => { x with ring := memPutBytes x.ring off.toNat data }, ?_, fun a => ?_, rfl⟩
  · change execBar2Write off data now s = _
    refine onRun_eq hf ?_
    dsimp only
    rw [if_pos hoff, if_pos ⟨hsize, halign⟩]
  · exact memGet_memPutBytes s.dev.srv.ring off.toNat a data

theorem exec_bar2Write_badSize (hoff : off.toNat < 0x1000000) (hsize : [4, 8, 16, 32, 64].contains data.length = false) :
    exec (.bar2Write off data now) s = .next (s.put ((s.dev.at_ now).emit .unsupported)) := by
  change execBar2Write off data now s = _
  refine onRun_eq hf ?_
  dsimp only
  rw [if_pos hoff, if_neg fun h => ne_true_of_eq_false hsize h.1]

theorem exec_bar2Write_reserved (hoff : 0x1040000 ≤ off.toNat) : exec (.bar2Write off data now) s = .next (s.put (s.dev.at_ now)) := by
  change execBar2Write off data now s = _
  refine onRun_eq hf ?_
  dsimp only
  rw [if_neg (by omega), if_neg (by omega)]

end

/-! The configuration of a queue. -/

section
variable {s : State} (hf : s.dev.frozen = false) (q : Fin 64) (v : Word)
include hf

theorem exec_sqCfgWrite_enabled (hon : s.dev.sqOn q = true) :
    exec (.sqCfgWrite q v) s = .next (s.put (s.dev.setF (SRV_SQ_CFG_ENABLE q) (if v.getLsbD 31 then 1 else 0))) := by
  change execSqCfgWrite q v s = _
  exact onRun_eq hf (if_pos hon)

theorem exec_sqCfgWrite_sized (hoff : s.dev.sqOn q = false) (hv : v.getLsbD 31 = false) :
    exec (.sqCfgWrite q v) s = .next (s.put (s.dev.setF (SRV_SQ_CFG_SIZE q) (wordField v 2 0))) := by
  change execSqCfgWrite q v s = _
  refine onRun_eq hf ?_
  dsimp only
  rw [if_neg (by simp [hoff]), if_neg (ne_true_of_eq_false hv)]

/-- The queue is sized, enabled and empty. -/
theorem sqCfgWrite_enables (hoff : s.dev.sqOn q = false) (hv : v.getLsbD 31 = true) :
    ∃ e : Dev, exec (.sqCfgWrite q v) s = .next (s.put e) ∧ e.sqOn q = true ∧ e.getF (SRV_SQ_CFG_SIZE q) = wordField v 2 0 ∧
      e.getR (SRV_SQ_HEAD q) = 0 ∧ e.srv.sqTail[q] = 0 ∧ s.dev.keepsRegs e [SRV_SQ_CFG q, SRV_SQ_HEAD q] ∧
      e = { s.dev with regs := e.regs, srv := e.srv } ∧ e.srv.adm = s.dev.srv.adm := by
  obtain ⟨x, hx⟩ : ∃ x : Dev, x = (s.dev.setF (SRV_SQ_CFG_SIZE q) (wordField v 2 0)).setF (SRV_SQ_CFG_ENABLE q) 1 := ⟨_, rfl⟩
  have hxonly : s.dev.regsOnly (x.setN (SRV_SQ_HEAD q) 0) := by
    rw [hx]
    exact ((regsOnly_setF _ _ _).trans (regsOnly_setF _ _ _)).trans (regsOnly_setN _ _ _)
  have hcfg : (x.setN (SRV_SQ_HEAD q) 0).getR (SRV_SQ_CFG q) = x.getR (SRV_SQ_CFG q) :=
    (getR_setN _ _ _ _).trans (if_neg (by simp only [SRV_SQ_CFG, SRV_SQ_HEAD]; omega))
  refine ⟨(x.setN (SRV_SQ_HEAD q) 0).onSrv fun y => { y with sqTail := y.sqTail.set q 0 }, ?_, ?_, ?_, ?_, ?_, fun p hp => ?_, ?_, ?_⟩
  · change execSqCfgWrite q v s = _
    refine onRun_eq hf ?_
    dsimp only
    rw [if_neg (by simp [hoff]), if_pos hv, hx]
  · refine (flag_congr (e := x.setN (SRV_SQ_HEAD q) 0) hcfg).trans ?_
    rw [hx, Dev.flag, getF_setF_self _ _ _ (by simp)]
    simp
  · refine (getF_congr (e := x.setN (SRV_SQ_HEAD q) 0) hcfg).trans ?_
    rw [hx, getF_setF_ne _ _ _ _ (by simp) (by simp), getF_setF_self _ _ _ (by simp)]
    simp [wordField]
  · exact (getR_setN _ _ _ _).trans (if_pos rfl)
  · exact Vector.getElem_set_self q.isLt
  · simp only [List.mem_cons, List.not_mem_nil, or_false, not_or] at hp
    refine (getR_setN _ _ _ _).trans ?_
    rw [if_neg hp.2, hx, getR_setF_ne _ _ hp.1, getR_setF_ne _ _ hp.1]
  · rw [hxonly]
    rfl
  · rw [hxonly]
    rfl

/-- CQ_CFG's VECTOR is written whatever the queue's state. -/
theorem cqCfgWrite_enabled (now : Nat) (hon : s.dev.cqOn q = true) :
    ∃ e : Dev, exec (.cqCfgWrite q v now) s = .next (s.put e) ∧ e.cqOn q = v.getLsbD 31 ∧
      e.getF (SRV_CQ_CFG_VECTOR q) = wordField v 26 16 ∧ e.getF (SRV_CQ_CFG_SIZE q) = s.dev.getF (SRV_CQ_CFG_SIZE q) ∧
      s.dev.keepsRegs e [SRV_CQ_CFG q] ∧ e = { s.dev with regs := e.regs, now := max s.dev.now now } := by
  refine ⟨((s.dev.at_ now).setF (SRV_CQ_CFG_VECTOR q) (wordField v 26 16)).setF (SRV_CQ_CFG_ENABLE q) (if v.getLsbD 31 then 1 else 0),
    ?_, ?_, ?_, ?_, fun p hp => ?_, ?_⟩
  · change execCqCfgWrite q v now s = _
    exact onRun_eq hf (if_pos hon)
  · rw [Dev.cqOn, Dev.flag, getF_setF_self _ _ _ (by simp)]
    cases v.getLsbD 31 <;> rfl
  · rw [getF_setF_ne _ _ _ _ (by simp) (by simp), getF_setF_self _ _ _ (by simp)]
    simp [wordField]
  · rw [getF_setF_ne _ _ _ _ (by simp) (by simp), getF_setF_ne _ _ _ _ (by simp) (by simp)]
    rfl
  · have hne := mt List.mem_singleton.mpr hp
    rw [getR_setF_ne _ _ hne, getR_setF_ne _ _ hne, getR_at_]
  · exact ((regsOnly_setF (s.dev.at_ now) _ _).trans (regsOnly_setF _ _ _))

/-- A disabled queue takes its size with VECTOR; one that is enabled is empty, and the entries that wait for it are posted. -/
theorem cqCfgWrite_disabled (now : Nat) (hoff : s.dev.cqOn q = false) (hdue : s.dev.srv.due = []) :
    ∃ e : Dev, exec (.cqCfgWrite q v now) s = .next (s.put e) ∧ e.cqOn q = v.getLsbD 31 ∧
      e.getF (SRV_CQ_CFG_VECTOR q) = wordField v 26 16 ∧ e.getF (SRV_CQ_CFG_SIZE q) = wordField v 3 0 ∧
      (v.getLsbD 31 = true → e.getR (SRV_CQ_TAIL q) = 0x80000000 ∧ e.srv.cqHead[q] = 0) ∧
      (v.getLsbD 31 = false → e.getR (SRV_CQ_TAIL q) = s.dev.getR (SRV_CQ_TAIL q) ∧ e.srv = s.dev.srv) ∧
      e = { s.dev with regs := e.regs, srv := e.srv, now := max s.dev.now now } := by
  obtain ⟨x, hx⟩ : ∃ x : Dev, x = ((s.dev.at_ now).setF (SRV_CQ_CFG_VECTOR q) (wordField v 26 16)).setF (SRV_CQ_CFG_SIZE q)
    (wordField v 3 0) := ⟨_, rfl⟩
  have hxonly : (s.dev.at_ now).regsOnly x := by
    rw [hx]
    exact (regsOnly_setF _ _ _).trans (regsOnly_setF _ _ _)
  have hvector : x.getF (SRV_CQ_CFG_VECTOR q) = wordField v 26 16 := by
    rw [hx, getF_setF_ne _ _ _ _ (by simp) (by simp), getF_setF_self _ _ _ (by simp)]
    simp [wordField]
  have hsize : x.getF (SRV_CQ_CFG_SIZE q) = wordField v 3 0 := by
    rw [hx, getF_setF_self _ _ _ (by simp)]
    simp [wordField]
  cases hv : v.getLsbD 31 with
  | false =>
    refine ⟨x, ?_, ?_, hvector, hsize, nofun, fun _ => ⟨?_, ?_⟩, ?_⟩
    · change execCqCfgWrite q v now s = _
      refine onRun_eq hf ?_
      dsimp only
      rw [if_neg (ne_true_of_eq_false (b := (s.dev.at_ now).cqOn q) hoff), if_neg (ne_true_of_eq_false hv), hx]
    · rw [hx, Dev.cqOn, Dev.flag, getF_setF_ne _ _ _ _ (by simp) (by simp), getF_setF_ne _ _ _ _ (by simp) (by simp)]
      exact hoff
    · rw [hx, getR_setF_ne _ _ (by simp only [SRV_CQ_TAIL, SRV_CQ_CFG]; omega), getR_setF_ne _ _ (by simp only [SRV_CQ_TAIL, SRV_CQ_CFG]; omega),
        getR_at_]
    · rw [hxonly]
      rfl
    · rw [hxonly]
      rfl
  | true =>
    obtain ⟨y, hy⟩ : ∃ y : Dev, y = ((x.setF (SRV_CQ_CFG_ENABLE q) 1).setN (SRV_CQ_TAIL q) 0x80000000).consumed q 0 := ⟨_, rfl⟩
    have hyrest : y = { s.dev with
        regs := y.regs, srv := { s.dev.srv with cqHead := s.dev.srv.cqHead.set q 0 }, now := max s.dev.now now } := by
      have honly := (hxonly.trans (regsOnly_setF x (SRV_CQ_CFG_ENABLE q) 1)).trans (regsOnly_setN _ (SRV_CQ_TAIL q) 0x80000000)
      rw [hy, Dev.consumed, honly]
      rfl
    have hydue : y.srv.due = [] := by rw [hyrest]; exact hdue
    obtain ⟨honly, hregs, -⟩ := raiseCqs_effect y []
    have hcfg : (y.raiseCqs []).getR (SRV_CQ_CFG q) = (x.setF (SRV_CQ_CFG_ENABLE q) 1).getR (SRV_CQ_CFG q) := by
      rw [hregs _ (by simp only [countRegs, SRV_CQ_CFG, SRV_SEQ_LIVE]; omega), hy]
      exact (getR_setN _ _ _ _).trans (if_neg (by simp only [SRV_CQ_CFG, SRV_CQ_TAIL]; omega))
    refine ⟨y.raiseCqs [], ?_, ?_, ?_, ?_, fun _ => ⟨?_, ?_⟩, nofun, ?_⟩
    · change execCqCfgWrite q v now s = _
      refine onRun_eq hf ?_
      dsimp only
      rw [if_neg (ne_true_of_eq_false (b := (s.dev.at_ now).cqOn q) hoff), if_pos hv, ← flushRaise_none hydue, hy, hx]
      rfl
    · refine (flag_congr hcfg).trans ?_
      rw [Dev.flag, getF_setF_self _ _ _ (by simp)]
      simp
    · refine (getF_congr hcfg).trans ?_
      rw [getF_setF_ne _ _ _ _ (by simp) (by simp), hvector]
    · refine (getF_congr hcfg).trans ?_
      rw [getF_setF_ne _ _ _ _ (by simp) (by simp), hsize]
    · rw [hregs _ (by simp only [countRegs, SRV_CQ_TAIL, SRV_SEQ_LIVE]; omega), hy]
      exact (getR_setN _ _ _ _).trans (if_pos rfl)
    · rw [honly, hyrest]
      exact Vector.getElem_set_self q.isLt
    · rw [honly, hyrest]

end

end Sys2Proof.Machine
end

section
/-! The entries that the dispatcher cores read (R301, R303, R304, R318), and the statement on the submission queues. -/

namespace Sys2Proof.Machine

open Reg

/-! An entry read. -/

/-- The cores have read entry `e0` of queue `q` at `now`. -/
def Dev.subTaken (d : Dev) (q : Fin 64) (now : Nat) (e0 : SubEnt) : Dev := (d.at_ now).setF (SRV_SQ_HEAD_HEAD q) e0.sqHead

theorem takeSub_none {d : Dev} {q : Fin 64} (h : d.nextSub q = none) (is : Nat → Bool) (f : SubEnt → Dev → Dev) :
    d.takeSub q is f = d := by simp only [Dev.takeSub, h]

theorem takeSub_some {d : Dev} {q : Fin 64} {e0 : SubEnt} (h : d.nextSub q = some e0) {is : Nat → Bool} (his : is e0.op = true)
    (f : SubEnt → Dev → Dev) : d.takeSub q is f = f e0 (d.setF (SRV_SQ_HEAD_HEAD q) e0.sqHead) := by
  simp only [Dev.takeSub, h, his, if_true]

section
variable (d : Dev) (q : Fin 64) (now : Nat) (e0 : SubEnt)

theorem subTaken_only : d.subTaken q now e0 = { d with regs := (d.subTaken q now e0).regs, now := max d.now now } :=
  regsOnly_setF (d.at_ now) _ _

theorem getR_subTaken {p : Nat} (hp : p ≠ SRV_SQ_HEAD q) : (d.subTaken q now e0).getR p = d.getR p :=
  (getR_setF_ne _ _ hp).trans (getR_at_ d now p)

/-- The queue's head is past the entry in every package that keeps the head's register. -/
theorem head_of_subTaken {e : Dev} (h : e.getR (SRV_SQ_HEAD q) = (d.subTaken q now e0).getR (SRV_SQ_HEAD q)) :
    e.getF (SRV_SQ_HEAD_HEAD q) = e0.sqHead % 4096 := by
  refine (getF_congr h).trans ?_
  exact getF_setF_self _ _ _ (by simp)

theorem sameQueue_subTaken (k : Fin 64) : d.sameQueue k (d.subTaken q now e0) :=
  sameQueue_of_regs k (fun p _ _ h4 _ => getR_subTaken d q now e0 (by simp only [SRV_SQ_HEAD]; omega))
    (by rw [subTaken_only]) (by rw [subTaken_only])

end

/-! An entry refused (R304, R307). -/

section
variable {d x : Dev} {q : Fin 64} {e0 : SubEnt} {now : Nat}

theorem cqOn_of_cqRoom {k : Fin 64} (h : d.cqRoom k ≠ 0) : d.cqOn k = true := by
  by_contra hoff
  refine h (if_neg ?_)
  simp [Dev.cqReach, hoff]

/-- A refusal of the entry read, posted at once. -/
theorem refusal_posted (hx : x = { d with regs := x.regs, now := max d.now now }) (hq : d.sameQueue e0.cq x)
    (hhead : x.getR (SRV_SQ_HEAD q) = (d.subTaken q now e0).getR (SRV_SQ_HEAD q)) (hdue : d.srv.due = []) (hroom : d.cqRoom e0.cq ≠ 0)
    (det : Nat) :
    ∃ k : Comp, (x.addDue (e0.refusal 0x21 det 0 0 true)).flushRaise.getF (SRV_SQ_HEAD_HEAD q) = e0.sqHead % 4096 ∧
      (x.addDue (e0.refusal 0x21 det 0 0 true)).flushRaise.out = d.out ++ [d.compWrite k (max d.now now)] ∧
      k.cq = e0.cq.val ∧ k.req = e0.req ∧ k.status = 0x21 ∧ k.detail = det ∧ k.final = true ∧ k.tokenValid = false ∧ k.time = 0 ∧
      (x.addDue (e0.refusal 0x21 det 0 0 true)).flushRaise.isPending (64 + e0.cq) = true ∧
      (x.addDue (e0.refusal 0x21 det 0 0 true)).flushRaise.srv.adm = d.srv.adm ∧
      (x.addDue (e0.refusal 0x21 det 0 0 true)).flushRaise.tiles = d.tiles := by
  have hsrv : x.srv = d.srv := by rw [hx]
  have hdue' : (x.addDue (e0.refusal 0x21 det 0 0 true)).srv.due = [e0.refusal 0x21 det 0 0 true] := by
    change x.srv.due ++ _ = _
    rw [hsrv, hdue]
    rfl
  have hroom' : (x.addDue (e0.refusal 0x21 det 0 0 true)).cqRoom e0.cq ≠ 0 := by
    change x.cqRoom e0.cq ≠ 0
    rw [hq.cqRoom (by rw [hsrv])]
    exact hroom
  obtain ⟨hrest, hregs, -, hraised⟩ := flushRaise_one hdue' rfl hroom'
  have hkept : (x.addDue (e0.refusal 0x21 det 0 0 true)).flushRaise.getR (SRV_SQ_HEAD q) = x.getR (SRV_SQ_HEAD q) :=
    hregs _ (by simp only [postRegs, SRV_SQ_HEAD, SRV_CQ_TAIL, SRV_TOKENS_LO, SRV_TOKENS_HI]; omega)
      (by simp only [countRegs, SRV_SQ_HEAD, SRV_SEQ_LIVE]; omega)
  refine ⟨e0.refusal 0x21 det 0 0 true, head_of_subTaken d q now e0 (hkept.trans hhead), ?_, rfl, rfl, rfl, rfl, rfl, rfl, rfl, hraised,
    ?_, ?_⟩
  · rw [hrest]
    change x.out ++ [x.compWrite _ x.now] = _
    rw [hq.compWrite rfl, hx]
  · rw [hrest]
    change x.srv.adm = _
    rw [hsrv]
  · rw [hrest]
    change x.tiles = _
    rw [hx]

end

/-! The commands. -/

section
variable {s : State} (hf : s.dev.frozen = false) {q : Fin 64} {now : Nat}
include hf

theorem exec_sub_none (h : (s.dev.at_ now).nextSub q = none) {c : Instr}
    (hc : c = .submit q now ∨ c = .badSubmissionOpcode q now ∨ c = .cancel q now) : exec c s = .next (s.put (s.dev.at_ now)) := by
  rcases hc with rfl | rfl | rfl
  · change execSubmit q now s = _
    exact onRun_eq hf (takeSub_none h _ _)
  · change execBadSubmissionOpcode q now s = _
    exact onRun_eq hf (takeSub_none h _ _)
  · change execCancel q now s = _
    exact onRun_eq hf (takeSub_none h _ _)

variable {e0 : SubEnt} (h : (s.dev.at_ now).nextSub q = some e0)
include h

/-- SUBMIT for an entry read. -/
theorem exec_submit (hop : e0.op = 1) : exec (.submit q now) s = .next (s.put
    (if ¬ s.dev.cqOn e0.cq then (s.dev.subTaken q now e0).latch egSrv 1
    else if ¬ s.dev.flag (SRV_GROUP_STATE_LEAD e0.group) then
      (((s.dev.subTaken q now e0).satInc SRV_REFUSE_COUNT).addDue (e0.refusal 0x21 8 0 0 true)).flushRaise
    else (s.dev.subTaken q now e0).onSrv fun x => { x with adm := x.adm ++ [e0] })) := by
  have hlead : (s.dev.subTaken q now e0).flag (SRV_GROUP_STATE_LEAD e0.group) = s.dev.flag (SRV_GROUP_STATE_LEAD e0.group) :=
    flag_congr (getR_subTaken _ _ _ _ (by simp only [SRV_SQ_HEAD, SRV_GROUP_STATE]; omega))
  rw [← (sameQueue_subTaken s.dev q now e0 e0.cq).cqOn, ← hlead]
  change execSubmit q now s = _
  exact onRun_eq hf (takeSub_some h (by simp [hop]) _)

theorem exec_badOpcode (h1 : e0.op ≠ 1) (h2 : e0.op ≠ 2) : exec (.badSubmissionOpcode q now) s = .next (s.put
    (if ¬ s.dev.cqOn e0.cq then (s.dev.subTaken q now e0).latch egSrv 1
    else ((s.dev.subTaken q now e0).addDue (e0.refusal 0x21 1 0 0 true)).flushRaise)) := by
  rw [← (sameQueue_subTaken s.dev q now e0 e0.cq).cqOn]
  change execBadSubmissionOpcode q now s = _
  exact onRun_eq hf (takeSub_some h (by simp [h1, h2]) _)

omit hf h in
/-- An entry for a disabled completion queue, or a CANCEL that names no request: an event latches. -/
theorem latch_subTaken {b : Nat} (hb : b < 32) {x : Dev} (hx : x = { s.dev with regs := x.regs, now := max s.dev.now now })
    (hhead : x.getR (SRV_SQ_HEAD q) = (s.dev.subTaken q now e0).getR (SRV_SQ_HEAD q)) :
    (x.latch egSrv b).getF (SRV_SQ_HEAD_HEAD q) = e0.sqHead % 4096 ∧ (x.latch egSrv b).regBit SRV_EVENT b = true ∧
      (x.latch egSrv b).srv = s.dev.srv ∧ (x.latch egSrv b).out = s.dev.out ∧ (x.latch egSrv b).tiles = s.dev.tiles := by
  obtain ⟨hbit, honly⟩ := latch_srv x hb
  refine ⟨head_of_subTaken s.dev q now e0 ?_, hbit, ?_, ?_, ?_⟩
  · rw [getR_latch_srv x b (by simp only [SRV_SQ_HEAD, SRV_EVENT]; omega) (by simp only [SRV_SQ_HEAD, SRV_EVENT_SEQ]; omega)
      (by simp only [SRV_SQ_HEAD, INT_PEND]; omega), hhead]
  · rw [srv_latch, hx]
  · rw [out_latch, hx]
  · rw [tiles_latch, hx]

theorem submit_joins (hop : e0.op = 1) (hon : s.dev.cqOn e0.cq = true) (hlead : s.dev.flag (SRV_GROUP_STATE_LEAD e0.group) = true) :
    ∃ e : Dev, exec (.submit q now) s = .next (s.put e) ∧ e.getF (SRV_SQ_HEAD_HEAD q) = e0.sqHead % 4096 ∧
      s.dev.keepsRegs e [SRV_SQ_HEAD q] ∧
      e = { s.dev with regs := e.regs, srv := { s.dev.srv with adm := s.dev.srv.adm ++ [e0] }, now := max s.dev.now now } := by
  refine ⟨_, exec_submit hf h hop, ?_⟩
  rw [if_neg (by simp [hon]), if_neg (by simp [hlead])]
  refine ⟨head_of_subTaken s.dev q now e0 rfl, fun p hp => ?_, ?_⟩
  · exact getR_subTaken _ _ _ _ (mt List.mem_singleton.mpr hp)
  · rw [subTaken_only]
    rfl

theorem submit_noQueue (hop : e0.op = 1) (hoff : s.dev.cqOn e0.cq = false) :
    ∃ e : Dev, exec (.submit q now) s = .next (s.put e) ∧ e.getF (SRV_SQ_HEAD_HEAD q) = e0.sqHead % 4096 ∧
      e.regBit SRV_EVENT 1 = true ∧ e.srv = s.dev.srv ∧ e.out = s.dev.out ∧ e.tiles = s.dev.tiles := by
  refine ⟨_, exec_submit hf h hop, ?_⟩
  rw [if_pos (by simp [hoff])]
  exact latch_subTaken (by decide) (subTaken_only ..) rfl

theorem submit_refused (hop : e0.op = 1) (hlead : s.dev.flag (SRV_GROUP_STATE_LEAD e0.group) = false) (hroom : s.dev.cqRoom e0.cq ≠ 0)
    (hdue : s.dev.srv.due = []) :
    ∃ (e : Dev) (k : Comp), exec (.submit q now) s = .next (s.put e) ∧ e.getF (SRV_SQ_HEAD_HEAD q) = e0.sqHead % 4096 ∧
      e.out = s.dev.out ++ [s.dev.compWrite k (max s.dev.now now)] ∧ k.cq = e0.cq.val ∧ k.req = e0.req ∧ k.status = 0x21 ∧ k.detail = 8 ∧
      k.final = true ∧ k.tokenValid = false ∧ k.time = 0 ∧ e.isPending (64 + e0.cq) = true ∧ e.srv.adm = s.dev.srv.adm ∧
      e.tiles = s.dev.tiles := by
  have hcount : ∀ p, p ≠ SRV_REFUSE_COUNT → ((s.dev.subTaken q now e0).satInc SRV_REFUSE_COUNT).getR p = (s.dev.subTaken q now e0).getR p :=
    fun p hp => getR_satInc_ne _ hp
  have hx : (s.dev.subTaken q now e0).satInc SRV_REFUSE_COUNT = { s.dev with
      regs := ((s.dev.subTaken q now e0).satInc SRV_REFUSE_COUNT).regs, now := max s.dev.now now } := by
    rw [regsOnly_satInc, subTaken_only]
  obtain ⟨k, hk⟩ := refusal_posted (q := q) (e0 := e0) (now := now) hx
    (sameQueue_of_regs e0.cq (fun p h1 _ h4 _ => (hcount p (by simp only [SRV_REFUSE_COUNT]; omega)).trans
      (getR_subTaken _ _ _ _ (by simp only [SRV_SQ_HEAD]; omega))) (by rw [hx]) (by rw [hx]))
    (hcount _ (by simp only [SRV_SQ_HEAD, SRV_REFUSE_COUNT]; omega)) hdue hroom 8
  refine ⟨_, k, exec_submit hf h hop, ?_⟩
  rw [if_neg (by simp [cqOn_of_cqRoom hroom]), if_pos (by simp [hlead])]
  exact hk

theorem badOpcode_noQueue (h1 : e0.op ≠ 1) (h2 : e0.op ≠ 2) (hoff : s.dev.cqOn e0.cq = false) :
    ∃ e : Dev, exec (.badSubmissionOpcode q now) s = .next (s.put e) ∧ e.getF (SRV_SQ_HEAD_HEAD q) = e0.sqHead % 4096 ∧
      e.regBit SRV_EVENT 1 = true ∧ e.srv = s.dev.srv ∧ e.out = s.dev.out ∧ e.tiles = s.dev.tiles := by
  refine ⟨_, exec_badOpcode hf h h1 h2, ?_⟩
  rw [if_pos (by simp [hoff])]
  exact latch_subTaken (by decide) (subTaken_only ..) rfl

theorem badOpcode_refused (h1 : e0.op ≠ 1) (h2 : e0.op ≠ 2) (hroom : s.dev.cqRoom e0.cq ≠ 0) (hdue : s.dev.srv.due = []) :
    ∃ (e : Dev) (k : Comp), exec (.badSubmissionOpcode q now) s = .next (s.put e) ∧ e.getF (SRV_SQ_HEAD_HEAD q) = e0.sqHead % 4096 ∧
      e.out = s.dev.out ++ [s.dev.compWrite k (max s.dev.now now)] ∧ k.cq = e0.cq.val ∧ k.req = e0.req ∧ k.status = 0x21 ∧ k.detail = 1 ∧
      k.final = true ∧ k.tokenValid = false ∧ k.time = 0 ∧ e.isPending (64 + e0.cq) = true ∧ e.srv.adm = s.dev.srv.adm ∧
      e.tiles = s.dev.tiles := by
  obtain ⟨k, hk⟩ := refusal_posted (q := q) (subTaken_only s.dev q now e0) (sameQueue_subTaken s.dev q now e0 e0.cq) rfl hdue hroom 1
  refine ⟨_, k, exec_badOpcode hf h h1 h2, ?_⟩
  rw [if_neg (by simp [cqOn_of_cqRoom hroom])]
  exact hk

/-- The requests with the number of the entry read are marked (R318). -/
theorem exec_cancel (hop : e0.op = 2) : exec (.cancel q now) s = .next (s.put
    (if s.dev.srv.seqs.any (fun x => x.sub.req == e0.req) ∨ s.dev.srv.adm.any (fun x => x.req == e0.req) then
      (s.dev.subTaken q now e0).onSrv fun x => { x with
        seqs := x.seqs.map fun y => if y.sub.req = e0.req then { y with cancel := latchAt (max s.dev.now now) y.cancel } else y
        adm := x.adm.map fun y => if y.req = e0.req then { y with cancel := latchAt (max s.dev.now now) y.cancel } else y }
    else ((s.dev.subTaken q now e0).satInc SRV_CANCEL_UNKNOWN_COUNT).latch egSrv 3)) := by
  change execCancel q now s = _
  exact onRun_eq hf (takeSub_some h (by simp [hop]) _)

omit hf h in
theorem isSome_latchAt (t : Nat) (o : Option Nat) : (latchAt t o).isSome = true := by cases o <;> rfl

theorem cancel_marks (hop : e0.op = 2)
    (hlive : (∃ y ∈ s.dev.srv.seqs, y.sub.req = e0.req) ∨ ∃ y ∈ s.dev.srv.adm, y.req = e0.req) :
    ∃ e : Dev, exec (.cancel q now) s = .next (s.put e) ∧ e.getF (SRV_SQ_HEAD_HEAD q) = e0.sqHead % 4096 ∧
      (∀ y ∈ e.srv.seqs, y.sub.req = e0.req → y.cancel.isSome = true) ∧ (∀ y ∈ e.srv.adm, y.req = e0.req → y.cancel.isSome = true) ∧
      e.srv.seqs.length = s.dev.srv.seqs.length ∧ e.srv.adm.length = s.dev.srv.adm.length ∧ s.dev.keepsRegs e [SRV_SQ_HEAD q] ∧
      e.out = s.dev.out ∧ e.tiles = s.dev.tiles := by
  refine ⟨_, exec_cancel hf h hop, ?_⟩
  rw [if_pos (by simpa using hlive)]
  refine ⟨head_of_subTaken s.dev q now e0 rfl, fun y hy hreq => ?_, fun y hy hreq => ?_, ?_, ?_, fun p hp => ?_, ?_, ?_⟩
  · obtain ⟨z, -, rfl⟩ := List.mem_map.mp hy
    by_cases hz : z.sub.req = e0.req
    · rw [if_pos hz]
      exact isSome_latchAt _ _
    · rw [if_neg hz] at hreq
      exact absurd hreq hz
  · obtain ⟨z, -, rfl⟩ := List.mem_map.mp hy
    by_cases hz : z.req = e0.req
    · rw [if_pos hz]
      exact isSome_latchAt _ _
    · rw [if_neg hz] at hreq
      exact absurd hreq hz
  · rw [subTaken_only]
    exact List.length_map _
  · rw [subTaken_only]
    exact List.length_map _
  · exact getR_subTaken _ _ _ _ (mt List.mem_singleton.mpr hp)
  · rw [subTaken_only]
    rfl
  · rw [subTaken_only]
    rfl

theorem cancel_unknown (hop : e0.op = 2) (hseqs : ∀ y ∈ s.dev.srv.seqs, y.sub.req ≠ e0.req) (hadm : ∀ y ∈ s.dev.srv.adm, y.req ≠ e0.req) :
    ∃ e : Dev, exec (.cancel q now) s = .next (s.put e) ∧ e.getF (SRV_SQ_HEAD_HEAD q) = e0.sqHead % 4096 ∧
      e.regBit SRV_EVENT 3 = true ∧ e.srv = s.dev.srv ∧
      e.getN SRV_CANCEL_UNKNOWN_COUNT = min (s.dev.getN SRV_CANCEL_UNKNOWN_COUNT + 1) 0xFFFFFFFF ∧ e.out = s.dev.out ∧
      e.tiles = s.dev.tiles := by
  obtain ⟨hhead, hbit, hsrv, hout, htiles⟩ := latch_subTaken (s := s) (q := q) (now := now) (e0 := e0) (b := 3) (by decide)
    (x := (s.dev.subTaken q now e0).satInc SRV_CANCEL_UNKNOWN_COUNT) (by rw [regsOnly_satInc, subTaken_only])
    (getR_satInc_ne _ (by simp only [SRV_SQ_HEAD, SRV_CANCEL_UNKNOWN_COUNT]; omega))
  refine ⟨_, exec_cancel hf h hop, ?_⟩
  rw [if_neg (by simpa using ⟨hseqs, hadm⟩)]
  refine ⟨hhead, hbit, hsrv, ?_, hout, htiles⟩
  rw [getN_congr (getR_latch_srv _ 3 (by decide) (by decide) (by decide)), getN_satInc,
    getN_congr (getR_subTaken _ _ _ _ (by simp only [SRV_SQ_HEAD, SRV_CANCEL_UNKNOWN_COUNT]; omega))]

end

/-! CQ_STALL (R303). -/

theorem getF_at_ (d : Dev) (t : Nat) (f : Fld) : (d.at_ t).getF f = d.getF f := getF_congr (getR_at_ d t _)

section
variable {s : State} (hf : s.dev.frozen = false) {x : SeqEnt} (now : Nat) (hx : s.dev.seqEnt x.idx = some x)
include hf hx

theorem cqStall_latches {u : Nat} (hhold : x.hold = 5) (hst : x.stalled = false) (hsince : x.cqSince = some u)
    (hu : u + s.dev.getF SRV_CQ_BOUND_MS * 1000000 < max s.dev.now now) :
    ∃ e : Dev, exec (.cqStall x.idx now) s = .next (s.put e) ∧ e.regBit SRV_EVENT 2 = true ∧
      (∀ y ∈ e.srv.seqs, y.idx = x.idx → y.stalled = true) ∧ e.srv.adm = s.dev.srv.adm ∧ e.out = s.dev.out ∧ e.tiles = s.dev.tiles := by
  refine ⟨((s.dev.at_ now).onSeqEnt x.idx fun q => { q with stalled := true }).latch egSrv 2, ?_, (latch_srv _ (by decide)).1,
    fun y hy hidx => ?_, ?_, ?_, ?_⟩
  · change execCqStall x.idx now s = _
    refine onRun_eq hf ?_
    have hent : (s.dev.at_ now).seqEnt x.idx = some x := hx
    have hlate : (x.cqSince.any fun t => decide (t + (s.dev.at_ now).getF SRV_CQ_BOUND_MS * 1000000 < (s.dev.at_ now).now)) = true := by
      rw [hsince, Option.any_some, getF_at_, now_at_]
      exact decide_eq_true hu
    simp only [hent]
    rw [if_pos ⟨hhold, by simp [hst], hlate⟩]
  · rw [srv_latch] at hy
    obtain ⟨z, -, rfl⟩ := List.mem_map.mp hy
    by_cases hz : z.idx = x.idx
    · rw [if_pos hz]
    · rw [if_neg hz] at hidx
      exact absurd hidx hz
  · rw [srv_latch]
    rfl
  · rw [out_latch]
    rfl
  · rw [tiles_latch]
    rfl

theorem exec_cqStall_quiet (hquiet : x.hold ≠ 5 ∨ x.stalled = true) : exec (.cqStall x.idx now) s = .next (s.put (s.dev.at_ now)) := by
  change execCqStall x.idx now s = _
  refine onRun_eq hf ?_
  have hent : (s.dev.at_ now).seqEnt x.idx = some x := hx
  simp only [hent]
  refine if_neg ?_
  rcases hquiet with h | h
  · simp [h]
  · simp [h]

end

/-- Settles O55: the doorbells, the configuration of a queue, and the entries that the cores read, each of its kinds. -/
theorem submissionQueues : Obligations.SubmissionQueues := by
  unfold Obligations.SubmissionQueues
  refine ⟨fun s q v off data now hf => ⟨?_, ?_, ?_, ?_, ?_, fun hon hv hused => ⟨?_, ?_⟩, fun w hw hlen => ⟨?_, ?_⟩, fun hoff => ⟨?_, ?_⟩,
    ?_, ?_, ?_, ?_, ?_, ?_⟩, fun s q now e0 x hf => ⟨fun h c hc => exec_sub_none hf h hc, fun h => ⟨?_, ?_, ?_, ?_, ?_, ?_, ?_⟩,
    fun hx => ⟨?_, ?_⟩⟩⟩
  · exact exec_sqTailDoorbell_disabled hf q v
  · exact exec_sqTailDoorbell hf q v
  · exact exec_sqTailDoorbell_bad hf q v
  · exact exec_cqHeadDoorbell_disabled hf q v now
  · exact exec_cqHeadDoorbell_bad hf q v now
  · exact cqHeadDoorbell_none hf q v now hon hv hused
  · exact fun c => cqHeadDoorbell_one hf q v now hon hv hused
  · exact exec_bar2Write_sqTail hf q now hw hlen
  · exact exec_bar2Write_cqHead hf q now hw hlen
  · exact bar2Write_ring hf now hoff
  · exact exec_bar2Write_badSize hf now hoff
  · exact exec_bar2Write_reserved hf now
  · exact exec_sqCfgWrite_enabled hf q v
  · exact exec_sqCfgWrite_sized hf q v
  · exact sqCfgWrite_enables hf q v
  · exact cqCfgWrite_enabled hf q v now
  · exact cqCfgWrite_disabled hf q v now
  · exact submit_joins hf h
  · exact submit_noQueue hf h
  · exact submit_refused hf h
  · exact badOpcode_noQueue hf h
  · exact badOpcode_refused hf h
  · exact cancel_marks hf h
  · exact cancel_unknown hf h
  · exact fun u => cqStall_latches hf now hx
  · exact exec_cqStall_quiet hf now hx

end Sys2Proof.Machine
end

section
/-! The composition of a step (R253, R308 to R311, R315): what it changes beside the order that it composes. -/

namespace Sys2Proof.Machine

open Reg

/-! The sequence table. -/

/-- A table entry without what composition decides of it: its hold reason, its part in the coming step, its CQ_FULL timer. -/
def SeqEnt.core (q : SeqEnt) : SeqEnt := { q with hold := 0, run := none, cqSince := none, stalled := false }

/-- Nothing but what composition decides of the sequences differs. -/
def Dev.seatsOnly (d e : Dev) : Prop :=
  e = { d with srv := { d.srv with seqs := e.srv.seqs } } ∧ e.srv.seqs.map SeqEnt.core = d.srv.seqs.map SeqEnt.core

theorem Dev.seatsOnly.refl (d : Dev) : d.seatsOnly d := ⟨rfl, rfl⟩

theorem Dev.seatsOnly.trans {d e x : Dev} (h : d.seatsOnly e) (g : e.seatsOnly x) : d.seatsOnly x := by
  obtain ⟨hsame, hcore⟩ := h
  obtain ⟨hsame', hcore'⟩ := g
  exact ⟨by rw [hsame', hsame], hcore'.trans hcore⟩

theorem seatsOnly_foldl {α : Type} {f : Dev → α → Dev} (hstep : ∀ (d : Dev) (a : α), d.seatsOnly (f d a)) (l : List α) (d : Dev) :
    d.seatsOnly (l.foldl f d) := by
  induction l generalizing d with
  | nil => exact .refl d
  | cons a t ih => exact (hstep d a).trans (ih (f d a))

theorem seatsOnly_onSeqEnt (d : Dev) (i : Nat) {f : SeqEnt → SeqEnt} (hf : ∀ q, (f q).core = q.core) : d.seatsOnly (d.onSeqEnt i f) := by
  refine ⟨rfl, ?_⟩
  change (d.srv.seqs.map fun q => if q.idx = i then f q else q).map SeqEnt.core = _
  rw [List.map_map]
  refine List.map_congr_left fun q _ => ?_
  rw [Function.comp_apply]
  split
  · exact hf q
  · rfl

theorem core_cqTimer (q : SeqEnt) (tb : Nat) : (q.cqTimer tb).core = q.core := by
  unfold SeqEnt.cqTimer
  split
  · rfl
  · split <;> rfl

theorem seatsOnly_fill (c : GroupCfg) (dec pre : Nat) (f : Fill) (q : SeqEnt) : f.d.seatsOnly (Fill.one c dec pre f q).d := by
  have hheld : ∀ h : Nat, f.d.seatsOnly (f.d.onSeqEnt q.idx fun q => { q with hold := h }) := fun h =>
    seatsOnly_onSeqEnt f.d _ fun _ => rfl
  unfold Fill.one
  dsimp only
  generalize (ite ((q.state == 3) = true) 1 _ : Nat) = want
  split
  · exact hheld 1
  · split
    · exact hheld 5
    · generalize seatFor c f.used _ = seat
      cases seat with
      | inl h => exact hheld h
      | inr s => exact seatsOnly_onSeqEnt f.d q.idx fun _ => rfl

theorem seatsOnly_fills (c : GroupCfg) (dec pre : Nat) (l : List SeqEnt) (f : Fill) : f.d.seatsOnly (l.foldl (Fill.one c dec pre) f).d := by
  induction l generalizing f with
  | nil => exact .refl f.d
  | cons q t ih => exact (seatsOnly_fill c dec pre f q).trans (ih _)

/-! The order. -/

/-- The share and generation-first mode as a boundary leaves them (R310, R311). -/
def Dev.shareShown (d : Dev) (g : Fin 4) (gf : Bool) (share : Nat) : Dev :=
  (if gf then d else d.setF (SRV_GROUP_SHARE_S g) share).setF (SRV_GROUP_STATE_GEN_FIRST g) (if gf then 1 else 0)

theorem shareShown_effect (d : Dev) (g : Fin 4) (gf : Bool) (share : Nat) : d.regsOnly (d.shareShown g gf share) ∧
    (∀ p, p ≠ SRV_GROUP_STATE g → p ≠ SRV_GROUP_SHARE g → (d.shareShown g gf share).getR p = d.getR p) ∧
    (d.shareShown g gf share).gstate g = d.gstate g ∧ (d.shareShown g gf share).groupEpoch g = d.groupEpoch g := by
  obtain ⟨x, hx⟩ : ∃ x : Dev, x = if gf then d else d.setF (SRV_GROUP_SHARE_S g) share := ⟨_, rfl⟩
  have honly : d.regsOnly x := by
    rw [hx]
    split
    · exact .refl d
    · exact regsOnly_setF d _ _
  have hregs : ∀ p, p ≠ SRV_GROUP_SHARE g → x.getR p = d.getR p := fun p hp => by
    rw [hx]
    split
    · rfl
    · exact getR_setF_ne d _ hp
  have hstate : x.getR (SRV_GROUP_STATE g) = d.getR (SRV_GROUP_STATE g) :=
    hregs _ (by simp only [SRV_GROUP_STATE, SRV_GROUP_SHARE]; omega)
  rw [Dev.shareShown, ← hx]
  refine ⟨honly.trans (regsOnly_setF x _ _), fun p h1 h2 => (getR_setF_ne x _ h1).trans (hregs p h2), ?_, ?_⟩
  · rw [Dev.gstate, getF_setF_ne _ _ _ _ (by simp) (by simp)]
    exact getF_congr hstate
  · rw [Dev.groupEpoch, getF_setF_ne _ _ _ _ (by simp) (by simp)]
    exact getF_congr hstate

/-- The sequences seated, the share and generation-first mode shown, the order in its place. -/
theorem compose_parts (d : Dev) (g : Fin 4) (reps : Option (List StepRep)) (ended deferred notReady prompt : List Nat) :
    ∃ (x : Dev) (gf : Bool) (share ndec : Nat) (o : StepOrder) (run : List OrderEnt), d.seatsOnly x ∧
      d.compose g reps ended deferred notReady prompt = (x.shareShown g gf share).onGroup g
          (fun z => { z with order := some o, retryAt := if run = [] then some d.now else none }) ∧
      o.step = (x.shareShown g gf share).gstep g + 1 ∧ o.epoch = (x.shareShown g gf share).groupEpoch g ∧
      o.entries = (((x.shareShown g gf share).group g).order.map StepOrder.entries).getD [] ++ ended.map (plainEnt 2) ++
        deferred.map (plainEnt 3) ++ run.mergeSort (fun a b => decide (a.first ≤ b.first)) ∧
      run = ((x.shareShown g gf share).groupSeqs g).filterMap fun q => (q.entry ndec).map fun e => e := by
  refine ⟨_, _, _, _, _, _, ?_, rfl, rfl, rfl, rfl, rfl⟩
  refine ((seatsOnly_foldl (fun e q => ?_) _ d).trans (seatsOnly_fills _ _ _ _ ⟨_, 0, 0, []⟩)).trans (seatsOnly_foldl (fun e q => ?_) _ _)
  · exact seatsOnly_onSeqEnt e _ fun _ => rfl
  · exact seatsOnly_onSeqEnt e _ fun q => core_cqTimer q _

/-- What a boundary that composes leaves: the order `o` of the next step, and beside it the seats of the sequences, the share and
generation-first mode, the queues' counts and vectors. -/
structure Dev.composes (d e : Dev) (g : Fin 4) (ended deferred : List Nat) (o : StepOrder) (run : List OrderEnt) : Prop where
  rest : e = { d with regs := e.regs, srv := { d.srv with seqs := e.srv.seqs, groups := e.srv.groups } }
  regs : ∀ p, p ≠ SRV_GROUP_STATE g → p ≠ SRV_GROUP_SHARE g → ¬ countRegs p → e.getR p = d.getR p
  core : e.srv.seqs.map SeqEnt.core = d.srv.seqs.map SeqEnt.core
  group : e.group g = { d.group g with order := some o, retryAt := if run = [] then some d.now else none }
  step : o.step = d.gstep g + 1
  epoch : o.epoch = d.groupEpoch g
  entries : o.entries = ((d.group g).order.map StepOrder.entries).getD [] ++ ended.map (plainEnt 2) ++ deferred.map (plainEnt 3) ++
    run.mergeSort (fun a b => decide (a.first ≤ b.first))
  none_run : d.srv.seqs = [] → run = []

theorem gstep_congr {d e : Dev} {g : Nat} (hlo : e.getR (SRV_GROUP_STEP_LO g) = d.getR (SRV_GROUP_STEP_LO g))
    (hhi : e.getR (SRV_GROUP_STEP_HI g) = d.getR (SRV_GROUP_STEP_HI g)) : e.gstep g = d.gstep g := getPair_congr hlo hhi

/-- The step composed, and the vectors of the queues in `l` raised. -/
theorem compose_effect (d : Dev) (g : Fin 4) (reps : Option (List StepRep)) (ended deferred notReady prompt l : List Nat) :
    ∃ (o : StepOrder) (run : List OrderEnt),
      d.composes ((d.compose g reps ended deferred notReady prompt).raiseCqs l) g ended deferred o run := by
  obtain ⟨x, gf, share, ndec, o, run, ⟨hx, hcore⟩, he, hstep, hepoch, hentries, hrun⟩ :=
    compose_parts d g reps ended deferred notReady prompt
  obtain ⟨honly, hregs, -, hepoch'⟩ := shareShown_effect x g gf share
  obtain ⟨hraised, hcounts, -⟩ := raiseCqs_effect (d.compose g reps ended deferred notReady prompt) l
  obtain ⟨hrsrv, -⟩ := hraised.fields
  have hxregs : ∀ p, x.getR p = d.getR p := fun p => by rw [hx]; rfl
  have hsrv : (x.shareShown g gf share).srv = { d.srv with seqs := x.srv.seqs } := by
    rw [honly, hx]
  have hgroup : (x.shareShown g gf share).group g = d.group g := by rw [Dev.group, hsrv]; rfl
  have hstep' : (x.shareShown g gf share).gstep g = d.gstep g := gstep_congr
    ((hregs _ (by simp only [SRV_GROUP_STEP_LO, SRV_GROUP_STATE]; omega) (by simp only [SRV_GROUP_STEP_LO, SRV_GROUP_SHARE]; omega)).trans
      (hxregs _))
    ((hregs _ (by simp only [SRV_GROUP_STEP_HI, SRV_GROUP_STATE]; omega) (by simp only [SRV_GROUP_STEP_HI, SRV_GROUP_SHARE]; omega)).trans
      (hxregs _))
  refine ⟨o, run, ?_, fun p h1 h2 h3 => ?_, ?_, ?_, ?_, ?_, ?_, fun hnone => ?_⟩
  · rw [hraised, he, honly, hx]
    rfl
  · rw [hcounts p h3, he, getR_onGroup, hregs p h1 h2, hxregs]
  · rw [hrsrv, he, ← hcore]
    change ((x.shareShown g gf share).srv.seqs).map SeqEnt.core = _
    rw [hsrv]
  · rw [group_congr hrsrv, he, group_onGroup_self, hgroup]
  · rw [hstep, hstep']
  · rw [hepoch, hepoch']
    exact getF_congr (hxregs _)
  · rw [hentries, hgroup]
  · have hseqs : (x.shareShown g gf share).srv.seqs = [] := by
      rw [hsrv]
      refine List.map_eq_nil_iff.mp (hcore.trans ?_)
      rw [hnone]
      rfl
    rw [hrun, Dev.groupSeqs, hseqs]
    simp

end Sys2Proof.Machine
end

section
/-! The parts of a boundary of a group (R307, R314): nothing pending, the budgets of the customers, admission of at most one request, and the
step composed at the end. -/

namespace Sys2Proof.Machine

open Reg

/-! Nothing pending. -/

theorem applySrv_none {d : Dev} (h : d.rwb = []) (g : Fin 4) : d.applySrv g = d := by
  have hsame : { d with rwb := [] } = d := by rw [← h]
  simp only [Dev.applySrv, Dev.applyRwb, h, List.filter_nil, List.append_nil, List.foldl_nil]
  exact hsame

theorem groupSeqs_none {d : Dev} (h : d.srv.seqs = []) (g : Fin 4) : d.groupSeqs g = [] := by
  rw [Dev.groupSeqs, h]
  simp

theorem postBnd_none {d : Dev} (h : d.srv.due = []) : d.postBnd [] = (d, []) := by
  simp [Dev.postBnd, flushDue_none h]

/-! Budgets (R322). -/

/-- Refill of every customer, with nothing to debit. -/
def Dev.refilled (d : Dev) : Dev := d.customers.foldl (fun e c => e.settle c d.now 0 0) d

theorem settle_effect (d : Dev) {c : Nat} (hc : c < 4096) (tb tokens rows : Nat) : d.regsOnly (d.settle c tb tokens rows) ∧
    ∀ p, p < 0x240000 ∨ 0x280000 ≤ p → (d.settle c tb tokens rows).getR p = d.getR p := by
  have hne : ∀ p, p < 0x240000 ∨ 0x280000 ≤ p → ∀ o, o < 64 → p ≠ custAt c + o := fun p hp o ho => by
    unfold custAt
    omega
  unfold Dev.settle
  dsimp only
  refine ⟨((((regsOnly_setPair d _ _ _).trans (regsOnly_setN _ _ _)).trans (regsOnly_setPair _ _ _ _)).trans (regsOnly_setN _ _ _)).trans
    (regsOnly_setPair _ _ _ _), fun p hp => ?_⟩
  rw [getR_setPair_ne _ _ (hne p hp 0x30 (by decide)) (hne p hp 0x34 (by decide)), getR_setN, if_neg (hne p hp 0x20 (by decide)),
    getR_setPair_ne _ _ (hne p hp 8 (by decide)) (hne p hp 12 (by decide)), getR_setN, if_neg (hne p hp 0x1C (by decide))]
  exact getR_setPair_ne d _ (hne p hp 0 (by decide)) (hne p hp 4 (by decide))

theorem refilled_effect (d : Dev) : d.regsOnly d.refilled ∧ ∀ p, p < 0x240000 ∨ 0x280000 ≤ p → d.refilled.getR p = d.getR p :=
  ⟨regsOnly_foldl _ (fun e _ hc => (settle_effect e (customer_lt hc) _ _ _).1) d,
    fun p hp => foldl_view_same (fun x : Dev => x.getR p) _ _ (fun e _ hc => (settle_effect e (customer_lt hc) _ _ _).2 p hp) d⟩

theorem refilled_none {d : Dev} (h : d.customers = []) : d.refilled = d := by rw [Dev.refilled, h, List.foldl_nil]

/-- A boundary without a sequence refills the budgets and ends nothing. -/
theorem boundaryEnds_none {d : Dev} (hrwb : d.rwb = []) (hseqs : d.srv.seqs = []) (hdue : d.srv.due = []) (g : Fin 4) :
    d.boundaryEnds g none none = ⟨d.refilled, [], [], []⟩ := by
  have hdue' : d.refilled.srv.due = [] := by
    obtain ⟨hsrv, -⟩ := (refilled_effect d).1.fields
    rw [hsrv, hdue]
  simp only [Dev.boundaryEnds, applySrv_none hrwb, Option.isSome_none, Bool.false_eq_true, if_false, groupSeqs_none hseqs, List.map_nil,
    List.filter_nil, List.length_nil, List.sum_nil, List.foldl_nil, List.filterMap_nil]
  rw [show d.customers.foldl (fun e c => e.settle c d.now 0 0) d = d.refilled from rfl, postBnd_none hdue']

/-! Admission (R307). -/

theorem admitLoop_none {d : Dev} (h : d.srv.adm = []) (noRoom : List Nat) (tb step k : Nat) : d.admitLoop noRoom tb step k = d := by
  cases k with
  | zero => rfl
  | succ k =>
    have hnone : ((List.range 64).map fun i => (d.srv.lastSq + 1 + i) % 64).find? (fun q =>
        (d.srv.adm.filter d.mayAdmit).any fun e => e.sq == q) = none := List.find?_eq_none.mpr fun q _ => by simp [h]
    simp only [Dev.admitLoop, hnone]

theorem dropAdm_none {d : Dev} {p : SubEnt → Bool} (h : ∀ e ∈ d.srv.adm, p e = false) (tb step : Nat) : d.dropAdm p tb step = d := by
  have hdropped : d.srv.adm.filter p = [] := List.filter_eq_nil_iff.mpr fun e he => by simp [h e he]
  have hkept : (d.srv.adm.filter fun e => !p e) = d.srv.adm := List.filter_eq_self.mpr fun e he => by simp [h e he]
  simp only [Dev.dropAdm, hdropped, List.foldl_nil, Dev.onSrv, hkept]

theorem admission_none {d : Dev} (hadm : d.srv.adm = []) (hdue : d.srv.due = []) (g : Fin 4) (noRoom : List Nat) :
    d.admission g noRoom = (d, []) := by
  have hdrop : ∀ p tb step, d.dropAdm p tb step = d := fun p tb step => dropAdm_none (by simp [hadm]) tb step
  simp only [Dev.admission, hdrop, admitLoop_none hadm, flushDue_none hdue]

/-- The table entry that a request takes: QUEUED, nothing consumed and nothing delivered. -/
def Dev.entryFor (d : Dev) (e0 : SubEnt) : SeqEnt :=
  ⟨freeNum (d.srv.seqs.map SeqEnt.idx), 1, 0, e0, d.srv.nextOrder, 0, 0, 0, 0, 0, false, false, e0.cancel, true, none, none, false⟩

/-- A request taken in joins the table and is counted. -/
theorem takeIn_rest (d : Dev) (e0 : SubEnt) : d.takeIn e0 = { d with
    regs := (d.takeIn e0).regs
    srv := { d.srv with seqs := d.srv.seqs ++ [d.entryFor e0], nextOrder := d.srv.nextOrder + 1 } } := by
  obtain ⟨x, hx⟩ : ∃ x : Dev, x = (d.setN (custAt e0.cust + 0x28) (d.getN (custAt e0.cust + 0x28) + 1)).satInc SRV_ADMIT_COUNT := ⟨_, rfl⟩
  have honly : d.regsOnly x := by
    rw [hx]
    exact (regsOnly_setN d _ _).trans (regsOnly_satInc _ _)
  have he : d.takeIn e0 = x.onSrv fun y => { y with seqs := y.seqs ++ [d.entryFor e0], nextOrder := y.nextOrder + 1 } := by
    obtain ⟨hsrv, -⟩ := honly.fields
    rw [Dev.entryFor, ← hsrv, hx]
    simp [Dev.takeIn, Dev.onSrv]
  rw [he, honly]
  rfl

theorem takeIn_count (d : Dev) (e0 : SubEnt) : (d.takeIn e0).getN SRV_ADMIT_COUNT = min (d.getN SRV_ADMIT_COUNT + 1) 0xFFFFFFFF := by
  refine (getN_satInc (d.setN (custAt e0.cust + 0x28) _) SRV_ADMIT_COUNT).trans ?_
  rw [getN_setN, if_neg (by simp only [SRV_ADMIT_COUNT, custAt]; omega)]

/-- The one request of the admission list leaves it. -/
def Dev.admTaken (d : Dev) (q : Nat) : Dev := d.onSrv fun x => { x with adm := [], lastSq := q }

section
variable {d : Dev} {e0 : SubEnt} (hadm : d.srv.adm = [e0]) (hsq : e0.sq < 64) (hpause : d.gstate e0.group ≠ 5) (hcancel : e0.cancel = none)
include hadm hsq hpause

/-- The queue of the one request is the next that is served. -/
theorem admitLoop_one (noRoom : List Nat) (tb step k : Nat) : d.admitLoop noRoom tb step (k + 1) =
    (match d.admissionTest e0 noRoom with
      | none => (d.admTaken e0.sq).takeIn e0
      | some r => ((d.admTaken e0.sq).satInc SRV_REFUSE_COUNT).addDue (e0.refusal r.1 r.2 tb step false)).admitLoop noRoom tb step k := by
  have hmay : d.mayAdmit e0 = true := by simpa [Dev.mayAdmit] using hpause
  have hlist : d.srv.adm.filter d.mayAdmit = [e0] := by rw [hadm, List.filter_cons_of_pos hmay, List.filter_nil]
  have hserved : (((List.range 64).map fun i => (d.srv.lastSq + 1 + i) % 64).find? fun q => [e0].any fun e => e.sq == q) = some e0.sq := by
    have hmem : e0.sq ∈ (List.range 64).map fun i => (d.srv.lastSq + 1 + i) % 64 :=
      List.mem_map.mpr ⟨(e0.sq + 64 - (d.srv.lastSq + 1) % 64) % 64, List.mem_range.mpr (Nat.mod_lt _ (by decide)), by omega⟩
    have hsome : (((List.range 64).map fun i => (d.srv.lastSq + 1 + i) % 64).find? fun q => [e0].any fun e => e.sq == q).isSome = true :=
      List.find?_isSome.mpr ⟨e0.sq, hmem, by simp⟩
    obtain ⟨q, hq⟩ := Option.isSome_iff_exists.mp hsome
    have hfound := List.find?_some hq
    simp only [List.any_cons, List.any_nil, Bool.or_false, beq_iff_eq] at hfound
    rw [hq, hfound]
  have hfind : [e0].find? (fun e => e.sq == e0.sq) = some e0 := by simp
  have htaken : (d.onSrv fun x => { x with adm := x.adm.erase e0, lastSq := e0.sq }) = d.admTaken e0.sq := by
    have herase : d.srv.adm.erase e0 = [] := by rw [hadm]; simp
    rw [Dev.admTaken, Dev.onSrv, herase]
    rfl
  have htest : (d.admTaken e0.sq).admissionTest e0 noRoom = d.admissionTest e0 noRoom := rfl
  rw [Dev.admitLoop]
  simp only [hlist, hserved, hfind, htaken, htest] <;> rfl

include hcancel

/-- Admission of the one request: it is taken in or refused, and what is due is posted. -/
theorem admission_one (g : Fin 4) (noRoom : List Nat) : d.admission g noRoom =
    (match d.admissionTest e0 noRoom with
      | none => (d.admTaken e0.sq).takeIn e0
      | some r => ((d.admTaken e0.sq).satInc SRV_REFUSE_COUNT).addDue (e0.refusal r.1 r.2 d.now (d.gstep g % 2 ^ 32) false)).flushDue := by
  have hdrop : ∀ tb step, d.dropAdm (fun e => d.mayAdmit e && e.cancel.any fun c => decide (c < d.now)) tb step = d := fun tb step =>
    dropAdm_none (fun e he => by
      rw [hadm, List.mem_singleton] at he
      simp [he, hcancel]) tb step
  obtain ⟨k, hk⟩ : ∃ k, max 1 (d.getF SRV_CTRL_ADMIT_MAX) = k + 1 := ⟨max 1 (d.getF SRV_CTRL_ADMIT_MAX) - 1, by omega⟩
  simp only [Dev.admission, hdrop, hk, admitLoop_one hadm hsq hpause]
  congr 1
  refine admitLoop_none ?_ _ _ _ _
  split
  · rw [takeIn_rest]
    rfl
  · change (((d.admTaken e0.sq).satInc SRV_REFUSE_COUNT)).srv.adm = []
    simp [Dev.admTaken, Dev.onSrv]

end

/-! Whole boundaries. -/

/-- A boundary that neither stops nor pauses the group: ends, admission, the next step, the vectors. -/
theorem leadBoundary_composes {d : Dev} {g : Fin 4} (hstop : (d.group g).stop = none) (hmbx : d.mbx.run = none)
    {reps : Option (List StepRep)} (hrecs : ∀ r ∈ reps.getD [], ∀ x ∈ r.recs, x.1 ≠ 12) (noRoom notReady prompt : List Nat) :
    d.leadBoundary g reps false noRoom notReady prompt =
      ((((d.boundaryEnds g reps none).d.admission g noRoom).1.compose g reps (d.boundaryEnds g reps none).ended
        (d.boundaryEnds g reps none).deferred notReady prompt).raiseCqs
        ((d.boundaryEnds g reps none).posted ++ ((d.boundaryEnds g reps none).d.admission g noRoom).2)) := by
  have hpending : d.stopPending g = false := by simp [Dev.stopPending, hmbx]
  have hcont : ((reps.getD []).any fun r => r.recs.any fun x => x.1 == 12) = false := by
    simp only [List.any_eq_false, beq_iff_eq, Bool.not_eq_true]
    exact fun r hr x hx => hrecs r hr x hx
  rw [Dev.leadBoundary, if_neg (by simp [hstop]), if_neg (by simp [hpending]), if_neg (by simp [hcont])]

end Sys2Proof.Machine
end

section
/-! Boundaries without a running step, the order sent (R307, R314, R315), and the statement on them. -/

namespace Sys2Proof.Machine

open Reg

/-! The table after a boundary. -/

/-- The one sequence of the table keeps all but what composition decides. -/
theorem Dev.composes.one {d e : Dev} {g : Fin 4} {ended deferred : List Nat} {o : StepOrder} {run : List OrderEnt}
    (h : d.composes e g ended deferred o run) {y : SeqEnt} (hy : d.srv.seqs = [y]) : ∃ x, e.srv.seqs = [x] ∧ x.core = y.core := by
  have hmap := h.core
  rw [hy, List.map_singleton] at hmap
  obtain ⟨x, hx, hcore⟩ := List.map_eq_singleton_iff.mp hmap
  exact ⟨x, hx, hcore⟩

theorem Dev.composes.none {d e : Dev} {g : Fin 4} {ended deferred : List Nat} {o : StepOrder} {run : List OrderEnt}
    (h : d.composes e g ended deferred o run) (hd : d.srv.seqs = []) : e.srv.seqs = [] := by
  have hmap := h.core
  rw [hd, List.map_nil] at hmap
  exact List.map_eq_nil_iff.mp hmap

/-- The counts of the serving block beside the groups' registers. -/
theorem Dev.composes.count {d e : Dev} {g : Fin 4} {ended deferred : List Nat} {o : StepOrder} {run : List OrderEnt}
    (h : d.composes e g ended deferred o run) {p : Nat} (hp : p = SRV_ADMIT_COUNT ∨ p = SRV_REFUSE_COUNT) : e.getN p = d.getN p := by
  simp only [SRV_ADMIT_COUNT, SRV_REFUSE_COUNT] at hp
  exact getN_congr (h.regs p (by simp only [SRV_GROUP_STATE]; omega) (by simp only [SRV_GROUP_SHARE]; omega)
    (by simp only [countRegs, SRV_SEQ_LIVE]; omega))

/-! BOUNDARY_RETRY. -/

section
variable {s : State} (hf : s.dev.frozen = false) {g : Fin 4} (noRoom notReady prompt : List Nat) (now : Nat) {u : Nat}
  (hretry : (s.dev.group g).retryAt = some u)
include hf hretry

theorem exec_boundaryRetry_early (hearly : max s.dev.now now < u + 100000) :
    exec (.boundaryRetry g false noRoom notReady prompt now) s = .next (s.put (s.dev.at_ now)) := by
  change execBoundaryRetry g false noRoom notReady prompt now s = _
  refine onRun_eq hf ?_
  have hwait : ((s.dev.at_ now).group g).retryAt.any (fun t => decide (t + 100000 ≤ (s.dev.at_ now).now)) = false := by
    rw [group_at_, hretry, Option.any_some, now_at_]
    exact decide_eq_false (by omega)
  dsimp only
  rw [if_neg fun h => ne_true_of_eq_false hwait h.2, if_neg (by simp)]

theorem exec_boundaryRetry (hlead : s.dev.leadsRunning g = true) (hdue : u + 100000 ≤ max s.dev.now now) :
    exec (.boundaryRetry g false noRoom notReady prompt now) s =
      .next (s.put ((s.dev.at_ now).leadBoundary g none false noRoom notReady prompt)) := by
  change execBoundaryRetry g false noRoom notReady prompt now s = _
  refine onRun_eq hf ?_
  have hwait : ((s.dev.at_ now).group g).retryAt.any (fun t => decide (t + 100000 ≤ (s.dev.at_ now).now)) = true := by
    rw [group_at_, hretry, Option.any_some, now_at_]
    exact decide_eq_true hdue
  dsimp only
  rw [if_pos ⟨by rw [leadsRunning_at_]; exact hlead, hwait⟩]

end

/-- Nothing but requests waits for a boundary: no stop, no command, no pending value, no completion due, no live sequence. -/
structure Dev.idleAt (d : Dev) (g : Fin 4) : Prop where
  stop : (d.group g).stop = none
  mbx : d.mbx.run = none
  rwb : d.rwb = []
  due : d.srv.due = []
  seqs : d.srv.seqs = []

/-- The boundary of such a group. -/
theorem leadBoundary_idle {d : Dev} {g : Fin 4} (h : d.idleAt g) (noRoom notReady prompt : List Nat) :
    d.leadBoundary g none false noRoom notReady prompt =
      ((d.refilled.admission g noRoom).1.compose g none [] [] notReady prompt).raiseCqs (d.refilled.admission g noRoom).2 := by
  rw [leadBoundary_composes h.stop h.mbx (fun r hr => absurd hr List.not_mem_nil), boundaryEnds_none h.rwb h.seqs h.due]
  rfl

/-- With nothing submitted the boundary composes an order without a sequence. -/
theorem leadBoundary_nothing {d : Dev} {g : Fin 4} (h : d.idleAt g) (hadm : d.srv.adm = []) (noRoom notReady prompt : List Nat) :
    ∃ (e : Dev) (o : StepOrder), d.leadBoundary g none false noRoom notReady prompt = e ∧ (e.group g).order = some o ∧
      o.step = d.gstep g + 1 ∧ o.entries = ((d.group g).order.map StepOrder.entries).getD [] ∧ (e.group g).retryAt = some d.now ∧
      e.srv.seqs = [] ∧ e = { d with regs := e.regs, srv := e.srv } := by
  obtain ⟨honly, hregs⟩ := refilled_effect d
  obtain ⟨hsrv, -, -, hnow, -⟩ := honly.fields
  have hadmission : d.refilled.admission g noRoom = (d.refilled, []) := admission_none (by rw [hsrv, hadm]) (by rw [hsrv, h.due]) g noRoom
  obtain ⟨o, run, hcomp⟩ := compose_effect d.refilled g none [] [] notReady prompt []
  have hseqs : d.refilled.srv.seqs = [] := by rw [hsrv, h.seqs]
  have hrun := hcomp.none_run hseqs
  refine ⟨_, o, rfl, ?_⟩
  rw [leadBoundary_idle h, hadmission]
  refine ⟨by rw [hcomp.group], ?_, ?_, ?_, hcomp.none hseqs, ?_⟩
  · rw [hcomp.step, gstep_congr (hregs _ (by simp only [SRV_GROUP_STEP_LO]; omega)) (hregs _ (by simp only [SRV_GROUP_STEP_HI]; omega))]
  · rw [hcomp.entries, hrun, group_congr hsrv]
    simp
  · rw [hcomp.group, hrun, hnow]
    rfl
  · rw [hcomp.rest, honly]

section
variable {d : Dev} {g : Fin 4} (h : d.idleAt g) {e0 : SubEnt} (hadm : d.srv.adm = [e0]) (hgroup : e0.group = g) (hlead : d.gstate g = 2)
  (hcancel : e0.cancel = none) (hsq : e0.sq < 64) (hcust : d.customers = [])
include h hadm hgroup hlead hcancel hsq hcust

/-- A submission that passes every test becomes a QUEUED sequence, counted. -/
theorem leadBoundary_admits {noRoom : List Nat} (notReady prompt : List Nat) (htest : d.admissionTest e0 noRoom = none) :
    ∃ (e : Dev) (x : SeqEnt), d.leadBoundary g none false noRoom notReady prompt = e ∧ e.srv.seqs = [x] ∧ x.sub = e0 ∧ x.state = 1 ∧
      x.prompt = 0 ∧ x.tokens = 0 ∧ x.idx = 0 ∧ e.srv.adm = [] ∧ e.getN SRV_ADMIT_COUNT = min (d.getN SRV_ADMIT_COUNT + 1) 0xFFFFFFFF ∧
      e.out = d.out ∧ e.tiles = d.tiles := by
  obtain ⟨y, hy⟩ : ∃ y, y = (d.admTaken e0.sq).takeIn e0 := ⟨_, rfl⟩
  have hyrest : y = { d with
      regs := y.regs
      srv := { d.srv with
        adm := [], lastSq := e0.sq, seqs := [(d.admTaken e0.sq).entryFor e0], nextOrder := (d.admTaken e0.sq).srv.nextOrder + 1 } } := by
    rw [hy]
    refine (takeIn_rest _ e0).trans ?_
    simp [Dev.admTaken, Dev.onSrv, h.seqs]
  have hadmission : d.refilled.admission g noRoom = (y, []) := by
    rw [refilled_none hcust, admission_one hadm hsq (by rw [hgroup, hlead]; decide) hcancel, htest, hy]
    exact flushDue_none (by rw [← hy, hyrest]; exact h.due)
  obtain ⟨o, run, hcomp⟩ := compose_effect y g none [] [] notReady prompt []
  obtain ⟨x, hx, hcore⟩ := hcomp.one (y := (d.admTaken e0.sq).entryFor e0) (by rw [hyrest])
  have hidx : ((d.admTaken e0.sq).entryFor e0).idx = 0 := by
    simp [Dev.entryFor, Dev.admTaken, Dev.onSrv, h.seqs, freeNum]
  refine ⟨_, x, rfl, ?_⟩
  rw [leadBoundary_idle h, hadmission]
  refine ⟨hx, congrArg SeqEnt.sub hcore, congrArg SeqEnt.state hcore, congrArg SeqEnt.prompt hcore, congrArg SeqEnt.tokens hcore,
    (congrArg SeqEnt.idx hcore).trans hidx, ?_, ?_, ?_, ?_⟩
  · rw [hcomp.rest, hyrest]
  · rw [hcomp.count (.inl rfl), hy, takeIn_count]
    rfl
  · rw [hcomp.rest, hyrest]
  · rw [hcomp.rest, hyrest]

/-- One that fails a test is refused: its completion is posted, the queue's vector rises, and the refusal is counted. -/
theorem leadBoundary_refuses {noRoom : List Nat} (notReady prompt : List Nat) {st det : Nat}
    (htest : d.admissionTest e0 noRoom = some (st, det)) (hroom : d.cqRoom e0.cq ≠ 0) :
    ∃ (e : Dev) (k : Comp), d.leadBoundary g none false noRoom notReady prompt = e ∧ e.out = d.out ++ [d.compWrite k d.now] ∧
      k.cq = e0.cq.val ∧ k.req = e0.req ∧ k.status = st ∧ k.detail = det ∧ k.final = true ∧ k.tokenValid = false ∧ k.time = d.now ∧
      e.srv.seqs = [] ∧ e.srv.adm = [] ∧ e.isPending (64 + e0.cq) = true ∧
      e.getN SRV_REFUSE_COUNT = min (d.getN SRV_REFUSE_COUNT + 1) 0xFFFFFFFF ∧ e.tiles = d.tiles := by
  obtain ⟨k, hk⟩ : ∃ k : Comp, k = e0.refusal st det d.now (d.gstep g % 2 ^ 32) false := ⟨_, rfl⟩
  have hkcq : k.cq = e0.cq.val := by rw [hk]; rfl
  have hq : Fin.ofNat 64 k.cq = e0.cq := by rw [hkcq]; exact Fin.ofNat_val_eq_self e0.cq
  obtain ⟨y, hy⟩ : ∃ y, y = ((d.admTaken e0.sq).satInc SRV_REFUSE_COUNT).addDue k := ⟨_, rfl⟩
  have hyrest : y = { d with regs := y.regs, srv := { d.srv with adm := [], lastSq := e0.sq, due := [k] } } := by
    rw [hy, Dev.addDue, regsOnly_satInc (d.admTaken e0.sq) SRV_REFUSE_COUNT]
    simp [Dev.admTaken, Dev.onSrv, h.due]
  have hyregs : ∀ p, p ≠ SRV_REFUSE_COUNT → y.getR p = d.getR p := fun p hp => by
    rw [hy]
    exact getR_satInc_ne (d.admTaken e0.sq) hp
  have hqueue : d.sameQueue e0.cq y := sameQueue_of_regs e0.cq (fun p _ _ _ _ => hyregs p (by simp only [SRV_REFUSE_COUNT]; omega))
    (by rw [hyrest]) (by rw [hyrest])
  obtain ⟨hpost, hpregs, -⟩ := post_effect y hkcq
  obtain ⟨z, hz⟩ : ∃ z, z = (y.post k).onSrv fun x => { x with due := [] } := ⟨_, rfl⟩
  have hadmission : d.refilled.admission g noRoom = (z, [k.cq]) := by
    rw [refilled_none hcust, admission_one hadm hsq (by rw [hgroup, hlead]; decide) hcancel, htest]
    dsimp only
    rw [← hk, ← hy, hz]
    refine flushDue_one (by rw [hyrest]) ?_
    rw [hq, hqueue.cqRoom (by rw [hyrest])]
    exact hroom
  have hzrest : z = { d with
      regs := z.regs, out := d.out ++ [d.compWrite k d.now], srv := { d.srv with adm := [], lastSq := e0.sq, due := [] } } := by
    have hyout : y.out = d.out := by rw [hyrest]
    have hynow : y.now = d.now := by rw [hyrest]
    have hysrv : y.srv.without k.seq = { d.srv with adm := [], lastSq := e0.sq, due := [k] } := by
      rw [hyrest]
      exact without_of_absent (by simp [h.seqs])
    rw [hz, Dev.onSrv, hpost, hyout, hynow, hysrv, hqueue.compWrite hkcq, hyrest]
  obtain ⟨o, run, hcomp⟩ := compose_effect z g none [] [] notReady prompt [k.cq]
  obtain ⟨-, -, hraised⟩ := raiseCqs_effect (z.compose g none [] [] notReady prompt) [k.cq]
  refine ⟨_, k, rfl, ?_⟩
  rw [leadBoundary_idle h, hadmission]
  refine ⟨?_, hkcq, ?_, ?_, ?_, ?_, ?_, ?_, hcomp.none (by rw [hzrest]; exact h.seqs), ?_, hraised _ e0.cq.isLt (by simp [hkcq]), ?_, ?_⟩
  · rw [hcomp.rest, hzrest]
  · rw [hk]; rfl
  · rw [hk]; rfl
  · rw [hk]; rfl
  · rw [hk]; rfl
  · rw [hk]; rfl
  · rw [hk]; rfl
  · rw [hcomp.rest, hzrest]
  · rw [hcomp.count (.inr rfl), hz]
    refine (getN_congr (hpregs _ (by simp only [postRegs, SRV_REFUSE_COUNT, SRV_CQ_TAIL, SRV_TOKENS_LO, SRV_TOKENS_HI]; omega))).trans ?_
    rw [hy]
    exact getN_satInc (d.admTaken e0.sq) SRV_REFUSE_COUNT
  · rw [hcomp.rest, hzrest]

end

/-! STEP_ORDER_SEND. -/

section
variable {s : State} (hf : s.dev.frozen = false) {g : Fin 4} (hlead : s.dev.leadsRunning g = true) {o : StepOrder} (now : Nat)
  (ho : (s.dev.group g).order = some o) (hr : (s.dev.group g).retryAt = none)
include hf ho

include hlead hr in
theorem stepOrderSend_sends (hdue : (s.dev.group g).lastOrder + max 1000 (s.dev.getN (SRV_GROUP_MINPERIOD g)) * 1000 ≤ max s.dev.now now) :
    ∃ e : Dev, exec (.stepOrderSend g now) s = .next (s.put e) ∧
      e.out = s.dev.out ++ (s.dev.group g).memberList.map (fun p => .mgmt p "STEP_ORDER" (orderArgs o)) ∧ (e.group g).order = none ∧
      (e.group g).lastOrder = max s.dev.now now ∧
      e.getN (SRV_GROUP_STEP_NS g) = min 0xFFFFFFFF (max s.dev.now now - (s.dev.group g).lastOrder) ∧
      s.dev.keepsRegs e [SRV_GROUP_STEP_NS g] ∧ (∀ k, k ≠ g → e.group k = s.dev.group k) ∧ e.tiles = s.dev.tiles := by
  obtain ⟨x, hx⟩ : ∃ x, x = (s.dev.at_ now).setN (SRV_GROUP_STEP_NS g) (min 0xFFFFFFFF (max s.dev.now now - (s.dev.group g).lastOrder)) :=
    ⟨_, rfl⟩
  have hxgroup : ∀ k, x.group k = s.dev.group k := fun k => by rw [hx, group_congr (srv_setN _ _ _), group_at_]
  have hmembers : ((x.onGroup g fun y => { y with order := none, lastOrder := max s.dev.now now }).group g).memberList =
      (s.dev.group g).memberList := by
    rw [group_onGroup_self, ← hxgroup]
    rfl
  refine ⟨(x.onGroup g fun y => { y with order := none, lastOrder := max s.dev.now now }).broadcast (s.dev.group g).memberList "STEP_ORDER"
    (orderArgs o), ?_, ?_, ?_, ?_, ?_, fun p hp => ?_, fun k hk => ?_, ?_⟩
  · change execStepOrderSend g now s = _
    refine onRun_eq hf ?_
    simp only [group_at_, ho]
    rw [if_pos ⟨by rw [leadsRunning_at_]; exact hlead, by rw [hr]; rfl, by rw [getN_at_, now_at_]; exact hdue⟩, ← hmembers, hx]
    simp only [now_setN, now_at_]
  · rw [out_broadcast, out_onGroup, hx, out_setN, out_at_]
  · rw [Dev.broadcast, group_emits, group_onGroup_self]
  · rw [Dev.broadcast, group_emits, group_onGroup_self]
  · refine (getN_congr (getR_emits _ _ _)).trans ?_
    rw [getN_congr (getR_onGroup _ _ _ _), hx, getN_setN, if_pos rfl]
    exact Nat.mod_eq_of_lt (by omega)
  · rw [Dev.broadcast, getR_emits, getR_onGroup, hx]
    exact (getR_setN _ _ _ _).trans ((if_neg (mt List.mem_singleton.mpr hp)).trans (getR_at_ _ _ _))
  · rw [Dev.broadcast, group_emits, group_onGroup_ne _ _ hk, hxgroup]
  · rw [Dev.broadcast, tiles_emits, tiles_onGroup, hx, tiles_setN, tiles_at_]

theorem exec_stepOrderSend_early
    (hearly : max s.dev.now now < (s.dev.group g).lastOrder + max 1000 (s.dev.getN (SRV_GROUP_MINPERIOD g)) * 1000) :
    exec (.stepOrderSend g now) s = .next (s.put (s.dev.at_ now)) := by
  change execStepOrderSend g now s = _
  refine onRun_eq hf ?_
  simp only [group_at_, ho]
  exact if_neg fun h => by
    obtain ⟨-, -, hdue⟩ := h
    rw [getN_at_, now_at_] at hdue
    omega

end

/-- Settles O57: the retry that comes too early, the boundary with nothing to compose, with a submission admitted, with one refused, and the
order sent. -/
theorem retriedBoundary : Obligations.RetriedBoundary := by
  unfold Obligations.RetriedBoundary
  refine fun s g e0 u now noRoom notReady prompt hf hlead => ⟨fun hretry hstop hmbx hrwb hdue hseqs => ?_, fun o ho hr => ⟨?_, ?_⟩⟩
  · have hidle : (s.dev.at_ now).idleAt g :=
      ⟨by rw [group_at_]; exact hstop, by rw [mbx_at_]; exact hmbx, hrwb, by rw [srv_at_]; exact hdue, by rw [srv_at_]; exact hseqs⟩
    have hrun : (s.dev.at_ now).gstate g = 2 := (gstate_at_ _ _ _).trans (gstate_of_leadsRunning hlead)
    refine ⟨exec_boundaryRetry_early hf noRoom notReady prompt now hretry, fun ht hadm => ?_, fun ht hadm hgroup hcancel hsq hcust =>
      ⟨fun htest => ?_, fun st det htest hroom => ?_⟩⟩
    · obtain ⟨e, o, he, hshown⟩ := leadBoundary_nothing hidle hadm noRoom notReady prompt
      exact ⟨e, o, by rw [exec_boundaryRetry hf noRoom notReady prompt now hretry hlead ht, he], hshown⟩
    · obtain ⟨e, x, he, hshown⟩ := leadBoundary_admits hidle hadm hgroup hrun hcancel hsq hcust notReady prompt htest
      exact ⟨e, x, by rw [exec_boundaryRetry hf noRoom notReady prompt now hretry hlead ht, he], hshown⟩
    · obtain ⟨e, k, he, hshown⟩ := leadBoundary_refuses hidle hadm hgroup hrun hcancel hsq hcust notReady prompt htest hroom
      exact ⟨e, k, by rw [exec_boundaryRetry hf noRoom notReady prompt now hretry hlead ht, he], hshown⟩
  · exact stepOrderSend_sends hf hlead now ho hr
  · exact exec_stepOrderSend_early hf now ho

end Sys2Proof.Machine
end

section
/-! The boundary that delivers the token of a group's one sequence (R302, R308, R314, R316), and the statement on it. -/

namespace Sys2Proof.Machine

open Reg

/-! Customers (R321). -/

theorem mem_of_mem_smDel {α : Type} {k : Nat} {m : SMap α} {e : Nat × α} (h : e ∈ smDel k m) : e ∈ m := by
  induction m with
  | nil => exact h
  | cons x t ih =>
    rw [smDel] at h
    split at h
    · exact List.mem_cons_of_mem _ (ih h)
    · obtain rfl | h := List.mem_cons.mp h
      · exact List.mem_cons_self ..
      · exact List.mem_cons_of_mem _ (ih h)

theorem mem_smIns {α : Type} {k : Nat} {v : α} {m : SMap α} {e : Nat × α} (h : e ∈ smIns k v m) : e = (k, v) ∨ e ∈ m := by
  induction m with
  | nil => exact .inl (List.mem_singleton.mp h)
  | cons x t ih =>
    rw [smIns] at h
    split at h
    · exact List.mem_cons.mp h
    · obtain rfl | h := List.mem_cons.mp h
      · exact .inr (List.mem_cons_self ..)
      · exact (ih h).imp_right (List.mem_cons_of_mem _)

/-- An entry of a map after a write is the entry written or one from before. -/
theorem mem_smPut {α : Type} [DecidableEq α] {f : Nat → α} {m : SMap α} {k : Nat} {v : α} {e : Nat × α} (h : e ∈ smPut f m k v) :
    e = (k, v) ∨ e ∈ m := by
  unfold smPut at h
  split at h
  · exact .inr (mem_of_mem_smDel h)
  · exact (mem_smIns h).imp_right mem_of_mem_smDel

/-- A register outside the budget records makes no customer. -/
theorem customers_setN {d : Dev} (h : d.customers = []) {o : Nat} (v : Nat) (ho : o < 0x240000 ∨ 0x280000 ≤ o) : (d.setN o v).customers = [] := by
  rw [Dev.customers, List.filterMap_eq_nil_iff] at h ⊢
  intro e he
  obtain rfl | he := mem_smPut he
  · exact if_neg fun hc => by
      obtain ⟨hlo, hhi, -⟩ := hc
      dsimp only at hlo hhi
      omega
  · exact h e he

/-! The step counted at its boundary. -/

/-- The group has run a step more, and its slot was last used at this boundary. -/
def Dev.stepCounted (d : Dev) (g : Fin 4) : Dev :=
  (d.onGroup g fun x => { x with gf := x.gf + 1 }).setPair (WTR_SLOT_USE_LO (d.gcfg g).slot) (WTR_SLOT_USE_HI (d.gcfg g).slot) d.now

theorem stepCounted_rest (d : Dev) (g : Fin 4) : d.stepCounted g = { d with
    regs := (d.stepCounted g).regs
    srv := { d.srv with groups := d.srv.groups.set g { d.group g with gf := (d.group g).gf + 1 } } } := by
  have honly := regsOnly_setPair (d.onGroup g fun x => { x with gf := x.gf + 1 }) (WTR_SLOT_USE_LO (d.gcfg g).slot)
    (WTR_SLOT_USE_HI (d.gcfg g).slot) d.now
  exact honly

theorem getR_stepCounted (d : Dev) (g : Fin 4) {p : Nat} (hp : p < 0x700000) : (d.stepCounted g).getR p = d.getR p :=
  (getR_setPair_ne _ _ (by simp only [WTR_SLOT_USE_LO]; omega) (by simp only [WTR_SLOT_USE_HI]; omega)).trans (getR_onGroup d g _ p)

theorem customers_stepCounted {d : Dev} (h : d.customers = []) (g : Fin 4) : (d.stepCounted g).customers = [] :=
  customers_setN (customers_setN (d := d.onGroup g fun x => { x with gf := x.gf + 1 }) h _
    (.inr (by simp only [WTR_SLOT_USE_LO]; omega))) _ (.inr (by simp only [WTR_SLOT_USE_HI]; omega))

theorem exhausted_congr {d e : Dev} (h : ∀ p, 0x240000 ≤ p → p < 0x280000 → e.getR p = d.getR p) {c : Nat} (hc : c < 4096) :
    e.exhausted c = d.exhausted c := by
  have hcust : ∀ o < 64, e.getR (custAt c + o) = d.getR (custAt c + o) := fun o ho => by
    unfold custAt
    exact h _ (by omega) (by omega)
  rw [Dev.exhausted, Dev.exhausted, Dev.custEn, Dev.custEn, Dev.balance, Dev.balance, regBit_congr (hcust 0x24 (by decide)),
    getPair_congr (lo := custAt c) (hcust 0 (by decide)) (hcust 4 (by decide))]

/-! The sequence at the boundary. -/

/-- A sequence with the token of the accepted step delivered (R308); `fb` marks the fallback pass. -/
def SeqEnt.delivered (q : SeqEnt) (tok tb : Nat) (fb : Bool) : SeqEnt :=
  { q with mark := q.mark || fb, deferred := false, age := 0, run := none, fresh := false, tokens := q.tokens + 1, last := tok
           lastAt := tb, state := 3 }

/-- The status of a sequence that its token ends (R316): LENGTH_LIMIT, or its stop token. -/
def SeqEnt.tokenStatus (q : SeqEnt) (tok : Nat) : Option Nat :=
  if q.pos = q.sub.maxLen then some 4 else if tok = q.sub.stopTok ∧ tok ≠ 0xFFFFFFFF then some (if q.mark then 8 else 0) else none

/-- Its table entry after the boundary. -/
def SeqEnt.placed (q : SeqEnt) (tok : Nat) : SeqEnt := if (q.tokenStatus tok).isSome then { q with state := 4, hold := 0 } else q

/-- A token's record meets a sequence with no outcome of rank 1 to 8. -/
theorem outcome_of_token {q : SeqEnt} (hcancel : q.cancel = none) (i tok tb : Nat) : q.outcome none [(1, i, tok)] tb = none := by
  simp [SeqEnt.outcome, hcancel]

theorem bound_of_token {q : SeqEnt} {r : SeatRun} (hrun : q.run = some r) (hcancel : q.cancel = none) (hdec : r.prefill = false)
    (tok tb : Nat) (fb : Bool) : q.bound none [(1, q.idx, tok)] tb fb = ⟨q.delivered tok tb fb, none, some tok, true, true, 0⟩ := by
  have htok : tokenOf [(1, q.idx, tok)] q.idx = some tok := by simp [tokenOf]
  have hout : ∀ b, ({ q with mark := b } : SeqEnt).outcome none [(1, q.idx, tok)] tb = none := fun b => outcome_of_token hcancel _ _ _
  unfold SeqEnt.bound
  dsimp only
  rw [hout]
  dsimp only
  rw [htok]
  simp [SeqEnt.advance, SeqEnt.delivered, hrun, hdec]

theorem lateEnd_of_token (d : Dev) {q : SeqEnt} {tok : Nat} (hdl : q.sub.deadline = 0) (hex : d.exhausted q.sub.cust = false) (tb : Nat) :
    d.lateEnd ⟨q, none, some tok, true, true, 0⟩ tb false = ⟨q, q.tokenStatus tok, some tok, true, true, 0⟩ := by
  simp only [Dev.lateEnd, hdl, hex, SeqEnt.tokenStatus]
  simp only [Option.isSome_none, Bool.false_eq_true, or_self, if_false, ne_eq, not_true_eq_false, false_and]
  split_ifs <;> rfl

/-- The completion of the token. -/
structure Comp.ofToken (c : Comp) (q : SeqEnt) (tok tb : Nat) : Prop where
  cq : c.cq = q.cq.val
  req : c.req = q.sub.req
  tokenValid : c.tokenValid = true
  token : c.token = tok
  pos : c.pos = q.pos
  time : c.time = tb
  final : c.final = (q.tokenStatus tok).isSome
  status : ∀ st, q.tokenStatus tok = some st → c.status = st ∧ c.seq = q.idx
  goesOn : q.tokenStatus tok = none → c.seq = 16384

theorem comp_of_token (q : SeqEnt) (tok tb step : Nat) :
    ∃ c : Comp, (SeqBnd.comp ⟨q, q.tokenStatus tok, some tok, true, true, 0⟩ tb step) = some c ∧ c.ofToken q tok tb := by
  refine ⟨_, if_neg (by simp), ⟨rfl, rfl, rfl, rfl, rfl, rfl, rfl, fun st hst => ?_, fun hnone => ?_⟩⟩
  · simp [hst]
  · simp [hnone]

/-! The boundary's ends. -/

theorem groupSeqs_one {d : Dev} {g : Fin 4} {q : SeqEnt} (h : d.srv.seqs = [q]) (hg : q.group = g) (hs : q.state ≠ 4) : d.groupSeqs g = [q] := by
  rw [Dev.groupSeqs, h, List.filter_cons_of_pos (by simp [hg, hs])]
  simp

theorem postBnd_reserved {d : Dev} {c : Comp} {q : Fin 64} (hc : c.cq = q.val) (hdue : d.srv.due = []) (hfree : d.cqFree q = true) :
    d.postBnd [(c, true)] = (d.post c, [c.cq]) := by
  have hq : Fin.ofNat 64 c.cq = q := by rw [hc]; exact Fin.ofNat_val_eq_self q
  obtain ⟨hpost, -⟩ := post_effect d hc
  have hdue' : (d.post c).srv.due = [] := by rw [hpost]; exact hdue
  simp only [Dev.postBnd, List.filter_cons, List.filter_nil, if_true, List.foldl_cons, List.foldl_nil, hq, hfree, Bool.not_true,
    Bool.false_eq_true, if_false, flushDue_none hdue', List.append_nil]

section
variable {d : Dev} {g : Fin 4} {q : SeqEnt} {r : SeatRun} {rp : StepRep} {tok : Nat} (hrwb : d.rwb = []) (hseqs : d.srv.seqs = [q])
  (hgroup : q.group = g) (hstate : q.state = 3) (hrun : q.run = some r) (hdec : r.prefill = false) (hcancel : q.cancel = none)
  (hdl : q.sub.deadline = 0) (hcust : d.customers = []) (hex : d.exhausted q.sub.cust = false) (hrecs : rp.recs = [(1, q.idx, tok)])
  (hdue : d.srv.due = []) (hfree : d.cqFree q.cq = true)
include hrwb hseqs hgroup hstate hrun hdec hcancel hdl hcust hex hrecs hdue hfree

/-- The token's completion is posted, and the sequence keeps its place or ends. -/
theorem boundaryEnds_token : ∃ (fb : Bool) (c : Comp), c.ofToken (q.delivered tok d.now fb) tok d.now ∧
    d.boundaryEnds g (some [rp]) none =
      ⟨((d.stepCounted g).onSeqEnt q.idx fun _ => (q.delivered tok d.now fb).placed tok).post c, [c.cq],
        if ((q.delivered tok d.now fb).tokenStatus tok).isSome then [q.idx] else [], []⟩ := by
  obtain ⟨fb, hfb⟩ : ∃ fb, fb = ((d.group g).pass == 2) := ⟨_, rfl⟩
  obtain ⟨x, hx⟩ : ∃ x, x = d.stepCounted g := ⟨_, rfl⟩
  have hxseqs : x.srv.seqs = [q] := by rw [hx, stepCounted_rest]; exact hseqs
  have hxex : x.exhausted q.sub.cust = false := by
    rw [hx, exhausted_congr (fun p _ hp => getR_stepCounted d g (by omega)) (cust_lt q.sub), hex]
  have hxcust : x.customers = [] := by rw [hx, customers_stepCounted hcust]
  obtain ⟨z, hz⟩ : ∃ z, z = x.onSeqEnt q.idx fun _ => (q.delivered tok d.now fb).placed tok := ⟨_, rfl⟩
  obtain ⟨c, hcomp, hc⟩ := comp_of_token (q.delivered tok d.now fb) tok d.now (z.gstep g)
  refine ⟨fb, c, hc, ?_⟩
  have hzfree : z.cqFree q.cq = true := by
    refine (sameQueue_of_regs q.cq (fun p _ hp _ _ => ?_) ?_ ?_).cqFree.trans hfree
    · rw [hz, hx]
      exact getR_stepCounted d g (by omega)
    · rw [hz, hx, stepCounted_rest]
      rfl
    · rw [hz, hx, stepCounted_rest]
      rfl
  have hposted : z.postBnd [(c, true)] = (z.post c, [c.cq]) :=
    postBnd_reserved (q := q.cq) hc.cq (by rw [hz, hx, stepCounted_rest]; exact hdue) hzfree
  rw [← hx, ← hz]
  have hout : q.outcome none [(1, q.idx, tok)] d.now = none := outcome_of_token hcancel _ _ _
  have hbound := bound_of_token hrun hcancel hdec tok d.now fb
  have hlate : x.lateEnd ⟨q.delivered tok d.now fb, none, some tok, true, true, 0⟩ d.now false =
    ⟨q.delivered tok d.now fb, (q.delivered tok d.now fb).tokenStatus tok, some tok, true, true, 0⟩ :=
    lateEnd_of_token x (q := q.delivered tok d.now fb) hdl hxex d.now
  have hplaced : (x.onSeqEnt (q.delivered tok d.now fb).idx fun _ => if ((q.delivered tok d.now fb).tokenStatus tok).isSome then
    { q.delivered tok d.now fb with state := 4, hold := 0 } else q.delivered tok d.now fb) = z := hz.symm
  dsimp only at hplaced
  have hsame : (d.onGroup g fun x => { x with gf := x.gf + 1 }).setPair (WTR_SLOT_USE_LO (d.gcfg g).slot) (WTR_SLOT_USE_HI (d.gcfg g).slot)
    d.now = x := hx.symm
  simp only [Dev.boundaryEnds, applySrv_none hrwb, Option.isSome_some, if_true, Bool.true_and, ← hfb]
  simp only [hsame]
  simp only [Option.getD_some, List.flatMap_cons, List.flatMap_nil, List.append_nil, hrecs, groupSeqs_one hxseqs hgroup (by omega),
    List.map_cons, List.map_nil, hout, hbound, List.filter_cons, List.filter_nil, Option.any_none, Bool.false_eq_true, if_false,
    hxcust, List.foldl_nil, List.foldl_cons, List.contains_nil, hlate, hplaced, List.filterMap_cons, List.filterMap_nil]
  simp only [hcomp, Option.map_some, hposted]
  split_ifs <;> rfl

/-- The whole boundary: what it leaves of the sequence, and the order composed. -/
theorem leadBoundary_token (hadm : d.srv.adm = []) (hstop : (d.group g).stop = none) (hmbx : d.mbx.run = none) (hidx : q.idx < 16384)
    (noRoom notReady prompt : List Nat) :
    ∃ (e : Dev) (fb : Bool) (c : Comp) (o : StepOrder), d.leadBoundary g (some [rp]) false noRoom notReady prompt = e ∧
      c.ofToken (q.delivered tok d.now fb) tok d.now ∧ e.out = d.out ++ [d.compWrite c d.now] ∧ e.isPending (64 + q.cq) = true ∧
      (e.group g).report = (d.group g).report ∧ (e.group g).order = some o ∧ o.step = d.gstep g + 1 ∧ o.epoch = d.groupEpoch g ∧
      ((q.delivered tok d.now fb).tokenStatus tok = none → ∃ x : SeqEnt, e.srv.seqs = [x] ∧ x.core = (q.delivered tok d.now fb).core) ∧
      (((q.delivered tok d.now fb).tokenStatus tok).isSome = true → e.srv.seqs = [] ∧ plainEnt 2 q.idx ∈ o.entries) ∧ e.tiles = d.tiles := by
  obtain ⟨fb, c, hc, hends⟩ := boundaryEnds_token hrwb hseqs hgroup hstate hrun hdec hcancel hdl hcust hex hrecs hdue hfree
  obtain ⟨y, hy⟩ : ∃ y, y = (d.stepCounted g).onSeqEnt q.idx fun _ => (q.delivered tok d.now fb).placed tok := ⟨_, rfl⟩
  have hyrest : y = { d with
      regs := y.regs
      srv := { d.srv with
        seqs := [(q.delivered tok d.now fb).placed tok], groups := d.srv.groups.set g { d.group g with gf := (d.group g).gf + 1 } } } := by
    rw [hy, stepCounted_rest]
    simp [Dev.onSeqEnt, Dev.onSrv, hseqs]
  have hyregs : ∀ p, p < 0x700000 → y.getR p = d.getR p := fun p hp => by
    rw [hy]
    exact getR_stepCounted d g hp
  have hqueue : d.sameQueue q.cq y := sameQueue_of_regs q.cq (fun p _ hp _ _ => hyregs p (by omega)) (by rw [hyrest]) (by rw [hyrest])
  obtain ⟨hpost, hpregs, -⟩ := post_effect (q := q.cq) y hc.cq
  have hregs : ∀ p, 0x200100 ≤ p → p < 0x200200 → (y.post c).getR p = d.getR p := fun p h1 h2 =>
    (hpregs p (by simp only [postRegs, SRV_CQ_TAIL, SRV_TOKENS_LO, SRV_TOKENS_HI]; omega)).trans (hyregs p (by omega))
  have hadmission : (y.post c).admission g noRoom = (y.post c, []) :=
    admission_none (by rw [hpost, hyrest]; exact hadm) (by rw [hpost, hyrest]; exact hdue) g noRoom
  have hgroup' : (y.post c).group g = { d.group g with gf := (d.group g).gf + 1 } := by
    rw [hpost, hyrest]
    simp [Dev.group, Serve.without]
  have hcseqs : (y.post c).srv.seqs = [(q.delivered tok d.now fb).placed tok].filter fun z => z.idx != c.seq := by
    rw [hpost, hyrest]
    rfl
  have htoken : ∀ r ∈ (some [rp]).getD [], ∀ x ∈ r.recs, x.1 ≠ 12 := by
    intro r hr x hx
    rw [Option.getD_some, List.mem_singleton] at hr
    rw [hr, hrecs, List.mem_singleton] at hx
    rw [hx]
    exact (by decide : (1 : Nat) ≠ 12)
  rw [leadBoundary_composes hstop hmbx htoken, hends, ← hy]
  dsimp only
  rw [hadmission]
  dsimp only
  generalize hended : ite (((q.delivered tok d.now fb).tokenStatus tok).isSome = true) [q.idx] [] = ended
  obtain ⟨o, run, hcomp⟩ := compose_effect (y.post c) g (some [rp]) ended [] notReady prompt ([c.cq] ++ [])
  obtain ⟨-, -, hraised⟩ := raiseCqs_effect ((y.post c).compose g (some [rp]) ended [] notReady prompt) ([c.cq] ++ [])
  refine ⟨_, fb, c, o, rfl, hc, ?_, hraised _ q.cq.isLt (by simp [hc.cq, SeqEnt.cq, SeqEnt.delivered]), ?_, ?_, ?_, ?_, fun hnone => ?_,
    fun hsome => ⟨?_, ?_⟩, ?_⟩
  · have hnow : y.now = d.now := by rw [hyrest]
    have hout : y.out = d.out := by rw [hyrest]
    rw [hcomp.rest, hpost, hout, hnow, hqueue.compWrite hc.cq]
  · rw [hcomp.group, hgroup']
  · rw [hcomp.group]
  · rw [hcomp.step, gstep_congr (hregs _ (by simp only [SRV_GROUP_STEP_LO]; omega) (by simp only [SRV_GROUP_STEP_LO]; omega))
      (hregs _ (by simp only [SRV_GROUP_STEP_HI]; omega) (by simp only [SRV_GROUP_STEP_HI]; omega))]
  · rw [hcomp.epoch]
    exact getF_congr (hregs _ (by simp only [SRV_GROUP_STATE]; omega) (by simp only [SRV_GROUP_STATE]; omega))
  · have hplaced : (q.delivered tok d.now fb).placed tok = q.delivered tok d.now fb := if_neg (by simp [hnone])
    refine hcomp.one (hcseqs.trans ?_)
    rw [hplaced, hc.goesOn hnone]
    exact List.filter_cons_of_pos (by simp [SeqEnt.delivered]; omega)
  · obtain ⟨st, hst⟩ := Option.isSome_iff_exists.mp hsome
    obtain ⟨-, hseq⟩ := hc.status st hst
    have hplaced : ((q.delivered tok d.now fb).placed tok).idx = (q.delivered tok d.now fb).idx := by
      rw [SeqEnt.placed, if_pos hsome]
    refine hcomp.none (hcseqs.trans ?_)
    exact List.filter_cons_of_neg (by simp [hplaced, hseq])
  · rw [hcomp.entries, ← hended, if_pos hsome]
    simp
  · rw [hcomp.rest, hpost, hyrest]

end

/-! STEP_BOUNDARY. -/

theorem exec_stepBoundary_alone {s : State} (hf : s.dev.frozen = false) {g : Fin 4} {rp : StepRep} (hlead : s.dev.leadsRunning g = true)
    (halone : s.dev.followers g = []) (hrep : (s.dev.group g).report = some rp) (noRoom notReady prompt : List Nat) (now : Nat) :
    exec (.stepBoundary g [] false noRoom notReady prompt now) s = .next (s.put (((s.dev.at_ now).onGroup g fun x =>
      { x with report := none }).leadBoundary g (some [rp]) false noRoom notReady prompt)) := by
  change execStepBoundary g [] false noRoom notReady prompt now s = _
  refine onRun_eq hf ?_
  simp only [group_at_, hrep]
  rw [if_pos ⟨by rw [leadsRunning_at_]; exact hlead, by rw [followers_at_, halone]; rfl⟩]

/-- Settles O56: the boundary as its parts, and the status of the sequence at its new position. -/
theorem tokenDelivered : Obligations.TokenDelivered := by
  unfold Obligations.TokenDelivered
  intro s g q rp tok now noRoom notReady prompt hf hlead halone hrep hstop hmbx hrwb hadm hdue hseqs hgroup hstate hrun hcancel hdl hidx
    hcust hex hrecs hfree
  obtain ⟨r, hrun, hdec⟩ := hrun
  obtain ⟨d, hd⟩ : ∃ d, d = (s.dev.at_ now).onGroup g fun x => { x with report := none } := ⟨_, rfl⟩
  have hdsrv : d.srv = { s.dev.srv with groups := s.dev.srv.groups.set g { s.dev.group g with report := none } } := by rw [hd]; rfl
  have hdgroup : d.group g = { s.dev.group g with report := none } := by rw [hd, group_onGroup_self, group_at_]
  have hdnow : d.now = max s.dev.now now := by rw [hd]; rfl
  obtain ⟨e, fb, c, o, he, hc, hout, hraised, hreport, horder, hstep, hepoch, hgoes, hends, htiles⟩ := leadBoundary_token (d := d) (g := g)
    (by rw [hd]; exact hrwb) (by rw [hdsrv]; exact hseqs) hgroup hstate hrun hdec hcancel hdl (by rw [hd]; exact hcust) (by rw [hd]; exact hex)
    hrecs (by rw [hdsrv]; exact hdue) (by rw [hd]; exact hfree) (by rw [hdsrv]; exact hadm) (by rw [hdgroup]; exact hstop)
    (by rw [hd]; exact hmbx) hidx noRoom notReady prompt
  have hpos : (q.delivered tok d.now fb).pos = q.pos + 1 := by simp only [SeqEnt.pos, SeqEnt.delivered]; omega
  refine ⟨e, c, o, ?_, ?_, hc.cq, hc.req, hc.tokenValid, hc.token, hc.pos.trans hpos, hc.time.trans hdnow, hraised, ?_, horder, ?_, ?_,
    fun hlen hstopTok => ?_, fun hlen => ?_, ?_⟩
  · rw [exec_stepBoundary_alone hf hlead halone hrep, ← hd, he]
  · rw [hout, hdnow, hd]
    rfl
  · rw [hreport, hdgroup]
  · rw [hstep, hd]
    rfl
  · rw [hepoch, hd]
    rfl
  · have hnone : (q.delivered tok d.now fb).tokenStatus tok = none := by
      rw [SeqEnt.tokenStatus, hpos]
      exact (if_neg hlen).trans (if_neg fun h => hstopTok h.1)
    obtain ⟨x, hx, hcore⟩ := hgoes hnone
    exact ⟨by rw [hc.final, hnone]; rfl, x, hx, (congrArg SeqEnt.idx hcore :), (congrArg SeqEnt.sub hcore :), (congrArg SeqEnt.state hcore :),
      (congrArg SeqEnt.tokens hcore :), (congrArg SeqEnt.prompt hcore :), (congrArg SeqEnt.last hcore :),
      (congrArg SeqEnt.lastAt hcore).trans hdnow⟩
  · have hlimit : (q.delivered tok d.now fb).tokenStatus tok = some 4 := by
      rw [SeqEnt.tokenStatus, hpos]
      exact if_pos hlen
    obtain ⟨hgone, hentry⟩ := hends (by rw [hlimit]; rfl)
    exact ⟨by rw [hc.final, hlimit]; rfl, (hc.status 4 hlimit).1, hgone, hentry⟩
  · rw [htiles, hd]
    rfl

end Sys2Proof.Machine
end

section
/-! What ends a group's hold on its tiles and on its slot: the pages that leave a tile (R255), the state that a stopped group leaves its tiles in
(R299, R320), the slot that is unbound (R220), and the mailbox command that ends with it. -/

namespace Sys2Proof.Machine

open Reg

/-! Pages of sequences that leave a tile. -/

/-- Nothing of the other tiles and none of their registers differs. -/
def Dev.besideTile (n : Fin 32) (d e : Dev) : Prop :=
  (∀ m, m ≠ n → e.tile m = d.tile m) ∧ ∀ p, ¬ tileRange n p → e.getR p = d.getR p

theorem Dev.besideTile.refl (n : Fin 32) (d : Dev) : d.besideTile n d := ⟨fun _ _ => rfl, fun _ _ => rfl⟩

theorem Dev.besideTile.trans {n : Fin 32} {d e x : Dev} (h : d.besideTile n e) (g : e.besideTile n x) : d.besideTile n x := by
  obtain ⟨ht, hr⟩ := h
  obtain ⟨ht', hr'⟩ := g
  exact ⟨fun m hm => (ht' m hm).trans (ht m hm), fun p hp => (hr' p hp).trans (hr p hp)⟩

theorem Dev.besideTile.foldl {α : Type} {n : Fin 32} {f : Dev → α → Dev} (hstep : ∀ (d : Dev) (a : α), d.besideTile n (f d a)) (l : List α)
    (d : Dev) : d.besideTile n (l.foldl f d) := by
  induction l generalizing d with
  | nil => exact .refl n d
  | cons a t ih => exact (hstep d a).trans (ih (f d a))

theorem besideTile_setN {n : Fin 32} (d : Dev) {o : Nat} (v : Nat) (h : tileRange n o) : d.besideTile n (d.setN o v) :=
  ⟨fun m _ => tile_congr (tiles_setN d o v) m, fun p hp => (getR_setN d o p v).trans (if_neg fun he => hp (by rw [he]; exact h))⟩

theorem besideTile_setF {n : Fin 32} (d : Dev) {f : Fld} (v : Nat) (h : tileRange n f.off) : d.besideTile n (d.setF f v) :=
  ⟨fun m _ => tile_congr (tiles_setF d f v) m, fun _ hp => getR_setF_ne d v fun he => hp (he ▸ h)⟩

theorem besideTile_onTile (n : Fin 32) (d : Dev) (f : Tile → Tile) : d.besideTile n (d.onTile n f) :=
  ⟨fun _ hm => tile_onTile_ne d f hm, fun p _ => getR_onTile d n f p⟩

theorem releaseWords_effect (d : Dev) (l : List PageEnt) : (l.foldl (fun d p => d.releaseWord p.w0) d).tiles = d.tiles ∧
    ∀ p, (l.foldl (fun d p => d.releaseWord p.w0) d).getR p = d.getR p := by
  have htiles : ∀ (x : Dev) (p : PageEnt), (x.releaseWord p.w0).tiles = x.tiles := fun x p => by
    unfold Dev.releaseWord
    split
    · exact tiles_emit x _
    · rfl
  have hregs : ∀ (x : Dev) (p : PageEnt) o, (x.releaseWord p.w0).getR o = x.getR o := fun x p o => by
    unfold Dev.releaseWord
    split
    · exact getR_emit x _ o
    · rfl
  exact ⟨foldl_view_same Dev.tiles _ _ (fun x p _ => htiles x p) d, fun o => foldl_view_same (fun x : Dev => x.getR o) _ _ (fun x p _ => hregs x p o) d⟩

/-- A sequence leaves a tile: its pages and its bins go, those of the others stay. -/
theorem tileFreeSeq_effect (d : Dev) (n : Fin 32) (q : Nat) : d.besideTile n (d.tileFreeSeq n q) ∧
    ((d.tileFreeSeq n q).tile n).pages = (d.tile n).pages.filter (fun p => p.seq != q) ∧
    ((d.tileFreeSeq n q).tile n).binTab = (d.tile n).binTab.filter fun b => b.seq != q := by
  obtain ⟨x, hx⟩ : ∃ x, x = ((d.tile n).pages.filter fun p => p.seq == q).foldl (fun d p => d.releaseWord p.w0) d := ⟨_, rfl⟩
  obtain ⟨htiles, hregs⟩ := releaseWords_effect d ((d.tile n).pages.filter fun p => p.seq == q)
  rw [← hx] at htiles hregs
  unfold Dev.tileFreeSeq
  rw [← hx]
  dsimp only
  obtain ⟨y, hy⟩ : ∃ y, y = x.onTile n fun t => { t with
    pages := t.pages.filter fun p => p.seq != q
    binTab := t.binTab.filter fun b => b.seq != q
    tiers := t.tiers.map fun j => if j.key.any fun k => k.1 == q then { j with stopped := true } else j } := ⟨_, rfl⟩
  rw [← hy]
  have htile : ∀ (v : Nat), ((y.kvCounts n).setF (HMP_STATUS_BINS_OPEN n) v).tile n = y.tile n := fun v =>
    tile_congr (by rw [tiles_setF, Dev.kvCounts, tiles_setN, tiles_setN]) n
  have hxy : y.tile n = _ := hy ▸ tile_onTile_self x n _
  refine ⟨?_, ?_, ?_⟩
  · refine Dev.besideTile.trans ⟨fun m _ => tile_congr htiles m, fun p _ => hregs p⟩ ?_
    refine Dev.besideTile.trans (hy ▸ besideTile_onTile n x _) ?_
    refine Dev.besideTile.trans (besideTile_setN y _ ?_) (Dev.besideTile.trans (besideTile_setN _ _ ?_) (besideTile_setF _ _ ?_))
    · simp only [tileRange, MEM_KV_OCCUPIED]; omega
    · simp only [tileRange, MEM_KV_SPILLED]; omega
    · simp only [tileRange, HMP_STATUS]; omega
  · rw [htile, hxy, tile_congr htiles]
  · rw [htile, hxy, tile_congr htiles]

theorem tileFreeSeqs_effect (d : Dev) (n : Fin 32) (l : List Nat) : d.besideTile n (l.foldl (fun d q => d.tileFreeSeq n q) d) ∧
    ((l.foldl (fun d q => d.tileFreeSeq n q) d).tile n).pages = (d.tile n).pages.filter (fun p => !l.contains p.seq) ∧
    ((l.foldl (fun d q => d.tileFreeSeq n q) d).tile n).binTab = (d.tile n).binTab.filter fun b => !l.contains b.seq := by
  refine ⟨Dev.besideTile.foldl (fun e q => (tileFreeSeq_effect e n q).1) l d, ?_⟩
  induction l generalizing d with
  | nil => simp
  | cons q t ih =>
    obtain ⟨-, hpages, hbins⟩ := tileFreeSeq_effect d n q
    obtain ⟨hpages', hbins'⟩ := ih (d.tileFreeSeq n q)
    rw [List.foldl_cons, hpages', hbins', hpages, hbins, List.filter_filter, List.filter_filter]
    constructor
    · exact List.filter_congr fun p _ => by rw [List.contains_cons, Bool.not_or, Bool.and_comm]; rfl
    · exact List.filter_congr fun p _ => by rw [List.contains_cons, Bool.not_or, Bool.and_comm]; rfl

/-! A group that leaves RUNNING or PAUSED. -/

/-- What a tile of the group still holds for its sequences: pages, bins, the reservation. -/
def Dev.heldAt (n : Fin 32) (d : Dev) : List PageEnt × List BinEnt × Nat := ((d.tile n).pages, (d.tile n).binTab, d.getN (MEM_KV_RESERVED n))

/-- How a tile of the group stands between passes: what it is released for, and its state. -/
def Dev.passAt (n : Fin 32) (d : Dev) : Option Release × Nat := ((d.seq n).released, d.getF (TCTL_PASS_STATUS_STATE n))

theorem tileRange_kvReserved (n : Fin 32) : tileRange n (MEM_KV_RESERVED n) := by
  simp only [tileRange, MEM_KV_RESERVED]
  omega

theorem tileRange_passStatus (n : Fin 32) : tileRange n (TCTL_PASS_STATUS n) := by
  simp only [tileRange, TCTL_PASS_STATUS]
  omega

theorem Dev.besideTile.heldAt {n m : Fin 32} {d e : Dev} (h : d.besideTile m e) (hne : m ≠ n) : e.heldAt n = d.heldAt n := by
  obtain ⟨ht, hr⟩ := h
  rw [Dev.heldAt, Dev.heldAt, ht n hne.symm, getN_congr (hr _ fun hm => hne (Fin.ext (tileRange_inj hm (tileRange_kvReserved n))))]

theorem Dev.besideTile.passAt {n m : Fin 32} {d e : Dev} (h : d.besideTile m e) (hne : m ≠ n) : e.passAt n = d.passAt n := by
  obtain ⟨ht, hr⟩ := h
  rw [Dev.passAt, Dev.passAt, Dev.seq, Dev.seq, ht n hne.symm, getF_congr (hr _ fun hm => hne (Fin.ext (tileRange_inj hm (tileRange_passStatus n))))]

/-- A tile of the group gives up all pages and bins. -/
def Dev.tileFreed (d : Dev) (n : Fin 32) : Dev :=
  (((((d.tile n).pages.map PageEnt.seq) ++ (d.tile n).binTab.map BinEnt.seq).foldl (fun d q => d.tileFreeSeq n q) d).setN
    (MEM_KV_RESERVED n) 0).setF (HMP_STATUS_BINS_RESERVED n) 0

theorem groupFree_eq (d : Dev) (g : Fin 4) : d.groupFree g = (d.groupTiles g).foldl Dev.tileFreed d := rfl

theorem tileFreed_effect (d : Dev) (n : Fin 32) : d.besideTile n (d.tileFreed n) ∧ (d.tileFreed n).heldAt n = ([], [], 0) := by
  obtain ⟨hbeside, hpages, hbins⟩ := tileFreeSeqs_effect d n ((d.tile n).pages.map PageEnt.seq ++ (d.tile n).binTab.map BinEnt.seq)
  have htile : (d.tileFreed n).tile n = _ := tile_congr ((tiles_setF _ _ _).trans (tiles_setN _ _ _)) n
  refine ⟨(hbeside.trans (besideTile_setN _ _ (tileRange_kvReserved n))).trans (besideTile_setF _ _ ?_), ?_⟩
  · simp only [tileRange, HMP_STATUS]
    omega
  · rw [Dev.heldAt, htile, hpages, hbins]
    refine Prod.ext (List.filter_eq_nil_iff.mpr fun p hp => ?_) (Prod.ext (List.filter_eq_nil_iff.mpr fun b hb => ?_) ?_)
    · simp only [List.contains_iff_mem, Bool.not_eq_true', Bool.not_eq_false, List.mem_append]
      exact .inl (List.mem_map_of_mem hp)
    · simp only [List.contains_iff_mem, Bool.not_eq_true', Bool.not_eq_false, List.mem_append]
      exact .inr (List.mem_map_of_mem hb)
    · rw [Dev.tileFreed, getN_congr (getR_setF_ne _ _ (by simp only [MEM_KV_RESERVED, HMP_STATUS]; omega)), getN_setN, if_pos rfl, Nat.zero_mod]

/-- A tile of the group stops, or holds as HALTED. -/
def Dev.tileLeft (v : Nat) (d : Dev) (n : Fin 32) : Dev := (d.setF (TCTL_PASS_STATUS_STATE n) v).onSeq n fun q => { q with released := none }

theorem tileLeft_effect {v : Nat} (hv : v < 4) (d : Dev) (n : Fin 32) : d.besideTile n (d.tileLeft v n) ∧ (d.tileLeft v n).passAt n = (none, v) ∧
    (∀ m, (d.tileLeft v n).heldAt m = d.heldAt m) := by
  have hbeside : d.besideTile n (d.tileLeft v n) := (besideTile_setF d v (tileRange_passStatus n)).trans (besideTile_onTile n _ _)
  have hself : (d.tileLeft v n).tile n = _ := tile_onTile_self (d.setF (TCTL_PASS_STATUS_STATE n) v) n _
  refine ⟨hbeside, ?_, fun m => ?_⟩
  · rw [Dev.passAt, Dev.seq, hself]
    refine Prod.ext rfl ((getF_congr (getR_onTile _ n _ _)).trans ((getF_setF_self _ _ _ (by simp)).trans ?_))
    exact Nat.mod_eq_of_lt (by simpa using hv)
  · by_cases hm : n = m
    · subst hm
      have hreg : (d.tileLeft v n).getN (MEM_KV_RESERVED n) = d.getN (MEM_KV_RESERVED n) :=
        getN_congr ((getR_onTile _ n _ _).trans (getR_setF_ne d v (by simp only [MEM_KV_RESERVED, TCTL_PASS_STATUS]; omega)))
      rw [Dev.heldAt, Dev.heldAt, hself, hreg, tile_congr (tiles_setF d _ v)]
    · exact hbeside.heldAt hm

/-- Reads of a load that are issued change no tile and no register. -/
theorem issueReads_tiles (d : Dev) : d.issueReads.tiles = d.tiles ∧ ∀ p, d.issueReads.getR p = d.getR p := by
  cases hj : d.res.job with
  | none => rw [Dev.issueReads, hj]; exact ⟨rfl, fun _ => rfl⟩
  | some j =>
    obtain ⟨-, -, -, -, htiles, -, hregs⟩ := issueReads_effect hj
    exact ⟨htiles, hregs⟩

/-- The tiles of a group that leaves RUNNING give up what they hold for it, and their passes end. -/
def Dev.tilesLeft (d : Dev) (g : Fin 4) (st : Nat) : Dev := (d.groupFree g).onTiles g (Dev.tileLeft (if st = 4 then 3 else 0))

/-- The group itself keeps its configuration alone. -/
def Dev.groupLeft (d : Dev) (g : Fin 4) (st : Nat) : Dev :=
  ((d.setF (SRV_GROUP_STATE_STATE g) st).setF (SRV_GROUP_STATE_GEN_FIRST g) 0).onGroup g fun x =>
    { Group.reset with cfg := x.cfg, lastOrder := x.lastOrder }

theorem leaveRunning_eq (d : Dev) (g : Fin 4) (st : Nat) : d.leaveRunning g st = ((d.tilesLeft g st).groupLeft g st).issueReads := rfl

theorem srv_tilesLeft (d : Dev) (g : Fin 4) (st : Nat) : (d.tilesLeft g st).srv = d.srv := by
  obtain ⟨hsrv, -⟩ := tilesSide_groupFree d g
  have hleft : ∀ (v : Nat) (e : Dev) (n : Fin 32), (e.tileLeft v n).srv = e.srv := fun v e n => by
    rw [Dev.tileLeft, Dev.onSeq, srv_onTile, srv_setF]
  exact (foldl_view_same Dev.srv _ _ (fun e n _ => hleft _ e n) _).trans hsrv

theorem tilesLeft_tiles (d : Dev) {g : Fin 4} (st : Nat) {n : Fin 32} (hn : n ∈ d.groupTiles g) :
    (d.tilesLeft g st).passAt n = (none, if st = 4 then 3 else 0) ∧ (d.tilesLeft g st).heldAt n = ([], [], 0) := by
  obtain ⟨v, hv⟩ : ∃ v, v = if st = 4 then 3 else 0 := ⟨_, rfl⟩
  have hv4 : v < 4 := by rw [hv]; split <;> decide
  obtain ⟨hsrv, -, -, hregs⟩ := tilesSide_groupFree d g
  have htiles : (d.groupFree g).groupTiles g = d.groupTiles g :=
    groupTiles_congr (by rw [group_congr hsrv]) (hregs _ (by simp only [HUB_TILE_INSERVICE]; omega))
  rw [Dev.tilesLeft, ← hv]
  constructor
  · obtain ⟨w, -, hw⟩ := foldl_view_at (Dev.passAt n) (Dev.tileLeft v) (n := n) (by rw [htiles]; exact hn) (groupTiles_nodup (d.groupFree g) g)
      (fun e m hm => (tileLeft_effect hv4 e m).1.passAt hm) (d.groupFree g)
    exact hw.trans (tileLeft_effect hv4 w n).2.1
  · obtain ⟨w, -, hw⟩ := foldl_view_at (Dev.heldAt n) Dev.tileFreed hn (groupTiles_nodup d g)
      (fun e m hm => (tileFreed_effect e m).1.heldAt hm) d
    exact (foldl_view_same (Dev.heldAt n) _ _ (fun e m _ => (tileLeft_effect hv4 e m).2.2 n) _).trans (hw.trans (tileFreed_effect w n).2)

theorem group_groupLeft (d : Dev) (g : Fin 4) (st : Nat) : ((d.groupLeft g st).group g).cfg = (d.group g).cfg ∧
    ((d.groupLeft g st).group g).order = none ∧ ∀ k, k ≠ g → (d.groupLeft g st).group k = d.group k := by
  have hset : ∀ k, ((d.setF (SRV_GROUP_STATE_STATE g) st).setF (SRV_GROUP_STATE_GEN_FIRST g) 0).group k = d.group k := fun k =>
    group_congr (by rw [srv_setF, srv_setF]) k
  refine ⟨?_, ?_, fun k hk => ?_⟩
  · rw [Dev.groupLeft, group_onGroup_self, hset]
  · rw [Dev.groupLeft, group_onGroup_self]
    rfl
  · rw [Dev.groupLeft, group_onGroup_ne _ _ hk, hset]

theorem tiles_groupLeft (d : Dev) (g : Fin 4) (st : Nat) : (d.groupLeft g st).tiles = d.tiles ∧
    ∀ p, 0x1000000 ≤ p → (d.groupLeft g st).getR p = d.getR p := by
  refine ⟨by rw [Dev.groupLeft, tiles_onGroup, tiles_setF, tiles_setF], fun p hp => ?_⟩
  rw [Dev.groupLeft, getR_onGroup, getR_setF_ne _ _ (by simp only [SRV_GROUP_STATE]; omega), getR_setF_ne _ _ (by simp only [SRV_GROUP_STATE]; omega)]

/-- The tiles of a group that leaves RUNNING hold nothing of it, and no pass of it runs; the group keeps its configuration alone. -/
theorem leaveRunning_left (d : Dev) (g : Fin 4) (st : Nat) :
    ((d.leaveRunning g st).group g).cfg = (d.group g).cfg ∧ ((d.leaveRunning g st).group g).order = none ∧
    (∀ k, k ≠ g → (d.leaveRunning g st).group k = d.group k) ∧
    ∀ n ∈ d.groupTiles g, (d.leaveRunning g st).passAt n = (none, if st = 4 then 3 else 0) ∧ (d.leaveRunning g st).heldAt n = ([], [], 0) := by
  obtain ⟨z, hz⟩ : ∃ z, z = (d.tilesLeft g st).groupLeft g st := ⟨_, rfl⟩
  obtain ⟨hcfg, horder, hothers⟩ := group_groupLeft (d.tilesLeft g st) g st
  obtain ⟨htz, hrz⟩ := tiles_groupLeft (d.tilesLeft g st) g st
  obtain ⟨hsrv, -⟩ := tilesSide_issueReads z
  obtain ⟨hti, hri⟩ := issueReads_tiles z
  rw [← hz] at hcfg horder hothers htz hrz
  have hgroup : ∀ k, z.issueReads.group k = z.group k := group_congr hsrv
  have hsame : ∀ k, (d.tilesLeft g st).group k = d.group k := group_congr (srv_tilesLeft d g st)
  have htile : ∀ n, z.issueReads.tile n = (d.tilesLeft g st).tile n := tile_congr (hti.trans htz)
  have hreg : ∀ p, 0x1000000 ≤ p → z.issueReads.getR p = (d.tilesLeft g st).getR p := fun p hp => (hri p).trans (hrz p hp)
  rw [leaveRunning_eq, ← hz]
  refine ⟨?_, ?_, fun k hk => ?_, fun n hn => ?_⟩
  · rw [hgroup, hcfg, hsame]
  · rw [hgroup, horder]
  · rw [hgroup, hothers k hk, hsame]
  · obtain ⟨hpass, hheld⟩ := tilesLeft_tiles d st hn
    rw [Dev.passAt, Dev.heldAt, Dev.seq, htile, getF_congr (hreg _ (by simp only [TCTL_PASS_STATUS, tileBase]; omega)),
      getN_congr (hreg _ (by simp only [MEM_KV_RESERVED, tileBase]; omega))]
    exact ⟨hpass, hheld⟩

end Sys2Proof.Machine
end

section
/-! GROUP_STOP, the stop order and the lead's silence (R297, R299, R320). -/

namespace Sys2Proof.Machine

open Reg

/-! The mailbox command around a group's change. -/

/-- A package that is not frozen, with no command BUSY, takes a command. -/
theorem mbxReady_of_frozen {d : Dev} (hf : d.frozen = false) (hidle : d.mbxBusy = false) : d.mbxReady := by
  simp only [Dev.frozen, Bool.or_eq_false_iff, Option.isSome_eq_false_iff, Option.isNone_iff_eq_none, bne_eq_false_iff_eq] at hf
  obtain ⟨⟨hwarm, hfatal⟩, hboot⟩ := hf
  exact ⟨hwarm, hfatal, hidle, by simp [Dev.mbxRefusesAll, hboot]⟩

theorem mbxOnly_srv {d e : Dev} (h : d.mbxOnly e) : e.srv = d.srv := by
  obtain ⟨hsame, -⟩ := h
  rw [hsame]

/-- A command's end leaves the package and what the mailbox shows as its code. -/
structure Dev.commandEnds (d e : Dev) (st det : Nat) : Prop where
  only : d.mbxOnly e
  busy : e.mbxBusy = false
  status : e.getF HUB_MBX_STATUS_STATUS = st
  detail : e.getF HUB_MBX_STATUS_DETAIL = det
  code : e.getF HUB_MBX_STATUS_CODE = d.getF HUB_MBX_STATUS_CODE

theorem mbxEnd_ends (d : Dev) {st det : Nat} (hst : st < 16) (hdet : det < 256) : d.commandEnds (d.mbxEnd st det) st det := by
  obtain ⟨honly, hbusy, hstatus, hdetail, -⟩ := mbxEnd_effect d hst hdet
  refine ⟨honly, hbusy, hstatus, hdetail, ?_⟩
  rw [Dev.mbxEnd, getF_congr (getR_edge_ne _ 0 _ (by decide)), getF_setF_ne _ _ _ _ (by simp) (by simp), getF_setF_ne _ _ _ _ (by simp) (by simp)]
  rfl

theorem mbxDone_ends (d : Dev) : d.commandEnds d.mbxDone 2 0 := mbxEnd_ends d (by decide) (by decide)

section
variable {d e : Dev} {st det : Nat} (h : d.commandEnds e st det)
include h

theorem Dev.commandEnds.tiles : e.tiles = d.tiles := h.only.fields.2.2.1
theorem Dev.commandEnds.out : e.out = d.out := h.only.fields.2.1
theorem Dev.commandEnds.srv : e.srv = d.srv := mbxOnly_srv h.only
theorem Dev.commandEnds.group (g : Fin 4) : e.group g = d.group g := group_congr h.srv g

theorem Dev.commandEnds.getR_group (g : Fin 4) : e.getR (SRV_GROUP_STATE g) = d.getR (SRV_GROUP_STATE g) :=
  h.only.2 _ (by simp only [mbxRegs, SRV_GROUP_STATE, HUB_MBX_CMD, HUB_MBX_STATUS]; omega)

theorem Dev.commandEnds.gstate (g : Fin 4) : e.gstate g = d.gstate g := gstate_congr (h.getR_group g)
theorem Dev.commandEnds.isLead (g : Fin 4) : e.isLead g = d.isLead g := isLead_congr (h.getR_group g)

end

/-- What the body of a command finds in the mailbox: the command itself, its code shown, and the serving engine as it was. -/
theorem mbxBegun_run (d : Dev) (code now : Nat) : (d.mbxBegun code now).mbx.run = some ⟨code, d.mbxParams, false, .owner⟩ := by
  obtain ⟨-, hrun, -⟩ := mbxStart_effect d code
  rw [Dev.mbxBegun, mbx_at_, hrun]

theorem mbxBegun_srv (d : Dev) (code now : Nat) : (d.mbxBegun code now).srv = d.srv := by
  obtain ⟨honly, -⟩ := mbxStart_effect d code
  rw [Dev.mbxBegun, srv_at_, mbxOnly_srv honly]

theorem mbxBegun_code (d : Dev) {code : Nat} (hcode : code < 2 ^ 16) (now : Nat) : (d.mbxBegun code now).getF HUB_MBX_STATUS_CODE = code := by
  have hcount : ∀ x : Dev, (x.count .hub 0x0F 1).getR HUB_MBX_STATUS = x.getR HUB_MBX_STATUS := fun x =>
    getR_count_hubBlock x _ _ (by decide) (by decide)
  rw [Dev.mbxBegun, getF_at_, Dev.mbxStart, getF_congr (hcount _), getF_setF_ne _ _ _ _ (by simp) (by simp),
    getF_setF_ne _ _ _ _ (by simp) (by simp), getF_setF_ne _ _ _ _ (by simp) (by simp), getF_setF_self _ _ _ (by simp)]
  exact Nat.mod_eq_of_lt (by simpa using hcode)

theorem getR_group_mbxBegun (d : Dev) (code now : Nat) (g : Fin 4) :
    (d.mbxBegun code now).getR (SRV_GROUP_STATE g) = d.getR (SRV_GROUP_STATE g) :=
  (mbxBegun_effect d code now).regs _ (by simp only [mbxRegs, SRV_GROUP_STATE, HUB_MBX_CMD, HUB_MBX_STATUS]; omega)

/-! A group that becomes IDLE. -/

theorem regsOnly_kvPagesAll (d : Dev) : d.regsOnly d.kvPagesAll := by
  have hone : ∀ (e : Dev) (n : Fin 32), e.regsOnly (e.kvPages n) := fun e n => regsOnly_setN e _ _
  exact regsOnly_foldl _ (fun e n _ => hone e n) d

/-- A slot that loses a group: registers of the residency engine and of the tiles alone. -/
theorem slotUnbind_effect (d : Dev) (s : Nat) : d.regsOnly (d.slotUnbind s) ∧ ∀ p, p < 0x700000 → p < 0x100100 ∨ 0x100200 ≤ p →
    (d.slotUnbind s).getR p = d.getR p := by
  have hset : ∀ (x : Dev) (h l v p : Nat), p < 0x700000 → (x.setF ⟨WTR_SLOT_STATE s, h, l⟩ v).getR p = x.getR p := fun x h l v p hp =>
    getR_setF_ne x v (by simp only [WTR_SLOT_STATE]; omega)
  have hpages : ∀ (x : Dev) (p : Nat), p < 0x700000 → p < 0x100100 ∨ 0x100200 ≤ p → x.kvPagesAll.getR p = x.getR p := fun x p hp hpend =>
    (linesOnly_kvPagesAll x).2 p (by unfold memBlock; omega)
  unfold Dev.slotUnbind
  dsimp only
  split
  · exact ⟨((regsOnly_setF d _ _).trans (regsOnly_setF _ _ _)).trans (regsOnly_kvPagesAll _), fun p hp hpend =>
      (hpages _ p hp hpend).trans ((hset _ _ _ _ p hp).trans (hset _ _ _ _ p hp))⟩
  · exact ⟨regsOnly_setF d _ _, fun p hp _ => hset _ _ _ _ p hp⟩

/-- A group that is IDLE again: its slot is unbound and nothing of it is kept. -/
structure Dev.idles (d e : Dev) (g : Fin 4) : Prop where
  gstate : e.gstate g = 0
  lead : e.isLead g = false
  group : e.group g = Group.reset
  others : ∀ k, k ≠ g → e.group k = d.group k
  tiles : e.tiles = d.tiles
  out : e.out = d.out
  code : e.getF HUB_MBX_STATUS_CODE = d.getF HUB_MBX_STATUS_CODE

theorem groupIdle_idles (d : Dev) (g : Fin 4) : d.idles (d.groupIdle g) g := by
  obtain ⟨x, hx⟩ : ∃ x, x = d.slotUnbind (d.gcfg g).slot := ⟨_, rfl⟩
  obtain ⟨honly, hregs⟩ := slotUnbind_effect d (d.gcfg g).slot
  rw [← hx] at honly hregs
  obtain ⟨hsrv, hout, htiles, -⟩ := honly.fields
  obtain ⟨y, hy⟩ : ∃ y, y = ((x.setF (SRV_GROUP_STATE_STATE g) 0).setF (SRV_GROUP_STATE_LEAD g) 0).setF (SRV_GROUP_STATE_GEN_FIRST g) 0 := ⟨_, rfl⟩
  obtain ⟨hsrvy, houty, htilesy, -⟩ := (((regsOnly_setF x (SRV_GROUP_STATE_STATE g) 0).trans (regsOnly_setF _ (SRV_GROUP_STATE_LEAD g) 0)).trans
    (regsOnly_setF _ (SRV_GROUP_STATE_GEN_FIRST g) 0)).fields
  rw [← hy] at hsrvy houty htilesy
  have hidle : d.groupIdle g = y.onGroup g fun _ => Group.reset := by rw [hy, hx]; rfl
  have hreg : ∀ p, (d.groupIdle g).getR p = y.getR p := fun p => by rw [hidle, getR_onGroup]
  refine ⟨?_, ?_, ?_, fun k hk => ?_, ?_, ?_, ?_⟩
  · rw [gstate_congr (hreg _), hy, Dev.gstate, getF_setF_ne _ _ _ _ (by simp) (by simp), getF_setF_ne _ _ _ _ (by simp) (by simp),
      getF_setF_self _ _ _ (by simp)]
    exact Nat.zero_mod _
  · rw [isLead_congr (hreg _), hy, Dev.isLead, Dev.flag, getF_setF_ne _ _ _ _ (by simp) (by simp), getF_setF_self _ _ _ (by simp), Nat.zero_mod]
    rfl
  · rw [hidle, group_onGroup_self]
  · rw [hidle, group_onGroup_ne _ _ hk, group_congr (hsrvy.trans hsrv)]
  · rw [hidle, tiles_onGroup, htilesy, htiles]
  · rw [hidle, out_onGroup, houty, hout]
  · have hne : HUB_MBX_STATUS ≠ SRV_GROUP_STATE g := by simp only [HUB_MBX_STATUS, SRV_GROUP_STATE]; omega
    rw [getF_congr (hreg _), hy, getF_congr (getR_setF_ne _ _ hne), getF_congr (getR_setF_ne _ _ hne), getF_congr (getR_setF_ne _ _ hne),
      getF_congr (hregs HUB_MBX_STATUS (by decide) (by decide))]

end Sys2Proof.Machine
end

section
/-! Obligation O59 (R297, R299, R320): how a serving group stops. -/

namespace Sys2Proof.Machine

open Reg

/-! GROUP_STOP: what its two forms do. -/

/-- What GROUP_STOP does to a group that is RUNNING or PAUSED. -/
def Dev.stopAct (force : Bool) (d : Dev) (g : Fin 4) : Dev :=
  if force then (if d.leadsRunning g then d else d.stopNow g) else if d.groupHolds g then d.mbxFail 0x34 else d.stopNow g

theorem stopAct_false (d : Dev) (g : Fin 4) : d.stopAct false g = if d.groupHolds g then d.mbxFail 0x34 else d.stopNow g := by
  rw [Dev.stopAct, if_neg (by decide)]

theorem stopAct_true (d : Dev) (g : Fin 4) : d.stopAct true g = if d.leadsRunning g then d else d.stopNow g := by
  rw [Dev.stopAct, if_pos rfl]

section
variable {s : State} {g : Fin 4} {force : Bool} (hP0 : s.dev.getN (HUB_MBX_P 0) = g.val * 2 ^ 30 + (if force then 2 ^ 29 else 0))
include hP0

theorem wantsForce_eq : s.dev.wantsForce = force := by
  have hbit : s.dev.wantsForce = decide (s.dev.getN (HUB_MBX_P 0) / 2 ^ 29 % 2 = 1) := Nat.testBit_eq_decide_div_mod_eq
  rw [hbit, hP0]
  cases force
  · simp only [Bool.false_eq_true, if_false, decide_eq_false_iff_not]
    omega
  · simp only [if_true, decide_eq_true_eq]
    omega

/-- The form that P0 does not ask for does nothing. -/
theorem exec_groupStop_otherForm (now : Nat) : exec (if force then .groupStop now else .groupStopForce now) s = .next s := by
  have hforce := wantsForce_eq hP0
  cases force
  · change execGroupStopForce now s = _
    rw [execGroupStopForce, onDevF, if_neg (by simp [hforce])]
  · change execGroupStop now s = _
    rw [execGroupStop, onDevF, if_pos hforce]

theorem exec_groupStop_form (hready : s.dev.mbxReady) (now : Nat) : exec (if force then .groupStopForce now else .groupStop now) s =
    .next (s.put (groupStopBody now (Dev.stopAct force) (s.dev.mbxStart 0x0202))) := by
  have hforce := wantsForce_eq hP0
  cases force
  · change execGroupStop now s = _
    rw [execGroupStop, onDevF, if_neg (by simp [hforce]), mbxIssueDev_eq hready, funext₂ stopAct_false]
  · change execGroupStopForce now s = _
    rw [execGroupStopForce, onDevF, if_pos hforce, mbxIssueDev_eq hready, funext₂ stopAct_true]

/-- GROUP_STOP by the state that it finds. -/
theorem exec_groupStop (hready : s.dev.mbxReady) (hz : ∀ a, 1 ≤ a → a < 8 → s.dev.getN (HUB_MBX_P a) = 0) (now : Nat) :
    exec (if force then .groupStopForce now else .groupStop now) s = .next (s.put (
      if s.dev.gstate g = 3 ∨ s.dev.gstate g = 4 then ((s.dev.mbxBegun 0x0202 now).groupIdle g).mbxDone
      else if s.dev.gstate g = 2 ∨ s.dev.gstate g = 5 then (s.dev.mbxBegun 0x0202 now).stopAct force g
      else (s.dev.mbxBegun 0x0202 now).mbxDone)) := by
  have hbegins := mbxBegun_effect s.dev 0x0202 now
  have hp : (s.dev.mbxBegun 0x0202 now).param 0 = g.val * 2 ^ 30 + (if force then 2 ^ 29 else 0) := (hbegins.param 0 (by decide)).trans hP0
  have hlow : (g.val * 2 ^ 30 + (if force then 2 ^ 29 else 0)) % 2 ^ 29 = 0 := by split <;> omega
  have hgroup : Fin.ofNat 4 ((g.val * 2 ^ 30 + (if force then 2 ^ 29 else 0)) / 2 ^ 30) = g := by
    refine Fin.ext ?_
    rw [Fin.val_ofNat]
    split <;> omega
  have hzero := begins_paramsZero hbegins hz (j := 1) (by decide)
  have hstate : (s.dev.mbxBegun 0x0202 now).gstate g = s.dev.gstate g := gstate_congr (getR_group_mbxBegun s.dev 0x0202 now g)
  rw [exec_groupStop_form hP0 hready, groupStopBody]
  change Host.Outcome.next (s.put (if (s.dev.mbxBegun 0x0202 now).param 0 % 2 ^ 29 ≠ 0 ∨ ¬ (s.dev.mbxBegun 0x0202 now).paramsZeroFrom 1 then _
    else if _ then _ else if _ then _ else _)) = _
  rw [if_neg (by rw [hp, hlow, hzero]; decide)]
  simp only [Dev.mbxBegun] at hp hstate ⊢
  simp only [hp, hgroup, hstate]

end

/-! GROUP_STOP: what its command ends with. -/

section
variable (d : Dev) (g : Fin 4) (now : Nat)

/-- The command ends DONE, and shows GROUP_STOP's code. -/
structure Dev.stopDone (e : Dev) : Prop where
  busy : e.mbxBusy = false
  status : e.getF HUB_MBX_STATUS_STATUS = 2
  code : e.getF HUB_MBX_STATUS_CODE = 0x0202

theorem stopDone_of_ends {x e : Dev} (h : x.commandEnds e 2 0) (hcode : x.getF HUB_MBX_STATUS_CODE = 0x0202) : e.stopDone :=
  ⟨h.busy, h.status, h.code.trans hcode⟩

theorem gstate_stopBegun : (d.mbxBegun 0x0202 now).gstate g = d.gstate g := gstate_congr (getR_group_mbxBegun d 0x0202 now g)

theorem isLead_stopBegun : (d.mbxBegun 0x0202 now).isLead g = d.isLead g := isLead_congr (getR_group_mbxBegun d 0x0202 now g)

theorem groupHolds_stopBegun : (d.mbxBegun 0x0202 now).groupHolds g = d.groupHolds g := by
  rw [Dev.groupHolds, Dev.groupHolds, mbxBegun_srv]

/-- Of a STOPPED or HALTED group nothing is left. -/
theorem stopBegun_idle : let e := ((d.mbxBegun 0x0202 now).groupIdle g).mbxDone
    e.stopDone ∧ e.gstate g = 0 ∧ e.isLead g = false ∧ e.group g = Group.reset ∧ (∀ k, k ≠ g → e.group k = d.group k) ∧ e.tiles = d.tiles ∧
      e.out = d.out := by
  have hbegins := mbxBegun_effect d 0x0202 now
  have hidle := groupIdle_idles (d.mbxBegun 0x0202 now) g
  have hends := mbxDone_ends ((d.mbxBegun 0x0202 now).groupIdle g)
  refine ⟨stopDone_of_ends hends (hidle.code.trans (mbxBegun_code d (by decide) now)), (hends.gstate g).trans hidle.gstate,
    (hends.isLead g).trans hidle.lead, (hends.group g).trans hidle.group, fun k hk => ?_, (hends.tiles.trans hidle.tiles).trans hbegins.tiles,
    (hends.out.trans hidle.out).trans hbegins.out⟩
  rw [hends.group, hidle.others k hk, group_congr (mbxBegun_srv d 0x0202 now)]

/-- A group with nothing to stop stays as it is. -/
theorem stopBegun_done : let e := (d.mbxBegun 0x0202 now).mbxDone
    e.stopDone ∧ e.gstate g = d.gstate g ∧ e.srv = d.srv ∧ e.tiles = d.tiles ∧ e.out = d.out := by
  have hbegins := mbxBegun_effect d 0x0202 now
  have hends := mbxDone_ends (d.mbxBegun 0x0202 now)
  exact ⟨stopDone_of_ends hends (mbxBegun_code d (by decide) now), (hends.gstate g).trans (gstate_stopBegun d g now),
    hends.srv.trans (mbxBegun_srv d 0x0202 now), hends.tiles.trans hbegins.tiles, hends.out.trans hbegins.out⟩

/-- A group that still holds sequences or submissions is not stopped. -/
theorem stopBegun_holds (hholds : d.groupHolds g = true) : let e := (d.mbxBegun 0x0202 now).stopAct false g
    e.mbxBusy = false ∧ e.getF HUB_MBX_STATUS_STATUS = 5 ∧ e.getF HUB_MBX_STATUS_DETAIL = 0x34 ∧ e.gstate g = d.gstate g ∧ e.srv = d.srv ∧
      e.tiles = d.tiles := by
  have hbegins := mbxBegun_effect d 0x0202 now
  have hends := mbxEnd_ends (d.mbxBegun 0x0202 now) (st := 5) (det := 0x34) (by decide) (by decide)
  have hact : (d.mbxBegun 0x0202 now).stopAct false g = (d.mbxBegun 0x0202 now).mbxEnd 5 0x34 := by
    rw [stopAct_false, if_pos ((groupHolds_stopBegun d g now).trans hholds), Dev.mbxFail]
  rw [hact]
  exact ⟨hends.busy, hends.status, hends.detail, (hends.gstate g).trans (gstate_stopBegun d g now), hends.srv.trans (mbxBegun_srv d 0x0202 now),
    hends.tiles.trans hbegins.tiles⟩

/-- A follower's group is left at once, and is IDLE. -/
theorem stopBegun_follower {force : Bool} (hlead : d.isLead g = false) (hmay : force = true ∨ d.groupHolds g = false) :
    let e := (d.mbxBegun 0x0202 now).stopAct force g
    e.stopDone ∧ e.gstate g = 0 ∧ e.group g = Group.reset ∧ ∀ k, k ≠ g → e.group k = d.group k := by
  obtain ⟨b, hb⟩ : ∃ b, b = d.mbxBegun 0x0202 now := ⟨_, rfl⟩
  have hleadb : b.isLead g = false := hb ▸ (isLead_stopBegun d g now).trans hlead
  have hnow : b.stopNow g = ((b.leaveRunning g 3).groupIdle g).mbxDone := by rw [Dev.stopNow, if_neg (by rw [hleadb]; decide)]
  have hact : b.stopAct force g = b.stopNow g := by
    cases force
    · have hfree : b.groupHolds g = false := by
        rw [hb, groupHolds_stopBegun]
        simpa using hmay
      rw [stopAct_false, if_neg (by rw [hfree]; decide)]
    · have hruns : b.leadsRunning g = false := by
        have hflag : b.flag (SRV_GROUP_STATE_LEAD g) = false := hleadb
        rw [Dev.leadsRunning, hflag, Bool.and_false]
      rw [stopAct_true, if_neg (by rw [hruns]; decide)]
  obtain ⟨-, -, hothers, -⟩ := leaveRunning_left b g 3
  obtain ⟨-, -, -, -, hregs⟩ := leaveRunning_effect b g (st := 3) (by decide)
  have hidle := groupIdle_idles (b.leaveRunning g 3) g
  have hends := mbxDone_ends ((b.leaveRunning g 3).groupIdle g)
  have hcode : (b.leaveRunning g 3).getF HUB_MBX_STATUS_CODE = 0x0202 := by
    rw [getF_congr (hregs HUB_MBX_STATUS (by decide) (by simp only [HUB_MBX_STATUS, SRV_GROUP_STATE]; omega)), hb]
    exact mbxBegun_code d (by decide) now
  rw [← hb, hact, hnow]
  refine ⟨stopDone_of_ends hends (hidle.code.trans hcode), (hends.gstate g).trans hidle.gstate, (hends.group g).trans hidle.group, fun k hk => ?_⟩
  rw [hends.group, hidle.others k hk, hothers k hk, hb, group_congr (mbxBegun_srv d 0x0202 now)]

/-- With FORCE, a group that this package leads stops at its next boundary: until then the command is BUSY. -/
theorem stopBegun_waits (hruns : d.leadsRunning g = true) (hP0 : d.getN (HUB_MBX_P 0) / 2 ^ 30 = g.val) :
    let e := (d.mbxBegun 0x0202 now).stopAct true g
    e.mbxBusy = true ∧ e.stopPending g = true ∧ e.gstate g = 2 ∧ e.srv = d.srv ∧ e.tiles = d.tiles := by
  have hbegins := mbxBegun_effect d 0x0202 now
  have hrunsb : (d.mbxBegun 0x0202 now).leadsRunning g = true := (leadsRunning_congr (getR_group_mbxBegun d 0x0202 now g)).trans hruns
  have hact : (d.mbxBegun 0x0202 now).stopAct true g = d.mbxBegun 0x0202 now := by rw [stopAct_true, if_pos hrunsb]
  rw [hact]
  refine ⟨hbegins.busy, ?_, gstate_of_leadsRunning hrunsb, mbxBegun_srv d 0x0202 now, hbegins.tiles⟩
  have hparam : d.mbxParams.getD 0 0 = d.getN (HUB_MBX_P 0) := by simp [Dev.mbxParams]
  rw [Dev.stopPending, mbxBegun_run]
  simp only [Option.any_some, hparam, hP0, beq_self_eq_true, Bool.and_true]

end

/-! The stop order and the lead's silence. -/

section
variable {s : State} (hf : s.dev.frozen = false) {g : Fin 4} (now : Nat)
include hf

theorem exec_stopOrder_follower (halt : Bool) (hlead : s.dev.isLead g = false) (hst : s.dev.gstate g = 2 ∨ s.dev.gstate g = 5) :
    exec (.stopOrder g halt now) s = .next (s.put ((s.dev.at_ now).leaveRunning g (if halt then 4 else 3))) := by
  change execStopOrder g halt now s = _
  refine onRun_eq hf ?_
  dsimp only
  rw [if_pos (by simpa [hlead] using hst)]

theorem exec_stopOrder_lead (halt : Bool) (hlead : s.dev.isLead g = true) : exec (.stopOrder g halt now) s = .next (s.put (s.dev.at_ now)) := by
  change execStopOrder g halt now s = _
  refine onRun_eq hf ?_
  dsimp only
  rw [if_neg (by simp [hlead])]

theorem exec_leadTimeout_lead (hlead : s.dev.isLead g = true) : exec (.leadTimeout g now) s = .next (s.put (s.dev.at_ now)) := by
  change execLeadTimeout g now s = _
  refine onRun_eq hf ?_
  dsimp only
  rw [if_neg (by simp [hlead])]

/-- The lead has been silent for LEAD_TIMEOUT, at least 10 ms. -/
theorem exec_leadTimeout_late (hlead : s.dev.isLead g = false) (hst : s.dev.gstate g = 2) {u : Nat} (hwait : (s.dev.group g).waitFrom = some u)
    (hlate : u + max 10 (s.dev.getF (SRV_GROUP_LEAD_TIMEOUT_MS g)) * 1000000 ≤ max s.dev.now now) :
    exec (.leadTimeout g now) s = .next (s.put (((s.dev.at_ now).leaveRunning g 3).latch egSrv 4)) := by
  have hany : ((s.dev.at_ now).group g).waitFrom.any (fun t =>
      decide (t + max 10 ((s.dev.at_ now).getF (SRV_GROUP_LEAD_TIMEOUT_MS g)) * 1000000 ≤ (s.dev.at_ now).now)) = true := by
    rw [group_at_, hwait, Option.any_some, getF_at_, now_at_]
    exact decide_eq_true hlate
  change execLeadTimeout g now s = _
  refine onRun_eq hf ?_
  dsimp only
  rw [if_pos ⟨by rw [isLead_at_, hlead]; decide, by rw [gstate_at_, hst], hany⟩]

theorem exec_leadTimeout_early {u : Nat} (hwait : (s.dev.group g).waitFrom = some u)
    (hearly : max s.dev.now now < u + max 10 (s.dev.getF (SRV_GROUP_LEAD_TIMEOUT_MS g)) * 1000000) :
    exec (.leadTimeout g now) s = .next (s.put (s.dev.at_ now)) := by
  have hany : ((s.dev.at_ now).group g).waitFrom.any (fun t =>
      decide (t + max 10 ((s.dev.at_ now).getF (SRV_GROUP_LEAD_TIMEOUT_MS g)) * 1000000 ≤ (s.dev.at_ now).now)) = false := by
    rw [group_at_, hwait, Option.any_some, getF_at_, now_at_]
    exact decide_eq_false (Nat.not_le.mpr hearly)
  change execLeadTimeout g now s = _
  refine onRun_eq hf ?_
  dsimp only
  rw [if_neg fun h => by rw [hany] at h; exact absurd h.2.2 (by decide)]

end

/-- What a follower's group leaves, and its tiles, when it is out of RUNNING. -/
structure Dev.leftAs (d e : Dev) (g : Fin 4) (st : Nat) : Prop where
  gstate : e.gstate g = st
  cfg : (e.group g).cfg = (d.group g).cfg
  order : (e.group g).order = none
  tiles : ∀ n ∈ d.groupTiles g, (e.seq n).released = none ∧ e.getF (TCTL_PASS_STATUS_STATE n) = (if st = 4 then 3 else 0) ∧ (e.tile n).pages = [] ∧
    (e.tile n).binTab = [] ∧ e.getN (MEM_KV_RESERVED n) = 0
  others : ∀ k, k ≠ g → e.group k = d.group k

theorem leaveRunning_leftAs (d : Dev) (g : Fin 4) {st : Nat} (hst : st < 8) (now : Nat) : d.leftAs ((d.at_ now).leaveRunning g st) g st := by
  obtain ⟨hcfg, horder, hothers, htiles⟩ := leaveRunning_left (d.at_ now) g st
  obtain ⟨hstate, -⟩ := leaveRunning_effect (d.at_ now) g hst
  refine ⟨hstate, by rw [hcfg, group_at_], horder, fun n hn => ?_, fun k hk => by rw [hothers k hk, group_at_]⟩
  obtain ⟨hpass, hheld⟩ := htiles n (by rw [groupTiles_at_]; exact hn)
  exact ⟨congrArg Prod.fst hpass, congrArg Prod.snd hpass, congrArg Prod.fst hheld, congrArg (fun x => x.2.1) hheld,
    congrArg (fun x => x.2.2) hheld⟩

/-- A latched event of the serving engine changes nothing of that. -/
theorem Dev.leftAs.latch {d e : Dev} {g : Fin 4} {st : Nat} (h : d.leftAs e g st) (b : Nat) : d.leftAs (e.latch egSrv b) g st := by
  have hgroup : ∀ k, (e.latch egSrv b).group k = e.group k := group_congr (srv_latch e egSrv b)
  have htile : ∀ n, (e.latch egSrv b).tile n = e.tile n := tile_congr (tiles_latch e egSrv b)
  have hreg : ∀ p, 0x1000000 ≤ p → (e.latch egSrv b).getR p = e.getR p := fun p hp =>
    getR_latch_srv e b (by simp only [SRV_EVENT]; omega) (by simp only [SRV_EVENT_SEQ]; omega) (by simp only [INT_PEND]; omega)
  have hstate : (e.latch egSrv b).getR (SRV_GROUP_STATE g) = e.getR (SRV_GROUP_STATE g) :=
    getR_latch_srv e b (by simp only [SRV_GROUP_STATE, SRV_EVENT]; omega) (by simp only [SRV_GROUP_STATE, SRV_EVENT_SEQ]; omega)
      (by simp only [SRV_GROUP_STATE, INT_PEND]; omega)
  refine ⟨(gstate_congr hstate).trans h.gstate, by rw [hgroup]; exact h.cfg, by rw [hgroup]; exact h.order, fun n hn => ?_,
    fun k hk => by rw [hgroup]; exact h.others k hk⟩
  rw [Dev.seq, htile, getF_congr (hreg _ (by simp only [TCTL_PASS_STATUS, tileBase]; omega)),
    getN_congr (hreg _ (by simp only [MEM_KV_RESERVED, tileBase]; omega))]
  exact h.tiles n hn

/-- Settles O59: GROUP_STOP by the state that it finds, then the stop order and the lead's silence. -/
theorem groupStop : Obligations.GroupStop := by
  unfold Obligations.GroupStop
  intro s g now force halt hf t cmd
  refine ⟨?_, ?_⟩
  · intro hidle hP0 hz ends
    have hready := mbxReady_of_frozen hf hidle
    have hexec : exec cmd s = _ := exec_groupStop hP0 hready hz now
    refine ⟨exec_groupStop_otherForm hP0 now, fun hst => ?_, fun hst => ?_, fun hst => ?_⟩
    · rw [if_pos hst] at hexec
      obtain ⟨⟨hbusy, hstatus, hcode⟩, hrest⟩ := stopBegun_idle s.dev g now
      exact ⟨_, hexec, ⟨hbusy, hstatus, hcode⟩, hrest⟩
    · rw [if_neg (by omega), if_neg (by omega)] at hexec
      obtain ⟨⟨hbusy, hstatus, hcode⟩, hrest⟩ := stopBegun_done s.dev g now
      exact ⟨_, hexec, ⟨hbusy, hstatus, hcode⟩, hrest⟩
    · rw [if_neg (by omega), if_pos hst] at hexec
      refine ⟨fun hforce hholds => ?_, fun hlead hmay => ?_, fun hforce hruns => ?_⟩
      · rw [hforce] at hexec
        exact ⟨_, hexec, stopBegun_holds s.dev g now hholds⟩
      · obtain ⟨⟨hbusy, hstatus, hcode⟩, hrest⟩ := stopBegun_follower s.dev g now hlead hmay
        exact ⟨_, hexec, ⟨hbusy, hstatus, hcode⟩, hrest⟩
      · have hgroup : s.dev.getN (HUB_MBX_P 0) / 2 ^ 30 = g.val := by
          rw [hP0, hforce, if_pos rfl]
          omega
        rw [hforce] at hexec
        exact ⟨_, hexec, stopBegun_waits s.dev g now hruns hgroup⟩
  · intro left
    refine ⟨fun hlead hst => ?_, fun hlead => ?_, fun u hlead hst hwait => ?_⟩
    · have hleft := leaveRunning_leftAs s.dev g (st := if halt then 4 else 3) (by split <;> decide) now
      exact ⟨_, exec_stopOrder_follower hf now halt hlead hst, hleft.gstate, hleft.cfg, hleft.order, hleft.tiles, hleft.others⟩
    · exact ⟨exec_stopOrder_lead hf now halt hlead, exec_leadTimeout_lead hf now hlead⟩
    · intro bound
      refine ⟨fun hlate => ?_, fun hearly => exec_leadTimeout_early hf now hwait hearly⟩
      obtain ⟨hbit, -⟩ := latch_srv ((s.dev.at_ now).leaveRunning g 3) (b := 4) (by decide)
      have hleft := (leaveRunning_leftAs s.dev g (st := 3) (by decide) now).latch 4
      exact ⟨_, exec_leadTimeout_late hf now hlead hst hwait hlate, ⟨hleft.gstate, hleft.cfg, hleft.order, hleft.tiles, hleft.others⟩, hbit⟩

end Sys2Proof.Machine
end

section
/-! The tiles that GROUP_START loads, and the slot that it binds (R220, R298). -/

namespace Sys2Proof.Machine

open Reg

/-! Changes of tiles and registers alone. -/

/-- Nothing but tiles and registers differs. -/
def Dev.tilesRegsOnly (d e : Dev) : Prop := e = { d with tiles := e.tiles, regs := e.regs }

theorem Dev.tilesRegsOnly.refl (d : Dev) : d.tilesRegsOnly d := by cases d; exact Eq.refl _

theorem Dev.tilesRegsOnly.trans {d e x : Dev} (h : d.tilesRegsOnly e) (g : e.tilesRegsOnly x) : d.tilesRegsOnly x := by
  rw [Dev.tilesRegsOnly] at *
  rw [g, h]

theorem Dev.regsOnly.tilesRegsOnly {d e : Dev} (h : d.regsOnly e) : d.tilesRegsOnly e := by
  rw [Dev.regsOnly] at h
  rw [Dev.tilesRegsOnly, h]

theorem regsOnly_setR (d : Dev) (o : Nat) (v : Word) : d.regsOnly (d.setR o v) := by cases d; rfl

theorem tilesRegsOnly_onTile (d : Dev) (n : Fin 32) (f : Tile → Tile) : d.tilesRegsOnly (d.onTile n f) := by cases d; rfl

theorem Dev.storeOnly.tilesRegsOnly {n : Fin 32} {d e : Dev} (h : d.storeOnly n e) : d.tilesRegsOnly e := by
  obtain ⟨m, rfl⟩ := h
  exact tilesRegsOnly_onTile d n _

theorem tilesRegsOnly_foldl {α : Type} {f : Dev → α → Dev} (hstep : ∀ (d : Dev) (a : α), d.tilesRegsOnly (f d a)) (l : List α) (d : Dev) :
    d.tilesRegsOnly (l.foldl f d) := by
  induction l generalizing d with
  | nil => exact .refl d
  | cons a t ih => exact (hstep d a).trans (ih (f d a))

theorem Dev.tilesRegsOnly.fields {d e : Dev} (h : d.tilesRegsOnly e) : e.srv = d.srv ∧ e.out = d.out ∧ e.mbx = d.mbx ∧ e.now = d.now := by
  rw [h]
  exact ⟨rfl, rfl, rfl, rfl⟩

/-- A change of tile store changes no register, and of its tile nothing else. -/
theorem Dev.storeOnly.besideTile {n : Fin 32} {d e : Dev} (h : d.storeOnly n e) : d.besideTile n e := by
  obtain ⟨-, hothers, hregs, -⟩ := h.fields
  exact ⟨hothers, fun p _ => getR_of_regs hregs p⟩

/-! Steps 1 and 3 of R298 on one tile. -/

/-- What a loaded tile shows of its load: its programs, its pages, its state, the generator of its quantiser and the generator's seed. -/
def Dev.loadShown (n : Fin 32) (d : Dev) : Mem × List PageEnt × Nat × Word × Word :=
  ((d.tile n).imem, (d.tile n).pages, d.getF (TCTL_PASS_STATUS_STATE n), d.getR (QNT_LFSR_STATE n), d.getR (QNT_LFSR_SEED n))

theorem tileRange_lfsr (n : Fin 32) : tileRange n (QNT_LFSR_STATE n) ∧ tileRange n (QNT_LFSR_SEED n) := by
  simp only [tileRange, QNT_LFSR_STATE, QNT_LFSR_SEED]
  omega

theorem Dev.besideTile.loadShown {n m : Fin 32} {d e : Dev} (h : d.besideTile m e) (hne : m ≠ n) : e.loadShown n = d.loadShown n := by
  obtain ⟨ht, hr⟩ := h
  have hreg : ∀ p, tileRange n p → e.getR p = d.getR p := fun p hp => hr p fun hm => hne (Fin.ext (tileRange_inj hm hp))
  obtain ⟨hstate, hseed⟩ := tileRange_lfsr n
  rw [Dev.loadShown, Dev.loadShown, ht n hne.symm, getF_congr (hreg _ (tileRange_passStatus n)), hreg _ hstate, hreg _ hseed]

/-- A change that leaves the tile's programs and pages, and those of its registers. -/
theorem loadShown_congr {n : Fin 32} {d e : Dev} (hi : (e.tile n).imem = (d.tile n).imem) (hp : (e.tile n).pages = (d.tile n).pages)
    (hr : ∀ p, p = TCTL_PASS_STATUS n ∨ p = QNT_LFSR_STATE n ∨ p = QNT_LFSR_SEED n → e.getR p = d.getR p) : e.loadShown n = d.loadShown n := by
  rw [Dev.loadShown, Dev.loadShown, hi, hp, getF_congr (hr _ (.inl rfl)), hr _ (.inr (.inl rfl)), hr _ (.inr (.inr rfl))]

theorem Dev.storeOnly.loadShown {n : Fin 32} {d e : Dev} (h : d.storeOnly n e) : e.loadShown n = d.loadShown n := by
  obtain ⟨⟨m, hm⟩, -, hregs, -⟩ := h.fields
  exact loadShown_congr (by rw [hm]) (by rw [hm]) fun p _ => getR_of_regs hregs p

theorem storeOnly_tsZero (d : Dev) (n : Fin 32) (a len : Nat) : d.storeOnly n (d.tsZero n a len) :=
  storeOnly_of_write d n fun m => m.filter fun e => !(decide (a ≤ e.1) && decide (e.1 < a + len))

theorem storeOnly_nullPage (d : Dev) (n : Fin 32) : d.storeOnly n (d.nullPage n) := by
  unfold Dev.nullPage
  split
  · exact .refl n d
  · exact ((storeOnly_tsZero d n _ _).trans (storeOnly_pageHeaders _ n _ _ _ _ _)).trans (storeOnly_tsWrite _ n _ _)

/-- The trip counts of the intakes in `l` start at 0. -/
def Dev.tripsZero (d : Dev) (n : Fin 32) (l : List Intake) : Dev := l.foldl (fun d x => d.setF (TCTL_TRIP_TRIP n (x.slot % 64)) 0) d

theorem tripsZero_effect (d : Dev) (n : Fin 32) (l : List Intake) : d.regsOnly (d.tripsZero n l) ∧
    ∀ p, p < tileBase n + 0x100 ∨ tileBase n + 0x200 ≤ p → (d.tripsZero n l).getR p = d.getR p := by
  refine ⟨regsOnly_foldl _ (fun e x _ => regsOnly_setF e _ 0) d, fun p hp => ?_⟩
  refine foldl_view_same (fun x : Dev => x.getR p) _ _ (fun e x _ => getR_setF_ne e 0 ?_) d
  have hslot := Nat.mod_lt x.slot (y := 64) (by decide)
  simp only [TCTL_TRIP]
  omega

/-- The programs, router and tables of a tile that is loaded. -/
def Tile.loaded (t : Tile) (a f r : List Byte) : Tile := { t with
  imem := memOf 0 a ++ memOf 0x400000 f
  router := routerOf r
  seq := Seq.reset
  pages := [], binTab := [], recs := [], lateToks := [], fetches := [], hmpFault := false, voteDue := false, voteReady := false }

/-- The statistics records of a tile that is loaded. -/
def Dev.statsLoaded (d : Dev) (n : Fin 32) (st : List Byte) : Dev :=
  (d.tsZero n (d.getN (QNT_TABLE_BASE n)) 131072).tsWrite n (d.getN (QNT_TABLE_BASE n))
    (st ++ (List.replicate (4096 - st.length / 32) plainRecord).flatten)

/-- Between passes, with the quantiser's generator at its seed. -/
def Dev.passReset (d : Dev) (n : Fin 32) : Dev :=
  ((d.setF (TCTL_PASS_STATUS_PASS_SEQ n) 0).setF (TCTL_PASS_STATUS_STATE n) 0).setR (QNT_LFSR_STATE n)
    (((d.setF (TCTL_PASS_STATUS_PASS_SEQ n) 0).setF (TCTL_PASS_STATUS_STATE n) 0).getR (QNT_LFSR_SEED n))

theorem loadTile_eq (d : Dev) (n : Fin 32) (a f c r st : List Byte) : d.loadTile n [a, f, c, r, st] =
    (((((d.onTile n fun t => t.loaded a f r).statsLoaded n st).passReset n).nullPage n).tripsZero n
      ((((((d.onTile n fun t => t.loaded a f r).statsLoaded n st).passReset n).nullPage n).router n).intakes.toList.filter Intake.on)).routerStat n := by
  simp only [Dev.loadTile, Dev.statsLoaded, Dev.passReset, Dev.tripsZero, Tile.loaded]

theorem storeOnly_statsLoaded (d : Dev) (n : Fin 32) (st : List Byte) : d.storeOnly n (d.statsLoaded n st) :=
  (storeOnly_tsZero d n _ _).trans (storeOnly_tsWrite _ n _ _)

theorem passReset_effect (d : Dev) (n : Fin 32) : d.regsOnly (d.passReset n) ∧ d.besideTile n (d.passReset n) ∧
    (d.passReset n).loadShown n = ((d.tile n).imem, (d.tile n).pages, 0, d.getR (QNT_LFSR_SEED n), d.getR (QNT_LFSR_SEED n)) := by
  obtain ⟨x, hx⟩ : ∃ x, x = (d.setF (TCTL_PASS_STATUS_PASS_SEQ n) 0).setF (TCTL_PASS_STATUS_STATE n) 0 := ⟨_, rfl⟩
  have honly : d.regsOnly x := hx ▸ (regsOnly_setF d _ _).trans (regsOnly_setF _ _ _)
  have hbeside : d.besideTile n x := hx ▸ (besideTile_setF d _ (tileRange_passStatus n)).trans (besideTile_setF _ _ (tileRange_passStatus n))
  have hreset : d.passReset n = x.setR (QNT_LFSR_STATE n) (x.getR (QNT_LFSR_SEED n)) := by rw [hx, Dev.passReset]
  have hset : x.regsOnly (d.passReset n) := hreset ▸ regsOnly_setR x _ _
  have hregs : ∀ p, p ≠ TCTL_PASS_STATUS n → x.getR p = d.getR p := fun p hp => by rw [hx, getR_setF_ne _ _ hp, getR_setF_ne _ _ hp]
  have hseed : x.getR (QNT_LFSR_SEED n) = d.getR (QNT_LFSR_SEED n) := hregs _ (by simp only [QNT_LFSR_SEED, TCTL_PASS_STATUS]; omega)
  have htile : (d.passReset n).tile n = d.tile n := tile_congr ((honly.trans hset).fields.2.2.1) n
  refine ⟨honly.trans hset, hbeside.trans ⟨fun m _ => tile_congr hset.fields.2.2.1 m, fun p hp => ?_⟩, ?_⟩
  · rw [hreset]
    exact getR_setR_ne x _ fun he => hp (he ▸ (tileRange_lfsr n).1)
  · have hstate : (d.passReset n).getF (TCTL_PASS_STATUS_STATE n) = 0 := by
      rw [hreset, getF_congr (getR_setR_ne x _ (by simp only [TCTL_PASS_STATUS, QNT_LFSR_STATE]; omega)), hx, getF_setF_self _ _ _ (by simp),
        Nat.zero_mod]
    rw [Dev.loadShown, htile, hstate, hreset, getR_setR_self, getR_setR_ne x _ (by simp only [QNT_LFSR_SEED, QNT_LFSR_STATE]; omega), hseed]

/-- A tile that is loaded holds its programs and no page, stands before its first pass, and its quantiser's generator is at the seed. -/
theorem loadTile_effect (d : Dev) (n : Fin 32) (a f c r st : List Byte) : let e := d.loadTile n [a, f, c, r, st]
    d.tilesRegsOnly e ∧ d.besideTile n e ∧
    e.loadShown n = (memOf 0 a ++ memOf 0x400000 f, [], 0, d.getR (QNT_LFSR_SEED n), d.getR (QNT_LFSR_SEED n)) := by
  intro e
  obtain ⟨x, hx⟩ : ∃ x, x = (d.onTile n fun t => t.loaded a f r).statsLoaded n st := ⟨_, rfl⟩
  have hstats : (d.onTile n fun t => t.loaded a f r).storeOnly n x := hx ▸ storeOnly_statsLoaded _ n st
  obtain ⟨⟨m, hm⟩, -, hregs, -⟩ := hstats.fields
  obtain ⟨honly, hbeside, hshown⟩ := passReset_effect x n
  have hnull := storeOnly_nullPage (x.passReset n) n
  obtain ⟨y, hy⟩ : ∃ y, y = (x.passReset n).nullPage n := ⟨_, rfl⟩
  rw [← hy] at hnull
  obtain ⟨l, hl⟩ : ∃ l, l = (y.router n).intakes.toList.filter Intake.on := ⟨_, rfl⟩
  obtain ⟨htripsOnly, htrips⟩ := tripsZero_effect y n l
  obtain ⟨hst, -, -, -, hstregs⟩ := routerStat_effect (y.tripsZero n l) n
  have he : e = (y.tripsZero n l).routerStat n := by rw [hl, hy, hx]; exact loadTile_eq d n a f c r st
  have hend : (y.tripsZero n l).regsOnly ((y.tripsZero n l).routerStat n) := (regsOnly_setF _ _ _).trans (regsOnly_setF _ _ _)
  have hlast : ∀ p, (p < tileBase n + 0x100 ∨ tileBase n + 0x200 ≤ p) → p ≠ XPT_STATUS n → e.getR p = y.getR p := fun p hp hne => by
    rw [he, hstregs p (by simpa using hne), htrips p hp]
  have htile : e.tile n = y.tile n := tile_congr (by rw [he, hst, htripsOnly.fields.2.2.1]) n
  refine ⟨?_, ?_, ?_⟩
  · rw [he]
    exact (((((tilesRegsOnly_onTile d n _).trans hstats.tilesRegsOnly).trans honly.tilesRegsOnly).trans hnull.tilesRegsOnly).trans
      htripsOnly.tilesRegsOnly).trans hend.tilesRegsOnly
  · refine ((((besideTile_onTile n d _).trans hstats.besideTile).trans hbeside).trans hnull.besideTile).trans
      ⟨fun k _ => tile_congr (by rw [he, hst, htripsOnly.fields.2.2.1]) k, fun p hp => hlast p ?_ fun h => hp ?_⟩
    · simp only [tileRange] at hp
      omega
    · rw [h]
      simp only [tileRange, XPT_STATUS]
      omega
  · have hkept : e.loadShown n = y.loadShown n := loadShown_congr (by rw [htile]) (by rw [htile]) fun p hp =>
      hlast p (by simp only [TCTL_PASS_STATUS, QNT_LFSR_STATE, QNT_LFSR_SEED] at hp; omega)
        (by simp only [TCTL_PASS_STATUS, QNT_LFSR_STATE, QNT_LFSR_SEED, XPT_STATUS] at hp ⊢; omega)
    have hseed : x.getR (QNT_LFSR_SEED n) = d.getR (QNT_LFSR_SEED n) := (getR_of_regs hregs _).trans (getR_onTile d n _ _)
    rw [hkept, hnull.loadShown, hshown, hm, tile_onTile_self, hseed]
    rfl

end Sys2Proof.Machine
end

section
/-! The parts of GROUP_START (R298): the tiles of the mask, the bind, the STARTING group and its start. -/

namespace Sys2Proof.Machine

open Reg

/-! The tiles of the mask. -/

/-- A view that only steps of one key change is what the step of that key leaves, where each key comes once. -/
theorem foldl_view_key {α β γ κ : Type} (g : β → γ) (f : β → α → β) (key : α → κ) {l : List α} {a : α} (ha : a ∈ l)
    (hl : l.Pairwise fun x y => key x ≠ key y) (h : ∀ d, ∀ x, key x ≠ key a → g (f d x) = g d) (d : β) :
    ∃ w, g w = g d ∧ g (l.foldl f d) = g (f w a) := by
  obtain ⟨u, v, rfl⟩ := List.append_of_mem ha
  obtain ⟨-, hright, hcross⟩ := List.pairwise_append.mp hl
  obtain ⟨hafter, -⟩ := List.pairwise_cons.mp hright
  refine ⟨u.foldl f d, foldl_view_same g f u (fun x y hy => h x y (hcross y hy a (List.mem_cons_self ..))) d, ?_⟩
  rw [List.foldl_append, List.foldl_cons]
  exact foldl_view_same g f v (fun x y hy => h x y (hafter y hy).symm) _

/-- The sections of the image for the tiles of the descriptor's mask, with their items. -/
def startSecs (b i : List Byte) : List (Fin 32 × List Byte × List (List Byte)) :=
  ((List.finRange 32).filter fun n : Fin 32 => (descMask b).getLsbD n).filterMap fun n => (tileSection i n).map fun x => (n, x)

theorem startSecs_keys (b i : List Byte) : (startSecs b i).Pairwise fun x y => x.1 ≠ y.1 := by
  refine List.pairwise_filterMap.mpr (((List.nodup_finRange 32).filter _).imp fun hne x hx y hy => ?_)
  obtain ⟨_, -, rfl⟩ := Option.map_eq_some_iff.mp hx
  obtain ⟨_, -, rfl⟩ := Option.map_eq_some_iff.mp hy
  exact hne

/-- A load changes its tile and the tile's registers alone, whatever the section holds. -/
theorem loadTile_beside (d : Dev) (n : Fin 32) (l : List (List Byte)) : d.tilesRegsOnly (d.loadTile n l) ∧ d.besideTile n (d.loadTile n l) := by
  by_cases h : ∃ a f c r st, l = [a, f, c, r, st]
  · obtain ⟨a, f, c, r, st, rfl⟩ := h
    obtain ⟨honly, hbeside, -⟩ := loadTile_effect d n a f c r st
    exact ⟨honly, hbeside⟩
  · have hnone : d.loadTile n l = d := by
      unfold Dev.loadTile
      split
      · exact absurd ⟨_, _, _, _, _, rfl⟩ h
      · rfl
    rw [hnone]
    exact ⟨.refl d, .refl n d⟩

/-- Every tile of the mask is loaded. -/
def Dev.tilesLoaded (d : Dev) (l : List (Fin 32 × List Byte × List (List Byte))) : Dev := l.foldl (fun d x => d.loadTile x.1 x.2.2) d

theorem tilesLoaded_effect (d : Dev) (b i : List Byte) : d.tilesRegsOnly (d.tilesLoaded (startSecs b i)) ∧
    (∀ p, p < 0x1000000 → (d.tilesLoaded (startSecs b i)).getR p = d.getR p) ∧
    ∀ x ∈ startSecs b i, ∀ a f c r st : List Byte, x.2.2 = [a, f, c, r, st] → (d.tilesLoaded (startSecs b i)).loadShown x.1 =
      (memOf 0 a ++ memOf 0x400000 f, [], 0, d.getR (QNT_LFSR_SEED x.1), d.getR (QNT_LFSR_SEED x.1)) := by
  have hstep : ∀ (e : Dev) (x : Fin 32 × List Byte × List (List Byte)), e.tilesRegsOnly (e.loadTile x.1 x.2.2) := fun e x =>
    (loadTile_beside e x.1 x.2.2).1
  refine ⟨tilesRegsOnly_foldl hstep _ d, fun p hp => ?_, fun x hx a f c r st hitems => ?_⟩
  · refine foldl_view_same (fun x : Dev => x.getR p) _ _ (fun e x _ => (loadTile_beside e x.1 x.2.2).2.2 p fun h => ?_) d
    simp only [tileRange, tileBase] at h
    omega
  · obtain ⟨w, hw, hlast⟩ := foldl_view_key (Dev.loadShown x.1) (fun (d : Dev) (x : Fin 32 × List Byte × List (List Byte)) => d.loadTile x.1 x.2.2)
      Prod.fst hx (startSecs_keys b i) (fun e y hne => (loadTile_beside e y.1 y.2.2).2.loadShown hne) d
    obtain ⟨-, -, hshown⟩ := loadTile_effect w x.1 a f c r st
    have hseed : w.getR (QNT_LFSR_SEED x.1) = d.getR (QNT_LFSR_SEED x.1) := congrArg (fun v => v.2.2.2.2) hw
    rw [Dev.tilesLoaded, hlast, hitems, hshown, hseed]

/-! The bind. -/

theorem slotBind_effect (d : Dev) (s : Nat) : d.regsOnly (d.slotBind s) ∧ (s < 16 → (d.slotBind s).slotState s = 4) ∧
    ∀ p, p ≠ WTR_SLOT_STATE s → ¬ memBlock p → (d.slotBind s).getR p = d.getR p := by
  obtain ⟨x, hx⟩ : ∃ x, x = (d.setF (WTR_SLOT_STATE_STATE s) 4).setF (WTR_SLOT_STATE_GROUPS s) (d.getF (WTR_SLOT_STATE_GROUPS s) + 1) := ⟨_, rfl⟩
  have honly : d.regsOnly x := hx ▸ (regsOnly_setF d _ _).trans (regsOnly_setF _ _ _)
  have hpages := (linesOnly_kvPagesAll x).2
  rw [Dev.slotBind, ← hx]
  refine ⟨honly.trans (regsOnly_kvPagesAll x), fun hs => ?_, fun p hp hmem => ?_⟩
  · rw [Dev.slotState, getF_congr (hpages _ (by simp only [memBlock, WTR_SLOT_STATE]; omega)), hx, getF_setF_ne _ _ _ _ (by simp) (by simp),
      getF_setF_self _ _ _ (by simp)]
    rfl
  · rw [hpages p hmem, hx, getR_setF_ne _ _ hp, getR_setF_ne _ _ hp]

/-! A group that is STARTING. -/

/-- The group is STARTING with a configuration and the JOINs that came before. -/
def Dev.groupStarting (d : Dev) (g : Fin 4) (cfg : GroupCfg) (joins : List (Nat × Nat)) (lead : Bool) : Dev :=
  (((d.onGroup g fun _ => { Group.reset with cfg := some cfg, joins := joins, startAt := d.now }).setF (SRV_GROUP_STATE_STATE g) 1).setF
    (SRV_GROUP_STATE_LEAD g) (if lead then 1 else 0)).setF (SRV_GROUP_STATE_GEN_FIRST g) 0

theorem groupStarting_effect (d : Dev) (g : Fin 4) (cfg : GroupCfg) (joins : List (Nat × Nat)) (lead : Bool) : let e := d.groupStarting g cfg joins lead
    e.gstate g = 1 ∧ e.isLead g = lead ∧ e.groupEpoch g = d.groupEpoch g ∧
    e.group g = { Group.reset with cfg := some cfg, joins := joins, startAt := d.now } ∧
    (∀ p, p ≠ SRV_GROUP_STATE g → e.getR p = d.getR p) ∧ e.tiles = d.tiles ∧ e.out = d.out ∧ e.mbx = d.mbx ∧ e.now = d.now := by
  intro e
  obtain ⟨x, hx⟩ : ∃ x, x = d.onGroup g fun _ => { Group.reset with cfg := some cfg, joins := joins, startAt := d.now } := ⟨_, rfl⟩
  have he : e = ((x.setF (SRV_GROUP_STATE_STATE g) 1).setF (SRV_GROUP_STATE_LEAD g) (if lead then 1 else 0)).setF (SRV_GROUP_STATE_GEN_FIRST g) 0 := by
    rw [hx]
    rfl
  obtain ⟨hsrv, hout, htiles, hnow, hmbx, -⟩ := (((regsOnly_setF x (SRV_GROUP_STATE_STATE g) 1).trans
    (regsOnly_setF _ (SRV_GROUP_STATE_LEAD g) (if lead then 1 else 0))).trans (regsOnly_setF _ (SRV_GROUP_STATE_GEN_FIRST g) 0)).fields
  rw [← he] at hsrv hout htiles hnow hmbx
  refine ⟨?_, ?_, ?_, ?_, fun p hp => ?_, ?_, ?_, ?_, ?_⟩
  · rw [he, Dev.gstate, getF_setF_ne _ _ _ _ (by simp) (by simp), getF_setF_ne _ _ _ _ (by simp) (by simp), getF_setF_self _ _ _ (by simp)]
    rfl
  · rw [he, Dev.isLead, Dev.flag, getF_setF_ne _ _ _ _ (by simp) (by simp), getF_setF_self _ _ _ (by simp)]
    cases lead <;> rfl
  · rw [he, Dev.groupEpoch, Dev.groupEpoch, getF_setF_ne _ _ _ _ (by simp) (by simp), getF_setF_ne _ _ _ _ (by simp) (by simp),
      getF_setF_ne _ _ _ _ (by simp) (by simp), hx]
    exact getF_congr (getR_onGroup d g _ _)
  · rw [group_congr hsrv, hx, group_onGroup_self]
  · rw [he, getR_setF_ne _ _ hp, getR_setF_ne _ _ hp, getR_setF_ne _ _ hp, hx, getR_onGroup]
  · rw [htiles, hx, tiles_onGroup]
  · rw [hout, hx, out_onGroup]
  · rw [hmbx, hx]
    rfl
  · rw [hnow, hx, now_onGroup]

/-! A group that becomes RUNNING. -/

/-- What the start of a group leaves: it is RUNNING under an EPOCH that its tiles carry, its share is S_MIN, and the command has ended DONE. -/
structure Dev.runs (d e : Dev) (g : Fin 4) (epoch : Nat) : Prop where
  gstate : e.gstate g = 2
  number : e.groupEpoch g = epoch
  lead : e.isLead g = d.isLead g
  busy : e.mbxBusy = false
  status : e.getF HUB_MBX_STATUS_STATUS = 2
  cfg : (e.group g).cfg = (d.group g).cfg
  retry : (e.group g).retryAt = if d.isLead g then some d.now else none
  tiles : e.tiles = d.tiles
  out : e.out = d.out
  share : e.getF (SRV_GROUP_SHARE_S g) = d.getF (SRV_GROUP_SHARE_S_MIN g)
  tileEpoch : ∀ n ∈ e.groupTiles g, e.getF (XPT_CTRL_EPOCH n) = epoch
  regs : ∀ p, p ≠ SRV_GROUP_STATE g → p ≠ SRV_GROUP_SHARE g → ¬ mbxRegs p → (∀ n : Fin 32, p ≠ XPT_CTRL n) → e.getR p = d.getR p

/-- The tiles of the group carry its EPOCH. -/
def Dev.tilesEpoch (d : Dev) (g : Fin 4) (epoch : Nat) : Dev := d.onTiles g fun d n => d.setF (XPT_CTRL_EPOCH n) epoch

theorem tilesEpoch_effect (d : Dev) (g : Fin 4) {epoch : Nat} (hepoch : epoch < 65536) : d.regsOnly (d.tilesEpoch g epoch) ∧
    (∀ p, (∀ n : Fin 32, p ≠ XPT_CTRL n) → (d.tilesEpoch g epoch).getR p = d.getR p) ∧
    ∀ n ∈ d.groupTiles g, (d.tilesEpoch g epoch).getF (XPT_CTRL_EPOCH n) = epoch := by
  refine ⟨regsOnly_foldl _ (fun e n _ => regsOnly_setF e _ _) d, fun p hp => ?_, fun n hn => ?_⟩
  · exact foldl_view_same (fun x : Dev => x.getR p) _ _ (fun e n _ => getR_setF_ne e epoch (hp n)) d
  · obtain ⟨w, -, hw⟩ := foldl_view_at (fun x : Dev => x.getF (XPT_CTRL_EPOCH n)) (fun (d : Dev) (n : Fin 32) => d.setF (XPT_CTRL_EPOCH n) epoch) hn
      (groupTiles_nodup d g) (fun e m hm => getF_setF_ne e _ _ epoch (by simp) (.inl fun h => hm (Fin.ext (by simp only [XPT_CTRL, tileBase] at h; omega)))) d
    refine hw.trans ((getF_setF_self _ _ _ (by simp)).trans ?_)
    exact Nat.mod_eq_of_lt (by simpa using hepoch)

theorem getF_lt (d : Dev) (f : Fld) : d.getF f < 2 ^ (f.hi + 1 - f.lo) := Nat.mod_lt _ (Nat.two_pow_pos _)

/-- The state and the share of a group that starts to run. -/
def Dev.groupRuns (d : Dev) (g : Fin 4) (epoch : Nat) : Dev :=
  let d := (d.setF (SRV_GROUP_STATE_STATE g) 2).setF (SRV_GROUP_STATE_EPOCH g) epoch
  d.setF (SRV_GROUP_SHARE_S g) (d.getF (SRV_GROUP_SHARE_S_MIN g))

/-- What the group keeps as it starts to run. -/
def Group.started (x : Group) (now : Nat) (lead : Bool) : Group :=
  { x with joins := [], lastOrder := now, retryAt := if lead then some now else none }

theorem startRun_eq (d : Dev) (g : Fin 4) (epoch : Nat) : d.startRun g epoch =
    (((d.tilesEpoch g epoch).groupRuns g epoch).onGroup g fun x =>
      x.started ((d.tilesEpoch g epoch).groupRuns g epoch).now (((d.tilesEpoch g epoch).groupRuns g epoch).isLead g)).mbxDone := by
  simp only [Dev.startRun, Dev.tilesEpoch, Dev.groupRuns, Group.started]
  rfl

theorem groupRuns_effect (d : Dev) (g : Fin 4) {epoch : Nat} (hepoch : epoch < 65536) : let e := d.groupRuns g epoch
    d.regsOnly e ∧ e.gstate g = 2 ∧ e.groupEpoch g = epoch ∧ e.isLead g = d.isLead g ∧
    e.getF (SRV_GROUP_SHARE_S g) = d.getF (SRV_GROUP_SHARE_S_MIN g) ∧
    ∀ p, p ≠ SRV_GROUP_STATE g → p ≠ SRV_GROUP_SHARE g → e.getR p = d.getR p := by
  intro e
  obtain ⟨x, hx⟩ : ∃ x, x = (d.setF (SRV_GROUP_STATE_STATE g) 2).setF (SRV_GROUP_STATE_EPOCH g) epoch := ⟨_, rfl⟩
  have he : e = x.setF (SRV_GROUP_SHARE_S g) (x.getF (SRV_GROUP_SHARE_S_MIN g)) := by rw [hx]; rfl
  have hne : SRV_GROUP_SHARE g ≠ SRV_GROUP_STATE g := by simp only [SRV_GROUP_SHARE, SRV_GROUP_STATE]; omega
  have hstate : e.getR (SRV_GROUP_STATE g) = x.getR (SRV_GROUP_STATE g) := by rw [he, getR_setF_ne _ _ hne.symm]
  have hmin : x.getF (SRV_GROUP_SHARE_S_MIN g) = d.getF (SRV_GROUP_SHARE_S_MIN g) :=
    getF_congr (by rw [hx, getR_setF_ne _ _ hne, getR_setF_ne _ _ hne])
  refine ⟨?_, ?_, ?_, ?_, ?_, fun p hp hs => ?_⟩
  · rw [he, hx]
    exact ((regsOnly_setF d _ _).trans (regsOnly_setF _ _ _)).trans (regsOnly_setF _ _ _)
  · rw [gstate_congr hstate, hx, Dev.gstate, getF_setF_ne _ _ _ _ (by simp) (by simp), getF_setF_self _ _ _ (by simp)]
    rfl
  · rw [Dev.groupEpoch, getF_congr hstate, hx, getF_setF_self _ _ _ (by simp)]
    exact Nat.mod_eq_of_lt (by simpa using hepoch)
  · rw [isLead_congr hstate, hx, Dev.isLead, Dev.isLead, Dev.flag, Dev.flag, getF_setF_ne _ _ _ _ (by simp) (by simp),
      getF_setF_ne _ _ _ _ (by simp) (by simp)]
  · have hlt : d.getF (SRV_GROUP_SHARE_S_MIN g) < 256 := getF_lt d (SRV_GROUP_SHARE_S_MIN g)
    rw [he, getF_setF_self _ _ _ (by simp), hmin]
    exact Nat.mod_eq_of_lt (by simpa using hlt)
  · rw [he, getR_setF_ne _ _ hs, hx, getR_setF_ne _ _ hp, getR_setF_ne _ _ hp]

theorem startRun_runs (d : Dev) (g : Fin 4) {epoch : Nat} (hepoch : epoch < 65536) : d.runs (d.startRun g epoch) g epoch := by
  obtain ⟨x, hx⟩ : ∃ x, x = d.tilesEpoch g epoch := ⟨_, rfl⟩
  obtain ⟨honlyx, hregsx, hepochx⟩ := tilesEpoch_effect d g hepoch
  rw [← hx] at honlyx hregsx hepochx
  obtain ⟨y, hy⟩ : ∃ y, y = x.groupRuns g epoch := ⟨_, rfl⟩
  obtain ⟨honlyy, hstate, hgepoch, hlead, hshare, hregsy⟩ := groupRuns_effect x g hepoch
  rw [← hy] at honlyy hstate hgepoch hlead hshare hregsy
  obtain ⟨hsrv, hout, htiles, hnow, -⟩ := (honlyx.trans honlyy).fields
  obtain ⟨z, hz⟩ : ∃ z, z = y.onGroup g fun x => x.started y.now (y.isLead g) := ⟨_, rfl⟩
  have hends := mbxDone_ends z
  have he : d.startRun g epoch = z.mbxDone := by rw [startRun_eq, ← hx, ← hy, hz]
  have hregz : ∀ p, z.getR p = y.getR p := fun p => by rw [hz, getR_onGroup]
  have hmbx : ∀ p, ¬ mbxRegs p → z.mbxDone.getR p = y.getR p := fun p hp => (hends.only.2 p hp).trans (hregz p)
  have hself : z.group g = (d.group g).started d.now (d.isLead g) := by
    have hleadd : x.isLead g = d.isLead g := isLead_congr (hregsx _ fun n => by simp only [SRV_GROUP_STATE, XPT_CTRL, tileBase]; omega)
    rw [hz, group_onGroup_self, group_congr hsrv, hnow, hlead, hleadd]
  have hgroup : z.mbxDone.group g = (d.group g).started d.now (d.isLead g) := (hends.group g).trans hself
  have hshareReg : ¬ mbxRegs (SRV_GROUP_SHARE g) := by simp only [mbxRegs, SRV_GROUP_SHARE, HUB_MBX_CMD, HUB_MBX_STATUS]; omega
  have hstateReg : ¬ mbxRegs (SRV_GROUP_STATE g) := by simp only [mbxRegs, SRV_GROUP_STATE, HUB_MBX_CMD, HUB_MBX_STATUS]; omega
  rw [he]
  refine ⟨(gstate_congr (hmbx _ hstateReg)).trans hstate, (getF_congr (hmbx _ hstateReg)).trans hgepoch, ?_, hends.busy, hends.status, ?_, ?_, ?_, ?_,
    ?_, fun n hn => ?_, fun p hs hsh hm hx' => ?_⟩
  · rw [isLead_congr (hmbx _ hstateReg), hlead]
    exact isLead_congr (hregsx _ fun n => by simp only [SRV_GROUP_STATE, XPT_CTRL, tileBase]; omega)
  · rw [hgroup, Group.started]
  · rw [hgroup, Group.started]
  · rw [hends.tiles, hz, tiles_onGroup, htiles]
  · rw [hends.out, hz, out_onGroup, hout]
  · rw [getF_congr (hmbx _ hshareReg), hshare]
    exact getF_congr (hregsx _ fun n => by simp only [SRV_GROUP_SHARE, XPT_CTRL, tileBase]; omega)
  · have htilesg : z.mbxDone.groupTiles g = d.groupTiles g := groupTiles_congr (by rw [hgroup]; rfl)
      ((hmbx _ (by unfold mbxRegs; decide)).trans ((hregsy _ (by simp only [HUB_TILE_INSERVICE, SRV_GROUP_STATE]; omega)
        (by simp only [HUB_TILE_INSERVICE, SRV_GROUP_SHARE]; omega)).trans (hregsx _ fun n => by simp only [HUB_TILE_INSERVICE, XPT_CTRL, tileBase]; omega)))
    rw [htilesg] at hn
    rw [getF_congr (hmbx _ (by simp only [mbxRegs, XPT_CTRL, tileBase, HUB_MBX_CMD, HUB_MBX_STATUS]; omega)),
      getF_congr (hregsy _ (by simp only [XPT_CTRL, tileBase, SRV_GROUP_STATE]; omega) (by simp only [XPT_CTRL, tileBase, SRV_GROUP_SHARE]; omega))]
    exact hepochx n hn
  · rw [hmbx p hm, hregsy p hs hsh, hregsx p hx']

end Sys2Proof.Machine
end

section
/-! Obligation O58 (R296, R298): GROUP_START, the JOINs, and the join timeout. -/

namespace Sys2Proof.Machine

open Reg

/-! The lead's start order. -/

/-- The EPOCH that the lead chooses: one past the largest that it and its members have seen. -/
def Dev.nextEpoch (d : Dev) (g : Fin 4) : Nat :=
  ((((d.group g).joins.filter fun j => (d.followers g).contains j.1).foldl (fun m j => max m j.2) (d.groupEpoch g)) + 1) % 65536

/-- The order that starts the group. -/
def Dev.startOrder (d : Dev) (g : Fin 4) : StepOrder := ⟨d.gstep g, d.nextEpoch g, g, 4, d.now, [], [], []⟩

theorem tryStart_eq {d : Dev} {g : Fin 4} (hst : d.gstate g = 1) (hlead : d.isLead g = true)
    (hall : ((d.followers g).all fun p => (d.group g).joins.any fun j => j.1 == p) = true) : d.tryStart g =
      (d.emits ((d.followers g).map fun p => .mgmt p "STEP_ORDER" (orderArgs (d.startOrder g)))).startRun g (d.nextEpoch g) := by
  rw [Dev.tryStart, if_pos ⟨hst, hlead, hall⟩]
  rfl

theorem tryStart_waits {d : Dev} {g : Fin 4} (hst : d.gstate g ≠ 1) : d.tryStart g = d := by
  rw [Dev.tryStart, if_neg fun h => hst h.1]

/-- What a group that starts leaves, the start order sent. -/
theorem tryStart_runs {d : Dev} {g : Fin 4} (hst : d.gstate g = 1) (hlead : d.isLead g = true)
    (hall : ((d.followers g).all fun p => (d.group g).joins.any fun j => j.1 == p) = true) :
    (d.emits ((d.followers g).map fun p => .mgmt p "STEP_ORDER" (orderArgs (d.startOrder g)))).runs (d.tryStart g) g (d.nextEpoch g) :=
  tryStart_eq hst hlead hall ▸ startRun_runs _ g (Nat.mod_lt _ (by decide))

/-! GROUP_START: what its command finds. -/

theorem begins_paramsZeroFrom {d e : Dev} {now j : Nat} (h : d.begins e now) (hz : ∀ k, j ≤ k → k < 8 → d.getN (HUB_MBX_P k) = 0) :
    e.paramsZeroFrom j = true := by
  rw [Dev.paramsZeroFrom, List.all_eq_true]
  intro i hi
  have hlt := List.mem_range.mp hi
  by_cases hij : i < j
  · simp [hij]
  · simp [h.param i hlt, hz i (by omega) hlt]

/-- This package's number, the groups and their registers are what they were before the command. -/
theorem self_mbxBegun (d : Dev) (code now : Nat) : (d.mbxBegun code now).self = d.self :=
  getF_congr ((mbxBegun_effect d code now).regs _ (by unfold mbxRegs; decide))

theorem descOk_congr {d e : Dev} (h : e.self = d.self) (b : List Byte) (len : Nat) : e.descOk b len = d.descOk b len := by
  rw [Dev.descOk, Dev.descOk, h]

section
variable {s : State} (hready : s.dev.mbxReady) (hz : ∀ a, 3 ≤ a → a < 8 → s.dev.getN (HUB_MBX_P a) = 0) (now : Nat)
include hready hz

theorem exec_groupStart_unread (img : Option (List Byte)) :
    exec (.groupStart now none img) s = .next (s.put ((s.dev.mbxBegun 0x0201 now).mbxFail 0x57)) := by
  have hzero := begins_paramsZeroFrom (mbxBegun_effect s.dev 0x0201 now) hz
  change execGroupStart now none img s = _
  refine onDevF_mbxIssue hready ?_
  exact if_neg (by rw [← Dev.mbxBegun, hzero]; decide)

variable {b : List Byte}

omit hready hz in
theorem descOk_mbxBegun : (s.dev.mbxBegun 0x0201 now).descOk b ((s.dev.mbxBegun 0x0201 now).param 2) = s.dev.descOk b (s.dev.getN (HUB_MBX_P 2)) := by
  rw [descOk_congr (self_mbxBegun s.dev 0x0201 now), (mbxBegun_effect s.dev 0x0201 now).param 2 (by decide)]

theorem exec_groupStart_bad (img : Option (List Byte)) (hbad : s.dev.descOk b (s.dev.getN (HUB_MBX_P 2)) = false) :
    exec (.groupStart now (some b) img) s = .next (s.put ((s.dev.mbxBegun 0x0201 now).mbxFail 0x30)) := by
  have hzero := begins_paramsZeroFrom (mbxBegun_effect s.dev 0x0201 now) hz
  change execGroupStart now (some b) img s = _
  refine onDevF_mbxIssue hready ?_
  refine (if_neg (by rw [← Dev.mbxBegun, hzero]; decide)).trans ?_
  exact if_pos (by rw [← Dev.mbxBegun, descOk_mbxBegun, hbad]; decide)

variable (hok : s.dev.descOk b (s.dev.getN (HUB_MBX_P 2)) = true) {g : Fin 4} (hg : g.val = bLe b 4 1)
include hok hg

theorem exec_groupStart_busy (img : Option (List Byte)) (hcheck : (s.dev.mbxBegun 0x0201 now).startCheck g b img = some 0x33) :
    exec (.groupStart now (some b) img) s = .next (s.put ((s.dev.mbxBegun 0x0201 now).mbxFail 0x33)) := by
  have hzero := begins_paramsZeroFrom (mbxBegun_effect s.dev 0x0201 now) hz
  have hgroup : Fin.ofNat 4 (bLe b 4 1) = g := by rw [← hg, Fin.ofNat_val_eq_self]
  change execGroupStart now (some b) img s = _
  refine onDevF_mbxIssue hready ?_
  refine (if_neg (by rw [← Dev.mbxBegun, hzero]; decide)).trans ?_
  refine (if_neg (by rw [← Dev.mbxBegun, descOk_mbxBegun, hok]; decide)).trans ?_
  rw [Dev.mbxBegun] at hcheck ⊢
  simp only [hgroup, hcheck]

theorem exec_groupStart_starts (i : List Byte) (hcheck : (s.dev.mbxBegun 0x0201 now).startCheck g b (some i) = none) :
    exec (.groupStart now (some b) (some i)) s = .next (s.put ((s.dev.mbxBegun 0x0201 now).startGroup g b i)) := by
  have hzero := begins_paramsZeroFrom (mbxBegun_effect s.dev 0x0201 now) hz
  have hgroup : Fin.ofNat 4 (bLe b 4 1) = g := by rw [← hg, Fin.ofNat_val_eq_self]
  change execGroupStart now (some b) (some i) s = _
  refine onDevF_mbxIssue hready ?_
  refine (if_neg (by rw [← Dev.mbxBegun, hzero]; decide)).trans ?_
  refine (if_neg (by rw [← Dev.mbxBegun, descOk_mbxBegun, hok]; decide)).trans ?_
  rw [Dev.mbxBegun] at hcheck ⊢
  simp only [hgroup, hcheck]

end

/-! A start whose checks pass. -/

/-- The configuration that a group is started with. -/
def startCfg (b i : List Byte) : GroupCfg :=
  ⟨bLe b 8 4, descMembers b, descMask b, bLe b 0x2A 1, bLe b 5 1, bLe b 0x24 4, bLe b 0x28 2, bLe b 0x10 8,
    (match startSecs b i with
      | x :: _ => basketsOf (x.2.2.getD 2 [])
      | [] => []),
    Vector.ofFn fun n : Fin 32 => match (startSecs b i).find? fun x => x.1 == n with
      | some x => Config.kvStreams x.2.1
      | none => 0⟩

theorem startGroup_eq (d : Dev) (g : Fin 4) (b i : List Byte) : d.startGroup g b i =
    (let w := if (d.tilesLoaded (startSecs b i)).gstate g = 0 then d.tilesLoaded (startSecs b i) else (d.tilesLoaded (startSecs b i)).groupIdle g
    let lead := bLe b 8 4 == (w.slotBind (bLe b 5 1)).self
    let x := (w.slotBind (bLe b 5 1)).groupStarting g (startCfg b i) (d.group g).joins lead
    if ¬ w.bindOk (bLe b 5 1) (bLe b 0x2A 1) then w.mbxFail 0x31
    else if lead then x.tryStart g else x.emit (.mgmt (bLe b 8 4) "JOIN" [g.val, x.self, x.groupEpoch g])) := by
  have hself : ∀ (w : Dev) (f : Group → Group), (w.onGroup g f).self = w.self := fun w f => getF_congr (getR_onGroup w g f _)
  simp only [Dev.startGroup, Dev.groupStarting, startCfg, Dev.tilesLoaded, startSecs, hself] <;> rfl

section
variable {d : Dev} {g : Fin 4} {b i : List Byte}

/-- What a group whose start passed every check stands as, before the lead starts it or a follower sends its JOIN. -/
structure Dev.startsAs (d x : Dev) (g : Fin 4) (b i : List Byte) : Prop where
  gstate : x.gstate g = 1
  lead : x.isLead g = (bLe b 8 4 == d.self)
  number : x.groupEpoch g = d.groupEpoch g
  cfg : ∃ c : GroupCfg, (x.group g).cfg = some c ∧ c.lead = bLe b 8 4 ∧ c.members = descMembers b ∧ c.tiles = descMask b ∧ c.slot = bLe b 5 1 ∧
    c.ctx = bLe b 0x2A 1
  joins : (x.group g).joins = (d.group g).joins
  startAt : (x.group g).startAt = d.now
  slot : x.slotState (bLe b 5 1) = 4
  shown : ∀ y ∈ startSecs b i, ∀ a f c r st : List Byte, y.2.2 = [a, f, c, r, st] → x.loadShown y.1 =
    (memOf 0 a ++ memOf 0x400000 f, [], 0, d.getR (QNT_LFSR_SEED y.1), d.getR (QNT_LFSR_SEED y.1))
  self : x.self = d.self
  out : x.out = d.out
  mbx : x.mbx = d.mbx
  now : x.now = d.now

/-- The tiles are loaded, the slot is bound, and the group is STARTING. -/
theorem groupStarting_startsAs (hs : bLe b 5 1 < 16) : d.startsAs (((d.tilesLoaded (startSecs b i)).slotBind (bLe b 5 1)).groupStarting g
    (startCfg b i) (d.group g).joins (bLe b 8 4 == d.self)) g b i := by
  obtain ⟨x, hx⟩ : ∃ x, x = d.tilesLoaded (startSecs b i) := ⟨_, rfl⟩
  obtain ⟨honly, hregs, hshown⟩ := tilesLoaded_effect d b i
  rw [← hx] at honly hregs hshown
  obtain ⟨hsrvx, houtx, hmbxx, hnowx⟩ := honly.fields
  obtain ⟨y, hy⟩ : ∃ y, y = x.slotBind (bLe b 5 1) := ⟨_, rfl⟩
  obtain ⟨honlyy, hslotState, hregsy⟩ := slotBind_effect x (bLe b 5 1)
  rw [← hy] at honlyy hslotState hregsy
  obtain ⟨hsrvy, houty, htilesy, hnowy, hmbxy, -⟩ := honlyy.fields
  obtain ⟨hstate, hleads, hnumber, hgroup, hregsz, htilesz, houtz, hmbxz, hnowz⟩ :=
    groupStarting_effect y g (startCfg b i) (d.group g).joins (bLe b 8 4 == d.self)
  have hlow : ∀ p, p < 0x700000 → p < 0x100100 ∨ 0x100200 ≤ p → y.getR p = d.getR p := fun p hp hpend =>
    (hregsy p (by simp only [WTR_SLOT_STATE]; omega) (by unfold memBlock; omega)).trans (hregs p (by omega))
  rw [← hx, ← hy]
  refine ⟨hstate, hleads, ?_, ⟨startCfg b i, by rw [hgroup], rfl, rfl, rfl, rfl, rfl⟩, by rw [hgroup], by rw [hgroup, hnowy, hnowx], ?_,
    fun v hv a f c r st hitems => ?_, ?_, (houtz.trans houty).trans houtx, (hmbxz.trans hmbxy).trans hmbxx, (hnowz.trans hnowy).trans hnowx⟩
  · exact hnumber.trans (getF_congr (hlow _ (by simp only [SRV_GROUP_STATE]; omega) (by simp only [SRV_GROUP_STATE]; omega)))
  · exact (getF_congr (hregsz _ (by simp only [WTR_SLOT_STATE, SRV_GROUP_STATE]; omega))).trans (hslotState hs)
  · rw [← hshown v hv a f c r st hitems]
    refine loadShown_congr (by rw [tile_congr (htilesz.trans htilesy)]) (by rw [tile_congr (htilesz.trans htilesy)]) fun p hp => ?_
    simp only [TCTL_PASS_STATUS, QNT_LFSR_STATE, QNT_LFSR_SEED, tileBase] at hp
    rw [hregsz p (by simp only [SRV_GROUP_STATE]; omega)]
    exact hregsy p (by simp only [WTR_SLOT_STATE]; omega) (by unfold memBlock; omega)
  · exact getF_congr ((hregsz _ (by simp only [FAB_SELF, SRV_GROUP_STATE]; omega)).trans
      (hlow _ (by simp only [FAB_SELF]; omega) (by simp only [FAB_SELF]; omega)))

theorem slot_self (d : Dev) (b i : List Byte) : ((d.tilesLoaded (startSecs b i)).slotBind (bLe b 5 1)).self = d.self := by
  obtain ⟨-, hregs, -⟩ := tilesLoaded_effect d b i
  obtain ⟨-, -, hregsy⟩ := slotBind_effect (d.tilesLoaded (startSecs b i)) (bLe b 5 1)
  exact getF_congr ((hregsy _ (by simp only [FAB_SELF, WTR_SLOT_STATE]; omega) (by unfold memBlock; decide)).trans
    (hregs _ (by simp only [FAB_SELF]; omega)))

/-- Steps 1 to 5 of R298 for an IDLE group: the lead starts the group, or waits for its members; a follower sends its JOIN. -/
theorem startGroup_starts (hs : bLe b 5 1 < 16) (hst : d.gstate g = 0)
    (hbind : (d.tilesLoaded (startSecs b i)).bindOk (bLe b 5 1) (bLe b 0x2A 1) = true) : ∃ x, d.startsAs x g b i ∧ d.startGroup g b i =
      if bLe b 8 4 = d.self then x.tryStart g else x.emit (.mgmt (bLe b 8 4) "JOIN" [g.val, d.self, d.groupEpoch g]) := by
  obtain ⟨-, hregs, -⟩ := tilesLoaded_effect d b i
  have hidle : (d.tilesLoaded (startSecs b i)).gstate g = 0 := (gstate_congr (hregs _ (by simp only [SRV_GROUP_STATE]; omega))).trans hst
  have hstarts := groupStarting_startsAs (d := d) (g := g) (i := i) hs
  have heq := startGroup_eq d g b i
  simp only [hidle, if_true, hbind, not_true_eq_false, if_false, slot_self, beq_iff_eq, hstarts.self, hstarts.number] at heq
  exact ⟨_, hstarts, heq⟩

end

/-! What is kept of it as the group starts to run, or its JOIN is sent. -/

/-- The group's configuration, its slot's state and what its tiles show of their load stay. -/
structure Dev.keepsStart (x e : Dev) (g : Fin 4) : Prop where
  cfg : (e.group g).cfg = (x.group g).cfg
  slot : ∀ k, k < 16 → e.slotState k = x.slotState k
  shown : ∀ n, e.loadShown n = x.loadShown n

theorem keepsStart_emit (x : Dev) (o : Output) (g : Fin 4) : x.keepsStart (x.emit o) g :=
  ⟨by rw [group_emit], fun _ _ => getF_congr (getR_emit x o _), fun n => loadShown_congr (congrArg Tile.imem (tile_congr (tiles_emit x o) n))
    (congrArg Tile.pages (tile_congr (tiles_emit x o) n)) fun p _ => getR_emit x o p⟩

theorem Dev.runs.keepsStart {x e : Dev} {g : Fin 4} {epoch : Nat} (h : x.runs e g epoch) : x.keepsStart e g := by
  refine ⟨h.cfg, fun k hk => getF_congr (h.regs _ ?_ ?_ ?_ fun n => ?_), fun n => ?_⟩
  · simp only [WTR_SLOT_STATE, SRV_GROUP_STATE]; omega
  · simp only [WTR_SLOT_STATE, SRV_GROUP_SHARE]; omega
  · simp only [mbxRegs, WTR_SLOT_STATE, HUB_MBX_CMD, HUB_MBX_STATUS]; omega
  · simp only [WTR_SLOT_STATE, XPT_CTRL, tileBase]; omega
  · refine loadShown_congr (by rw [tile_congr h.tiles]) (by rw [tile_congr h.tiles]) fun p hp => ?_
    simp only [TCTL_PASS_STATUS, QNT_LFSR_STATE, QNT_LFSR_SEED, tileBase] at hp
    refine h.regs p ?_ ?_ ?_ fun m => ?_
    · simp only [SRV_GROUP_STATE]; omega
    · simp only [SRV_GROUP_SHARE]; omega
    · simp only [mbxRegs, HUB_MBX_CMD, HUB_MBX_STATUS]; omega
    · simp only [XPT_CTRL, tileBase]; omega

theorem keepsStart_emits {x e : Dev} {l : List Output} {g : Fin 4} (h : (x.emits l).keepsStart e g) : x.keepsStart e g :=
  ⟨h.cfg, h.slot, h.shown⟩

theorem keepsStart_tryStart (x : Dev) (g : Fin 4) : x.keepsStart (x.tryStart g) g := by
  by_cases h : x.gstate g = 1 ∧ x.isLead g = true ∧ ((x.followers g).all fun p => (x.group g).joins.any fun j => j.1 == p) = true
  · obtain ⟨hst, hlead, hall⟩ := h
    exact keepsStart_emits (tryStart_runs hst hlead hall).keepsStart
  · rw [Dev.tryStart, if_neg h]
    exact ⟨rfl, fun _ _ => rfl, fun _ => rfl⟩

/-- What O58 says of every start whose checks pass. -/
structure Dev.startedOn (d e : Dev) (g : Fin 4) (b i : List Byte) : Prop where
  cfg : ∃ c : GroupCfg, (e.group g).cfg = some c ∧ c.lead = bLe b 8 4 ∧ c.members = descMembers b ∧ c.tiles = descMask b ∧ c.slot = bLe b 5 1 ∧
    c.ctx = bLe b 0x2A 1
  slot : e.slotState (bLe b 5 1) = 4
  tiles : ∀ x ∈ startSecs b i, ∀ (a f c r st : List Byte), x.2.2 = [a, f, c, r, st] → (e.tile x.1).imem = memOf 0 a ++ memOf 0x400000 f ∧
    (e.tile x.1).pages = [] ∧ e.getF (TCTL_PASS_STATUS_STATE x.1) = 0 ∧ e.getR (QNT_LFSR_STATE x.1) = d.getR (QNT_LFSR_SEED x.1)

theorem Dev.startsAs.startedOn {d x e : Dev} {g : Fin 4} {b i : List Byte} (h : d.startsAs x g b i) (hs : bLe b 5 1 < 16) (hk : x.keepsStart e g) :
    d.startedOn e g b i := by
  obtain ⟨c, hc, hfields⟩ := h.cfg
  refine ⟨⟨c, hk.cfg.trans hc, hfields⟩, (hk.slot _ hs).trans h.slot, fun v hv a f c r st hitems => ?_⟩
  have hshown := (hk.shown v.1).trans (h.shown v hv a f c r st hitems)
  exact ⟨congrArg Prod.fst hshown, congrArg (fun x => x.2.1) hshown, congrArg (fun x => x.2.2.1) hshown, congrArg (fun x => x.2.2.2.1) hshown⟩

/-- A lead without other members starts the group under the next EPOCH. -/
theorem startsAs_alone {d x : Dev} {g : Fin 4} {b i : List Byte} (h : d.startsAs x g b i) (hlead : bLe b 8 4 = d.self)
    (hmem : descMembers b = [d.self]) : x.runs (x.tryStart g) g ((d.groupEpoch g + 1) % 65536) := by
  obtain ⟨c, hc, -, hm, -⟩ := h.cfg
  have hfollow : x.followers g = [] := by rw [Dev.followers, Group.memberList, hc, h.self]; simp [hm, hmem]
  have hnext : x.nextEpoch g = (d.groupEpoch g + 1) % 65536 := by simp [Dev.nextEpoch, hfollow, h.number]
  have hruns := tryStart_runs h.gstate (h.lead.trans (by rw [hlead]; simp)) (by rw [hfollow]; rfl)
  rw [hnext, hfollow, List.map_nil, Dev.emits, List.append_nil] at hruns
  exact hruns

/-! JOIN and the join timeout. -/

/-- The lead holds a JOIN: the last of each package. -/
def Group.joined (x : Group) (p e : Nat) : Group := { x with joins := x.joins.filter (fun j => j.1 != p) ++ [(p, e)] }

section
variable {s : State} (hf : s.dev.frozen = false) {g : Fin 4} {pkg : BitVec 17} {epoch : BitVec 16} (now : Nat)
include hf

theorem exec_join (hst : s.dev.gstate g < 2) : exec (.join g pkg epoch now) s =
    .next (s.put (((s.dev.at_ now).onGroup g fun x => x.joined pkg.toNat epoch.toNat).tryStart g)) := by
  change execJoin g pkg epoch now s = _
  refine onRun_eq hf ?_
  exact if_neg fun h => by rw [gstate_at_] at h; omega

theorem exec_join_late (hst : s.dev.gstate g = 2) : exec (.join g pkg epoch now) s = .next (s.put (s.dev.at_ now)) := by
  change execJoin g pkg epoch now s = _
  refine onRun_eq hf ?_
  exact if_pos (by rw [gstate_at_]; omega)

/-- A group that is not STARTING holds the JOIN. -/
theorem join_held (hst : s.dev.gstate g = 0) : ∃ e : Dev, exec (.join g pkg epoch now) s = .next (s.put e) ∧
    (pkg.toNat, epoch.toNat) ∈ (e.group g).joins ∧ e.regs = s.dev.regs ∧ e.out = s.dev.out ∧ e.tiles = s.dev.tiles ∧
    ∀ k, k ≠ g → e.group k = s.dev.group k := by
  obtain ⟨y, hy⟩ : ∃ y, y = (s.dev.at_ now).onGroup g fun x => x.joined pkg.toNat epoch.toNat := ⟨_, rfl⟩
  have hidle : y.gstate g ≠ 1 := by
    rw [hy, gstate_congr (getR_onGroup _ _ _ _), gstate_at_]
    omega
  refine ⟨y, ?_, ?_, ?_, ?_, ?_, fun k hk => ?_⟩
  · rw [exec_join hf now (by omega), ← hy, tryStart_waits hidle]
  · rw [hy, group_onGroup_self, Group.joined]
    exact List.mem_append_right _ (List.mem_singleton_self _)
  · rw [hy, regs_onGroup, regs_at_]
  · rw [hy, out_onGroup, out_at_]
  · rw [hy, tiles_onGroup, tiles_at_]
  · rw [hy, group_onGroup_ne _ _ hk, group_at_]

/-- The last JOIN that a STARTING lead awaits: it sends the start order and the group runs. -/
theorem join_starts (hst : s.dev.gstate g = 1) (hlead : s.dev.isLead g = true) (hfollow : s.dev.followers g = [pkg.toNat])
    (hjoins : (s.dev.group g).joins = []) : ∃ (e : Dev) (o : StepOrder), exec (.join g pkg epoch now) s = .next (s.put e) ∧ e.gstate g = 2 ∧
      e.groupEpoch g = (max (s.dev.groupEpoch g) epoch.toNat + 1) % 65536 ∧ o.epoch = e.groupEpoch g ∧ o.flags = 4 ∧ o.entries = [] ∧
      e.out = s.dev.out ++ [.mgmt pkg.toNat "STEP_ORDER" (orderArgs o)] ∧ e.getF HUB_MBX_STATUS_STATUS = 2 ∧ e.mbxBusy = false ∧
      e.getF (SRV_GROUP_SHARE_S g) = s.dev.getF (SRV_GROUP_SHARE_S_MIN g) ∧ e.tiles = s.dev.tiles := by
  obtain ⟨y, hy⟩ : ∃ y, y = (s.dev.at_ now).onGroup g fun x => x.joined pkg.toNat epoch.toNat := ⟨_, rfl⟩
  have hreg : ∀ p, y.getR p = s.dev.getR p := fun p => by rw [hy, getR_onGroup, getR_at_]
  have hgroup : y.group g = (s.dev.group g).joined pkg.toNat epoch.toNat := by rw [hy, group_onGroup_self, group_at_]
  have hheld : (y.group g).joins = [(pkg.toNat, epoch.toNat)] := by simp [hgroup, Group.joined, hjoins]
  have hself : y.self = s.dev.self := getF_congr (hreg _)
  have hall : y.followers g = [pkg.toNat] := by
    rw [← hfollow, Dev.followers, Dev.followers, hself, hgroup]
    rfl
  have hnext : y.nextEpoch g = (max (s.dev.groupEpoch g) epoch.toNat + 1) % 65536 := by
    have hepoch : y.groupEpoch g = s.dev.groupEpoch g := getF_congr (hreg _)
    simp [Dev.nextEpoch, hheld, hall, hepoch]
  have hruns := tryStart_runs ((gstate_congr (hreg _)).trans hst) ((isLead_congr (hreg _)).trans hlead) (by simp [hall, hheld])
  refine ⟨y.tryStart g, y.startOrder g, by rw [exec_join hf now (by omega), ← hy], hruns.gstate, hruns.number.trans hnext, hruns.number.symm, rfl, rfl,
    ?_, hruns.status, hruns.busy, ?_, ?_⟩
  · rw [hruns.out, out_emits, hall, hy, out_onGroup, out_at_]
    rfl
  · exact hruns.share.trans (getF_congr ((getR_emits y _ _).trans (hreg _)))
  · rw [hruns.tiles, tiles_emits, hy, tiles_onGroup, tiles_at_]

/-- A group that is still STARTING 1 s after GROUP_START is IDLE, and the command fails. -/
theorem joinTimeout_fails (hst : s.dev.gstate g = 1) (hlate : (s.dev.group g).startAt + 1000000000 ≤ max s.dev.now now) :
    ∃ e : Dev, exec (.joinTimeout g now) s = .next (s.put e) ∧ e.gstate g = 0 ∧ e.isLead g = false ∧
      (e.mbxBusy = false ∧ e.getF HUB_MBX_STATUS_STATUS = 5 ∧ e.getF HUB_MBX_STATUS_DETAIL = 0x32) ∧ e.group g = Group.reset ∧
      e.tiles = s.dev.tiles ∧ e.out = s.dev.out := by
  have hidle := groupIdle_idles (s.dev.at_ now) g
  have hends := mbxEnd_ends ((s.dev.at_ now).groupIdle g) (st := 5) (det := 0x32) (by decide) (by decide)
  refine ⟨_, ?_, (hends.gstate g).trans hidle.gstate, (hends.isLead g).trans hidle.lead, ⟨hends.busy, hends.status, hends.detail⟩,
    (hends.group g).trans hidle.group, (hends.tiles.trans hidle.tiles).trans (tiles_at_ _ _), (hends.out.trans hidle.out).trans (out_at_ _ _)⟩
  change execJoinTimeout g now s = _
  refine onRun_eq hf ?_
  exact if_pos ⟨by rw [gstate_at_, hst], by rw [group_at_, now_at_]; exact hlate⟩

theorem exec_joinTimeout_quiet (h : s.dev.gstate g ≠ 1 ∨ max s.dev.now now < (s.dev.group g).startAt + 1000000000) :
    exec (.joinTimeout g now) s = .next (s.put (s.dev.at_ now)) := by
  change execJoinTimeout g now s = _
  refine onRun_eq hf ?_
  refine if_neg fun hc => ?_
  rw [gstate_at_, group_at_, now_at_] at hc
  obtain ⟨hst, hlate⟩ := hc
  exact h.elim (fun hne => hne hst) fun hearly => absurd hlate (Nat.not_le.mpr hearly)

end

end Sys2Proof.Machine
end

section
/-! Obligation O58 (R296, R298), assembled. -/

namespace Sys2Proof.Machine

open Reg

/-- A GROUP_START that fails before it changes anything. -/
theorem startBegun_fails (d : Dev) (g : Fin 4) (now : Nat) {det : Nat} (hdet : det < 256) : let e := (d.mbxBegun 0x0201 now).mbxFail det
    (e.mbxBusy = false ∧ e.getF HUB_MBX_STATUS_STATUS = 5 ∧ e.getF HUB_MBX_STATUS_DETAIL = det) ∧ e.gstate g = d.gstate g ∧ e.srv = d.srv ∧
      e.tiles = d.tiles := by
  have hends := mbxEnd_ends (d.mbxBegun 0x0201 now) (st := 5) (by decide) hdet
  exact ⟨⟨hends.busy, hends.status, hends.detail⟩, (hends.gstate g).trans (gstate_congr (getR_group_mbxBegun d 0x0201 now g)),
    hends.srv.trans (mbxBegun_srv d 0x0201 now), hends.tiles.trans (mbxBegun_effect d 0x0201 now).tiles⟩

/-- Of a descriptor that keeps R296: its slot is one of the 16, and its first member is the lead. -/
theorem descOk_parts {d : Dev} {b : List Byte} {len : Nat} (h : d.descOk b len = true) :
    bLe b 5 1 < 16 ∧ (descMembers b).head? = some (bLe b 8 4) := by
  simp only [Dev.descOk, Bool.and_eq_true, decide_eq_true_eq, beq_iff_eq] at h
  obtain ⟨⟨⟨hnums, hhead⟩, -⟩, -⟩ := h
  exact ⟨by omega, hhead⟩

section
variable {s : State} (hready : s.dev.mbxReady) (hz : ∀ a, 3 ≤ a → a < 8 → s.dev.getN (HUB_MBX_P a) = 0) {b i : List Byte} {now : Nat}
  (hok : s.dev.descOk b (s.dev.getN (HUB_MBX_P 2)) = true) {g : Fin 4} (hg : g.val = bLe b 4 1)
include hready hz hok hg

/-- GROUP_START of a group that is STARTING, RUNNING or PAUSED. -/
theorem groupStart_busy (img : Option (List Byte)) (hst : s.dev.gstate g = 1 ∨ s.dev.gstate g = 2 ∨ s.dev.gstate g = 5) :
    exec (.groupStart now (some b) img) s = .next (s.put ((s.dev.mbxBegun 0x0201 now).mbxFail 0x33)) := by
  refine exec_groupStart_busy hready hz now hok hg img (if_pos ?_)
  rwa [gstate_congr (getR_group_mbxBegun s.dev 0x0201 now g)]

/-- GROUP_START of an IDLE group whose checks pass and whose slot may be bound. -/
theorem groupStart_starts (hst : s.dev.gstate g = 0) (hcheck : (s.dev.mbxBegun 0x0201 now).startCheck g b (some i) = none)
    (hbind : ((s.dev.mbxBegun 0x0201 now).tilesLoaded (startSecs b i)).bindOk (bLe b 5 1) (bLe b 0x2A 1) = true) : ∃ e : Dev,
      exec (.groupStart now (some b) (some i)) s = .next (s.put e) ∧ s.dev.startedOn e g b i ∧
      (bLe b 8 4 ≠ s.dev.self → e.gstate g = 1 ∧ e.isLead g = false ∧ e.mbxBusy = true ∧ (e.group g).startAt = max s.dev.now now ∧
        ∃ l, e.out = l ++ [.mgmt (bLe b 8 4) "JOIN" [g.val, s.dev.self, s.dev.groupEpoch g]]) ∧
      (descMembers b = [s.dev.self] → e.gstate g = 2 ∧ e.isLead g = true ∧ e.groupEpoch g = (s.dev.groupEpoch g + 1) % 65536 ∧
        e.mbxBusy = false ∧ e.getF HUB_MBX_STATUS_STATUS = 2 ∧ (e.group g).retryAt = some (max s.dev.now now) ∧
        ∀ n ∈ e.groupTiles g, e.getF (XPT_CTRL_EPOCH n) = (s.dev.groupEpoch g + 1) % 65536) := by
  obtain ⟨hslot, hhead⟩ := descOk_parts hok
  have hbegins := mbxBegun_effect s.dev 0x0201 now
  have hself := self_mbxBegun s.dev 0x0201 now
  have hgroup := getR_group_mbxBegun s.dev 0x0201 now g
  have hnumber : (s.dev.mbxBegun 0x0201 now).groupEpoch g = s.dev.groupEpoch g := getF_congr hgroup
  have hseed : ∀ n : Fin 32, (s.dev.mbxBegun 0x0201 now).getR (QNT_LFSR_SEED n) = s.dev.getR (QNT_LFSR_SEED n) := fun n =>
    hbegins.regs _ (by simp only [mbxRegs, QNT_LFSR_SEED, tileBase, HUB_MBX_CMD, HUB_MBX_STATUS]; omega)
  obtain ⟨x, hx, heq⟩ := startGroup_starts hslot ((gstate_congr hgroup).trans hst) hbind
  have hexec := exec_groupStart_starts hready hz now hok hg i hcheck
  rw [heq] at hexec
  have hkeep : x.keepsStart (if bLe b 8 4 = (s.dev.mbxBegun 0x0201 now).self then x.tryStart g
      else x.emit (.mgmt (bLe b 8 4) "JOIN" [g.val, (s.dev.mbxBegun 0x0201 now).self, (s.dev.mbxBegun 0x0201 now).groupEpoch g])) g := by
    split
    · exact keepsStart_tryStart x g
    · exact keepsStart_emit x _ g
  have hon := hx.startedOn hslot hkeep
  refine ⟨_, hexec, ⟨hon.cfg, hon.slot, fun v hv a f c r st hitems => ?_⟩, fun hne => ?_, fun hmem => ?_⟩
  · rw [← hseed v.1]
    exact hon.tiles v hv a f c r st hitems
  · rw [if_neg (by rw [hself]; exact hne), hself, hnumber]
    have hbusy : x.mbxBusy = true := by rw [Dev.mbxBusy, hx.mbx]; exact hbegins.busy
    refine ⟨(gstate_congr (getR_emit x _ _)).trans hx.gstate, ?_, ?_, ?_, ⟨x.out, out_emit x _⟩⟩
    · rw [isLead_emit, hx.lead, hself]
      simpa using hne
    · rw [Dev.mbxBusy, mbx_emit]
      exact hbusy
    · rw [group_emit, hx.startAt, hbegins.now]
  · have hlead : bLe b 8 4 = s.dev.self := by
      rw [hmem, List.head?_cons] at hhead
      exact (Option.some.inj hhead).symm
    have hruns := startsAs_alone hx (hlead.trans hself.symm) (by rw [hself]; exact hmem)
    have hleadx : x.isLead g = true := by
      rw [hx.lead, hself, hlead]
      simp
    rw [if_pos (by rw [hself]; exact hlead)]
    rw [hnumber] at hruns
    refine ⟨hruns.gstate, hruns.lead.trans hleadx, hruns.number, hruns.busy, hruns.status, ?_, hruns.tileEpoch⟩
    rw [hruns.retry, hleadx, if_pos rfl, hx.now, hbegins.now]

end

/-- Settles O58: the starts that fail, the start whose checks pass, then the JOINs and the join timeout. -/
theorem groupStart : Obligations.GroupStart := by
  unfold Obligations.GroupStart
  intro s g b i img now pkg epoch hf t failed d0 secs
  refine ⟨fun hidle hz => ?_, fun hst => join_held hf now hst, fun hst hlead hfollow hjoins => join_starts hf now hst hlead hfollow hjoins,
    fun hst => exec_join_late hf now hst, fun hst hlate => joinTimeout_fails hf now hst hlate, fun h => exec_joinTimeout_quiet hf now h⟩
  have hready := mbxReady_of_frozen hf hidle
  refine ⟨?_, fun hbad => ?_, fun hok hg => ⟨fun hst => ?_, fun hst hcheck hbind => ?_⟩⟩
  · obtain ⟨hfails, -, hrest⟩ := startBegun_fails s.dev g now (det := 0x57) (by decide)
    exact ⟨_, exec_groupStart_unread hready hz now img, hfails, hrest⟩
  · obtain ⟨hfails, -, hrest⟩ := startBegun_fails s.dev g now (det := 0x30) (by decide)
    exact ⟨_, exec_groupStart_bad hready hz now img hbad, hfails, hrest⟩
  · exact ⟨_, groupStart_busy hready hz hok hg img hst, startBegun_fails s.dev g now (det := 0x33) (by decide)⟩
  · obtain ⟨e, hexec, hon, hfollower, halone⟩ := groupStart_starts hready hz hok hg hst hcheck hbind
    exact ⟨e, hexec, hon.cfg, hon.slot, hon.tiles, hfollower, halone⟩

end Sys2Proof.Machine
end

section
/-! States that meet the hypotheses of the statements on the serving steps. -/

namespace Sys2Proof.Machine

open Reg

/-- A package after reset that leads group 0 alone, on tile 0, with completion queue 0 and submission queue 0 enabled. -/
def servingWitness (f : Group → Group) (seqs : List SeqEnt) : State :=
  let d := ((State.reset.dev.setN HUB_TILE_INSERVICE 1).setF (SRV_GROUP_STATE_STATE 0) 2).setF (SRV_GROUP_STATE_LEAD 0) 1
  let d := (d.setN (SRV_CQ_CFG 0) 0x80000003).setN (SRV_SQ_CFG 0) 0x80000003
  State.reset.put ((d.onGroup 0 fun x => f { x with
    cfg := some ⟨0, [0], 1, 0, 0, 0, 0, 0, [], Vector.replicate 32 0⟩ }).onSrv fun x => { x with seqs := seqs })

/-- A sequence in decode that took part in the step. -/
def decodingSeq : SeqEnt :=
  ⟨3, 3, 0, ⟨0, 0, 0, [], none⟩, 0, 4, 1, 5, 0, 0, false, false, none, false, some ⟨false, 1, 5, 0, 0, true⟩, none, false⟩

/-- A tail doorbell of queue 0 sets its tail. -/
theorem submissionQueues_tail : ∃ e : Dev, exec (.sqTailDoorbell 0 2) (servingWitness id []) = .next ((servingWitness id []).put e) ∧
    e.srv.sqTail[0] = 2 := by
  obtain ⟨-, htail, -⟩ := submissionQueues.1 (servingWitness id []) 0 2 0 [] 0 (by decide +kernel)
  exact ⟨_, htail (by decide +kernel) (by decide +kernel), by decide +kernel⟩

/-- The sequence's token 7 is delivered, and the sequence goes on. -/
theorem tokenDelivered_goes_on : ∃ (e : Dev) (c : Comp),
    exec (.stepBoundary 0 [] false [] [] [] 9) (servingWitness (fun x => { x with report := some ⟨0, [], [(1, 3, 7)]⟩ }) [decodingSeq]) =
      .next ((servingWitness (fun x => { x with report := some ⟨0, [], [(1, 3, 7)]⟩ }) [decodingSeq]).put e) ∧
    c.token = 7 ∧ c.final = false ∧ e.isPending 64 = true := by
  obtain ⟨e, c, o, he, -, -, -, -, htok, -, -, hpend, -, -, -, -, hgoes, -⟩ :=
    tokenDelivered (servingWitness (fun x => { x with report := some ⟨0, [], [(1, 3, 7)]⟩ }) [decodingSeq]) 0 decodingSeq ⟨0, [], [(1, 3, 7)]⟩ 7 9
      [] [] [] (by decide +kernel) (by decide +kernel) (by decide +kernel) (by decide +kernel) (by decide +kernel) rfl rfl rfl rfl rfl
      (by decide +kernel) rfl ⟨_, rfl, rfl⟩ rfl (by decide +kernel) (by decide +kernel) (by decide +kernel) (by decide +kernel) rfl (by decide +kernel)
  obtain ⟨hfinal, -⟩ := hgoes (by decide +kernel) (by decide +kernel)
  exact ⟨e, c, he, htok, hfinal, hpend⟩

/-- With nothing submitted, the boundary 100 µs later composes an order again. -/
theorem retriedBoundary_composes : ∃ e : Dev,
    exec (.boundaryRetry 0 false [] [] [] 100000) (servingWitness (fun x => { x with retryAt := some 0 }) []) =
      .next ((servingWitness (fun x => { x with retryAt := some 0 }) []).put e) ∧ (e.group 0).retryAt = some 100000 := by
  obtain ⟨hretry, -⟩ := retriedBoundary (servingWitness (fun x => { x with retryAt := some 0 }) []) 0 ⟨0, 0, 0, [], none⟩ 0 100000 [] [] []
    (by decide +kernel) (by decide +kernel)
  obtain ⟨-, hidle, -⟩ := hretry (by decide +kernel) (by decide +kernel) rfl rfl rfl rfl
  obtain ⟨e, o, he, -, -, -, hagain, -⟩ := hidle (by decide +kernel) rfl
  exact ⟨e, he, hagain.trans (by decide +kernel)⟩

/-- A JOIN that reaches a package before its own GROUP_START is held. -/
theorem groupStart_join_early : ∃ e : Dev, exec (.join 0 5 7 0) State.reset = .next (State.reset.put e) ∧ (5, 7) ∈ (e.group 0).joins := by
  obtain ⟨-, hjoin, -⟩ := groupStart State.reset 0 [] [] none 0 5 7 (by decide +kernel)
  obtain ⟨e, he, hmem, -⟩ := hjoin (by decide +kernel)
  exact ⟨e, he, hmem⟩

theorem mbxParams_reset : ∀ a < 8, State.reset.dev.getN (HUB_MBX_P a) = 0 := by decide +kernel

/-- GROUP_START whose descriptor the host does not return. -/
theorem groupStart_unread : ∃ e : Dev, exec (.groupStart 0 none none) State.reset = .next (State.reset.put e) ∧
    e.getF HUB_MBX_STATUS_DETAIL = 0x57 := by
  obtain ⟨hstart, -⟩ := groupStart State.reset 0 [] [] none 0 5 7 (by decide +kernel)
  obtain ⟨⟨e, he, ⟨-, -, hdetail⟩, -⟩, -⟩ := hstart (by decide +kernel) fun a _ ha => mbxParams_reset a ha
  exact ⟨e, he, hdetail⟩

/-- A group that its lead's stop order has stopped. -/
def stoppedWitness : State := State.reset.put (State.reset.dev.setF (SRV_GROUP_STATE_STATE 0) 3)

/-- GROUP_STOP of a STOPPED group makes it IDLE. -/
theorem groupStop_stopped : ∃ e : Dev, exec (.groupStop 0) stoppedWitness = .next (stoppedWitness.put e) ∧ e.gstate 0 = 0 ∧
    e.getF HUB_MBX_STATUS_STATUS = 2 := by
  have hparam : ∀ a, 1 ≤ a → a < 8 → stoppedWitness.dev.getN (HUB_MBX_P a) = 0 := fun a _ ha =>
    (getN_congr (getR_setF_ne State.reset.dev 3 (by simp only [HUB_MBX_P, SRV_GROUP_STATE]; omega))).trans (mbxParams_reset a ha)
  obtain ⟨hstop, -⟩ := groupStop stoppedWitness 0 0 false false (by decide +kernel)
  obtain ⟨-, hidle, -⟩ := hstop (by decide +kernel) (by decide +kernel) hparam
  obtain ⟨e, he, ⟨-, hstatus, -⟩, hstate, -⟩ := hidle (.inl (by decide +kernel))
  exact ⟨e, he, hstate, hstatus⟩

end Sys2Proof.Machine
end
